-- ==== Sys2Proof/Word.lean ====
section
/-! DEFINITION. The words of the model: what the manual treats as bits, and the sparse tables in which like
things are kept by number. -/

namespace Sys2Proof

/-- One byte. -/
abbrev Byte := BitVec 8
/-- A 32-bit word: a D word, an accumulator, a register (00_scope, Table 0.3). -/
abbrev Word := BitVec 32
/-- A sparse table: entries by rising number, none equal to what an unlisted number reads as. -/
abbrev Tbl (α : Type) := List (Nat × α)
/-- An addressed memory: (address, byte) pairs by rising address, none equal to what an unlisted address reads as. -/
abbrev Memory := Tbl Byte

end Sys2Proof
end

