-- ==== Sys2Proof/Syntax.lean ====
section
/-! DEFINITION. The commands that the block takes, one constructor for each row of the table of operations and events, and
the values that they carry from outside. -/

namespace Sys2Proof

/-- Which pipe executes a program word: a live pipe, or pipe 3 on the trial (R15, R176). -/
inductive Who where
  | pipe (k : Fin 4)
  | trial
deriving DecidableEq, Repr

/-- The preset operand that follows a timer or counter instruction (R141). -/
structure Preset where
  imm : Bool
  x : BitVec 24
  lit : Option Byte
deriving DecidableEq, Repr
/-- A sweep at a block: this unit's own sweep in flight, or one that the other unit sent, with the slot it carries;
`good` says that the frame's crc checks there (R245). -/
inductive SweepSrc where
  | own (hdr good : Bool)
  | other (hdr good free : Bool) (tickLo slot : BitVec 16)
deriving DecidableEq, Repr

/-- An urgent frame at a block: this unit's oldest frame in flight, or the other unit's (R250). -/
inductive UrgentSrc where
  | own (good : Bool)
  | other (good : Bool) (mask val : Byte)
deriving DecidableEq, Repr

/-- A KLP session as a copy carries it (Table 14.7). -/
structure SessEnt where
  lane : Nat
  isOpen : Bool
  auth : Bool
  v6 : Bool
  num : Nat
  addr : Nat
  port : Nat
  txNext : Nat
  rxNext : Nat
  map : Nat
  key : Nat
  nonce : Nat
deriving DecidableEq, Repr

/-- What a short frame of the felt link carries beside its payload: its type byte, the sender's tick number and its CRC-32
(Table 9.2). -/
structure FeltWire where
  ftype : Byte
  tick : BitVec 48
  crc : Word
deriving DecidableEq, Repr

/-- A copy of a couched sheet over the felt link: marks, couch and base ticks, the pages it carries with I and Q by the
addresses of R485, the KLP section and the pair section (R195 to R197). -/
structure Copy where
  full : Bool
  handover : Bool
  swap : Option Nat
  dorm : Bool
  moved : Bool
  tick : Nat
  base : Nat
  pages : List Nat
  mem : Memory
  klp : Option (List SessEnt)
  pair : Option (List Byte)
deriving DecidableEq, Repr

/-- A KLP datagram as it comes in: the uplink, the addresses and the source port that its packet gives it, an IPv4 address in
the low 32 bits, and its UDP payload (R312). -/
structure KlpDgram where
  uplink : Fin 2
  v6 : Bool
  dst : BitVec 128
  addr : BitVec 128
  sport : BitVec 16
  udp : List Byte
deriving DecidableEq, Repr

/-- A frame received on an uplink: what its FCS says, its length, VLAN and destination, whether it uses only the
supported features of Table 14.1, and the KLP datagram that it carries, perhaps as one of two fragments with this key;
a frame with no such datagram is traffic for the management core. -/
structure EthFrame where
  uplink : Fin 2
  fcsOk : Bool
  len : Nat
  vid : BitVec 12
  dmac : BitVec 48
  supported : Bool
  frag : Option Nat
  klp : Option KlpDgram
  data : List Byte
deriving DecidableEq, Repr

/-- An SNTP reply: its header fields, whether it echoes the request's transmit timestamp, and the four timestamps in units
of 2^-32 s (R430). -/
structure Sntp where
  mode : BitVec 3
  version : BitVec 3
  stratum : Byte
  leap : BitVec 2
  echo : Bool
  t1 : BitVec 64
  t2 : BitVec 64
  t3 : BitVec 64
  t4 : BitVec 64
deriving DecidableEq, Repr

/-- A record instant at the island: the raw values of LC0 to LC3, which of these channels are in fault, and the island
temperature in °C (R358, R359). -/
structure Instant where
  raw0 : BitVec 31
  raw1 : BitVec 31
  raw2 : BitVec 31
  raw3 : BitVec 31
  faults : BitVec 4
  temp : BitVec 16
deriving DecidableEq, Repr

/-- One part of the negotiation data (Table 9.3): identity, the two digests, serial numbers of positions 0 to 7 and 8 to
15 in home numbering. -/
inductive NegoPart where
  | identity (version : Byte) (home : Bool) (mode blocks : Byte) (foreign : Bool)
  | cfg (digest : BitVec 256)
  | prog (digest : BitVec 256)
  | low (serials : List Word)
  | high (serials : List Word)
deriving DecidableEq, Repr

/-- What tail threading finds that the state does not hold: the self-test that fails (0 none, Table 4.6), whether more
than 16 blocks reply, the mean raw counts of key channels 0 to 15 and the guard, the round-trip times of the probe
frames by FB number in ns, whether the backup cell is low, and the junction temperature at the fuse read, °C. -/
structure Thr where
  failTest : Fin 7
  beyond : Bool
  means : List (BitVec 16)
  probes : List (BitVec 16)
  vbakLow : Bool
  temp : BitVec 16 := 25
deriving DecidableEq, Repr

/-- The header of a received HMP datagram (Table 18.3) and where it came in: uplink, destination address and port (R398). -/
structure HHead where
  e1 : Bool := false
  v6 : Bool := false
  dst : BitVec 128
  port : BitVec 16
  magic : BitVec 16
  version : Byte
  kind : Byte
  session : Word
  counter : BitVec 64
  length : BitVec 16
  zero : BitVec 16
deriving DecidableEq, Repr

/-- What a received HMP request carries around its op and arguments (R398, R400, R402): the header, whether it came on the bulk
connection, req_id, flags, the zero bytes among its arguments, bytes that follow them, and the tag or trailer. A sealed body is
given as what its ciphertext opens to. `flashOk` is whether the flash operation that it asks for succeeds (R110). -/
structure HReq where
  hd : HHead
  bulk : Bool
  reqId : Word
  flags : BitVec 16
  zeros : BitVec 24 := 0
  more : List Byte := []
  tail : List Byte
  flashOk : Bool := true
deriving DecidableEq, Repr

/-- What a scan of the chain shifts into the island TAP that follows the core TAP: its instruction and its 96 cells (R468). -/
structure IslScan where
  ir : BitVec 5 := 0x1F
  cells : BitVec 96 := 0
deriving DecidableEq, Repr

/-- A scan through the boundary registers: the core's 712 cells and the island TAP's part (R467, R468). -/
structure CellScan where
  cells : BitVec 712
  isl : IslScan := {}
deriving DecidableEq, Repr

/-- A scan that selects the core TAP's bypass: the code shifted in and the island TAP's part (R466, R468). -/
structure BypassScan where
  code : BitVec 5
  isl : IslScan := {}
deriving DecidableEq, Repr

/-- The pins that a power-on reset samples: UNIT_ID, the E0 straps and TEST_EN (R498, R505). -/
structure Straps where
  unitId : Bool
  e0 : BitVec 2
  testEn : Bool := false
deriving DecidableEq, Repr

/-- A low of POWERFAIL_N: how long it lasts, in ns, and how many row sets the save writes before it is cut short, if it is
(R437, R508). -/
structure PowerLow where
  ns : Nat
  rows : Option Nat := none
deriving DecidableEq, Repr

/-- What a block's enumeration reply says of its part: code and stepping (R6). -/
structure PartId where
  part : BitVec 16
  stepping : Byte
deriving DecidableEq, Repr

/-- A frame on the field link as it arrives: its type and whether its CRC is good (R243). -/
structure FieldFrame where
  ft : Byte
  good : Bool
deriving DecidableEq, Repr

/-- A management frame on its way: whether its CRC is good at the target, and the E-clock in which it begins (R251, R252). -/
structure MgmtFrame where
  good : Bool
  e : Nat
deriving DecidableEq, Repr

/-- A silence on a lane port: the engine and the bit times without a byte (R270). -/
structure PortGap where
  port : Fin 56
  quiet : BitVec 17
deriving DecidableEq, Repr

/-- The body of a HELLO: the client's nonce and the key identity (R399). -/
structure HelloBody where
  client : BitVec 128
  keyId : Word
deriving DecidableEq, Repr

/-- A command: a row of the table with its operands. -/
inductive Instr where
  /-- POWER_ON_RESET (R64): Core supplies become good, or the first power arrives, so power-good is asserted and the unit leaves BACKUP or power-off and begins tail threading. -/
  | powerOnReset (pins : Straps) (banks : List (BitVec 12)) (t : Thr)
  /-- THREADING_COMPLETE (R73): Threading finishes, EVT-0305 reports RST_CAUSE, and the unit takes its Table 3.4 transition at the next tick boundary or acknowledged copy. -/
  | threadingComplete
  /-- RESET_N (R64): RESET_N is held low for at least 1 µs and the unit enters THREAD. -/
  | resetN (ns : Nat) (t : Thr)
  /-- VDD_IO_FAIL (R427): VDD_IO falls below its threshold, the backup domain switches to VBAK, and the unit enters BACKUP. -/
  | vddIoFail
  /-- POWERFAIL_N_FALL (R437): POWERFAIL_N falls and the filtered warning starts the final save of dirty row sets, counters and events. -/
  | powerfailNFall (low : PowerLow)
  /-- TICK_BOUNDARY (R43): At each tick boundary the tick number increments, any due couch takes place, and the sweep leaves. -/
  | tickBoundary (raws : List (BitVec 16)) (partnerOk lpownIn : Bool)
  /-- CYCLE_COMPLETE (R169): Every strand has verified its last network and no task run is pending, which under couch on completion leads to a couch. -/
  | cycleComplete (e : Nat)
  /-- SAMPLE_POINT (R165): The input image is latched, in-progress networks are abandoned, and each strand is verified network by network. -/
  | samplePoint
  /-- TICK_TASK_DISPATCH (R42): At T − 7 µs the tick task is dispatched on pipe 0. -/
  | tickTaskDispatch
  /-- EVENT_TASK_DISPATCH (R124): A pending event task trigger dispatches its task on pipe 0 with registers set by kind, preempting lower priorities. -/
  | eventTaskDispatch
  /-- LD (R143): Load a bit, its inverse or an edge into LA. -/
  | ld (w : Who) (md : BitVec 2) (x : BitVec 24)
  /-- LDP (R143): Push LA and load a bit into LA. -/
  | ldp (w : Who) (md : BitVec 2) (x : BitVec 24)
  /-- AND (R143): AND a bit into LA. -/
  | and (w : Who) (md : BitVec 2) (x : BitVec 24)
  /-- OR (R143): OR a bit into LA. -/
  | or (w : Who) (md : BitVec 2) (x : BitVec 24)
  /-- XOR (R143): XOR a bit into LA. -/
  | xor (w : Who) (md : BitVec 2) (x : BitVec 24)
  /-- ANDP (R143): Pop the stack and AND the popped bit with LA. -/
  | andp (w : Who)
  /-- ORP (R143): Pop the stack and OR the popped bit with LA. -/
  | orp (w : Who)
  /-- NOTL (R143): Invert LA. -/
  | notl (w : Who)
  /-- OUT (R143): Write LA′ to a bit. -/
  | out (w : Who) (md : BitVec 2) (x : BitVec 24)
  /-- SET (R143): Set a bit when LA′ is 1. -/
  | set (w : Who) (md : BitVec 2) (x : BitVec 24)
  /-- RST (R143): Clear a bit when LA′ is 1. -/
  | rst (w : Who) (md : BitVec 2) (x : BitVec 24)
  /-- PEDG (R143): Detect a rising edge of LA against a marker bit. -/
  | pedg (w : Who) (x : BitVec 24)
  /-- NEDG (R143): Detect a falling edge of LA against a marker bit. -/
  | nedg (w : Who) (x : BitVec 24)
  /-- TON (R144): Evaluate an on-delay timer against the sample tick. -/
  | ton (w : Who) (md : BitVec 2) (x : BitVec 24) (p : Preset)
  /-- TOF (R144): Evaluate an off-delay timer against the sample tick. -/
  | tof (w : Who) (md : BitVec 2) (x : BitVec 24) (p : Preset)
  /-- TP (R144): Evaluate a pulse timer against the sample tick. -/
  | tp (w : Who) (md : BitVec 2) (x : BitVec 24) (p : Preset)
  /-- CTU (R145): Count up on a rising input edge, saturating. -/
  | ctu (w : Who) (md : BitVec 2) (x : BitVec 24) (p : Preset)
  /-- CTD (R145): Count down on a rising input edge, saturating. -/
  | ctd (w : Who) (md : BitVec 2) (x : BitVec 24) (p : Preset)
  /-- CRST (R145): Reset a counter when its input is 1. -/
  | crst (w : Who) (md : BitVec 2) (x : BitVec 24)
  /-- PRE (R141): Supply the preset operand of the preceding timer or counter. -/
  | pre (w : Who) (md : BitVec 2) (x : BitVec 24)
  /-- LDA (R146): Load A. -/
  | lda (w : Who) (md : BitVec 2) (x : BitVec 24)
  /-- LDB (R146): Load B. -/
  | ldb (w : Who) (md : BitVec 2) (x : BitVec 24)
  /-- STA (R146): Store A to memory. -/
  | sta (w : Who) (x : BitVec 24)
  /-- MOVC (R146): Store A when LA is 1. -/
  | movc (w : Who) (x : BitVec 24)
  /-- XAB (R146): Swap A and B. -/
  | xab (w : Who)
  /-- ADD (R146): Add the operand to A. -/
  | add (w : Who) (md : BitVec 2) (x : BitVec 24)
  /-- SUB (R146): Subtract the operand from A. -/
  | sub (w : Who) (md : BitVec 2) (x : BitVec 24)
  /-- MUL (R146): Place the signed 64-bit product of A and the operand in B:A. -/
  | mul (w : Who) (md : BitVec 2) (x : BitVec 24)
  /-- DIV (R147): Signed divide A by the operand, with the division-by-zero and overflow cases handled. -/
  | div (w : Who) (md : BitVec 2) (x : BitVec 24)
  /-- ANDW (R146): AND the operand into A. -/
  | andw (w : Who) (md : BitVec 2) (x : BitVec 24)
  /-- ORW (R146): OR the operand into A. -/
  | orw (w : Who) (md : BitVec 2) (x : BitVec 24)
  /-- XORW (R146): XOR the operand into A. -/
  | xorw (w : Who) (md : BitVec 2) (x : BitVec 24)
  /-- SHL (R146): Shift A left. -/
  | shl (w : Who) (md : BitVec 2) (x : BitVec 24)
  /-- SHR (R146): Shift A right with zero fill. -/
  | shr (w : Who) (md : BitVec 2) (x : BitVec 24)
  /-- CEQ (R146): Compare A for equality and AND the result into LA. -/
  | ceq (w : Who) (md : BitVec 2) (x : BitVec 24)
  /-- CGT (R146): Signed greater-than compare of A, ANDed into LA. -/
  | cgt (w : Who) (md : BitVec 2) (x : BitVec 24)
  /-- CLT (R146): Signed less-than compare of A, ANDed into LA. -/
  | clt (w : Who) (md : BitVec 2) (x : BitVec 24)
  /-- CGTU (R146): Unsigned greater-than compare of A, ANDed into LA. -/
  | cgtu (w : Who) (md : BitVec 2) (x : BitVec 24)
  /-- CLTU (R146): Unsigned less-than compare of A, ANDed into LA. -/
  | cltu (w : Who) (md : BitVec 2) (x : BitVec 24)
  /-- JMP (R148): Jump forward within the network. -/
  | jmp (w : Who) (x : BitVec 24)
  /-- JC (R148): Jump forward when LA′ is 1. -/
  | jc (w : Who) (md : BitVec 2) (x : BitVec 24)
  /-- LNXT (R148): Advance L and jump back while L is below the last lane. -/
  | lnxt (w : Who) (x : BitVec 24)
  /-- SETL (R148): Set L from an immediate or from A[2:0]. -/
  | setl (w : Who) (x : BitVec 24)
  /-- NET (R150): Open a network, clearing LA and the stack, and A and B in strands. -/
  | net (w : Who) (x : BitVec 24)
  /-- LOCK (R131): Open an interlock block, holding off task dispatch on pipe 0. -/
  | lock (w : Who)
  /-- ULK (R131): Close an interlock block. -/
  | ulk (w : Who)
  /-- LIT (R140): Supply the high byte of the next immediate. -/
  | lit (w : Who) (x : BitVec 24)
  /-- QIMM (R151): Write an output bit and hand it to the field-link controller for an urgent frame. -/
  | qimm (w : Who) (md : BitVec 2) (x : BitVec 24)
  /-- LEV (R130): Read lane-event word k of lane L without consuming it. -/
  | lev (w : Who) (x : BitVec 24)
  /-- LEVC (R130): Read lane-event word k of lane L and mark its entry taken. -/
  | levc (w : Who) (x : BitVec 24)
  /-- LCW (R130): Write A to lane-command word k of lane L. -/
  | lcw (w : Who) (x : BitVec 24)
  /-- LCB (R130): Write LA′ to lane-command bit j of lane L. -/
  | lcb (w : Who) (md : BitVec 2) (x : BitVec 24)
  /-- OUTR (R133): Write one bit at the same offset in every lane of a ream. -/
  | outr (w : Who) (md : BitVec 2) (x : BitVec 24)
  /-- MOVR (R133): Write A at the same offset in every lane of a ream. -/
  | movr (w : Who) (x : BitVec 24)
  /-- MSG (R153): Offer a message from D memory to port K for a flow queue. -/
  | msg (w : Who) (x : BitVec 24)
  /-- FEN (R154): Fence the network, with no other effect. -/
  | fen (w : Who)
  /-- RFL (R129): Request a retained-store flush when LA is 1. -/
  | rfl (w : Who)
  /-- MODE_REQUEST (R59): An edit ring entry of kind 0x01 requests a mode transition, subject to its guard. -/
  | modeRequest (auth : Bool) (arg : Word)
  /-- EDIT_STAGED (R174): An edit ring entry of kind 0x02 checks the staged edit and puts the trial state in staged. -/
  | editStaged (auth : Bool) (arg stageOff : Word)
  /-- TRIAL_START (R175): An edit ring entry of kind 0x03 starts the trial from a copy of the couched sheet. -/
  | trialStart (auth : Bool) (arg : Word)
  /-- TRIAL_COMMIT (R181): An authenticated kind 0x04 entry arms the commit or swaps, according to the trial state. -/
  | trialCommit (auth : Bool) (arg : Word)
  /-- TRIAL_DISCARD (R181): A kind 0x05 entry discards the edit and returns the trial to idle. -/
  | trialDiscard (auth : Bool) (arg : Word)
  /-- ACCEPT_ANYWAY (R181): An authenticated kind 0x06 entry swaps a failed trial after K comparisons when the pair guard holds. -/
  | acceptAnyway (auth : Bool) (arg : Word)
  /-- RETAINED_STORE_FLUSH (R436): A requested flush writes every dirty row set at the next couch, or at the next boundary in HOLD and DORMANT. -/
  | retainedStoreFlush
  /-- LANE_PWR_WRITE (R66): A write to LANE_PWR turns lane domains on or into closing at the next tick boundary. -/
  | lanePwrWrite (v : Byte)
  /-- LANE_DOMAIN_ON (R66): A powering lane domain reaches on, and its ports start from reset. -/
  | laneDomainOn (n : Fin 8)
  /-- CLOSE_FLUSH (R300): At drain_ticks, or when empty, a closing domain's cells are freed and the domain goes off. -/
  | closeFlush (n : Fin 8)
  /-- DORMANT_ENTRY (R68): Once every lane domain is off and the flush is complete, the unit enters DORMANT at that boundary. -/
  | dormantEntry
  /-- WAKE (R71): An enabled wake source returns a DORMANT unit through the lane domains to HOLD or ACTIVE. -/
  | wake (k : Fin 5)
  /-- WD_S_EXPIRY (R449): WD-S expires, the planes are held, the count is written, and WDX_N pulses. -/
  | wdSExpiry (e : Nat)
  /-- WD_C_EXPIRY (R449): WD-C expires, the planes are held, the count is written, and WDX_N pulses. -/
  | wdCExpiry (e : Nat)
  /-- WDX_PULSE_END (R449): At the end of the WDX_N pulse the hold is released and the unit enters THREAD. -/
  | wdxPulseEnd (t : Thr)
  /-- WAKE_POINT (R451): At 7/8 of the DORMANT WD-S period, WD-S wakes the management core to service it. -/
  | wakePoint (decides : Bool) (e : Nat)
  /-- WD_M_EXPIRY (R454): WD-M expires, invalid frames are sent on the LD ports, and the island resets. -/
  | wdMExpiry
  /-- WDS_SVC_WRITE (R443): A write to WDS_SVC services WD-S, or counts bad_svc when the value is wrong. -/
  | wdsSvcWrite (v : Word) (e : Nat)
  /-- WD_PERIOD_WRITE (R446): A write to WDS_PER or WDC_PER inside the open window sets the period and services, and is refused outside it. -/
  | wdPeriodWrite (c : Bool) (v : Word) (outside : Bool) (e : Nat)
  /-- WD_KEY_WRITE (R447): A key write advances the disable sequence, which the lock refuses. -/
  | wdKeyWrite (c : Bool) (v : Word) (e : Nat)
  /-- WD_LOCK_WRITE (R448): Writing 1 to lock locks the watchdog, enabling it if it was disabled. -/
  | wdLockWrite (c v : Bool) (e : Nat)
  /-- WD_ENABLE_WRITE (R447): Writing 1 to en enables and services a disabled watchdog. -/
  | wdEnableWrite (c v : Bool) (e : Nat)
  /-- PARTNER_OK_LOW (R450): A PARTNER_OK low of at least 1 µs is captured for the takeover test of R207. -/
  | partnerOkLow (ns : Nat)
  /-- FUSE_REREAD (R90): Hourly, or after a temperature change of 30 K, the fuses are re-read and changes are applied only toward the conservative side. -/
  | fuseReread (temp : BitVec 16)
  /-- SWEEP_AT_BLOCK (R245): A block latches its inputs into the sweep, acts on its output slot, claim and release, and writes the masks and urgent entry. -/
  | sweepAtBlock (fb : Fin 16) (src : SweepSrc)
  /-- CARRIER_AT_BLOCK (R248): A block writes its queue head into its own place of a carrier that arrives from its owner port. -/
  | carrierAtBlock (fb : Fin 16) (own good : Bool)
  /-- URGENT_FRAME_AT_BLOCK (R250): The target block applies the masked output bits and marks the frame applied. -/
  | urgentFrameAtBlock (fb : Fin 16) (src : UrgentSrc)
  /-- ENUMERATION_FRAME (R252): A block writes its reply and stores its position from the hop count. -/
  | enumerationFrame (fb : Fin 16) (port : Fin 2) (hop : Nat) (good : Bool)
  /-- PROBE_FRAME (R252): The target block turns the probe round for the round-trip measurement. -/
  | probeFrame (fb : Fin 16) (port : Fin 2) (good : Bool) (roundNs : Nat)
  /-- REGISTER_READ_FRAME (R252): The target block returns the block register named by the offset. -/
  | registerReadFrame (fb : Fin 16) (port : Fin 2) (off : Byte) (f : MgmtFrame)
  /-- REGISTER_WRITE_FRAME (R230): The target block clears OUT_DIAG latches when the frame comes from its owner port. -/
  | registerWriteFrame (fb : Fin 16) (port : Fin 2) (off : Byte) (data : Word) (f : MgmtFrame)
  /-- SETUP_FRAME (R252): A block stores align_ns and takes the tick_sel, hold value and settings unless another port owns it. -/
  | setupFrame (fb : Fin 16) (port : Fin 2) (align : BitVec 16) (sel hold : Byte) (set : List Byte) (good : Bool)
  /-- REAM_WRITE_FRAME (R256): Owned member blocks hold the write and apply it at their next local boundary. -/
  | reamWriteFrame (fb : Fin 16) (port : Fin 2) (mask : BitVec 16) (off : Byte) (data : Word) (f : MgmtFrame)
  /-- LOCAL_BOUNDARY (R253): A block's local tick counter wraps and closes the tick, counting a missed owner sweep if there was one. -/
  | localBoundary (fb : Fin 16)
  /-- SAFE_VALUES_APPLIED (R234): 30 µs after missed reaches H, a block with no accepted claim applies its safe values. -/
  | safeValuesApplied (fb : Fin 16)
  /-- BRIDGED_SAMPLE (R218): The field island samples the bridged inputs on the 5 µs grid. -/
  | bridgedSample (fb : Fin 16) (levels : Byte) (stamp : BitVec 17)
  /-- INPUT_ACCEPTED (R220): An input level that has held for the filter time is accepted, timestamped and queued as an event entry. -/
  | inputAccepted (fb : Fin 16) (ch : Fin 16) (level : Bool) (heldNs : Nat) (stamp : BitVec 17)
  /-- DIRECT_SUPPLY_FAIL (R217): A direct channel's micro-supply fails or recovers, and its input bit and fault bits change. -/
  | directSupplyFail (fb : Fin 16) (ch : Fin 8) (fails level : Bool)
  /-- VF_LOW (R232): VF falls below threshold, so every output switches off and vf_ok reads 0. -/
  | vfLow (fb : Fin 16)
  /-- VF_GOOD (R232): VF rises above 18.0 V and the outputs take their commands. -/
  | vfGood (fb : Fin 16)
  /-- COMMAND_TIMEOUT (R231): After 50 µs without a command frame from the logic side, the field island switches every output off. -/
  | commandTimeout (fb : Fin 16)
  /-- VL_FAIL (R231): Logic power fails and every output switches off. -/
  | vlFail (fb : Fin 16)
  /-- BLOCK_POWER_UP (R233): A block powers up UNOWNED with its outputs off. -/
  | blockPowerUp (fb : Fin 16) (serial : BitVec 32) (id : PartId) (vf : Bool)
  /-- THERMAL_SHUTDOWN (R227): A channel reaches its shutdown temperature, switches off and latches. -/
  | thermalShutdown (fb : Fin 16) (j : Fin 8)
  /-- THERMAL_RECOVERY (R227): A channel that has cooled by 15 K switches on again if it is still commanded on. -/
  | thermalRecovery (fb : Fin 16) (j : Fin 8)
  /-- OPEN_LOAD_ON (R229): A low on-state load current for 4 ms sets the ol_on latch. -/
  | openLoadOn (fb : Fin 16) (j : Fin 8)
  /-- OPEN_LOAD_OFF (R229): An off-state voltage above threshold for 4 ms sets the ol_off latch. -/
  | openLoadOff (fb : Fin 16) (j : Fin 8)
  /-- TURN_ROUND (R241): A block whose away side has been silent for 10 µs turns outbound frames round. -/
  | turnRound (fb : Fin 16) (port : Fin 2)
  /-- SWEEP_RETURN (R246): A good returned sweep supplies the input slots, the urgent entry and the masks. -/
  | sweepReturn (f : FieldFrame) (rttNs : BitVec 16)
  /-- SWEEP_LOST (R257): A sweep not returned by rtt_ns + 2.0 µs is lost, and loss_limit leads to HOLD/F. -/
  | sweepLost
  /-- CARRIER_DEPARTURE (R40): Event carrier k leaves at 40 µs + 25 µs × k. -/
  | carrierDeparture (k : Fin 38)
  /-- CARRIER_RETURN (R249): A returned carrier's entries trigger the kind-1 event tasks in position order. -/
  | carrierReturn (f : FieldFrame)
  /-- URGENT_FRAME_SEND (R251): A pending urgent frame leaves when it can end before the next departure. -/
  | urgentFrameSend (e : Nat)
  /-- URGENT_FRAME_RETURN (R250): A returned urgent frame that is unmarked or bad is counted. -/
  | urgentFrameReturn (f : FieldFrame)
  /-- FELT_LINK_TRAINED (R190): Both lanes are in sync and deskewed and a short frame has arrived, so the link is trained. -/
  | feltLinkTrained
  /-- FELT_SYNC_LOSS (R190): Three invalid code groups within 64 lose lane sync and the link retrains. -/
  | feltSyncLoss (lane : Fin 2)
  /-- HEARTBEAT (R194): A partner heartbeat arrives, resetting silence and carrying mode, flags and any return request. -/
  | heartbeat (mode flags : Byte) (consistent : BitVec 48) (gapRun : Byte) (arrive : BitVec 20) (w : FeltWire)
  /-- HEARTBEAT_MISSED (R194): No heartbeat arrives by the boundary plus the delay plus 1.0 µs, and silence increments. -/
  | heartbeatMissed
  /-- ACKNOWLEDGE (R199): An acknowledge that arrives in time moves the base of the dirty map. -/
  | acknowledge (couch : BitVec 48) (w : FeltWire)
  /-- FULL_REQUEST (R203): A full request makes the next copy a full copy. -/
  | fullRequest (w : FeltWire)
  /-- RELEASE_REPORT (R87): The partner reports the blocks it released, letting a unit that becomes ACTIVE complete threading. -/
  | releaseReport (count : Byte) (w : FeltWire)
  /-- EDIT_REPORT (R185): The standby reports its staged edit_id and code digest for the pair guard. -/
  | editReport (id : Word) (digest : BitVec 256) (w : FeltWire)
  /-- WAKE_FRAME (R72): A wake signalled over the felt link wakes the partner. -/
  | wakeFrame (causes : Byte) (w : FeltWire)
  /-- NEGOTIATION_FRAME (R86): One part of the negotiation data arrives from the partner. -/
  | negotiationFrame (p : NegoPart) (w : FeltWire)
  /-- PROBE (R191): The active unit echoes a standby probe with its turnaround time. -/
  | probe (id : Word) (w : FeltWire)
  /-- ECHO (R191): The standby derives the one-way delay from an echo. -/
  | echo (id turn : Word) (roundE : BitVec 32) (w : FeltWire)
  /-- COPY_RECEIVED (R201): The standby applies a whole, consistent copy, acknowledges it and updates readiness, or discards it as a gap. -/
  | copyReceived (a b : Option (List Byte)) (bubble : Bool)
  /-- FRAME_RECEIVED (R272): A complete peripheral frame is unescaped, checked, matched and extracted, and its actions are taken. -/
  | frameReceived (e : Fin 56) (raw : List Byte)
  /-- GAP_EXPIRY (R270): The end gap expires with no byte begun, which ends a gap-framed frame. -/
  | gapExpiry (g : PortGap)
  /-- IBTO_EXPIRY (R271): The inter-byte timeout expires and the frame in progress is discarded. -/
  | ibtoExpiry (e : Fin 56)
  /-- ACK_RECEIVED (R276): An ACK string received in time completes the awaited frame. -/
  | ackReceived (e : Fin 56)
  /-- NAK_RECEIVED (R276): A NAK string resends the awaited frame, up to retries times. -/
  | nakReceived (e : Fin 56)
  /-- REPLY_DEADLINE (R276): The reply deadline passes, and the frame is resent or dropped as a failure. -/
  | replyDeadline (e : Fin 56)
  /-- POLL (R277): In a tick that the poll phase selects, the poll frame is sent unless a reply is pending. -/
  | poll (e : Fin 56) (status : Byte)
  /-- USB_ATTACH (R263): A USB function attaches and is bound to an engine. -/
  | usbAttach (h : Fin 8) (cls : BitVec 16) (vidpid : BitVec 32) (addr : BitVec 8) (speed : BitVec 2)
      (secondTier : Bool)
  /-- USB_DETACH (R263): A USB function detaches. -/
  | usbDetach (e : Fin 56)
  /-- USB_OVERCURRENT (R516): Hn_OC_N low for 1 ms sets fault and drops VBUS_EN. -/
  | usbOvercurrent (h : Fin 8)
  /-- CAN_BUS_OFF (R265): A CAN port goes bus-off and sets fault until recovery. -/
  | canBusOff (c : Fin 4)
  /-- PACKET_ACCEPTED (R287): A completed ingress packet passes source, policer, closing and space checks and joins its queue. -/
  | packetAccepted (slot : Fin 57) (q : BitVec 11) (bytes : Nat) (dei : Bool) (data : List Byte)
  /-- INGRESS_NO_BUFFER (R288): An ingress engine that would take free cells below the reserve discards its packet. -/
  | ingressNoBuffer (slot : Fin 57)
  /-- SELECTION_COMPLETE (R297): A port's choice of the next packet completes and advances tags and credits, saving a copy. -/
  | selectionComplete (p : Fin 57)
  /-- COMMIT (R297): A port able to start commits its chosen packet, moving its cells to egress. -/
  | commit (p : Fin 57)
  /-- PACKET_CANCEL (R299): A cancel withdraws its packet before commit, or reports late. -/
  | packetCancel (q : BitVec 11) (session : BitVec 16) (seq : BitVec 32)
  /-- MIRROR_WRITE (R304): A scheduler or policer mirror write is checked and staged to land at the next boundary. -/
  | mirrorWrite (a mask v : Word)
  /-- ETH_FRAME (R307): A received uplink frame is checked and delivered to the KLP engine or port G. -/
  | ethFrame (f : EthFrame)
  /-- REASSEMBLY_TIMEOUT (R307): A fragment reassembly not complete within 4 ticks is discarded. -/
  | reassemblyTimeout (key : Nat)
  /-- OPEN (R314): A host OPEN opens or replaces a lane session, or is refused with CLOSE. -/
  | klpOpen (d : KlpDgram)
  /-- KLP_CLOSE (R315): A host CLOSE closes its session. -/
  | klpClose (d : KlpDgram)
  /-- ACK_ONLY (R317): An ack-only datagram acknowledges sent datagrams. -/
  | ackOnly (d : KlpDgram)
  /-- CANCEL (R323): A host CANCEL acts on its target and is answered with the result. -/
  | cancel (d : KlpDgram)
  /-- KLP_WAKE (R326): A valid WAKE in DORMANT is a wake under R70. -/
  | klpWake (d : KlpDgram)
  /-- BAG (R383): A host BAG starts a bag-check on its lane from the settled baseline. -/
  | bag (d : KlpDgram)
  /-- PRICE (R321): A host PRICE goes to the island as sluice code 0x01. -/
  | price (d : KlpDgram)
  /-- TARE (R321): A host TARE goes to the island as sluice code 0x02. -/
  | tare (d : KlpDgram)
  /-- ZERO (R321): A host ZERO goes to the island as sluice code 0x03. -/
  | zero (d : KlpDgram)
  /-- LDISP (R321): A host LDISP goes to the island as sluice code 0x04. -/
  | ldisp (d : KlpDgram)
  /-- DISPLAY (R273): A host DISPLAY becomes a peripheral frame through a template. -/
  | display (d : KlpDgram)
  /-- PRINT (R273): A host PRINT becomes a peripheral frame through a template. -/
  | print (d : KlpDgram)
  /-- DRAWER (R321): A host DRAWER goes to a template, or to the program route when no template exists. -/
  | drawer (d : KlpDgram)
  /-- LIGHT (R322): A host LIGHT enters the lane's program group of lane-event words. -/
  | light (d : KlpDgram)
  /-- BELT (R322): A host BELT enters the lane's program group of lane-event words. -/
  | belt (d : KlpDgram)
  /-- RETRANSMIT (R318): An unacknowledged datagram is resent at each rto_ticks, and the session closes after max_retx. -/
  | retransmit (k : Fin 9)
  /-- ACK_DELAY_EXPIRY (R317): ack_delay ticks after acceptance, an ack-only datagram is sent if no data carried the ack. -/
  | ackDelayExpiry (k : Fin 9)
  /-- SESSION_IDLE (R315): A KLP session without a datagram for idle_ticks closes. -/
  | sessionIdle (k : Fin 9)
  /-- HELLO (R399): A station HELLO opens an HMP session with derived keys, or is refused. -/
  | hello (h : HHead) (b : HelloBody) (tail : List Byte)
  /-- HMP_SESSION_IDLE (R401): An HMP session idle for idle_s closes. -/
  | hmpSessionIdle (session : Word)
  /-- HMP_IDENT (R403): IDENT returns the identity and status words. -/
  | hmpIdent (r : HReq)
  /-- BOOT_REPORT (R403): BOOT_REPORT returns the 16 newest fuse-read and boot-failure records. -/
  | bootReport (r : HReq)
  /-- HMP_CLOSE (R401): CLOSE ends the HMP session. -/
  | hmpClose (r : HReq)
  /-- HMP_PEEK (R404): PEEK reads words without side effect. -/
  | hmpPeek (r : HReq) (a : Word) (count : BitVec 16) (e : Nat)
  /-- HMP_READ_EFFECT (R404): READ_EFFECT reads one word with its read side effect. -/
  | hmpReadEffect (r : HReq) (a : Word) (e : Nat)
  /-- HMP_POKE (R405): POKE writes under a mask, landing at a couch, a boundary or at once. -/
  | hmpPoke (r : HReq) (a mask v : Word) (e : Nat)
  /-- HMP_MODE (R406): MODE writes a kind 0x01 edit ring entry, or wakes a DORMANT unit. -/
  | hmpMode (r : HReq) (target clear : Byte)
  /-- HMP_RESET (R407): RESET resets the unit, handing over first when paired and ACTIVE. -/
  | hmpReset (r : HReq) (t : Thr)
  /-- HMP_EDIT_RING (R406): EDIT_RING writes an authenticated edit ring entry. -/
  | hmpEditRing (r : HReq) (kind : Byte) (arg stageOff : Word)
  /-- SHADOW_WRITE (R406): SHADOW_WRITE writes the shadow program slot while the trial is idle. -/
  | shadowWrite (r : HReq) (off : Word) (data : List Byte)
  /-- SLOT_BEGIN (R408): SLOT_BEGIN erases the unselected copy and takes ownership of the write. -/
  | slotBegin (r : HReq) (area : Byte) (len hold : Word)
  /-- SLOT_CHUNK (R408): SLOT_CHUNK programs the next bytes of the copy. -/
  | slotChunk (r : HReq) (area : Byte) (off : Word) (data : List Byte)
  /-- SLOT_COMMIT (R408): SLOT_COMMIT verifies the copy and appends a journal entry, or holds it for an edit. -/
  | slotCommit (r : HReq) (area : Byte)
  /-- SLOT_ABORT (R408): SLOT_ABORT abandons the write without a journal entry. -/
  | slotAbort (r : HReq) (area : Byte)
  /-- EVLOG_READ (R414): EVLOG_READ returns event log entries from a sequence number. -/
  | evlogRead (r : HReq) (from' : Word) (count : BitVec 16)
  /-- HMP_AUDIT_READ (R403): AUDIT_READ returns island audit records held by the core. -/
  | hmpAuditRead (r : HReq) (from' : Word)
  /-- KEY_WRITE (R411): KEY_WRITE rewrites a key area sector, rotating or revoking keys. -/
  | keyWrite (r : HReq) (sector mask : Byte) (hmpId : Word) (hmpKey : BitVec 256) (klpId : Word) (klpKey : BitVec 256)
  /-- FUSE_CUSTKEY (R413): FUSE_CUSTKEY blows the customer key hash and re-reads it. -/
  | fuseCustkey (r : HReq) (hash tight : BitVec 256)
  /-- FUSE_DEBUGLOCK (R413): FUSE_DEBUGLOCK blows the debug-lock, which takes effect at once. -/
  | fuseDebuglock (r : HReq) (tight : Bool)
  /-- BULK_OPEN (R418): BULK_OPEN allows one TCP bulk connection for the session. -/
  | bulkOpen (r : HReq)
  /-- EXTEST (R467): EXTEST drives the boundary in HOLD, and leaving it takes the debug reset. -/
  | extest (scan : CellScan) (t : Thr)
  /-- SAMPLE_PRELOAD (R466): SAMPLE/PRELOAD selects the boundary register. -/
  | samplePreload (scan : CellScan)
  /-- IDCODE (R466): IDCODE selects the 32-bit identification register. -/
  | idcode
  /-- BYPASS (R466): BYPASS selects the 1-bit bypass register. -/
  | bypass (scan : BypassScan)
  /-- DBGAUTH (R469): DBGAUTH verifies a signed response to the nonce and authenticates or counts a failure. -/
  | dbgauth (pos : Byte) (key sig : BitVec 512)
  /-- DBGACC (R470): DBGACC issues the shifted-in DAP command at Update-DR. -/
  | dbgacc (cmd : Byte) (arg data : Word) (e : Nat) (t : Thr)
  /-- DAP_PEEK (R471): The DAP PEEK command reads one word through peek aliases. -/
  | dapPeek (a : Word) (e : Nat)
  /-- DAP_READ_EFFECT (R471): The DAP READ_EFFECT command reads one word with its side effect. -/
  | dapReadEffect (a data : Word) (e : Nat)
  /-- SET_MASK (R471): SET_MASK sets the mask used by DAP POKE. -/
  | setMask (data : Word)
  /-- DAP_POKE (R472): The DAP POKE command writes under the mask, landing as R405 gives. -/
  | dapPoke (a data : Word) (e : Nat)
  /-- HALT (R473): HALT requests a halt of pipes or strand 0, or hands over on a paired unit. -/
  | halt (arg : Word)
  /-- HALT_EFFECT (R473): A requested halt takes effect at the next instruction boundary outside a block, or at the sample point. -/
  | haltEffect (k : Fin 4)
  /-- RESUME (R477): RESUME releases halted pipes and resets late_run. -/
  | resume (arg : Word)
  /-- STEP (R478): STEP runs a halted pipe to the next NET word. -/
  | step (arg : Word)
  /-- BP_SET (R479): BP_SET arms or disarms a breakpoint, moving it to a standalone word. -/
  | bpSet (arg data : Word)
  /-- WP_SET (R480): WP_SET arms or disarms a watchpoint. -/
  | wpSet (arg data : Word)
  /-- WP_VALUE (R471): WP_VALUE sets a watchpoint's compare value. -/
  | wpValue (arg data : Word)
  /-- WD_SVC (R443): The DAP WD_SVC command services WD-S or WD-C. -/
  | wdSvc (arg : Word) (e : Nat)
  /-- DBG_RESET (R482): DBG_RESET takes the debug reset, handing over first when paired. -/
  | dbgReset (arg : Word) (t : Thr)
  /-- TICK_NOW_LO_READ (R39): A read of TICK_NOW_LO returns bits [31:0] and latches bits [47:32]. -/
  | tickNowLoRead
  /-- RTC_SEC_READ (R420): A read of RTC_SEC latches the sub-seconds, date and time. -/
  | rtcSecRead
  /-- RTC_LOAD (R420): Writing RTC_CTL.load sets the time, derives the calendar and sets valid. -/
  | rtcLoad
  /-- ALARM_FIRE (R424): An enabled alarm matches the second, and fires as a wake, an event or a backup alarm. -/
  | alarmFire (n : Fin 2)
  /-- ALM_STAT_CLEAR (R426): A write of one to ALM_STAT clears fired bits or releases ALARM_N. -/
  | almStatClear (v : Word)
  /-- BK_CTL_CLEAR (R427): A write of one to BK_CTL.clr zeroes BK_SW_CNT and BK_SW_FIRST. -/
  | bkCtlClear (v : Word)
  /-- COMPENSATION_PERIOD (R423): Each 256 s period applies its correction, spreading added or skipped cycles over 4 096 slots. -/
  | compensationPeriod
  /-- SENSOR_READ (R422): A periodic temperature reading computes k_temp from the fused curve. -/
  | sensorRead (theta : BitVec 24)
  /-- SNTP_POLL (R430): Every sntp_poll_s the management core polls its SNTP server. -/
  | sntpPoll (option42 : Bool)
  /-- SNTP_REPLY (R431): A usable reply steps the clock or replaces the slew. -/
  | sntpReply (r : Sntp)
  /-- VBAK_CHECK (R429): At a THREAD or hourly, a VBAK below 1.8 V sets bk_low. -/
  | vbakCheck (low : Bool)
  /-- LOG_RATE_SECOND (R439): At the end of a log second, one EVT-1904 entry records the entries lost. -/
  | logRateSecond
  /-- RST_CAUSE_CLEAR (R64): A write of one to RST_CAUSE clears cause bits. -/
  | rstCauseClear (v : Word)
  /-- WAKE_CAUSE_CLEAR (R70): A write of one to WAKE_CAUSE clears cause bits. -/
  | wakeCauseClear (v : Word)
  /-- PORT_CTL_RESTART (R488): PORT_CTL bit 0 restarts a running port and its engine at the next boundary. -/
  | portCtlRestart (e : Fin 56)
  /-- LANE_CTL_WRITE (R488): A write to LANE_CTL is a write of the lane's LANE_PWR bit. -/
  | laneCtlWrite (n : Fin 8) (on : Bool)
  /-- CV_FORGET (R394): CV_CTL forget clears a unit's received alive counter. -/
  | cvForget (u : Fin 64)
  /-- REAM_STAT_CLEAR (R491): A write of one clears the refused, skipped or disagree bits of REAM_STAT. -/
  | reamStatClear (r : Fin 16) (w : Fin 2) (v : Word)
  /-- IMAGE_WRITE (R486): A DAP or HMP write to the I, Q, M, D, T or C region lands at the next couch or boundary, or is refused. -/
  | imageWrite (a mask v : Word)
  /-- REAM_WINDOW_WRITE (R491): A ream window write is staged and lands on every accepting member, skipping the others. -/
  | reamWindowWrite (r : Fin 16) (off : Nat) (mask v : Word)
  /-- REAM_WINDOW_READ (R492): A ream window read compares the members and reports disagreement. -/
  | reamWindowRead (r : Fin 16) (off : Nat) (silent : BitVec 16)
  /-- FIELD_BLOCK_VIEW_ACCESS (R489): An access to a field block view sends a register frame and answers on its return or after 4 ticks. -/
  | fieldBlockViewAccess (fb : Fin 16) (off : Fin 8) (write : Bool) (v : Word) (good : Bool)
  /-- REGISTER_WRITE (R484): A write to a register that has no row of its own takes effect as its owning chapter states. -/
  | registerWrite (a mask v : Word) (e : Nat)
  /-- VM_POWER_GOOD (R332): VM becomes good and the island threads from its legal flash. -/
  | vmPowerGood (selfTestFails : Bool)
  /-- IDENT_DISPLAY_END (R352): 3 s after threading, the identification display ends. -/
  | identDisplayEnd
  /-- CAL_N_ASSERTED (R342): A debounced CAL_N assertion puts the island in OPEN, or resets it from FAULT. -/
  | calNAsserted
  /-- CAL_N_RELEASED (R346): On CAL_N release the island commits its staged changes, counting them in fuses, and seals. -/
  | calNReleased (flashFails : Bool)
  /-- FAULT_CAUSE (R342): A FAULT cause arises and the island enters FAULT. -/
  | faultCause (cause : Fin 9)
  /-- RECORD_INSTANT (R374): Every 20 ms the island forms gross, net, price and weight records for each lane, and drives the displays. -/
  | recordInstant (x : Instant)
  /-- TELEGRAM (R368): A certified scale telegram is checked and accepted or rejected. -/
  | telegram (p : Fin 8) (raw : List Byte) (off : Fin 21)
  /-- UNIT_PRICE (R370): Sluice code 0x01 sets or clears a lane's unit price. -/
  | unitPrice (off : Fin 21)
  /-- TARE_REQUEST (R366): Sluice code 0x02 takes or clears a tare. -/
  | tareRequest (off : Fin 21)
  /-- ZERO_REQUEST (R365): Sluice code 0x03 zeroes a stable lane within the zero range. -/
  | zeroRequest (off : Fin 21)
  /-- DISPLAY_CONTENT_REQUEST (R370): Sluice code 0x04 sends a text frame to the legal display. -/
  | displayContentRequest (off : Fin 21)
  /-- STABILITY_WAIT_END (R371): A zero or tare request waiting for stability ends after 2 000 ms with a refusal. -/
  | stabilityWaitEnd (n : Fin 8)
  /-- LEGAL_FIRMWARE_CHUNK (R341): Sluice code 0x05 writes a legal firmware chunk in OPEN and stages the upload when complete. -/
  | legalFirmwareChunk (offset total : BitVec 32) (data : List Byte)
  /-- PAIR_OFFER_IMPORT (R349): A kind-1 pair record stages a pairing and derives the pair key. -/
  | pairOfferImport
  /-- PAIR_STATE_IMPORT (R350): A kind-2 pair record replaces the zeros and tares when it verifies. -/
  | pairStateImport
  /-- LEGAL_STATUS_SEND (R339): The island sends a legal status on change and at least once per second. -/
  | legalStatusSend
  /-- UPWARD_POST (R30): When upward slots free, the island posts held messages in sequence order. -/
  | upwardPost
  /-- WEIGHT_RECORD (R373): The core side posts an upward weight record to q_legal or to q_nl. -/
  | weightRecord
  /-- LEGAL_STATUS (R355): The core keeps an upward legal status and raises the island events. -/
  | legalStatus
  /-- AUDIT_EXTRACT (R355): The core keeps an upward audit extract and raises the events for counted records. -/
  | auditExtract
  /-- SVC_IDENT (R345): Service IDENT returns the legal status fixed part. -/
  | svcIdent
  /-- SVC_AUDIT_READ (R345): Service AUDIT_READ returns up to 2 audit records. -/
  | svcAuditRead (from' : BitVec 32)
  /-- PARAM_READ (R360): PARAM_READ returns a legal parameter. -/
  | paramRead (id : BitVec 16)
  /-- PARAM_WRITE (R361): PARAM_WRITE stages a legal parameter in OPEN. -/
  | paramWrite (id : BitVec 16) (v : BitVec 32)
  /-- CAL_ZERO (R362): CAL_ZERO stages a channel zero from 100 instants. -/
  | calZero (c : Fin 4)
  /-- CAL_SPAN (R362): CAL_SPAN stages a channel span from a test load. -/
  | calSpan (c : Fin 4) (load : BitVec 32)
  /-- SEAL (R347): SEAL stages a seal identity on an unsealed island. -/
  | svcSeal (id : BitVec 32)
  /-- DISCARD (R345): DISCARD drops every staged change and any upload. -/
  | discard
  /-- VERIFY_REC (R375): VERIFY_REC checks a presented record's watermark. -/
  | verifyRec (bs : List Byte)
  /-- FW_CONFIRM (R345): FW_CONFIRM stages the running fallback copy as preferred. -/
  | fwConfirm
  /-- BAG_TIMEOUT (R383): At timeout_ms a pending bag-check ends as match, mismatch or unsettled. -/
  | bagTimeout (n : Fin 8)
  /-- KEY_STUCK (R461): A key pressed for max_on_s becomes STUCK and reads released. -/
  | keyStuck (k : Fin 16)
  /-- BASELINE_STEP (R462): At each absorb or drift interval, a key's baseline moves one count toward raw. -/
  | baselineStep (k : Fin 16)
  /-- POWER_GOOD_LOSS (R507): VCORE, VSER or VPLL falls below its threshold, power-good is removed and the core die stops until the next power-on reset. -/
  | powerGoodLoss
  /-- VM_BROWN_OUT (R509): VM falls below the island brown-out level, resetting the island and emptying the downward mailbox while the core die runs on. -/
  | vmBrownOut
  /-- BACKUP_DOMAIN_RESET (R421): Loss of both VDD_IO and VBAK resets the backup domain, clearing valid, the alarms and the backup registers. -/
  | backupDomainReset
  /-- CALENDAR_WRAP (R419): After 2199-12-31 23:59:59 the calendar continues at 2000-01-01 00:00:00 and clears valid. -/
  | calendarWrap
  /-- CAN_BUS_OFF_RECOVERY (R265): A bus-off CAN port completes standard recovery and fault clears. -/
  | canBusOffRecovery (c : Fin 4)
  /-- BYTE_RECEIVED (R271): A byte completes on a lane port, with framing, parity and break checks, nine-bit frame start, start-delimiter restart, length and oversize discard, and RTS flow control. -/
  | byteReceived (e : Fin 56) (data : BitVec 9) (bad : Bool)
  /-- CTS_CHANGE (R262): CTS becomes inactive or active, stopping or resuming the UART transmitter at a byte boundary. -/
  | ctsChange (e : Fin 16) (active : Bool)
  /-- FELT_COPY_END (R171): The felt copy of the previous couch ends, letting a waiting couch on completion take place. -/
  | feltCopyEnd (e : Nat)
  /-- AWAY_SIDE_CODE_GROUPS (R241): A turned-round block receives valid code groups on its away side again and resumes forwarding frames to it. -/
  | awaySideCodeGroups (fb : Fin 16) (port : Fin 2)
  /-- FIRST_VALID_CODE_GROUP (R520): A powered-up KF-24 receives its first valid code group, leaves its internal oscillator and takes its timing from the line. -/
  | firstValidCodeGroup (fb : Fin 16)
deriving DecidableEq, Repr

end Sys2Proof
end

