-- ==== Sys2Proof/Config.lean ====
section
/-! DEFINITION. What is fixed for a part and what the manual leaves open. Every constant with no body is a free
value: nothing can evaluate it, so what is proved of it holds whatever it is. -/

namespace Sys2Proof.Config

/-- The IDCODE of a KL-640 of stepping B0 (R5). -/
def idcode : Nat := 0x1064056F
/-- The IDCODE of its island, which differs in part (R468); version and manufacturer are the core's (DEDUCED, log entry 49). -/
def islIdcode : Nat := 0x1064156F
/-- The IDCODE version of this stepping (R5, R7). -/
def stepping : Nat := 1
/-- The 64-bit serial number fixed in manufacture (R487). -/
opaque serial : Nat
/-- The boot ROM version, major and minor byte, fixed in manufacture (Table 23.4). -/
opaque romVersion : Nat
/-- Byte `i` of a boot report: its kind, tick and data in a layout that the manual does not give (Table 19.2; log entry 27). -/
opaque reportByte : List Nat → Nat → Byte
/-- The free value of the n-th draw, as a number. -/
opaque freeNat : Nat → Nat
/-- The free value of the n-th draw at an address: the content of a memory whose layout the manual does not give. -/
opaque freeAt : Nat → Nat → Nat
/-- The free value of the n-th draw, as a signed number. -/
opaque freeInt : Nat → Int
/-- The free value of the n-th draw, as a choice between two outcomes. -/
opaque freeBool : Nat → Bool
/-- The SHA-256 of the legal public key, fixed in manufacture in the island boot ROM (R333). -/
opaque legalKeyHash : Nat
/-- The base of a unit's MAC addresses while no uplink record is in use, which the manual does not give (R88, R309). -/
opaque bareMac : Nat
/-- The IPv4 address that the network's DHCPv4 server gives on an uplink (R309): the network decides. -/
opaque dhcpV4 : Nat → Nat
/-- The IPv6 prefixes advertised on an uplink's network (R309): the network decides. -/
opaque prefixes : Nat → List Nat
/-- The version word of a legal firmware copy, whose place in the copy the manual does not give. -/
opaque legalFwVersion : List Byte → Nat
/-- What a core fuse trim word's design default is (R75). -/
opaque trimDefault : Nat → Nat
/-- Design default of the island's trim word `i` (Table 4.2); the manual gives none. -/
opaque islTrimDefault : Nat → Nat

end Sys2Proof.Config
end

