-- ==== Sys2Proof/Machine/Tbl.lean ====
section
/-! DEFINITION. The operations on the sparse tables of Word.lean: reading, writing, and the canonical form that
every write keeps (a memory is such a table of bytes). -/

namespace Sys2Proof

/-- The entry numbered `k`; an unlisted number reads as `d`. -/
def tget {α : Type} (d : α) : Tbl α → Nat → α
  | [], _ => d
  | (j, v) :: m, k => if j = k then v else tget d m k

/-- The table without number `k`. -/
def tdrop {α : Type} (k : Nat) (m : Tbl α) : Tbl α := m.filter fun e => e.1 != k

/-- `(k, v)` put ahead of the first larger number. -/
def tput {α : Type} (k : Nat) (v : α) : Tbl α → Tbl α
  | [] => [(k, v)]
  | (j, w) :: m => if k < j then (k, v) :: (j, w) :: m else (j, w) :: tput k v m

/-- Number `k` given entry `v`, keeping the canonical form: rising numbers, no entry equal to `d`. -/
def tset {α : Type} [DecidableEq α] (d : α) (m : Tbl α) (k : Nat) (v : α) : Tbl α :=
  if v = d then tdrop k m else tput k v (tdrop k m)

/-- Every number of `m` lies above `lo`, the numbers rise, and no entry is `d`. -/
def tblAbove {α : Type} [DecidableEq α] (d : α) : Nat → Tbl α → Bool
  | _, [] => true
  | lo, (j, v) :: m => decide (lo < j) && decide (v ≠ d) && tblAbove d j m

/-- The canonical form of a table. -/
def Tbl.wf {α : Type} [DecidableEq α] (d : α) : Tbl α → Bool
  | [] => true
  | (j, v) :: m => decide (v ≠ d) && tblAbove d j m

/-- The canonical form of a memory whose unlisted bytes read as `d`. -/
def Memory.wf (d : Byte) (m : Memory) : Bool := Tbl.wf d m

/-- Entry `k` passed through `f`. -/
def tmod {α : Type} [DecidableEq α] (d : α) (m : Tbl α) (k : Nat) (f : α → α) : Tbl α :=
  tset d m k (f (tget d m k))

/-- The entries numbered `lo` up to but not including `lo + n` given back their default. -/
def tclear {α : Type} (lo n : Nat) (m : Tbl α) : Tbl α :=
  m.filter fun e => decide (e.1 < lo) || decide (lo + n ≤ e.1)

/-- Every entry of `src` written over `m`. -/
def tmerge {α : Type} [DecidableEq α] (d : α) (m src : Tbl α) : Tbl α :=
  src.foldl (fun m e => tset d m e.1 e.2) m

/-! ## Bytes, words and bits in a memory -/

/-- `n` bytes from address `a`, lowest address first. -/
def rdBytes (d : Byte) (m : Memory) (a : Nat) : Nat → List Byte
  | 0 => []
  | n + 1 => tget d m a :: rdBytes d m (a + 1) n

/-- The bytes `bs` written from address `a` on. -/
def wrBytes (d : Byte) : Memory → Nat → List Byte → Memory
  | m, _, [] => m
  | m, a, b :: bs => wrBytes d (tset d m a b) (a + 1) bs

/-- The number whose little-endian bytes are `bs` (R93, R485). -/
def leNat : List Byte → Nat
  | [] => 0
  | b :: bs => b.toNat + 256 * leNat bs

/-- The number whose big-endian bytes are `bs`. -/
def beNat (bs : List Byte) : Nat := leNat bs.reverse

/-- `n` little-endian bytes of `x`. -/
def leBytes : Nat → Nat → List Byte
  | 0, _ => []
  | n + 1, x => BitVec.ofNat 8 x :: leBytes n (x / 256)

/-- `n` big-endian bytes of `x`. -/
def beBytes (n x : Nat) : List Byte := (leBytes n x).reverse

/-- The little-endian number of `n` bytes at `a`. -/
def rdLe (d : Byte) (m : Memory) (a n : Nat) : Nat := leNat (rdBytes d m a n)

/-- `x` written little-endian in `n` bytes at `a`. -/
def wrLe (d : Byte) (m : Memory) (a n x : Nat) : Memory := wrBytes d m a (leBytes n x)

/-- The 32-bit little-endian word at `a`. -/
def rdW (d : Byte) (m : Memory) (a : Nat) : Word := BitVec.ofNat 32 (rdLe d m a 4)

/-- The 32-bit word `w` written little-endian at `a`. -/
def wrW (d : Byte) (m : Memory) (a : Nat) (w : Word) : Memory := wrLe d m a 4 w.toNat

/-- A field of a run of bytes: `n` bytes little-endian at offset `o`; bytes past the end read 0. -/
def fld (bs : List Byte) (o n : Nat) : Nat := leNat ((bs.drop o).take n)

/-- Bits `hi` to `lo` of a number. -/
def bitsOf (x hi lo : Nat) : Nat := x / 2 ^ lo % 2 ^ (hi + 1 - lo)

/-- Bit `k` of a number. -/
def bitOf (x k : Nat) : Bool := x / 2 ^ k % 2 == 1

/-- 0 or 1. -/
def b2n (b : Bool) : Nat := if b then 1 else 0

/-- The masked bits of a word replaced by those of `val`. -/
def maskWord (old mask val : Nat) : Nat := (old ^^^ (old &&& mask)) ||| (val &&& mask)

/-- `x` read as a two's complement number of `n` bits. -/
def toSigned (n x : Nat) : Int :=
  if x % 2 ^ n < 2 ^ (n - 1) then ((x % 2 ^ n : Nat) : Int) else ((x % 2 ^ n : Nat) : Int) - ((2 ^ n : Nat) : Int)

/-- The two's complement number of `n` bits for `x`. -/
def ofSigned (n : Nat) (x : Int) : Nat := (x % ((2 ^ n : Nat) : Int)).toNat

/-- A count raised by one, saturating at `top`. -/
def satInc (top x : Nat) : Nat := if x < top then x + 1 else top

/-- A count raised by `n`, saturating at `top`. -/
def satAdd (top x n : Nat) : Nat := if x + n ≤ top then x + n else top

/-- Quotient rounded up. -/
def ceilDiv (a b : Nat) : Nat := (a + b - 1) / b

/-- The entry numbered `k` of a list, or `d`. -/
def nth {α : Type} (d : α) : List α → Nat → α
  | [], _ => d
  | a :: _, 0 => a
  | _ :: l, k + 1 => nth d l k

/-- `v` put at number `k` of a list; a number outside the list changes nothing. -/
def setNth {α : Type} : List α → Nat → α → List α
  | [], _, _ => []
  | _ :: l, 0, v => v :: l
  | a :: l, k + 1, v => a :: setNth l k v

end Sys2Proof
end

