-- ==== Sys2Proof/Machine/Crypto.lean ====
section
/-! DEFINITION. The published algorithms that the manual names: CRC-32C (R93), the CRC-32 of IEEE 802.3 (R192), SHA-256
(FIPS 180-4), HMAC (RFC 2104), HKDF (RFC 5869), ECDSA and ECDH over P-256 (FIPS 186-4) and AES-128-GCM
(SP 800-38D). -/

namespace Sys2Proof.Machine

/-! ## Cyclic redundancy checks -/

/-- One bit of a reflected CRC-32 of this polynomial. -/
def crcBit (poly c : BitVec 32) : BitVec 32 := if c.getLsbD 0 then (c >>> 1) ^^^ poly else c >>> 1
/-- One byte of a reflected CRC-32. -/
def crcByte (poly c : BitVec 32) (b : Byte) : BitVec 32 :=
  (List.range 8).foldl (fun c _ => crcBit poly c) (c ^^^ b.setWidth 32)
/-- A reflected CRC-32 with initial value and final XOR all ones. -/
def crcRefl (poly : BitVec 32) (bs : List Byte) : Nat := (bs.foldl (crcByte poly) 0xFFFFFFFF ^^^ 0xFFFFFFFF).toNat
/-- CRC-32C of a run of bytes (R93). -/
def crc32c (bs : List Byte) : Nat := crcRefl 0x82F63B78 bs
/-- CRC-32 of IEEE 802.3 (R192). -/
def crc32 (bs : List Byte) : Nat := crcRefl 0xEDB88320 bs

/-- One byte of a CRC-16 that is not reflected. -/
def crc16Byte (c : BitVec 16) (b : Byte) : BitVec 16 :=
  (List.range 8).foldl (fun c _ => if c.getLsbD 15 then (c <<< 1) ^^^ 0x1021 else c <<< 1) (c ^^^ (b.setWidth 16) <<< 8)
/-- The field link's CRC-16 (R243). -/
def crc16 (bs : List Byte) : Nat := (bs.foldl crc16Byte 0xFFFF).toNat
/-- One byte of the CRC-8. -/
def crc8Byte (c b : Byte) : Byte := (List.range 8).foldl (fun c _ => if c.getLsbD 7 then (c <<< 1) ^^^ 0x07 else c <<< 1) (c ^^^ b)
/-- The field link's CRC-8 (R243). -/
def crc8 (bs : List Byte) : Nat := (bs.foldl crc8Byte 0).toNat

/-! ## SHA-256 -/

/-- The 64 round constants of SHA-256. -/
def shaK : List Word :=
  [0x428a2f98, 0x71374491, 0xb5c0fbcf, 0xe9b5dba5, 0x3956c25b, 0x59f111f1, 0x923f82a4, 0xab1c5ed5,
   0xd807aa98, 0x12835b01, 0x243185be, 0x550c7dc3, 0x72be5d74, 0x80deb1fe, 0x9bdc06a7, 0xc19bf174]
  ++ [0xe49b69c1, 0xefbe4786, 0x0fc19dc6, 0x240ca1cc, 0x2de92c6f, 0x4a7484aa, 0x5cb0a9dc, 0x76f988da,
   0x983e5152, 0xa831c66d, 0xb00327c8, 0xbf597fc7, 0xc6e00bf3, 0xd5a79147, 0x06ca6351, 0x14292967]
  ++ [0x27b70a85, 0x2e1b2138, 0x4d2c6dfc, 0x53380d13, 0x650a7354, 0x766a0abb, 0x81c2c92e, 0x92722c85,
   0xa2bfe8a1, 0xa81a664b, 0xc24b8b70, 0xc76c51a3, 0xd192e819, 0xd6990624, 0xf40e3585, 0x106aa070]
  ++ [0x19a4c116, 0x1e376c08, 0x2748774c, 0x34b0bcb5, 0x391c0cb3, 0x4ed8aa4a, 0x5b9cca4f, 0x682e6ff3,
   0x748f82ee, 0x78a5636f, 0x84c87814, 0x8cc70208, 0x90befffa, 0xa4506ceb, 0xbef9a3f7, 0xc67178f2]

/-- The initial hash value. -/
def shaInit : List Word :=
  [0x6a09e667, 0xbb67ae85, 0x3c6ef372, 0xa54ff53a, 0x510e527f, 0x9b05688c, 0x1f83d9ab, 0x5be0cd19]

/-- The message schedule's next word, from the 16 words before it, latest first. -/
def shaNext (w : List Word) : Word :=
  let g (k : Nat) : Word := nth 0 w k
  let s0 := (g 14).rotateRight 7 ^^^ (g 14).rotateRight 18 ^^^ (g 14) >>> 3
  let s1 := (g 1).rotateRight 17 ^^^ (g 1).rotateRight 19 ^^^ (g 1) >>> 10
  s1 + g 6 + s0 + g 15

/-- One round with this constant and schedule word. -/
def shaRound (h : List Word) (kw : Word) : List Word :=
  match h with
  | [a, b, c, d, e, f, g, x] =>
    let t1 := x + (e.rotateRight 6 ^^^ e.rotateRight 11 ^^^ e.rotateRight 25) + ((e &&& f) ^^^ (~~~e &&& g)) + kw
    let t2 := (a.rotateRight 2 ^^^ a.rotateRight 13 ^^^ a.rotateRight 22) + ((a &&& b) ^^^ (a &&& c) ^^^ (b &&& c))
    [t1 + t2, a, b, c, d + t1, e, f, g]
  | _ => h

/-- The rounds of a block: the schedule's last 16 words, latest first, and the working variables. -/
def shaRounds : List Word → List Word → List Word → List Word
  | [], _, h => h
  | k :: ks, w, h => shaRounds ks ((shaNext w :: w).take 16) (shaRound h (k + nth 0 w 15))

/-- One 64-byte block. -/
def shaBlock (h : List Word) (block : List Byte) : List Word :=
  let w := (List.range 16).map fun i => BitVec.ofNat 32 (beNat ((block.drop (4 * i)).take 4))
  List.zipWith (· + ·) h (shaRounds shaK w.reverse h)

/-- The blocks of a padded message. -/
def shaBlocks : Nat → List Byte → List Word → List Word
  | 0, _, h => h
  | n + 1, bs, h => shaBlocks n (bs.drop 64) (shaBlock h (bs.take 64))

/-- SHA-256 of a run of bytes, as 32 bytes. -/
def sha256Bytes (bs : List Byte) : List Byte :=
  let n := bs.length
  let m := bs ++ [0x80] ++ List.replicate ((119 - n % 64) % 64) 0 ++ beBytes 8 (8 * n)
  (shaBlocks (m.length / 64) m shaInit).flatMap fun w => beBytes 4 w.toNat

/-- SHA-256 of a run of bytes, as a number read big-endian. -/
def sha256 (bs : List Byte) : Nat := beNat (sha256Bytes bs)

/-- HMAC-SHA-256 of these bytes under a key, 32 bytes. -/
def hmac (key bs : List Byte) : List Byte :=
  let k := if 64 < key.length then sha256Bytes key else key
  let k := k ++ List.replicate (64 - k.length) 0
  sha256Bytes (k.map (· ^^^ 0x5C) ++ sha256Bytes (k.map (· ^^^ 0x36) ++ bs))

/-- HKDF-SHA-256 with a result of at most 64 bytes. -/
def hkdf (n : Nat) (ikm salt info : List Byte) : List Byte :=
  let prk := hmac salt ikm
  let t1 := hmac prk (info ++ [1])
  (t1 ++ hmac prk (t1 ++ info ++ [2])).take n

/-- HMAC-SHA-256 under a key held as a 256-bit number, read big-endian. -/
def mac (key : Nat) (bs : List Byte) : Nat := beNat (hmac (beBytes 32 key) bs)

/-! ## P-256 -/

/-- The field prime of P-256. -/
def p256 : Nat := 0xFFFFFFFF00000001000000000000000000000000FFFFFFFFFFFFFFFFFFFFFFFF
/-- The order of its base point. -/
def p256N : Nat := 0xFFFFFFFF00000000FFFFFFFFFFFFFFFFBCE6FAADA7179E84F3B9CAC2FC632551
/-- The coefficient b of the curve; a is −3. -/
def p256B : Nat := 0x5AC635D8AA3A93E7B3EBBD55769886BC651D06B0CC53B0F63BCE3C3E27D2604B
/-- The base point. -/
def p256G : Nat × Nat := (0x6B17D1F2E12C4247F8BCE6E563A440F277037D812DEB33A0F4A13945D898C296,
  0x4FE342E2FE1A7F9B8EE7EB4A7C0F9E162BCE33576B315ECECBB6406837BF51F5)

/-- `b ^ e` modulo `m` over the low `n` bits of `e`, highest first. -/
def powMod (m b e : Nat) : Nat → Nat
  | 0 => 1 % m
  | n + 1 =>
    let r := powMod m b (e / 2) n
    if e % 2 = 1 then r * r % m * b % m else r * r % m

/-- The inverse modulo a prime of 256 bits. -/
def invMod (m x : Nat) : Nat := powMod m x (m - 2) 256

/-- A point in Jacobian coordinates; z = 0 is the point at infinity. -/
abbrev Jac := Nat × Nat × Nat

/-- Twice a point. -/
def jacDouble (p : Jac) : Jac :=
  let (x, y, z) := p
  if y = 0 ∨ z = 0 then (1, 1, 0)
  else
    let yy := y * y % p256
    let s := 4 * x * yy % p256
    let zz := z * z % p256
    let m := 3 * (x + zz) * (x + p256 - zz) % p256
    let x' := (m * m + 2 * (p256 - s)) % p256
    (x', (m * (s + p256 - x') + 8 * (p256 - yy * yy % p256)) % p256, 2 * y * z % p256)

/-- The sum of two points. -/
def jacAdd (p q : Jac) : Jac :=
  let (x1, y1, z1) := p
  let (x2, y2, z2) := q
  if z1 = 0 then q
  else if z2 = 0 then p
  else
    let a := z1 * z1 % p256
    let b := z2 * z2 % p256
    let u1 := x1 * b % p256
    let u2 := x2 * a % p256
    let s1 := y1 * z2 % p256 * b % p256
    let s2 := y2 * z1 % p256 * a % p256
    if u1 = u2 then (if s1 = s2 then jacDouble p else (1, 1, 0))
    else
      let h := (u2 + p256 - u1) % p256
      let r := (s2 + p256 - s1) % p256
      let hh := h * h % p256
      let hhh := h * hh % p256
      let v := u1 * hh % p256
      let x := (r * r + (p256 - hhh) + 2 * (p256 - v)) % p256
      (x, (r * (v + p256 - x) + (p256 - s1) * hhh) % p256, h * z1 % p256 * z2 % p256)

/-- A multiple of a point, over the low `n` bits of `k`. -/
def jacMul (p : Jac) (k : Nat) : Nat → Jac
  | 0 => (1, 1, 0)
  | n + 1 =>
    let r := jacDouble (jacMul p (k / 2) n)
    if k % 2 = 1 then jacAdd r p else r

/-- The affine coordinates of a point; none for infinity. -/
def affine (p : Jac) : Option (Nat × Nat) :=
  if p.2.2 = 0 then none
  else
    let i := invMod p256 p.2.2
    let ii := i * i % p256
    some (p.1 * ii % p256, p.2.1 * (ii * i % p256) % p256)

/-- The point of 64 public-key bytes, X then Y big-endian, when it lies on the curve. -/
def p256Point (key : List Byte) : Option Jac :=
  let x := beNat (key.take 32)
  let y := beNat ((key.drop 32).take 32)
  if key.length = 64 ∧ x < p256 ∧ y < p256 ∧ y * y % p256 = (x * x * x + (p256 - 3) * x + p256B) % p256 then some (x, y, 1)
  else none

/-- ECDSA verification of a signature, r then s big-endian, over a digest (FIPS 186-4). -/
def ecdsaVerify (key sig : List Byte) (digest : Nat) : Bool :=
  let r := beNat (sig.take 32)
  let s := beNat ((sig.drop 32).take 32)
  match p256Point key with
  | none => false
  | some q =>
    if sig.length ≠ 64 ∨ r = 0 ∨ s = 0 ∨ p256N ≤ r ∨ p256N ≤ s then false
    else
      let w := invMod p256N s
      let g : Jac := (p256G.1, p256G.2, 1)
      match affine (jacAdd (jacMul g (digest * w % p256N) 256) (jacMul q (r * w % p256N) 256)) with
      | some (x, _) => x % p256N == r
      | none => false

/-- The public key, X then Y, of a private key. -/
def publicKey (d : Nat) : List Byte :=
  match affine (jacMul (p256G.1, p256G.2, 1) d 256) with
  | some (x, y) => beBytes 32 x ++ beBytes 32 y
  | none => List.replicate 64 0

/-- The ECDH shared secret: the X coordinate as 32 bytes; none when the public key is no point of the curve. -/
def ecdh (d : Nat) (key : List Byte) : Option (List Byte) :=
  match p256Point key with
  | none => none
  | some q => (affine (jacMul q d 256)).map fun a => beBytes 32 a.1

/-! ## AES-128-GCM -/

/-- Multiplication by x in the field of AES. -/
def aesX (b : Byte) : Byte := if b.getLsbD 7 then (b <<< 1) ^^^ 0x1B else b <<< 1

/-- Multiplication in the field of AES, over the low `n` bits of the second factor. -/
def aesMul (a b : Byte) : Nat → Byte
  | 0 => 0
  | n + 1 => (if b.getLsbD 0 then a else 0) ^^^ aesMul (aesX a) (b >>> 1) n

/-- The S-box: inverse (the 254th power), then the affine map. -/
def aesSub (b : Byte) : Byte :=
  let mul (x y : Byte) : Byte := aesMul x y 8
  let sq (x : Byte) : Byte := mul x x
  let b2 := sq b
  let b3 := mul b2 b
  let b6 := sq b3
  let b12 := sq b6
  let b15 := mul b12 b3
  let b30 := sq b15
  let b60 := sq b30
  let b120 := sq b60
  let b127 := mul (mul b120 b6) b
  let i := sq b127
  i ^^^ i.rotateLeft 1 ^^^ i.rotateLeft 2 ^^^ i.rotateLeft 3 ^^^ i.rotateLeft 4 ^^^ 0x63

/-- The next round key of 16 bytes. -/
def aesNextKey (rcon : Byte) (k : List Byte) : List Byte :=
  let g (i : Nat) : Byte := nth 0 k i
  let t := [aesSub (g 13) ^^^ rcon, aesSub (g 14), aesSub (g 15), aesSub (g 12)]
  let w0 := List.zipWith (· ^^^ ·) (k.take 4) t
  let w1 := List.zipWith (· ^^^ ·) ((k.drop 4).take 4) w0
  let w2 := List.zipWith (· ^^^ ·) ((k.drop 8).take 4) w1
  w0 ++ w1 ++ w2 ++ List.zipWith (· ^^^ ·) (k.drop 12) w2

/-- SubBytes and ShiftRows. -/
def aesShift (b : List Byte) : List Byte := (List.range 16).map fun i => aesSub (nth 0 b ((i + 4 * (i % 4)) % 16))

/-- MixColumns. -/
def aesMix (b : List Byte) : List Byte :=
  (List.range 16).map fun i =>
    let g (k : Nat) : Byte := nth 0 b (i / 4 * 4 + (i + k) % 4)
    aesX (g 0) ^^^ (aesX (g 1) ^^^ g 1) ^^^ g 2 ^^^ g 3

/-- The rounds that remain, with the round key's constant. -/
def aesRounds : Nat → Byte → List Byte → List Byte → List Byte
  | 0, _, _, b => b
  | n + 1, rcon, k, b =>
    let k := aesNextKey rcon k
    let b := aesShift b
    let b := if n = 0 then b else aesMix b
    aesRounds n (aesX rcon) k (List.zipWith (· ^^^ ·) b k)

/-- AES-128 of one block. -/
def aes128 (key block : List Byte) : List Byte := aesRounds 10 1 key (List.zipWith (· ^^^ ·) block key)

/-- Multiplication in the field of GCM: `z` collects, `v` is the running multiple; bits of `x` from the highest. -/
def gcmMulAux (x : Nat) : Nat → Nat → Nat → Nat
  | 0, z, _ => z
  | n + 1, z, v =>
    gcmMulAux x n (if bitOf x n then z ^^^ v else z) (if v % 2 = 1 then (v / 2) ^^^ (0xE1 * 2 ^ 120) else v / 2)

/-- Multiplication in the field of GCM. -/
def gcmMul (x y : Nat) : Nat := gcmMulAux x 128 0 y

/-- 16-byte blocks, the last filled with zeros. -/
def blocks16 : Nat → List Byte → List (List Byte)
  | 0, _ => []
  | n + 1, bs => if bs.isEmpty then [] else (bs.take 16 ++ List.replicate (16 - bs.length) 0) :: blocks16 n (bs.drop 16)

/-- GHASH of additional data and ciphertext. -/
def ghash (h : Nat) (aad ct : List Byte) : Nat :=
  let bl (b : List Byte) := blocks16 (b.length / 16 + 1) b
  (bl aad ++ bl ct ++ [beBytes 8 (8 * aad.length) ++ beBytes 8 (8 * ct.length)]).foldl (fun y b => gcmMul (y ^^^ beNat b) h) 0

/-- The key stream applied to data, from counter `c` on, with a 12-byte nonce. -/
def gcmCtr (key nonce bs : List Byte) : List Byte :=
  ((blocks16 (bs.length / 16 + 1) bs).zipIdx.flatMap fun e =>
    List.zipWith (· ^^^ ·) e.1 (aes128 key (nonce ++ beBytes 4 (e.2 + 2)))).take bs.length

/-- The 16-byte tag over additional data and ciphertext. -/
def gcmTag (key nonce aad ct : List Byte) : List Byte :=
  let h := beNat (aes128 key (List.replicate 16 0))
  List.zipWith (· ^^^ ·) (beBytes 16 (ghash h aad ct)) (aes128 key (nonce ++ beBytes 4 1))

/-- AES-128-GCM: ciphertext, then the tag. -/
def gcmSeal (key nonce aad bs : List Byte) : List Byte :=
  let ct := gcmCtr key nonce bs
  ct ++ gcmTag key nonce aad ct

/-- The plaintext of a sealed text whose tag holds. -/
def gcmOpen (key nonce aad bs : List Byte) : Option (List Byte) :=
  let ct := bs.take (bs.length - 16)
  if 16 ≤ bs.length ∧ gcmTag key nonce aad ct = bs.drop (bs.length - 16) then some (gcmCtr key nonce ct) else none

end Sys2Proof.Machine
end

