-- ==== Sys2Proof/Machine/State.lean ====
section
/-! DEFINITION. The state of one KL-640 unit and of the KF-24 chain on its field link, as plain data: every
register, sheet, store, queue, counter and mode that the manual gives them, and the queue of waiting commands.
Each part names the chapter of the manual that owns it. -/

namespace Sys2Proof.Machine

/-! ## Modes, the tick and resets (02_the_web_tick, 03_six_modes) -/

/-- The six major modes (R55). -/
inductive Mode where
  | backup | thread | hold | active | standby | dormant
deriving DecidableEq, Repr

/-- What a lane power domain is doing (R66, LANE_PWR_STAT). -/
inductive Dom where
  | off | powering | on | closing
deriving DecidableEq, Repr

/-- The tick generator and the cycle grid (R34 to R49). -/
structure Clk where
  tick : Nat := 0            -- 48-bit tick number, R38
  tickHi : Nat := 0          -- TICK_NOW_HI latch, R39
  tickSel : Nat := 1         -- period in force, Table 2.1 (tick 0 has 250 µs, Table 4.1)
  nextSel : Nat := 1         -- period that takes effect at the next boundary (R73 step 6)
  boundaryE : Nat := 0       -- E-clock in which the present tick began
  tickLen : Nat := 100000    -- E-clocks of the present tick (R36 may lengthen or shorten it)
  phaseErr : Int := 0        -- phase error as last measured, E-clocks (R36)
  phasePrev : Int := 0       -- the measurement before it
  corr : Int := 0            -- E-clocks by which the loop lengthened the present tick
  corrPrev : Int := 0        -- and the tick before it
  loopOn : Bool := false     -- the slaving loop has started (R36)
  loopN : Nat := 0           -- ticks since it started
  lateCnt : Nat := 0         -- LATE_CNT, R48
  lateRun : Nat := 0         -- LATE_STAT.late_run
  lateLimit : Nat := 3       -- LATE_STAT.late_limit, copied at step 6 (Table 2.4)
  lateHold : Bool := false   -- LATE_STAT.late_hold
deriving DecidableEq, Repr

/-- Mode, faults, reset and wake causes, DORMANT entry and wake (R55 to R72). -/
structure Md where
  mode : Mode := .thread
  prev : Mode := .thread          -- MODE_STAT.prev_mode, reset 1
  fault : Bool := false
  faultEvt : Nat := 0
  pendF : List Nat := []          -- class F codes detected since the last boundary (R527)
  powerGood : Bool := true        -- R507: power-good of the core die
  testHold : Bool := false        -- TEST_EN was high at the power-on reset: the core die is held in reset (R498)
  rstCause : Nat := 0             -- RST_CAUSE, 6 bits (R64)
  wakeCause : Nat := 0            -- WAKE_CAUSE, 5 bits (R70)
  lanePwr : Nat := 0              -- LANE_PWR, 8 bits (R66)
  laneReq : Nat := 0              -- value of LANE_PWR that takes effect at the next boundary
  dormReq : Bool := false         -- DORMANT requested, domains not yet all off (R68)
  heldWake : Bool := false        -- a wake between request and entry (R69)
  wakeStep : Nat := 0             -- 0 none; 1, 2, 3: the next step of R71 to be taken
  mSlow : Bool := false           -- M-clock at 12.5 MHz
  thStat : Nat := 1               -- THREAD_STAT: step in progress, 15 complete (R73)
  thDone : Bool := false          -- threading complete, transition due at the next boundary
  wakeTarget : Option Nat := none -- mode that a MODE request woke toward (R406)
  negoAt : Nat := 0               -- tick at which step 10 began
  swept : Nat := 0                -- measurement sweeps sent so far, of 64 (R84)
  sweptBack : Nat := 0            -- measurement sweeps returned
  stepDown : Option Mode := none  -- a mode the unit enters at the next boundary (R212, R186, R7)
  handOver : Bool := false        -- HALT asks for a hand-over at the next couch (R476)
  heldReset : Nat := 0            -- reset that waits for a hand-over: 0 none, 16 HMP, 32 debug
  heldThr : Option Thr := none    -- what threading will find when it takes place
  faultNow : Bool := false        -- a fault was taken at the present boundary (R61)
  dormMark : Bool := false        -- standby: the partner's copy marked DORMANT entry (R72)
deriving DecidableEq, Repr

/-- One entry of the edit ring (Table 1.4). -/
structure RingEntry where
  kind : Nat := 0
  flags : Nat := 0
  seq : Nat := 0
  arg : Nat := 0
  stageOff : Nat := 0
  status : Nat := 0
deriving DecidableEq, Repr

/-- The edit ring: 64 places, entries written and entries taken so far (R23 to R25). -/
structure Ring where
  slots : Tbl RingEntry := []
  put : Nat := 0
  take : Nat := 0
deriving DecidableEq, Repr

/-! ## Programs, sheets, strands and tasks (06, 07, 08) -/

/-- Bits written over a sheet: the values and which bits they cover. -/
structure Overlay where
  val : Memory := []
  mask : Memory := []
deriving DecidableEq, Repr

/-- A set of blocks (R160): everything, or the blocks by kind × 8192 + index in order of first access. -/
structure BlockSet where
  all : Bool := false
  bl : List Nat := []
deriving DecidableEq, Repr

/-- The pipe registers (R142, R115) and the literal byte of a LIT just executed (R140). -/
structure Regs where
  la : Bool := false
  stack : List Bool := []
  a : Word := 0
  b : Word := 0
  l : BitVec 3 := 0
  pc : Nat := 0
  lock : Bool := false
  lit : Option Byte := none
deriving DecidableEq, Repr

/-- A network in execution: its registers, the sets it has accessed and what it has written so far. -/
structure NetRun where
  regs : Regs := {}
  opened : Bool := false       -- its NET word has executed and its end is not reached
  net : Nat := 0
  fence : Bool := false
  lIn : BitVec 3 := 0
  rd : BlockSet := {}
  wr : BlockSet := {}
  ov : Overlay := {}
deriving DecidableEq, Repr

/-- One network executed ahead of the sample point: its ledger sets, its L on entry and exit, its wet writes. -/
structure NetRec where
  net : Nat
  lIn : BitVec 3
  lOut : BitVec 3
  rd : BlockSet
  wr : BlockSet
  ov : Overlay
deriving DecidableEq, Repr

/-- Where a strand stands in its cycle (R162 to R169). -/
inductive Phase where
  | idle      -- no cycle
  | wait      -- a full cycle before its sample point (R172)
  | spec      -- speculating
  | verify    -- verifying
  | done      -- last network verified
deriving DecidableEq, Repr

/-- A strand: the network it executes, its place, its speculated networks, its verified writes, its dirty filter. -/
structure Strand where
  run : NetRun := {}
  phase : Phase := .idle
  pos : Nat := 0
  recs : List NetRec := []
  com : Overlay := {}
  dirty : BlockSet := {}
deriving DecidableEq, Repr

/-- A task trigger not yet dispatched (R125); task 16 is the tick task. -/
structure Trigger where
  task : Nat
  a : Word
  l : BitVec 3
deriving DecidableEq, Repr

/-- A task run on pipe 0 (R122, R124). -/
structure TaskRun where
  task : Nat
  run : NetRun
  tick : Nat            -- tick in which it was dispatched (R124)
  pos : Nat             -- next network
  last : Nat            -- one past its last network
  wrote : List Nat := []
  place : Nat := 0      -- strand-0 networks verified when it was dispatched (R122)
  early : Bool := false -- dispatched before the sample point (R164)
deriving DecidableEq, Repr

/-- One event task entry (Table 6.5). -/
structure TaskEnt where
  first : Nat := 0
  count : Nat := 0
  kind : Nat := 0
  prio : Nat := 0
  trigA : Nat := 0
  trigB : Nat := 0
  period : Nat := 1
  phase : Nat := 0
deriving DecidableEq, Repr

/-- A program slot's words and what is loaded from them (R120 to R123, R135). -/
structure Prog where
  words : Tbl Word := []
  bad : List Nat := []                -- words whose parity is bad (R156)
  valid : Bool := false               -- a checked program is in the slot
  n : Nat := 0                        -- code words
  strands : Nat := 1
  ranges : List (Nat × Nat) := []     -- first network and count of strands 0 to 3
  tickFirst : Nat := 0
  tickCount : Nat := 0
  tasks : List TaskEnt := []
  shared : List Nat := []
deriving DecidableEq, Repr

/-- A ledger entry with the L of entry kept beside it (R160). -/
structure Ledger where
  rd : BlockSet := {}
  wr : BlockSet := {}
  lIn : BitVec 3 := 0
deriving DecidableEq, Repr

/-- The cycle engine (R114 to R172). -/
structure Exe where
  prog0 : Prog := {}
  prog1 : Prog := {}
  runSlot : Nat := 0                 -- TRIAL_STAT.run_slot
  couched : Memory := []             -- the last couched sheet, by the addresses of R485
  latched : Memory := []             -- I and lane-event words as last latched (R162, R165)
  evNext : Memory := []              -- lane-event bits and words the exchange wrote (R19)
  iPut : List (Nat × Nat × Nat) := []  -- image writes to I for the next sample point: byte address, mask, value (R486)
  strands : Tbl Strand := []
  tasks : List TaskRun := []         -- running task first, the runs it preempted behind it
  pend : List Trigger := []          -- triggers in order of arrival
  miss : Tbl Nat := []               -- TASK_MISS (R125)
  ledger : Tbl Ledger := []
  changed : List Nat := []           -- the changed set of this cycle (R165)
  inCycle : Bool := false
  first : Nat := 0                   -- first tick, the sample tick S (R118, R170)
  due : Nat := 0                     -- due boundary
  sampled : Bool := false            -- the sample point has passed
  fullRow : Nat := 0                 -- row of Table 8.4, 0 incremental
  nextFull : Nat := 0                -- row that makes the next cycle full
  noEdge : Bool := false             -- R139: no I edge in this cycle
  spoiled : Bool := false            -- R156: the cycle does not couch
  dead : List Nat := []              -- pipes that execute nothing more in this cycle (R156)
  held0 : Bool := false              -- strand 0's verification waits for task runs (R165)
  broke : Nat := 0
  ovf : Nat := 0
  brokeLast : Nat := 0               -- SPEC_STAT
  ovfLast : Nat := 0
  fullLast : Nat := 0
  div0 : Nat := 0                    -- EXEC_STAT
  msgRej : Nat := 0
  divPipes : List Nat := []          -- pipes that raised EVT-0701 in this cycle
  rfl : Bool := false                -- a retained-store flush is requested (R129)
  couchTick : Nat := 0               -- tick number of the last couch
  everCouched : Bool := false
  qimm : List (Nat × Bool) := []     -- QIMM bits handed to the field-link controller (R151)
  taken : List (Nat × Nat) := []     -- lane-event words marked taken by LEVC: lane, k (R130)
deriving DecidableEq, Repr

/-- Trial states (Table 8.7). -/
inductive TrialSt where
  | idle | staged | running | passed | failed
deriving DecidableEq, Repr

/-- One differing address (R187). -/
structure TrialDiff where
  region : Nat
  index : Nat
  declared : Bool
  cycles : Nat
  first : Nat
deriving DecidableEq, Repr

/-- A live task run to be mirrored in the trial (R177). -/
structure Mirror where
  task : Nat
  a : Word
  l : BitVec 3
  place : Nat
  tick : Nat
deriving DecidableEq, Repr

/-- The trial (R173 to R187). -/
structure Trial where
  st : TrialSt := .idle
  armed : Bool := false
  cycles : Nat := 0
  compared : Nat := 0                   -- comparisons since the trial was last started
  cycNo : Nat := 0                      -- number of the present trial cycle
  skipRun : Nat := 0
  writeIgn : Bool := false
  editId : Nat := 0
  k : Nat := 256
  decl : List (Nat × Nat × Nat) := []   -- region, first, count
  digest : Nat := 0                     -- SHA-256 of the staged code words (R185)
  sheet : Memory := []
  diffs : List TrialDiff := []          -- in the order found; TRIAL_DIFF shows the first 64
  started : Bool := false               -- the trial cycle began at the live sample point
  finished : Bool := false              -- the trial cycle is complete
  strand : Nat := 0
  pos : Nat := 0
  run : NetRun := {}
  coms : Tbl Overlay := []              -- writes of the edited program's strands in this cycle
  mirrors : List Mirror := []           -- the live task runs of this cycle, in the order of their placements
  ran : Nat := 0                        -- how many of them the trial has begun
  tasks : List TaskRun := []
  lastEdit : Nat := 0                   -- ID_EDIT (R487)
  persist : Option Nat := none          -- edit_id of a committed edit to be persisted (R113)
deriving DecidableEq, Repr

/-! ## Configuration, flash and boot (04, 05) -/

/-- One configuration record: type, instance and payload bytes (Table 5.3, Table 5.7). -/
structure CfgRec where
  typ : Nat
  inst : Nat
  payload : List Byte
deriving DecidableEq, Repr

/-- One core fuse word at its two margins (R75). -/
structure FuseWord where
  normal : Nat := 0
  tight : Nat := 0
deriving DecidableEq, Repr

/-- The core fuses: three copies of each trim word, two key hashes, the debug-lock (Table 4.2). -/
structure Fuses where
  trims : Tbl FuseWord := []            -- copy c of trim word i at 3i + c
  seorfen : List FuseWord := []         -- eight words of hash, empty: unfused
  customer : List FuseWord := []
  debugLock : FuseWord := {}
deriving DecidableEq, Repr

/-- Straps, identity fixed in manufacture, the external flash and what the boot ROM found (04, 05, 23). -/
structure Boot where
  unitId : Nat := 0                     -- UNIT_ID strap, ID_STRAP[0]
  e0Strap : Nat := 0                    -- ID_STRAP[2:1]
  banks : List Bool := [true, true, true, true, true]  -- levels of VDDIO_LA, LB, FL, E0, E1: 3.3 V, else 1.8 V (R505)
  flash : Memory := []                  -- erased byte 0xFF
  flashMiB : Nat := 64                  -- density the SFDP table gives; 0: no valid SFDP table (R79, R92)
  flashModes : Nat := 1                 -- interface modes it advertises: bit 0 1-1-1, bit 1 1-4-4, bit 2 8-8-8 DTR (R92)
  flashAddr4 : Bool := true             -- it advertises 4-byte addressing (R80)
  extAddr : Nat := 0                    -- the device's extended address register (R80)
  readMode : Nat := 0                   -- row of Table 4.4 in use: 0 SFDP discovery, 1 1-1-1, 2 1-4-4, 3 8-8-8 DTR
  fuses : Fuses := {}
  failTest : Nat := 0                   -- self-test that fails, Table 4.6; 0 none
  marginal : Nat := 0                   -- FUSE_STAT (Table 4.3)
  unresolved : Nat := 0
  fuseCause : Nat := 0
  fuseE : Nat := 0                      -- E-clocks since the reset at the last fuse read (R90)
  fuseTemp : Int := 25                  -- junction temperature at it, °C
  debugLock : Bool := true
  custKey : Nat := 2
  seorfenKey : Bool := false
  lastTrims : Tbl Nat := []             -- trim values in force
  lastRead : Tbl Nat := []              -- last read of every fuse word, both margins (R90)
  progUnsigned : Bool := false          -- BOOT_STAT (Table 4.5)
  recovery : Bool := false
  cfgSel : Nat := 2
  progSel : Nat := 2
  fwSel : Nat := 2
  cfgFall : Bool := false
  progFall : Bool := false
  fwFall : Bool := false
  sfdpOk : Bool := false
  skipped : Nat := 0                    -- FI_STAT (Table 5.10)
  journalUsed : Nat := 0
  keyArea : Bool := false
  hdrMirror : Bool := false
  journalGen : Nat := 0                 -- JOURNAL_GEN
deriving DecidableEq, Repr

/-- A key record of the key area: its instance, key_id and 32 key bytes (R108, R320). -/
structure KeyRec where
  inst : Nat
  id : Nat
  bytes : List Byte
deriving DecidableEq, Repr

/-- What threading keeps of the image: areas, identity, digests, key area, configuration (05, 23). -/
structure Image where
  areas : Tbl (Nat × Nat) := []         -- offset, capacity of copy c of area a at 2a + c
  keyOff : Nat := 0
  keyLen : Nat := 0
  keyAt : Nat × Nat := (0, 0)           -- offset and length of the key area as the directory gives them (R101)
  cfg : List CfgRec := []
  fwBuild : Nat := 0                    -- ID_FW
  progBuild : Nat := 0                  -- ID_PROG
  storeNum : Nat := 0                   -- ID_STORE_NUM
  storeUuid : List Byte := []           -- ID_STORE_UUID
  storeName : List Byte := []
  cfgDigest : Nat := 0                  -- R109
  progDigest : Nat := 0
  keys : List KeyRec := []              -- HMP pre-shared keys (R108)
  klpKeys : List KeyRec := []           -- KLP keys (R320)
deriving DecidableEq, Repr

/-! ## Events and the retain store (18, 19, 26) -/

/-- One event log entry (Table 18.6). -/
structure LogEntry where
  seq : Nat := 0
  code : Nat := 0
  cls : Nat := 0
  lane : Nat := 0
  tick : Nat := 0
  flags : Nat := 0
  arg : Nat := 0
  utc : Nat := 0
deriving DecidableEq, Repr

/-- Events raised within the present step and not yet appended, the EVENTs waiting for KLP, the log second. -/
structure Evt where
  batch : List LogEntry := []           -- appended in ascending code order at the step's end (R529)
  early : List LogEntry := []           -- detected before the firmware started (R529)
  klpHeld : List LogEntry := []         -- held EVENTs, at most 16 while KLP is not served (R528)
  sysOut : List LogEntry := []          -- events not yet offered to the syslog export (R415)
  sysSent : List (List Byte) := []      -- messages sent to the collector in this second
  secCount : Nat := 0                   -- entries written in this log second (R439)
  secLost : Nat := 0
  onceC : List Nat := []                -- the same within this cycle, where a rule says once per couch
  once : List Nat := []                 -- codes already raised in this tick, where a rule says once per tick
  atBnd : Bool := false                 -- the model's own: the last command was a tick boundary, or acts at one
deriving DecidableEq, Repr

/-- One slot of a row set (R434). -/
structure RowSlot where
  good : Bool := false
  tick : Nat := 0
  index : Nat := 0
  kind : Nat := 0
  gen : Nat := 0
  data : List Word := []
deriving DecidableEq, Repr

/-- One fuse-read or boot-failure report (Table 19.2). -/
structure Report where
  kind : Nat
  tick : Nat
  data : List Nat
deriving DecidableEq, Repr

/-- The retain store and its registers (R433 to R441). -/
structure Ret where
  rows : Tbl RowSlot := []              -- row set r, slot t at 2r + t
  p : Nat := 0
  lastRot : Nat := 0                    -- 1 + E-clock of the last rotation step; 0 none since THREAD
  flushes : List Nat := []              -- ticks of the flushes since threading (R436)
  pfDone : Bool := false
  bad : Nat := 0
  pfCnt : Nat := 0
  wdS : Nat := 0                        -- expiry counts WD-S, WD-C
  wdC : Nat := 0
  bootCnt : Nat := 0
  wakeCtr : Nat := 0                    -- last accepted wake_ctr (R326)
  evtSeq : Nat := 0
  log : Tbl LogEntry := []              -- entry seq at seq mod 4096
  reports : List Report := []           -- newest first, 64 at most
deriving DecidableEq, Repr

/-- The backup domain and the SNTP client (R419 to R431, R441). -/
structure Rtc where
  sub : Nat := 0
  sec : Nat := 0                        -- RTC_SEC
  cal : Nat := 0                        -- seconds of the calendar since 2000-01-01, to 2199-12-31
  valid : Bool := false
  latSub : Nat := 0
  latDate : Nat := 0
  latTime : Nat := 0
  setSec : Nat := 0
  setSub : Nat := 0
  k : Int := 0                          -- correction of the present period
  kTemp : Int := 0
  slew : Int := 0                       -- r of R431
  alm0 : Word := 0
  alm1 : Word := 0
  fired : Nat := 0                      -- ALM_STAT[1:0]
  pin : Bool := false                   -- ALM_STAT[3], ALARM_N driven low
  almBk : Nat := 0                      -- ALM_BK.count
  almFirst : Nat := 0                   -- ALM_BK.first
  almBkSec : Nat := 0
  swFirst : Nat := 0
  swCnt : Nat := 0
  swSeen : Nat := 0                     -- BK_SW_CNT at the previous THREAD
  bkLow : Bool := false
  bkp : Tbl Word := []
  onVbak : Bool := false
  charger : Nat := 0                    -- mode in which the trickle charger runs (R428)
  fwAlarms : List Nat := []             -- alarms fired before the firmware started (R425)
  polling : Bool := false               -- an SNTP poll awaits its reply (R430)
  fails : Nat := 0                      -- consecutive polls without a usable reply
  cyc : Nat := 0                        -- crystal cycles of the present 256 s period
  now : Nat := 0                        -- alarms that have fired for the present second
deriving DecidableEq, Repr

/-! ## The debug and HMP address space's own registers (23) -/

/-- REAM_STAT of one ream (Table 23.7). -/
structure ReamStat where
  pending : Bool := false
  refused : Bool := false
  skipped : Bool := false
  firstSkip : Nat := 4095
  landed : Nat := 0
  disagree : Bool := false
  readSkip : Bool := false
  readMembers : Nat := 0
deriving DecidableEq, Repr

/-- A staged write: its address, mask and value. -/
structure Staged where
  addr : Nat
  mask : Word
  val : Word
  who : Nat := 0                     -- requester: 0 none, 1 DAP, 2 HMP
  sess : Nat := 0                    -- its HMP session and request
  req : Nat := 0
deriving DecidableEq, Repr

/-- Address errors, ream windows, staged writes and the last answer of an access (R484 to R492). -/
structure Bus where
  errCount : Nat := 0
  errReq : Nat := 0
  errStatus : Nat := 0
  errLast : Nat := 0
  reams : Tbl ReamStat := []
  image : List Staged := []             -- image writes in order of completion (R486)
  staged : List Staged := []            -- mirror and ream writes in order of completion (R304, R491)
  ans : Word := 0                       -- word the last read answered
  status : Nat := 0                     -- status of the last access
deriving DecidableEq, Repr

/-! ## Debugging (22) -/

/-- A watchpoint (R480). -/
structure Wp where
  en : Bool := false
  access : Nat := 0
  compare : Bool := false
  region : Nat := 0
  index : Nat := 0
  value : Word := 0
deriving DecidableEq, Repr

/-- A breakpoint (R479). -/
structure Bp where
  en : Bool := false
  word : Nat := 0
  moved : Bool := false
deriving DecidableEq, Repr

/-- The TAP, authentication, the DAP and the halts (R466 to R483). -/
structure Dbg where
  tapIr : Nat := 2                 -- TAP instruction register: IDCODE in Test-Logic-Reset
  boundary : Nat := 0              -- boundary register, 712 cells
  tdo : Nat := 0                   -- data register last captured: IDCODE, or the nonce of DBGAUTH
  extest : Bool := false
  islIr : Nat := 2                 -- island TAP: instruction register, 96 cells, IDCODE last captured (R468)
  islBoundary : Nat := 0
  islTdo : Nat := 0
  auth : Bool := false
  lockout : Bool := false
  failures : Nat := 0
  nonce : Nat := 0                 -- free value drawn at reset and after a failure (R469)
  extestRefused : Bool := false
  mask : Word := 0xFFFFFFFF        -- SET_MASK (Table 22.3)
  status : Nat := 0                -- capture: status, arg, result (Table 22.2)
  arg : Nat := 0
  result : Word := 0
  busy : Bool := false
  halted : Nat := 0                -- DBG_STAT (Table 22.4)
  s0Only : Bool := false
  pending : Nat := 0
  pendS0 : Bool := false
  lastPipe : Nat := 0
  lastCause : Nat := 0
  lastIndex : Nat := 0
  stepping : Tbl Nat := []         -- pipe: 1 + word at which its step began
  stepWait : Nat := 0              -- pipes whose step ran to the strand's end: halt at the next sample point
  passBp : Nat := 0                -- pipes just released: their first word fires no breakpoint
  wpHit : Tbl Nat := []            -- pipe: 1 + watchpoint that fired, halt at the next boundary
  bps : Tbl Bp := []
  wps : Tbl Wp := []
deriving DecidableEq, Repr

/-! ## Field blocks and the field link (10, 11) -/

/-- One entry of a block's event queue (Table 11.5). -/
structure EvEntry where
  rising : Bool
  channel : Nat
  pri : Bool
  age : Nat
  stamp : Nat
deriving DecidableEq, Repr

/-- Output states of a block (Table 10.3). -/
inductive BlkSt where
  | unowned | owned | holding | safe
deriving DecidableEq, Repr

/-- One KF-24 field block (R217 to R256). -/
structure Block where
  powered : Bool := false
  lineTimed : Bool := false          -- takes its timing from the line (R520)
  serial : Nat := 0                  -- BLK_SERIAL
  part : Nat := 0x0F24               -- part code of BLK_ID
  stepping : Nat := 1                -- its stepping code (R6)
  posA : Option Nat := none          -- position on port A, stored at enumeration
  posB : Option Nat := none
  alignA : Nat := 0                  -- align_ns of each port (R247)
  alignB : Nat := 0
  tickSel : Nat := 1
  holdM1 : Nat := 7                  -- BLK_STAT.hold_m1
  counterOn : Bool := false          -- the local tick counter runs
  counter : Nat := 0                 -- its last set value, 10 ns units
  tickLo : Nat := 0                  -- tick_lo of the open local tick (R253)
  settings : List Byte := []         -- 80 bytes; empty: settings_ok = 0
  st : BlkSt := .unowned
  owner : Nat := 0                   -- 0 none, 1 port A, 2 port B
  released : Bool := false           -- a release and no claim since (R254)
  relTick : Bool := false            -- the open local tick is that of the release sweep (R253)
  missed : Nat := 0
  ownerSeen : Bool := false          -- the owner's sweep of this local tick has passed
  ownerTick : Option Nat := none     -- tick_lo of the last owner sweep that passed (R254)
  keep : Bool := false
  safeDue : Bool := false            -- SAFE, but the safe values are not applied yet (R234)
  safeSeen : Bool := false
  cmd : Nat := 0                     -- last commanded values
  isl : Nat := 0                     -- OUT_STATE[7:0]
  safeHeld : Nat := 0                -- OUT_STATE[23:16]
  raw : Nat := 0                     -- levels at the coupler outputs
  acc : Nat := 0                     -- accepted levels, inv applied
  runs : Tbl Nat := []               -- bridged inputs: consecutive samples at a level not yet accepted
  stamps : Tbl Nat := []             -- their first sample's stamp
  ages : Tbl Nat := []               -- local boundaries since it
  queue : List EvEntry := []         -- at most 16
  evLost : Nat := 0                  -- IN_DIAG.ev_lost
  ovf : Bool := false                -- queue_ovf for the next input slot
  dsup : Nat := 0                    -- IN_DIAG[7:0]
  islandOk : Bool := false
  vfOk : Bool := false
  cmdLost : Bool := false            -- field island without a command frame for 50 µs (R231)
  vlOk : Bool := false
  limit : Nat := 0                   -- OUT_DIAG, by output
  therm : Nat := 0
  olOn : Nat := 0
  olOff : Nat := 0
  hot : Nat := 0                     -- outputs in thermal shutdown now
  turnA : Bool := true               -- frames of chain A are turned round here (R241)
  turnB : Bool := true
  ream : List (Nat × Word) := []     -- ream writes held for the next local boundary (R256)
deriving DecidableEq, Repr

/-- An own sweep on its way (Table 11.3), by position. -/
structure Sweep where
  tick : Nat
  count : Nat
  out : Tbl Nat := []
  ins : Tbl Nat := []
  urgentPos : Nat := 255
  urgentEntry : Nat := 0
  own : Nat := 0
  foreign : Nat := 0
  absent : Nat := 0
  accept : Nat := 0
  reached : Nat := 0                 -- blocks that have acted, by FB number
  stranger : Bool := false
  bad : Bool := false                -- a block received it with a bad check value (R243)
  measure : Bool := false            -- a measurement sweep (R84)
deriving DecidableEq, Repr

/-- An own event carrier on its way (R248). -/
structure Carrier where
  k : Nat
  places : Tbl Nat := []
  passed : Nat := 0                  -- blocks that it has passed, by FB number
  bad : Bool := false
deriving DecidableEq, Repr

/-- An urgent command: block, mask, value, and whether its block marked the frame applied (R250). -/
structure Urgent where
  fb : Nat
  mask : Nat
  val : Nat
  applied : Bool := false
  bad : Bool := false
  couch : Bool := false              -- it carries a mid-tick couch's outputs only, which the next sweep carries as well (R45)
deriving DecidableEq, Repr

/-- A ream write of family 2 whose frame 0x85 is on its way: the write, its mask by position and the done bits (R256). -/
structure ReamOut where
  write : Staged
  mask : Nat
  done : Nat := 0
  start : Option Nat := none         -- E-clock of the tick at which the frame left
  bad : Bool := false
deriving DecidableEq, Repr

/-- A field block view access waiting for its frame (R489). -/
structure FbAccess where
  fb : Nat
  off : Nat
  write : Bool
  val : Word
  since : Nat
  who : Nat := 0
  sess : Nat := 0
  req : Nat := 0
  words : List Nat := []             -- words of the same request already read
  more : Nat := 0                    -- words still to read after it
deriving DecidableEq, Repr

/-- The field-link controller (R240 to R258). -/
structure Fl where
  found : Nat := 0                   -- CHAIN_STAT.blocks: blocks that replied to the enumeration
  n : Nat := 0                       -- blocks of the chain, 0 until the enumeration has succeeded (EVT-0406: no outputs)
  rtt : Nat := 0                     -- CHAIN_STAT.rtt_ns
  foreign : Bool := false            -- CHAIN_STAT.foreign_owner
  blocks : Tbl Block := []           -- by FB number
  align : Tbl Nat := []              -- align_ns derived from the probes, by FB number
  slots : Tbl Nat := []              -- FB_SLOT
  known : Nat := 0                   -- blocks whose slot has come since the reset
  fresh : Nat := 0                   -- blocks whose slot came with this tick's sweep
  owned : Nat := 0                   -- FL_STAT owned, by FB number
  seenOwn : Nat := 0                 -- own_mask of the previous good sweep, by FB number
  seenForeign : Nat := 0
  told : Nat := 0                    -- owned blocks whose SAFE has been reported (R238)
  lostRun : Nat := 0                 -- FL_STAT run
  sweepBad : Nat := 0                -- FL_ERR
  carrierBad : Nat := 0
  urgentBad : Nat := 0
  unknownFt : Nat := 0
  strangers : Nat := 0
  strangerLast : Option Bool := none -- the last good sweep was flagged; none also after a flagged one in THREAD
  rttSeen : Option Nat := none       -- return time, off by more than 40 ns, that the last good sweep had
  sweep : Option Sweep := none
  carrier : Option Carrier := none
  urg : List Urgent := []            -- pending, in order of the executions that first made them pending
  fly : List Urgent := []            -- urgent frames sent and not yet returned
  refused : Tbl Nat := []            -- by FB number: consecutive sweeps with a refused claim (R208)
  relAll : Bool := false             -- the next sweep releases every block (R87, R208)
  claimed : Bool := false            -- the last sweep carried claims
  reply : List Nat := []             -- content a management frame brought back
  reams : List ReamOut := []         -- ream frames of the present tick
  busyTill : Nat := 0                -- E-clock of the tick to which a frame started in a gap keeps the outbound pair
  left : List Byte := []             -- the frame that left last, from FT on
  access : List FbAccess := []
deriving DecidableEq, Repr
/-! ## Lane switch (13) -/

/-- A packet: the bytes Table 13.1 counts, the slot it came from, its cancel tag, what it is and its content. -/
structure Pkt where
  bytes : Nat := 0
  src : Nat := 0
  tag : Option (Nat × Nat) := none   -- session number and seq (R323)
  lane : Nat := 255
  typ : Nat := 0                     -- KLP type (Table 14.5); 0: no KLP message
  eng : Nat := 255                   -- dialect engine a built frame is for
  ack : Bool := false                -- expect_ack
  form : Nat := 0                    -- KLP datagram: 0 data, 1 ack-only, 2 resend, 3 outside any session
  seq : Nat := 0                     -- seq of a resend
  peer : Option (Bool × Nat × Nat × Nat) := none  -- of a datagram outside any session: IPv6, own address, host address, port
  data : List Byte := []
deriving DecidableEq, Repr

/-- The scheduling state of a child of a scheduling point (R290). -/
structure Tag where
  s : Nat := 0
  f : Nat := 0
  last : Nat := 0
  len : Nat := 0                     -- its head length L
  busy : Bool := false               -- backlogged
  elig : Bool := false
deriving DecidableEq, Repr

/-- A port's chosen packet and the saved copy of what its choice changed (R297). -/
structure Chosen where
  q : Nat
  pkt : Pkt
  tq : Tag
  tu : Tag
  ts : Tag
  vq : Nat
  vu : Nat
  vs : Nat
  credits : List (Nat × Int)
deriving DecidableEq, Repr

/-- The lane switch (R282 to R305). -/
structure Sw where
  sched : Tbl Nat := []              -- scheduler mirror: bytes written since threading, 1 + byte by offset
  polm : Tbl Nat := []               -- policer mirror, likewise
  queues : Tbl (List Pkt) := []      -- waiting packets, head first
  chosen : Tbl (Option Chosen) := [] -- by port slot
  egr : Tbl Nat := []                -- cells held by each egress engine
  sent : Tbl Pkt := []               -- packet last committed, by port slot
  tagQ : Tbl Tag := []
  tagU : Tbl Tag := []               -- subscriber u at (port, service): 64 × (8p + v) + u
  tagS : Tbl Tag := []               -- service v at port p: 8p + v
  vQ : Tbl Nat := []                 -- virtual time among the queues of 64 × (8p + v) + u
  vU : Tbl Nat := []
  vS : Tbl Nat := []
  credit : Tbl Int := []             -- shaper credits, 1/256 byte
  tc : Tbl Nat := []                 -- policer buckets, 1/1024 byte; unlisted: 2 048 bytes
  tp : Tbl Nat := []
  polCnt : Tbl Nat := []             -- POL_CNT
  drop : Tbl Nat := []               -- Q_DROP
  snap0 : Nat := 16384 * 65536       -- BUF_SNAP0
  snap1 : Nat := 0
  snapTick : Nat := 0
  nobuf : Nat := 0
  cancelLate : Nat := 0
  undos : Nat := 0
  answer : Nat := 0                  -- outcome of the last cancel: 0 withdrawn, 1 late
deriving DecidableEq, Repr

/-! ## Lane ports, check values (12, 17) -/

/-- A lane-event word group (R279). -/
structure Group where
  first : Nat
  count : Nat
  latest : Bool
  ents : List (List Word) := []
  shown : Bool := false              -- the last exchange wrote its head, which a consuming read may take
deriving DecidableEq, Repr

/-- A lane: its power domain, its events and commands (R66, R67, R278 to R281, R300). -/
structure Lane where
  dom : Dom := .off
  closeN : Nat := 0                  -- boundaries since the closing was marked
  flushed : Bool := false            -- the flush is done; off at the next boundary (R67)
  pends : Tbl Nat := []              -- pending pulses of bits 0 to 23
  prev : Nat := 0                    -- bits 0 to 23 as written at the previous exchange
  lost : Bool := false
  groups : List Group := []
  disc : Nat := 0                    -- frames discarded, word 14
  cmdDrop : Nat := 0
  evOvf : Nat := 0
  closeDrop : Nat := 0
  closeRej : Nat := 0
deriving DecidableEq, Repr

/-- A frame that awaits its reply (R276). -/
structure Wait where
  pkt : Pkt
  deadline : Nat
  tries : Nat := 0                   -- resends so far
deriving DecidableEq, Repr

/-- A dialect engine and its port (R259 to R281). -/
structure Eng where
  up : Bool := false                 -- operated (R260)
  raw : List Byte := []              -- the frame in progress as received
  inFrame : Bool := false
  outside : List Byte := []          -- last bytes received outside a frame (R275)
  resync : Bool := false             -- awaits a start delimiter, or a gap (R271)
  trail : Nat := 0                   -- 1 + trail bytes still to come, after an end delimiter
  rtsOff : Bool := false             -- RTS inactive (R262)
  cts : Bool := false
  usbAddr : Nat := 0
  speed : Nat := 0
  usbPort : Nat := 255               -- H port of an attached auxiliary engine
  fault : Bool := false
  busOff : Bool := false
  missRun : Nat := 0
  err : Nat := 0                     -- PORT_ERR
  rx : Nat := 0
  tx : Nat := 0
  wait : Option Wait := none
  poll : Option Nat := none          -- deadline of a poll that awaits its reply (R277)
  oc : Bool := false                 -- VBUS dropped on an overcurrent, until the port restarts (R516)
  tec : Nat := 0                     -- CAN error counters
  recv : Nat := 0
  sentTpl : List Byte := []          -- bytes last sent on the wire
  going : List Byte := []            -- those of them that may still be leaving (R262)
  waiting : List (Nat × List Byte) := []  -- what waits for CTS: frames that PORT_TX will count, and the bytes
  abortLate : Nat := 0
  restart : Bool := false            -- PORT_CTL restart due at the next boundary (R488)
  prnStatus : Nat := 0               -- printer port status at the last poll (R264)
deriving DecidableEq, Repr

/-- A check-value unit's counters (R389 to R394). -/
structure Cv where
  p : Option Nat := none
  g : Nat := 0
  bad : Nat := 0
  rep : Nat := 0
  skip : Nat := 0
deriving DecidableEq, Repr

/-! ## Uplinks and KLP (14) -/

/-- A host message received and held (R316). -/
structure HostMsg where
  seq : Nat
  typ : Nat
  sub : Nat
  data : List Byte
deriving DecidableEq, Repr

/-- A data datagram sent and not acknowledged (R318). -/
structure Unack where
  seq : Nat
  typ : Nat
  tick : Nat
  tries : Nat
  data : List Byte
deriving DecidableEq, Repr

/-- A KLP session: lanes 0 to 7, then the store session (R314 to R320, Table 14.7). -/
structure Sess where
  isOpen : Bool := false
  auth : Bool := false
  v6 : Bool := false
  num : Nat := 0
  addr : Nat := 0
  port : Nat := 0
  txNext : Nat := 0
  rxNext : Nat := 0
  held : List HostMsg := []
  unack : List Unack := []
  lastAck : Nat := 0
  lastRx : Nat := 0                  -- tick of the last datagram received
  ackDue : Option Nat := none        -- tick at which ack-only is due (R317)
  key : Nat := 0
  nonce : Nat := 0
  own : Nat := 0                     -- the address on which the session is served
  resends : Nat := 0
deriving DecidableEq, Repr

/-- A KLP datagram that has left: addresses and ports, its VLAN tag's VID and PCP (0 and 0: no tag), its bytes (R308, R310). -/
structure KlpSent where
  v6 : Bool
  src : Nat
  sport : Nat
  dst : Nat
  dport : Nat
  vid : Nat
  pcp : Nat
  bytes : List Byte
deriving DecidableEq, Repr

/-- The KLP engine and the uplinks (R306 to R330). -/
structure Klp where
  sess : Tbl Sess := []
  err : Nat := 0                     -- KLP_ERR
  err2 : Nat := 0                    -- KLP_ERR2
  eth0 : Nat := 0                    -- ETH_ERR of E0, E1
  eth1 : Nat := 0
  frags : List (Nat × Nat) := []     -- reassemblies in progress: key, tick of the first fragment
  closeTold : List Nat := []         -- sources answered with CLOSE reason 2 in this tick
  sent : Option KlpSent := none      -- the engine's last datagram on its uplink
deriving DecidableEq, Repr

/-! ## The felt link and the pair (09) -/

/-- One address announcement: a gratuitous ARP or an unsolicited neighbour advertisement with the override flag (R210). -/
structure Announce where
  uplink : Nat
  v6 : Bool
  addr : Nat                         -- shared_v4 or shared_v6
  mac : Nat                          -- shared_mac
deriving DecidableEq, Repr

/-- A release that this unit has begun: why, what becomes of it afterwards, and the boundaries since the release
couch (R212). -/
structure Release where
  toStandby : Bool                   -- a return or a request for STANDBY; otherwise HOLD
  boundaries : Nat := 0
  swept : Bool := false              -- the sweep that carries the release has left
deriving DecidableEq, Repr

/-- The felt link, the copies, readiness, ownership signals and returns (R188 to R216). -/
structure Felt where
  lpown : Bool := false              -- LPOWN driven high (R209)
  lpownIn : Bool := false            -- LPOWN_IN as sampled
  partnerOk : Bool := false          -- PARTNER_OK as sampled
  okLow : Bool := false              -- a low of at least 1.0 µs captured since the last boundary (R450)
  lane0 : Bool := false              -- receive lanes in sync
  lane1 : Bool := false
  trained : Bool := false
  lostTicks : Nat := 0               -- boundaries since training was lost
  wasTrained : Bool := false
  silence : Nat := 0                 -- consecutive missed heartbeats
  gapRun : Nat := 0
  gaps : Nat := 0                    -- FELT_GAPS
  crcBurst : Nat := 0                -- FELT_CRC
  crcShort : Nat := 0
  delayNs : Nat := 0                 -- one-way delay
  probeId : Nat := 0
  turn : Nat := 0                    -- turnaround last echoed, E-clocks
  fullPending : Bool := false
  fullNext : Bool := false           -- the next copy sent is full
  witness : Bool := false
  keep : Bool := false               -- sweeps carry keep until the first couch after taking over (R255)
  offerDue : Bool := false           -- a pair record that found the mailbox full is offered again (R214)
  partnerMode : Option Nat := none   -- from its heartbeats
  partnerFlags : Nat := 0
  partnerTick : Nat := 0             -- its last consistent couch
  partnerGap : Nat := 0
  pages : Tbl Nat := []              -- 1 + couch tick at which each page was last written (R199)
  base : Option Nat := none          -- couch of the last copy acknowledged in time
  lastCopy : Option Copy := none     -- the copy last sent
  copying : Bool := false            -- it is still being sent
  sessSnap : Tbl SessEnt := []       -- session entries as the last copy showed them, for what has changed since
  sessStamp : Tbl Nat := []
  pairStamp : Nat := 0               -- 2 + couch tick after which the pair record is new
  pairRec : List Byte := []          -- latest sealed pair record of the island (R214)
  swapMark : Option Nat := none      -- edit_id marked in copies until acknowledged (R206)
  swapFrom : Nat := 0
  dormMark : Bool := false
  dormFrom : Nat := 0
  swapped : Nat := 0                 -- edit_id last swapped on a mark
  consistent : Option Nat := none    -- last consistent couch (R201)
  goodRun : Nat := 0
  ready : Bool := false
  editBad : Bool := false            -- edit mismatch (R186)
  wantStandby : Bool := false        -- STANDBY at the first acknowledged copy
  since : Nat := 0                   -- tick of entry to STANDBY
  reportId : Nat := 0                -- the partner's edit report (R185)
  reportDigest : Nat := 0
  returns : List Nat := []           -- ticks of this unit's claims by return
  returnBlocked : Bool := false
  returnPending : Bool := false
  returnAsked : Bool := false        -- active: the partner's heartbeat requests a return
  claimIn : Nat := 0                 -- boundaries to the claim after a marked copy; 0 none
  lastCause : Nat := 0               -- PAIR_STAT.last_cause
  rel : Option Release := none
  syncDue : Option Nat := none       -- cause of the SYNC to be sent when LPOWN rises (R328)
  garp : Nat := 0                    -- address announcements still to send (R210)
  announced : Nat := 0               -- announcements sent
  wakeOut : Nat := 0                 -- WAKE_CAUSE bits signalled to the partner (R72)
  editOut : Bool := false            -- an edit report goes to the partner (R206)
  hbFlags : Nat := 0                 -- flags of the heartbeat last sent
  sent : List (List Byte) := []      -- short frames sent in the present tick (Table 9.2)
  burstA : List Byte := []           -- the bursts of the copy last sent (Table 9.4)
  burstB : List Byte := []
  unlisted : Nat := 0                -- frames of an unlisted type discarded (R193)
  partnerNow : Nat := 0              -- the partner's tick number, from its frames
  probeN : Nat := 0                  -- ticks since training, for the probe (R191)
  ann : List Announce := []          -- address announcements of the present tick (R210)
deriving DecidableEq, Repr

/-- Partner negotiation in THREAD (R86, R87). -/
structure Nego where
  parts : Nat := 0                   -- parts received
  idcode : Nat := 0
  home : Bool := false
  mode : Nat := 0
  blocks : Nat := 0
  foreign : Bool := false
  cfg : Nat := 0
  prog : Nat := 0
  serials : List Nat := []
  row : Nat := 0                     -- row of Table 4.8 taken; 0 none yet
  waitRelease : Bool := false        -- waits for the partner's release report
  result : Option Mode := none
deriving DecidableEq, Repr

/-! ## The sluice and the metrology island (01, 15, 16) -/

/-- A sluice message (Table 1.5). -/
structure SluMsg where
  code : Nat
  lane : Nat
  seq : Nat
  data : List Byte
  rsvd : Nat := 0                    -- reserved field of its header
deriving DecidableEq, Repr

/-- The sluice's mailboxes of 32 slots and its counters (R29 to R31). -/
structure Slu where
  down : List SluMsg := []           -- oldest first
  up : List SluMsg := []
  downSeq : Nat := 0
  upSeq : Nat := 0
  downFull : Nat := 0                -- SLU_DOWN_FULL
  downLost : Nat := 0                -- SLU_DOWN_LOST
  bad : Nat := 0                     -- downward messages discarded for their form (R30)
  badUp : Nat := 0                   -- upward ones
  tick : Nat := 0                    -- SLU_TICK
  oper : Bool := false               -- SLU_ROLE
  paired : Bool := false
deriving DecidableEq, Repr

/-- Island states (Table 15.6); off: VM not good. -/
inductive IslSt where
  | off | sealed | opened | fault
deriving DecidableEq, Repr

/-- One audit record (Table 15.9). -/
structure Audit where
  seq : Nat
  cls : Nat
  counted : Bool
  count : Nat
  state : Nat
  boot : Nat
  tick : Nat
  param : Nat
  chan : Nat
  old : Nat
  new : Nat
  detail : Nat
  prev : Nat                         -- 8 bytes, most significant first
  tag : Nat
deriving DecidableEq, Repr

/-- A host request that a lane has taken (R370, R371). -/
structure LegalReq where
  code : Nat
  data : List Byte
  arrival : Nat                          -- ms of its arrival
deriving DecidableEq, Repr

/-- A lane's instrument in the island's RAM (R363 to R376). -/
structure IslLane where
  z : Rat := 0
  t : Int := 0
  zeroReq : Bool := true
  hist : List Rat := []              -- G of the last instants, newest first
  reqs : List LegalReq := []
  res : Nat := 0                     -- req field of the next record
  price : Nat := 0
  item : Nat := 0
  tel : Option Int := none           -- value of the newest accepted telegram
  telAt : Nat := 0
  telStable : Bool := false
  acc : Nat := 0
  rej : Nat := 0
  invalid : Bool := true
  alive : Option Nat := none         -- received counter of the lane's IC unit
  lsSent : List Byte := []           -- bytes last sent on the lane's LS output: a poll, ACK or NAK (R367)
  lsPoll : Option Nat := none        -- SLU_TICK until which a poll's answer is in time
  lsMiss : Nat := 0                  -- polls in a row without an accepted telegram
  lsFault : Bool := false
deriving DecidableEq, Repr

/-- A legal display port: what it last showed (R377 to R379). -/
structure Ld where
  weight : List Byte := []
  weightAt : Nat := 0
  message : List Byte := []
  text0 : List Byte := []
  text1 : List Byte := []
  sent : List (List Byte) := []      -- frames last sent, in order
  wdm : List (List Byte) := []       -- the two frames built for WD-M (R453)
deriving DecidableEq, Repr

/-- A legal configuration copy: its parameters, its dialects and check-value units (R334). -/
structure LegalCfg where
  crcOk : Bool := false              -- the CRC of every record holds
  sealId : Nat := 0                  -- seal record: seal_id, and whether its tag verifies (R334)
  tagOk : Bool := false
  params : Tbl (Option Int) := []    -- values that differ from Table 16.2's defaults
  scales : Tbl (List Byte) := []     -- legal scale dialects
  displays : Tbl (List Byte) := []   -- legal display dialects
  ics : Tbl (List Byte) := []        -- records of IC0 to IC7
deriving DecidableEq, Repr

/-- The island: legal flash, fuses, MRAM and RAM (R332 to R379). -/
structure Isl where
  st : IslSt := .off
  cause : Nat := 0
  cal : Bool := false                -- CAL_N asserted, debounced
  ms : Nat := 0                      -- since the end of threading
  ident : Bool := false              -- the identification display is on
  fwA : List Byte := []              -- legal firmware copies
  fwB : List Byte := []
  fwPref : Nat := 0
  fwRun : Nat := 0
  cfgA : LegalCfg := {}
  cfgB : LegalCfg := {}
  cfgSel : Nat := 0
  gen : Nat := 0                     -- selector generation of the legal flash journal
  sealWord : FuseWord := {}              -- seal identity word
  debugOff : FuseWord := {}
  tap : Bool := false                -- the island TAP is in the chain, as island threading read debug-off (R468)
  count : Nat := 0                   -- counter bits blown at the normal margin
  marginal : Nat := 0                -- counter bits marginal besides
  trims : Tbl FuseWord := []         -- copy c of island trim word i at 3i + c
  lastTrims : Tbl Nat := []          -- trim values in force
  fuseMs : Nat := 0                  -- ms at which the island last read its fuses (R90)
  fuseTemp : Int := 25               -- its temperature then, °C
  wmKey : Nat := 0
  pairPriv : Nat := 0
  pairPub : List Byte := []
  partner : Nat := 0                 -- partner seal identity; 0 not paired
  partnerPub : List Byte := []
  pairKey : Nat := 0
  boot : Nat := 0
  audit : List Audit := []           -- oldest first
  auditSeq : Nat := 0                -- records written so far
  auditSent : Nat := 0              -- newest record sent in an extract
  recSeq : Nat := 0
  hold : List SluMsg := []           -- upward hold, 96 messages
  stParams : List (Nat × Int) := []  -- staged values, in the order staged
  stSeal : Option Nat := none
  stPair : Option (Nat × List Byte) := none
  stFw : Bool := false
  stConfirm : Bool := false
  upload : Nat := 0
  upNext : Nat := 0
  upTotal : Nat := 0
  upData : List Byte := []
  lanes : Tbl IslLane := []
  raw : Tbl Int := []
  raws : Tbl (List Int) := []        -- the last 100 raw values of a channel, newest first
  chanFault : Nat := 0
  temp : Int := 25
  lds : Tbl Ld := []
  lastImport : Option Nat := none
  imported : Bool := false           -- a state imported since the last reset
  impOper : Bool := false            -- a state imported since oper last rose
  oper : Bool := false               -- oper as the island last read it
  lastTick : Nat := 0                -- SLU_TICK as it last read it
  first : Bool := false              -- the next status is the first after reset
  rejected : Bool := false           -- an import rejected since the last status
  lastStatus : List Byte := []
  statusAt : Nat := 0
  stateAt : Nat := 0                 -- ms at which the pair state record was last formed
  stateRec : List Byte := []
  reply : List Byte := []            -- last service port reply
deriving DecidableEq, Repr

/-- What the management core keeps of the island (R355). -/
structure IslView where
  status : List Byte := []           -- fixed part of the latest legal status
  audits : List (List Byte) := []    -- audit records received, oldest first
deriving DecidableEq, Repr

/-- A pending bag-check of a lane (R383). -/
structure BagReq where
  id : Nat
  expected : Int
  start : Nat                        -- tick of the request
  base : Rat
deriving DecidableEq, Repr

/-- The bag-check service's view of a channel and a lane (R382, R383). -/
structure Bag where
  xs : List Int := []                -- values in 0.1 g, newest first, at most 50
  n : Int := 0
  settled : Option Rat := none       -- last settled value
  req : Option BagReq := none
deriving DecidableEq, Repr

/-! ## Attendant keys (21) -/

/-- A key channel; channel 16 is the guard (R457 to R462). -/
structure Key where
  base : Nat := 0                    -- baseline
  raw : Nat := 0                     -- last raw count
  pressed : Bool := false
  stuck : Bool := false
  fault : Bool := false              -- measures again from the next THREAD
  cond : Nat := 0                    -- condition of the last tick: 1 fault, 2 reverse, 3 touch, 4 clear; 0 none yet
  run : Nat := 0                     -- consecutive ticks with that condition, at most 4
  last : List Nat := []              -- raw counts of those ticks, newest first
  on : Nat := 0                      -- ticks since it became pressed
  step : Nat := 0                    -- ticks since the baseline last moved, or its condition to move began
deriving DecidableEq, Repr

/-! ## Watchdogs (20) -/

/-- WD-S or WD-C (R442 to R449). -/
structure Wd where
  en : Bool := false
  lock : Bool := false
  per : Nat := 0                     -- ms for WD-S, ticks for WD-C
  run : Bool := false                -- counting (R442, R445)
  since : Nat := 0                   -- E-clock of the last service
  key : Option Nat := none           -- E-clock of a first key write that awaits the second
  cut : Option (Nat × Nat) := none   -- the last disable: its E-clock, and the E-clock of the service before it
  held : List Staged := []           -- period writes held for the next open window (R446)
deriving DecidableEq, Repr

/-- Both watchdogs, their errors and an expiry in progress. -/
structure Wds where
  s : Wd := {}
  c : Wd := {}
  err : Nat := 0                     -- WD_ERR
  dorm : Bool := false               -- the DORMANT period is in force
  hold : Bool := false               -- the core die is held in reset by an expiry
  pulse : Bool := false              -- WDX_N driven low
deriving DecidableEq, Repr

/-! ## The management plane (18) -/

/-- A kept response (R402): op, request identifier, status, result bytes. -/
structure HResp where
  op : Nat
  req : Nat
  status : Nat
  result : List Byte
deriving DecidableEq, Repr

/-- An HMP session (R399 to R402). -/
structure HSess where
  num : Nat
  keyId : Nat
  inst : Nat                         -- inst of its key record
  idle : Nat := 0                    -- tick of the last accepted request
  top : Nat := 0                     -- highest counter accepted on UDP
  seen : List Nat := []              -- counters accepted within the 64 below it
  bulkTop : Nat := 0
  bulkSeen : List Nat := []
  kept : List HResp := []            -- last 8 responses, newest first
  key : List Byte := []              -- the 48 bytes of keys and salts (R399)
  tx : Nat := 0                      -- counters of the datagrams sent (R400)
  bulkTx : Nat := 0
deriving DecidableEq, Repr

/-- A slot write in progress (R408). -/
structure SlotWrite where
  area : Nat
  copy : Nat
  len : Nat
  next : Nat := 0
  hold : Nat := 0                    -- hold_edit
  eraseOk : Bool := true             -- its erase succeeds (R110)
  owner : Nat := 0                   -- session number; 0 the recovery listener
deriving DecidableEq, Repr

/-- The management core's HMP server and its log export (R396 to R418). -/
structure Hmp where
  sess : List HSess := []
  bulk : Option Nat := none          -- session whose bulk connection is open
  bulkOk : Option Nat := none        -- session that BULK_OPEN allows a connection
  err : Nat := 0                     -- HMP_ERR
  hdrBad : Nat := 0                  -- datagrams discarded for their header (R398)
  helloSec : Nat := 0                -- HELLOs handled in this second
  authSec : Bool := false            -- EVT-1802 raised in this second
  write : Option SlotWrite := none
  held : Option SlotWrite := none    -- a verified copy that waits for its edit (R409)
  waits : List (Nat × Nat × SlotWrite) := []  -- SLOT_BEGINs that wait for the write: session, req_id (R112)
  posts : List (Nat × Nat × Nat) := []  -- edit ring entries in place: session, req_id, ring index
  retries : List (Nat × Nat × RingEntry × Nat) := []  -- entries that found the ring full, with boundaries tried
  answer : Option HResp := none      -- response last sent
  sent : List Byte := []             -- the datagram that carried it
  plain : Nat := 0                   -- status of the last plain error
  hello : List Byte := []            -- the last HELLO reply, as its datagram
  sysSec : Nat := 0                  -- syslog messages sent in this second
  sysLast : Option Nat := none       -- tick of the last EVT-1806
deriving DecidableEq, Repr


/-- The machine. -/
structure State where
  clk : Clk := {}
  md : Md := {}
  ring : Ring := {}
  exe : Exe := {}
  trial : Trial := {}
  boot : Boot := {}
  img : Image := {}
  evt : Evt := {}
  ret : Ret := {}
  rtc : Rtc := {}
  bus : Bus := {}
  dbg : Dbg := {}
  fl : Fl := {}
  sw : Sw := {}
  lanes : Tbl Lane := []
  engs : Tbl Eng := []
  cv : Tbl Cv := []
  klp : Klp := {}
  felt : Felt := {}
  nego : Nego := {}
  slu : Slu := {}
  isl : Isl := {}
  islView : IslView := {}
  bags : Tbl Bag := []
  keys : Tbl Key := []             -- channels 0 to 15, and 16 the guard
  guard : Bool := false            -- the guard is active (R460)
  wd : Wds := {}
  hmp : Hmp := {}
  free : Nat := 0                  -- counts the free values drawn (the model's own field)
  pending : List Instr := []       -- commands waiting, first in first out
deriving DecidableEq, Repr

/-- Why a command stops with a fault. -/
inductive Fault where
  /-- Raised by nothing: the manual gives every command of the table an effect in every state. Safe: no claim can rest
  on a fault. -/
  | unreached
deriving DecidableEq, Repr

/-- Why a command is refused. -/
inductive Refusal where
  /-- A command with no meaning yet; no arm of `exec` answers it. Safe: the model stops there. -/
  | notModelled (mnemonic : String)
deriving DecidableEq, Repr

/-- What carrying out a command answers. -/
abbrev Out := Host.Outcome State Fault Refusal

/-- The machine before power comes: every field at the value the manual gives for power-on, else at the value that
assumption log entry 1 names; no command waits. -/
def State.reset : State := {}

end Sys2Proof.Machine
end

