-- ==== Sys2Proof/Machine/Evt.lean ====
section
/-! DEFINITION. Raising an event (26_event_catalogue): its class, the fault it latches, the log entry, the EVENT
for KLP and the syslog message; and entering HOLD/F. -/

namespace Sys2Proof.Machine

/-- Events of class F (Tables 26.2 and 26.3); EVT-1101 is of class F only at loss_limit (`raiseF`). -/
def classF : List Nat :=
  [0x0202, 0x0203, 0x0303, 0x0404, 0x0405, 0x0406, 0x0702, 0x0908, 0x1305,
   0x0204, 0x0301, 0x0505, 0x0509, 0x0603, 0x090B, 0x1106, 0x1201, 0x1202, 0x1304, 0x1403, 0x1603, 0x1701,
   0x1803, 0x1909, 0x2001, 0x2105]

/-- Events of class I (Table 26.3). -/
def classI : List Nat :=
  [0x0302, 0x0305, 0x0802, 0x0803, 0x0806, 0x0903, 0x0905, 0x1104, 0x1206, 0x1207, 0x1302, 0x1401, 0x1405,
   0x1502, 0x1503, 0x1505, 0x1601, 0x1602, 0x1703, 0x1801, 0x1804, 0x1901, 0x1905, 0x2101, 0x2103, 0x2201, 0x2203]

/-- Events that KLP carries (Table 26.3, column K). -/
def klpMarked : List Nat :=
  [0x0202, 0x0203, 0x0303, 0x0702, 0x0902, 0x0903, 0x0904, 0x0905, 0x0908, 0x1001, 0x1002, 0x1005, 0x1101,
   0x1203, 0x1206, 0x1303, 0x1305, 0x1501, 0x1504, 0x2003, 0x2102, 0x2104]

/-- The class byte of an event: 'F', 'W' or 'I' (Table 18.6). -/
def classOf (code : Nat) : Nat := if code ∈ classF then 0x46 else if code ∈ classI then 0x49 else 0x57

/-- MODE_STAT's code of a mode (Table 3.1); BACKUP has none and is written 0. -/
def Mode.code : Mode → Nat
  | .backup => 0 | .thread => 1 | .hold => 2 | .active => 3 | .standby => 4 | .dormant => 5

/-- One entry put into the step's batch. -/
def note (code cls arg lane flags utc : Nat) (s : State) : State :=
  { s with evt.batch := s.evt.batch ++
      [{ seq := 0, code := code, cls := cls, lane := lane, tick := s.clk.tick, flags := flags,
         arg := arg % 2 ^ 32, utc := utc }] }

/-- UTC seconds of an event: RTC_SEC while valid, else 0 (R421). -/
def utcNow (s : State) : Nat := if s.rtc.valid then s.rtc.sec else 0

/-- A transition of Table 3.4 to `m`, from HOLD to HOLD/F and back included: prev_mode, EVT-0302 (R55, R60). -/
def toMode (m : Mode) (s : State) : State :=
  note 0x0302 0x49 (s.md.mode.code * 256 + m.code) 255 0 (utcNow s) { s with md.prev := s.md.mode, md.mode := m }

/-- The mode changes to `m`, when it is another. -/
def setMode (m : Mode) (s : State) : State := if s.md.mode = m then s else toMode m s

/-- The cycle engine stops: no cycle, no runs, no pending triggers (R56, R125). -/
def stopEngine (s : State) : State :=
  { s with exe.inCycle := false, exe.strands := [], exe.tasks := [], exe.pend := [], exe.sampled := false,
           exe.spoiled := false, exe.qimm := [], exe.taken := [], exe.changed := [] }

/-- Entry to HOLD/F by a fault of this code: the latch is set, EVT-0303 (R60, R527). An earlier fault keeps fault_evt.
It ends threading, whose end reports RST_CAUSE (R64). -/
def enterHoldF (code : Nat) (s : State) : State :=
  let s := if s.md.mode = .thread then note 0x0305 0x49 s.md.rstCause 255 0 (utcNow s) s else s
  let s := stopEngine (toMode .hold s)
  let s := if s.md.fault then s else { s with md.fault := true, md.faultEvt := code }
  note 0x0303 0x46 code 255 0 (utcNow s) s

/-- An event raised with a class of its own. In THREAD a class F event ends threading at once in HOLD/F;
elsewhere it is a fault of the next tick boundary (R527). -/
def raiseAs (cls code arg lane : Nat) (s : State) : State :=
  let s := note code cls arg lane 0 (utcNow s) s
  if cls = 0x46 then
    (if s.md.mode = .thread then enterHoldF code s
     else { s with md.pendF := s.md.pendF ++ [code] })
  else s

/-- An event raised for a lane (R528). -/
def raiseL (code arg lane : Nat) (s : State) : State := raiseAs (classOf code) code arg lane s

/-- An event raised (R528). -/
def raise (code arg : Nat) (s : State) : State := raiseL code arg 255 s

/-- An event that its rule raises at most once in a tick. -/
def raiseOnce (code arg : Nat) (s : State) : State :=
  if s.evt.once.contains code then s else raise code arg { s with evt.once := code :: s.evt.once }

/-- As `raiseOnce`, for one of several like sources: `key` tells them apart. -/
def raiseOnceKey (key code arg lane : Nat) (s : State) : State :=
  if s.evt.once.contains key then s else raiseL code arg lane { s with evt.once := key :: s.evt.once }

/-- An entry inserted in ascending code order behind those of the same code (R529). -/
def insertByCode (e : LogEntry) : List LogEntry → List LogEntry
  | [] => [e]
  | f :: l => if e.code < f.code then e :: f :: l else f :: insertByCode e l

/-- A batch in ascending code order. -/
def sortByCode (l : List LogEntry) : List LogEntry := l.foldl (fun acc e => insertByCode e acc) []

/-- One entry appended to the log, within 100 entries a second (R414, R439). -/
def appendLog (e : LogEntry) (s : State) : State :=
  if s.evt.secCount < 100 then
    let q := (s.ret.evtSeq + 1) % 2 ^ 32
    { s with ret.evtSeq := q,
             ret.log := tset {} s.ret.log (q % 4096) { e with seq := q },
             evt.secCount := s.evt.secCount + 1 }
  else { s with evt.secLost := s.evt.secLost + 1 }

/-- One event delivered: log, syslog queue, EVENT queue (R528). Before the firmware starts it waits in the boot
report ring (R529). -/
def deliver (e : LogEntry) (s : State) : State :=
  if (s.md.mode = .thread ∧ s.md.thStat < 6) ∨ s.boot.recovery then { s with evt.early := s.evt.early ++ [e] }
  else
    let s := appendLog e s
    let e' := { e with seq := s.ret.evtSeq }
    let s := { s with evt.sysOut := s.evt.sysOut ++ [e'] }
    if e.code ∈ klpMarked then { s with evt.klpHeld := s.evt.klpHeld ++ [e'] } else s

/-- The step's events delivered in ascending code order (R529). -/
def flushEvents (s : State) : State :=
  (sortByCode s.evt.batch).foldl (fun s e => deliver e s) { s with evt.batch := [] }

/-- The events detected before the firmware started, appended when it starts; each keeps its tick (R529). -/
def flushEarly (s : State) : State :=
  (sortByCode s.evt.early).foldl (fun s e => deliver e s) { s with evt.early := [] }

/-- The lowest code of a list of fault codes. -/
def lowest : List Nat → Nat
  | [] => 0
  | [c] => c
  | c :: l => min c (lowest l)

end Sys2Proof.Machine
end

