-- ==== Sys2Proof/Machine/Fuse.lean ====
section
/-! DEFINITION. The core fuses (04_threading_the_tail): both margins, resolution by class, FUSE_STAT, the fuse-read
report, and the re-reads in service that change values only toward the conservative side. -/

namespace Sys2Proof.Machine

/-- Trim words of the model: the 32 RTC curve words c_0 to c_31, then the RTC offset, PLL and sensor words. -/
def trimCount : Nat := 35

/-- The two readings differ (R75). -/
def FuseWord.marginal (w : FuseWord) : Bool := w.normal != w.tight

/-- A trim word's value: held by at least two agreeing copies that are not marginal (Table 4.2); the copies of word `i` lie
at 3i to 3i + 2. -/
def trimValue (trims : Tbl FuseWord) (i : Nat) : Option Nat :=
  let good := ((List.range 3).map fun c => tget {} trims (3 * i + c)).filter fun w => !w.marginal
  (good.find? fun w => decide (2 ≤ (good.filter fun v => v.normal == w.normal).length)).map FuseWord.normal

/-- Every core fuse word with its class row of Table 4.2 and its index. -/
def fuseWords (f : Fuses) : List (Nat × Nat × FuseWord) :=
  ((List.range (3 * trimCount)).map fun i => (1, i, tget {} f.trims i))
    ++ ((List.range f.seorfen.length).map fun i => (2, i, nth {} f.seorfen i))
    ++ ((List.range f.customer.length).map fun i => (3, i, nth {} f.customer i))
    ++ [(4, 0, f.debugLock)]

/-- A key hash is usable: fused, with no marginal word (Table 4.2). -/
def keyUsable (ws : List FuseWord) : Bool := !ws.isEmpty && !ws.any FuseWord.marginal
/-- The customer key position: 0 unfused, 1 usable, 2 unusable (Table 4.3). -/
def custState (ws : List FuseWord) : Nat := if ws.isEmpty then 0 else if ws.any FuseWord.marginal then 2 else 1
/-- The resolved debug-lock: a marginal or blown word locks. -/
def lockState (w : FuseWord) : Bool := w.marginal || w.normal != 0

/-- A report written to the ring of 64 (Table 19.2). -/
def addReport (r : Report) (s : State) : State := { s with ret.reports := (r :: s.ret.reports).take 64 }

/-- Both readings of every word as one table, by place in `fuseWords`. -/
def fuseTable (f : Fuses) : Tbl Nat :=
  let ws := fuseWords f
  (List.range ws.length).foldl (fun m i =>
    let w := (nth (0, 0, ({} : FuseWord)) ws i).2.2
    tset 0 m i (w.normal * 2 ^ 32 + w.tight)) []

/-- What every read does: marginal words counted and reported, unresolved trims, last_cause, the report (R75, R90). -/
def fuseCommon (cause : Nat) (temp : Int) (s : State) : State :=
  let f := s.boot.fuses
  let ws := (fuseWords f).filter fun w => w.2.2.marginal
  let un := (List.range trimCount).filter fun i => (trimValue f.trims i).isNone
  let s := ws.foldl (fun s w => raise 0x0401 (w.1 * 2 ^ 24 + w.2.1) s) s
  let s := un.foldl (fun s i => raise 0x0402 i s) s
  addReport { kind := 1, tick := s.clk.tick, data := [cause, ws.length, un.length] }
    { s with boot.marginal := min 255 ws.length, boot.unresolved := min 255 un.length, boot.fuseCause := cause,
             boot.fuseE := s.clk.boundaryE, boot.fuseTemp := temp }

/-- Threading's read (step 3): every value resolved and taken. -/
def fuseBoot (temp : Int) (s : State) : State :=
  let f := s.boot.fuses
  let s := fuseCommon 0 temp s
  { s with boot.debugLock := lockState f.debugLock, boot.custKey := custState f.customer,
           boot.seorfenKey := keyUsable f.seorfen,
           boot.lastTrims := (List.range trimCount).foldl (fun m i =>
             tset 0 m i (match trimValue f.trims i with | some v => v | none => if i < 32 then 0 else Config.trimDefault i)) [],
           boot.lastRead := fuseTable f }

/-- The value in force of RTC curve word `i`: an unresolved word takes the default 0 (R422). -/
def curveWord (s : State) (i : Nat) : Int := toSigned 32 (tget 0 s.boot.lastTrims i)

/-- Why a re-read falls due (R90), as FUSE_STAT.last_cause gives it: 3 600 s have passed, or the junction temperature differs by
more than 30 K from the last read; 0 when neither holds. -/
def fuseDue (temp : Int) (s : State) : Nat :=
  if s.boot.fuseE + 3600 * 400000000 ≤ s.clk.boundaryE then 1
  else if 30 < (temp - s.boot.fuseTemp).natAbs then 2 else 0

/-- A re-read in service (R90, R91): values move only toward the conservative side; every change from the previous
read raises EVT-0408. -/
def fuseReread (cause : Nat) (temp : Int) (s : State) : State :=
  let f := s.boot.fuses
  let new := fuseTable f
  let n := (fuseWords f).length
  let changed := (List.range n).filter fun i => tget 0 new i != tget 0 s.boot.lastRead i
  let s := fuseCommon cause temp s
  let s := changed.foldl (fun s i => raise 0x0408 (nth (0, 0, ({} : FuseWord)) (fuseWords f) i).2.1 s) s
  { s with boot.debugLock := s.boot.debugLock || lockState f.debugLock,
           boot.custKey := if custState f.customer = 2 then 2 else s.boot.custKey,
           boot.seorfenKey := s.boot.seorfenKey && keyUsable f.seorfen,
           boot.lastRead := new }

end Sys2Proof.Machine
end

