-- ==== Sys2Proof/Machine/Code.lean ====
section
/-! DEFINITION. The instruction word as bits (07_instruction_set): its fields, operand classes and addresses,
its cost, and every load and encoding check of a program (Tables 6.7 and 7.10). -/

namespace Sys2Proof.Machine

/-! ## Fields and classes -/

/-- Opcode, bits 31:26 (Table 7.1). -/
def wOp (w : Word) : Nat := w.toNat / 67108864
/-- Modifier, bits 25:24. -/
def wMod (w : Word) : Nat := w.toNat / 16777216 % 4
/-- Operand, bits 23:0. -/
def wX (w : Word) : Nat := w.toNat % 16777216
/-- Region code of a memory-form operand. -/
def xReg (x : Nat) : Nat := x / 1048576
/-- Offset of a memory-form operand. -/
def xOff (x : Nat) : Nat := x % 1048576
/-- The word with these fields. -/
def mkWord (op md x : Nat) : Word := BitVec.ofNat 32 (op * 67108864 + md % 4 * 16777216 + x % 16777216)

/-- What an opcode's operand is (Tables 7.3, 7.5 to 7.9). -/
inductive Form where
  | bad | none | bitR | bitW | edge | timer | counter | crst | pre | value | cmp | store
  | jump | cond | lnxt | setl | net | lit | qimm | lev | lcb | outr | movr | msg
deriving DecidableEq, Repr

/-- The operand form of an opcode; `bad` for the illegal opcodes. -/
def opForm (op : Nat) : Form :=
  if op ∈ [0x01, 0x02, 0x03, 0x04, 0x05] then .bitR
  else if op ∈ [0x06, 0x07, 0x08, 0x1C, 0x31, 0x32, 0x3D, 0x3E] then .none
  else if op ∈ [0x09, 0x0A, 0x0B] then .bitW
  else if op ∈ [0x0C, 0x0D] then .edge
  else if op ∈ [0x10, 0x11, 0x12] then .timer
  else if op ∈ [0x13, 0x14] then .counter
  else if op = 0x15 then .crst
  else if op = 0x16 then .pre
  else if op ∈ [0x18, 0x19, 0x1D, 0x1E, 0x1F, 0x20, 0x21, 0x22, 0x23, 0x24, 0x25] then .value
  else if op ∈ [0x1A, 0x1B] then .store
  else if op ∈ [0x27, 0x28, 0x29, 0x2A, 0x2B] then .cmp
  else if op = 0x2C then .jump
  else if op = 0x2D then .cond
  else if op = 0x2E then .lnxt
  else if op = 0x2F then .setl
  else if op = 0x30 then .net
  else if op = 0x33 then .lit
  else if op = 0x35 then .qimm
  else if op ∈ [0x36, 0x37, 0x38] then .lev
  else if op = 0x39 then .lcb
  else if op = 0x3A then .outr
  else if op = 0x3B then .movr
  else if op = 0x3C then .msg
  else .bad

/-- The fences (R154). -/
def isFence (op : Nat) : Bool := op ∈ [0x35, 0x37, 0x38, 0x39, 0x3C, 0x3D, 0x3E]

/-- The word takes its value from its own immediate (Table 7.3). -/
def isImm (w : Word) : Bool :=
  match opForm (wOp w) with
  | .value | .cmp | .pre => 2 ≤ wMod w
  | _ => false

/-- Operand bits that the form leaves unused and that must be zero (R134, R148, R152). -/
def zeroMask : Form → Nat
  | .none => 0xFFFFFF
  | .jump | .cond => 0xFF0000
  | .lnxt => 0x1F0000
  | .setl => 0xFFFFF0
  | .lit => 0xFFFF00
  | .lev => 0xFFFFF0
  | .lcb => 0xFFFFE0
  | .outr | .movr => 0x00F000
  | _ => 0

/-- Table 7.2: offsets of a region code. -/
def regSize (r : Nat) : Nat :=
  if r = 0 ∨ r = 1 then 8192 else if r = 2 then 65536 else if r = 3 then 16384
  else if r = 4 ∨ r = 5 then 1024 else if r = 8 ∨ r = 9 ∨ r = 11 then 1024
  else if r = 10 then 4096 else if r = 12 ∨ r = 13 then 64 else if r = 14 then 2 else 0

/-- Region codes that a form may name (Table 7.2, Tables 7.5 to 7.9). -/
def regOk (f : Form) (r : Nat) : Bool :=
  match f with
  | .bitR => r ∈ [0, 1, 2, 4, 5, 8, 9, 10, 12, 13, 14]
  | .bitW => r ∈ [1, 2, 9, 10]
  | .edge => r ∈ [2, 10]
  | .timer => r ∈ [4, 12]
  | .counter | .crst => r ∈ [5, 13]
  | .pre => r ∈ [3, 11]
  | .value | .cmp => r ∈ [0, 1, 2, 3, 4, 5, 8, 9, 10, 11, 12, 13]
  | .store => r ∈ [1, 2, 3, 9, 10, 11]
  | .qimm => r ∈ [1, 9]
  | .msg => r ∈ [3, 11]
  | _ => true

/-- The form names a memory address by region and offset. -/
def isMem (w : Word) : Bool :=
  match opForm (wOp w) with
  | .bitR | .bitW | .edge | .timer | .counter | .crst | .store | .qimm | .msg => true
  | .value | .cmp | .pre => !isImm w
  | _ => false

/-- A word access: aligned on I, Q and M (R137). -/
def isWordForm : Form → Bool
  | .value | .cmp | .store => true
  | _ => false

/-- Check 10: an illegal opcode, or a bit set that must be zero. -/
def fail10 (w : Word) : Bool :=
  opForm (wOp w) == .bad || (wX w &&& zeroMask (opForm (wOp w))) != 0

/-- Check 11: a modifier that Table 7.3 refuses. -/
def fail11 (w : Word) : Bool :=
  match opForm (wOp w) with
  | .bad => false
  | .bitR | .cmp => false
  | .bitW | .qimm | .outr | .lcb | .cond | .timer | .counter | .crst => 2 ≤ wMod w
  | .value | .pre => wMod w == 1 || wMod w == 3
  | _ => wMod w != 0

/-- Check 12: region, offset, alignment (Table 7.2, R137, R152). -/
def fail12 (w : Word) : Bool :=
  let f := opForm (wOp w)
  let x := wX w
  if isMem w then
    !regOk f (xReg x) || decide (regSize (xReg x) ≤ xOff x)
      || (isWordForm f && (xReg x ∈ [0, 1, 2, 8, 9, 10]) && xOff x % 32 != 0)
  else match f with
    | .outr => !(xReg x == 9 && decide (x % 4096 < 1024) || xReg x == 10)
    | .movr => !(xReg x == 11 && decide (x % 4096 < 1024))
    | _ => false

/-- Check 13: a plain access to the lane-event and lane-command words, or a plain write to a lane-command bit. -/
def fail13 (w : Word) : Bool :=
  let f := opForm (wOp w)
  let x := wX w
  let writes := f == .bitW || f == .store || f == .qimm
  (isMem w && xReg x == 3 && decide (15360 ≤ xOff x ∧ xOff x ≤ 15615))
    || (isMem w && writes && (xReg x == 1 || xReg x == 9) && decide (992 ≤ xOff x % 1024))
    || (f == .outr && xReg x == 9 && decide (992 ≤ x % 4096))

/-- A word that passes the checks a word can be given alone (checks 10 to 13). -/
def wordOk (w : Word) : Bool := !(fail10 w || fail11 w || fail12 w || fail13 w)

/-! ## Addresses (Table 6.1) and blocks (R160) -/

/-- Region kinds: 0 I, 1 Q, 2 M, 3 D, 4 T, 5 C, 14 K; a code with bit 3 is the lane window of the code without it. -/
def kindOf (r : Nat) : Nat := if 8 ≤ r ∧ r < 14 then r - 8 else r

/-- The index a region code and offset reach with this L (R115, Table 6.1). -/
def resolveIdx (r off : Nat) (l : BitVec 3) : Nat :=
  match r with
  | 8 | 9 => 1024 * l.toNat + off
  | 10 => 32768 + 4096 * l.toNat + off
  | 11 => 4096 + 1024 * l.toNat + off
  | 12 | 13 => 512 + 64 * l.toNat + off
  | _ => off

/-- The block of an address, as kind × 8192 + index (R160). -/
def blockOf (kind idx : Nat) : Nat :=
  kind * 8192 + (if kind ≤ 2 then idx / 64 else if kind = 3 then idx / 2 else idx)

/-- Byte address of a bit region's bit (R485). -/
def bitAddr (kind idx : Nat) : Nat :=
  (if kind = 0 then 0x11000000 else if kind = 1 then 0x11000400 else 0x11001000) + idx / 8

/-- Byte address of a D word, a T or a C instance, or the byte of a bit (R485). -/
def byteAddr (kind idx : Nat) : Nat :=
  if kind = 3 then 0x11010000 + 4 * idx
  else if kind = 4 then 0x11020000 + 16 * idx
  else if kind = 5 then 0x11024000 + 16 * idx
  else bitAddr kind idx

/-- Byte range of a block: its first address and length. -/
def blockBytes (blk : Nat) : Nat × Nat :=
  let k := blk / 8192
  let b := blk % 8192
  if k ≤ 2 then (bitAddr k (64 * b), 8)
  else if k = 3 then (byteAddr 3 (2 * b), 8)
  else (byteAddr k b, 16)

/-! ## Networks of a program -/

/-- The word at `i` of a slot. -/
def pw (p : Prog) (i : Nat) : Word := tget 0 p.words i

/-- Word numbers of the NET words of the code, in order. -/
def netStarts (p : Prog) : List Nat :=
  (p.words.filter fun e => decide (e.1 < p.n) && wOp e.2 == 0x30).map Prod.fst

/-- First word of network `n`; the code's end when there is none. -/
def netStart (p : Prog) (n : Nat) : Nat := nth p.n (netStarts p) n

/-- One past the last word of network `n`. -/
def netEnd (p : Prog) (n : Nat) : Nat := nth p.n (netStarts p) (n + 1)

/-- Networks of the program. -/
def netTotal (p : Prog) : Nat := (netStarts p).length

/-- The words of network `n`. -/
def netWords (p : Prog) (n : Nat) : List Word :=
  (List.range (netEnd p n - netStart p n)).map fun i => pw p (netStart p n + i)

/-- First network and count of strand `k`. -/
def strandRange (p : Prog) (k : Nat) : Nat × Nat := nth (0, 0) p.ranges k

/-- First network and count of task `i`; 16 is the tick task. -/
def taskRange (p : Prog) (i : Nat) : Nat × Nat :=
  if i = 16 then (p.tickFirst, p.tickCount)
  else let t := nth ({} : TaskEnt) p.tasks i; (t.first, t.count)

/-- Network `n` lies in the range. -/
def inRange (n : Nat) (r : Nat × Nat) : Bool := decide (r.1 ≤ n ∧ n < r.1 + r.2)

/-- Who owns network `n`: a strand 0 to 3, or 4 + task; 99 none. -/
def netOwner (p : Prog) (n : Nat) : Nat :=
  match (List.range 4).find? fun k => inRange n (strandRange p k) with
  | some k => k
  | none =>
    match (List.range 17).find? fun i => inRange n (taskRange p i) with
    | some i => 4 + i
    | none => 99

/-- The pipe an owner runs on: strand k on pipe k, tasks on pipe 0 (R122). -/
def ownerPipe (o : Nat) : Nat := if o < 4 then o else 0

/-! ## What an instruction can reach (R126) -/

/-- A run of addresses of one kind: kind, first, count. -/
structure Span where
  kind : Nat
  lo : Nat
  n : Nat
deriving DecidableEq, Repr

/-- Two runs share an address. -/
def Span.meets (s t : Span) : Bool := s.kind == t.kind && decide (s.lo < t.lo + t.n) && decide (t.lo < s.lo + s.n)

/-- Every index an operand reaches with L from 0 to 7, as runs of `n`. -/
def reachMem (x n : Nat) : List Span :=
  if 8 ≤ xReg x ∧ xReg x < 14 then
    (List.range 8).map fun l => { kind := kindOf (xReg x), lo := resolveIdx (xReg x) (xOff x) (BitVec.ofNat 3 l), n := n }
  else [{ kind := kindOf (xReg x), lo := xOff x, n := n }]

/-- A run of D words without the lane-event and lane-command words (R153). -/
def dRun (lo n : Nat) : List Span :=
  let hi := min (lo + n) 16384
  [{ kind := 3, lo := lo, n := min hi 15360 - lo }, { kind := 3, lo := max lo 15616, n := hi - max lo 15616 }].filter
    fun s => s.n != 0

/-- Lanes of a ream's mask, in increasing order (R133). -/
def maskLanes (m : Nat) : List Nat := (List.range 8).filter fun l => bitOf m l

/-- The width of a word form's access on a region: 32 bits, one word, one instance. -/
def accLen (f : Form) (r : Nat) : Nat := if isWordForm f && decide (kindOf r ≤ 2) then 32 else 1

/-- Addresses an instruction can read. -/
def wReads (w : Word) : List Span :=
  let x := wX w
  match opForm (wOp w) with
  | .bitR => if xReg x = 14 then [] else reachMem x 1
  | .edge | .timer | .counter | .crst => reachMem x 1
  | .value | .cmp => if isImm w then [] else reachMem x (accLen .value (xReg x))
  | .pre => if isImm w then [] else reachMem x 1
  | .lev =>
    if wOp w = 0x38 then [] else (List.range 8).map fun l => { kind := 3, lo := 15360 + 16 * l + x % 16, n := 1 }
  | .msg => (reachMem x 1).flatMap fun s => dRun s.lo 65
  | _ => []

/-- Addresses an instruction can write; `lanes r` are the lanes of ream r. -/
def wWrites (lanes : Nat → List Nat) (w : Word) : List Span :=
  let x := wX w
  match opForm (wOp w) with
  | .bitW | .qimm | .edge | .timer | .counter | .crst => reachMem x 1
  | .store => reachMem x (accLen .store (xReg x))
  | .lev =>
    if wOp w = 0x38 then (List.range 8).map fun l => { kind := 3, lo := 15488 + 16 * l + x % 16, n := 1 } else []
  | .lcb => (List.range 8).map fun l => { kind := 1, lo := 1024 * l + 992 + x % 32, n := 1 }
  | .outr | .movr =>
    (lanes (x / 65536 % 16)).map fun l =>
      { kind := kindOf (xReg x), lo := resolveIdx (xReg x) (x % 4096) (BitVec.ofNat 3 l), n := 1 }
  | _ => []

/-- Two lists of runs share an address. -/
def spansMeet (a b : List Span) : Bool := a.any fun s => b.any fun t => s.meets t

/-- Blocks of a run. -/
def spanBlocks (s : Span) : List Nat := ((List.range s.n).map fun i => blockOf s.kind (s.lo + i)).eraseDups

/-! ## Costs (R157, R158) -/

/-- Cost on pipe 0 and accesses of a word, an MSG with w = 64 (Tables 7.5 to 7.9). -/
def costAcc (lanes : Nat → List Nat) (w : Word) : Nat × Nat :=
  let x := wX w
  let imm := isImm w
  let op := wOp w
  match opForm op with
  | .bitR => let c := if 2 ≤ wMod w then 2 else 1; (c, if xReg x = 14 then 0 else c)
  | .none => (if op = 0x31 ∨ op = 0x32 ∨ op = 0x3E then 2 else 1, 0)
  | .bitW => (1, 1)
  | .edge => (2, 2)
  | .timer => (6, 2)
  | .counter => (5, 2)
  | .crst => (2, 2)
  | .pre => (0, if imm then 0 else 1)
  | .value =>
    let c := if op = 0x1F then 3 else if op = 0x20 then 17 else 1
    if imm then (c, 0) else (c + 1, 1)
  | .cmp => if imm then (1, 0) else (2, 1)
  | .store => (2, 1)
  | .jump => (3, 0)
  | .cond | .lnxt | .setl | .lit => (1, 0)
  | .net => (4, 0)
  | .qimm => (4, 1)
  | .lev => (if op = 0x36 then 2 else 3, 1)
  | .lcb => (2, 1)
  | .outr | .movr => let m := (lanes (x / 65536 % 16)).length; (1 + m, m)
  | .msg => (70, 65)
  | .bad => (0, 0)

/-- Bound of one word on a pipe (R157). -/
def wordCost (lanes : Nat → List Nat) (pipe : Nat) (w : Word) : Nat :=
  let ca := costAcc lanes w
  if pipe = 0 then ca.1 else ca.1 + 2 * ca.2

/-- Displacement of a jump, signed (R148). -/
def wDisp (w : Word) : Int := toSigned 16 (wX w % 65536)

/-- Loops of a network: the LNXT word and its target, by word number in the network. -/
def loopsOf (ws : List Word) : List (Nat × Nat) :=
  (List.range ws.length).filterMap fun i =>
    let w := nth 0 ws i
    if wOp w = 0x2E ∧ 0 ≤ (i : Int) + wDisp w ∧ wDisp w < 0 then some (i, ((i : Int) + wDisp w).toNat) else none

/-- Words that can follow word `i`; a jump back out of the network leads to none of them. -/
def succs (ws : List Word) (i : Nat) : List Nat :=
  let w := nth 0 ws i
  let t : List Nat := if (i : Int) + wDisp w < 0 then [] else [((i : Int) + wDisp w).toNat]
  match opForm (wOp w) with
  | .jump => t
  | .cond => (i + 1) :: t
  | .lnxt => (i + 1) :: t
  | _ => [i + 1]

/-- The value that the last instruction setting L gave it on a path: from an immediate SETL, or unknown (8). -/
def stepL (w : Word) (v : Nat) : Nat :=
  if wOp w = 0x2F then (if bitOf (wX w) 3 then 8 else wX w % 8) else if wOp w = 0x2E then 8 else v

/-- Edges (from, to, last L set) reachable from the network's first word. -/
def lEdges (ws : List Word) : Nat → List (Nat × Nat × Nat) → List (Nat × Nat) → List (Nat × Nat × Nat)
  | 0, acc, _ => acc
  | fuel + 1, acc, front =>
    let es := front.flatMap fun iv => (succs ws iv.1).map fun j => (iv.1, j, stepL (nth 0 ws iv.1) iv.2)
    let new := (es.filter fun e => !acc.contains e && decide (e.2.1 < ws.length)).eraseDups
    if new.isEmpty then acc else lEdges ws fuel (acc ++ new) (new.map fun e => (e.2.1, e.2.2))

/-- Passes that R158 counts for the loop closed by the LNXT at `j` with target `t`. -/
def passes (ws : List Word) (j t : Nat) : Nat :=
  let last := wX (nth 0 ws j) / 2097152
  let reEntered := (loopsOf ws).any fun l => decide (j < l.1 ∧ l.2 ≤ j)
  let entries := (lEdges ws (20 * ws.length + 20) [] [(0, 8)]).filter fun e =>
    decide (¬ (t ≤ e.1 ∧ e.1 ≤ j)) && decide (t ≤ e.2.1 ∧ e.2.1 ≤ j)
  if reEntered then 8
  else if entries.any fun e => e.2.2 == 8 then 8
  else match entries with
    | [] => 8
    | e :: es => let l := es.foldl (fun m e => min m e.2.2) e.2.2; if last < l then 1 else last + 1 - l

/-- A forward jump into a loop body counts as entering at the loop's first word (R158). -/
def entryOf (ls : List (Nat × Nat)) (src t : Nat) : Nat :=
  ls.foldl (fun t' l => if l.2 ≤ t ∧ t ≤ l.1 ∧ ¬ (l.2 ≤ src ∧ src ≤ l.1) then min t' l.2 else t') t

/-- The cost of a loop's full passes but the last, by its LNXT's word number; 0 for one not told yet. -/
def extra (full : Tbl (Option Nat)) (passesOf : Nat → Nat) (j : Nat) : Nat :=
  match tget none full j with
  | some f => (passesOf j - 1) * f
  | none => 0

/-- The greatest cost of a path from each word to the word `goal`, counted with it, over the loops `ls` (R158): a loop
entered runs its full passes, then a last one, which ends at its LNXT or leaves before by a jump. -/
def costsTo (cost : Nat → Nat) (ws : List Word) (ls : List (Nat × Nat)) (full : Tbl (Option Nat)) (passesOf : Nat → Nat)
    (goal : Nat) : Tbl (Option Nat) :=
  (List.range goal).reverse.foldl (fun m i =>
    let w := nth 0 ws i
    let go (t : Nat) : Option Nat :=
      let t := entryOf ls i t
      (tget none m t).map fun v =>
        v + ((ls.filter fun l => l.2 == t && l.1 != goal && !decide (l.2 ≤ i ∧ i ≤ l.1)).map
          fun l => extra full passesOf l.1).sum
    let far := go ((i : Int) + wDisp w).toNat
    let best : Option Nat :=
      match opForm (wOp w) with
      | .jump => far
      | .cond =>
        match go (i + 1), far with
        | some a, some b => some (max a (5 + b))
        | some a, none => some a
        | none, some b => some (5 + b)
        | none, none => none
      | .lnxt => (go (i + 1)).map (5 + ·)
      | _ => go (i + 1)
    tset none m i (best.map (cost i + ·))) (tset none [] goal (some (cost goal)))

/-- The cost of entering the loops `ls` that begin at word `t`, and the way from there on. -/
def enterAt (ls : List (Nat × Nat)) (full : Tbl (Option Nat)) (passesOf : Nat → Nat) (goal t : Nat) (m : Tbl (Option Nat)) :
    Option Nat :=
  (tget none m t).map fun v =>
    v + ((ls.filter fun l => l.2 == t && l.1 != goal).map fun l => extra full passesOf l.1).sum

/-- The cost of one full pass of each loop, an inner loop told before the one around it. -/
def fullPasses (cost : Nat → Nat) (ws : List Word) (ls : List (Nat × Nat)) (passesOf : Nat → Nat) : Tbl (Option Nat) :=
  (ls.mergeSort fun a b => decide (b.2 < a.2 ∨ (a.2 = b.2 ∧ a.1 ≤ b.1))).foldl (fun full l =>
    let inner := ls.filter fun m => m.2 ≠ l.2 ∨ m.1 ≤ l.1
    tset none full l.1 (enterAt inner full passesOf l.1 l.2 (costsTo cost ws inner full passesOf l.1))) []

/-- The greatest cost of a path from word `lo` to word `hi`, counted with it; the word past the network costs nothing. Only
the loops that lie within count (R158, R131). -/
def pathCost (lanes : Nat → List Nat) (pipe : Nat) (ws : List Word) (lo hi : Nat) : Nat :=
  let cost (i : Nat) : Nat := if i < ws.length then wordCost lanes pipe (nth 0 ws i) else 0
  let ls := (loopsOf ws).filter fun l => decide (lo ≤ l.2 ∧ l.1 ≤ hi)
  let told : Tbl Nat := ls.foldl (fun m l => tset 0 m l.1 (passes ws l.1 l.2)) []
  let passesOf (j : Nat) : Nat := tget 0 told j
  let full := fullPasses cost ws ls passesOf
  ((enterAt ls full passesOf hi lo (costsTo cost ws ls full passesOf hi))).getD 0

/-- The execution bound of a network (R158). -/
def netBound (lanes : Nat → List Nat) (pipe : Nat) (p : Prog) (n : Nat) : Nat :=
  let ws := netWords p n
  pathCost lanes pipe ws 0 ws.length

/-- The bound of a range of networks on a pipe: the sum of theirs (R158). -/
def rangeBound (lanes : Nat → List Nat) (pipe : Nat) (p : Prog) (r : Nat × Nat) : Nat :=
  ((List.range r.2).map fun i => netBound lanes pipe p (r.1 + i)).sum

/-- The bound of strand `k`, on pipe `k` (R158). -/
def strandBound (lanes : Nat → List Nat) (p : Prog) (k : Nat) : Nat := rangeBound lanes k p (strandRange p k)

/-- The bound of task `i`, on pipe 0; 16 is the tick task (R158). -/
def taskBound (lanes : Nat → List Nat) (p : Prog) (i : Nat) : Nat := rangeBound lanes 0 p (taskRange p i)

/-! ## The checks that look at a whole network -/

/-- The words of an interlock block of R131 as they stand: at most 32 of them, no jump out, no nested LOCK, no fence, its own
cost on the pipe that runs it at most 320. -/
def blockBad (lanes : Nat → List Nat) (pipe : Nat) (ws : List Word) : Option Nat → Nat → List Word → Bool
  | op, _, [] => op.isSome
  | none, i, w :: rest =>
    wOp w == 0x32 || blockBad lanes pipe ws (if wOp w = 0x31 then some i else none) (i + 1) rest
  | some k, i, w :: rest =>
    if wOp w = 0x32 then
      let inner := (List.range (i - k)).map fun d => k + d
      decide (32 < i + 1 - k)
        || inner.any (fun q => (opForm (wOp (nth 0 ws q)) ∈ [Form.jump, Form.cond, Form.lnxt]) &&
            !(decide ((k : Int) ≤ q + wDisp (nth 0 ws q)) && decide ((q : Int) + wDisp (nth 0 ws q) ≤ i)))
        || decide (320 < pathCost lanes pipe ws k i)
        || blockBad lanes pipe ws none (i + 1) rest
    else wOp w == 0x31 || isFence (wOp w) || blockBad lanes pipe ws (some k) (i + 1) rest

/-- Words that a path reaches, with whether a block is open before them. -/
def lockStates (ws : List Word) : Nat → List (Nat × Bool) → List (Nat × Bool) → List (Nat × Bool)
  | 0, acc, _ => acc
  | fuel + 1, acc, front =>
    let nx := front.flatMap fun e =>
      let op := wOp (nth 0 ws e.1)
      if ws.length ≤ e.1 then [] else
      (succs ws e.1).map fun j => (min j ws.length, if op = 0x31 then true else if op = 0x32 then false else e.2)
    let new := (nx.filter fun e => !acc.contains e).eraseDups
    if new.isEmpty then acc else lockStates ws fuel (acc ++ new) new

/-- A path that reaches LOCK inside a block, ULK outside one, or the network's end with a block open (R131). -/
def lockPathBad (ws : List Word) : Bool :=
  (lockStates ws (2 * ws.length + 4) [(0, false)] [(0, false)]).any fun e =>
    let op := wOp (nth 0 ws e.1)
    if ws.length ≤ e.1 then e.2 else (op == 0x31 && e.2) || (op == 0x32 && !e.2)

/-- Check 6: an interlock block that breaks R131. -/
def lockBad (lanes : Nat → List Nat) (pipe : Nat) (ws : List Word) : Bool :=
  blockBad lanes pipe ws none 0 ws || lockPathBad ws

/-- Check 14: LIT, preset operands and PRE in their places. -/
def litBad : List Word → Bool
  | [] => false
  | w :: rest =>
    match opForm (wOp w) with
    | .lit =>
      match rest with
      | v :: rest' => !(isImm v && opForm (wOp v) != .pre) || litBad (v :: rest')
      | [] => true
    | .timer | .counter =>
      match rest with
      | v :: u :: rest' =>
        if opForm (wOp v) = .pre then litBad (u :: rest')
        else if opForm (wOp v) = .lit ∧ opForm (wOp u) = .pre then litBad rest' else true
      | [v] => opForm (wOp v) != .pre
      | [] => true
    | .pre => true
    | _ => litBad rest

/-- Word `i` is inside an interlock block opened at or before it: the LOCK's number. -/
def lockAt (ws : List Word) (i : Nat) : Option Nat :=
  ((List.range i).foldl (fun o k =>
    if wOp (nth 0 ws k) = 0x31 then some k else if wOp (nth 0 ws k) = 0x32 then none else o) none)

/-- Check 15: jumps. -/
def jumpBad (ws : List Word) : Bool :=
  (List.range ws.length).any fun i =>
    let w := nth 0 ws i
    let t := (i : Int) + wDisp w
    let tn := t.toNat
    let badT := opForm (wOp (nth 0 ws tn)) == .pre || (decide (0 < tn) && wOp (nth 0 ws (tn - 1)) == 0x33)
    let into := decide (tn < ws.length) && (lockAt ws tn).isSome && lockAt ws tn != lockAt ws i
    match opForm (wOp w) with
    | .jump | .cond => decide (wDisp w ≤ 0) || decide ((ws.length : Int) < t) || (decide (tn < ws.length) && (badT || into))
    | .lnxt => decide (0 ≤ wDisp w) || decide (t < 0) || badT || into
    | _ => false

/-- Stack depth after a word, when it neither overflows nor underflows (R142). -/
def stepDepth (w : Word) (d : Nat) : Option Nat :=
  if wOp w = 0x02 then (if d < 16 then some (d + 1) else none)
  else if wOp w = 0x06 ∨ wOp w = 0x07 then (if 0 < d then some (d - 1) else none)
  else if wOp w = 0x30 then some 0
  else some d

/-- Word and stack depth pairs reachable from the network's first word. -/
def depths (ws : List Word) : Nat → List (Nat × Nat) → List (Nat × Nat) → List (Nat × Nat)
  | 0, acc, _ => acc
  | fuel + 1, acc, front =>
    let nx := front.flatMap fun id =>
      match stepDepth (nth 0 ws id.1) id.2 with
      | none => []
      | some d => (succs ws id.1).map fun j => (j, d)
    let new := (nx.filter fun e => !acc.contains e && decide (e.1 < ws.length)).eraseDups
    if new.isEmpty then acc else depths ws fuel (acc ++ new) new

/-- Check 16: a 17th push, a pop of an empty stack, or two depths at one word. -/
def stackBad (ws : List Word) : Bool :=
  let ds := depths ws (18 * ws.length + 18) [(0, 0)] [(0, 0)]
  ds.any (fun id => (stepDepth (nth 0 ws id.1) id.2).isNone)
    || ds.any fun a => ds.any fun b => a.1 == b.1 && a.2 != b.2

/-- Check 17: NET fields that break R150. -/
def netBad (p : Prog) (n : Nat) : Bool :=
  let ws := netWords p n
  let x := wX (nth 0 ws 0)
  let task := decide (4 ≤ netOwner p n ∧ netOwner p n < 99)
  x % 32768 != n || x / 32768 % 32 != 0
    || bitOf x 21 != task || (task && x / 4194304 != 0)
    || bitOf x 20 != (ws.drop 1).any (fun w => isFence (wOp w))

/-! ## All checks of a program (R126, R155) -/

/-- What the checks need of the configuration in use: lanes of a ream (none when it is not of family lanes or
undefined), and whether the field chain record maps a Q bit to a block output. -/
structure CheckCtx where
  reamLanes : List (Option Nat)       -- mask of ream r, when it is of family 0
  mapped : List Nat                   -- Q bits mapped to block outputs
deriving DecidableEq, Repr

/-- Lanes of ream `r` in a check. -/
def CheckCtx.lanes (c : CheckCtx) (r : Nat) : List Nat :=
  match nth none c.reamLanes r with
  | some m => maskLanes m
  | none => []

/-- Reads of a network. -/
def netReads (p : Prog) (n : Nat) : List Span := (netWords p n).flatMap wReads
/-- Writes of a network. -/
def netWrites (c : CheckCtx) (p : Prog) (n : Nat) : List Span := (netWords p n).flatMap (wWrites c.lanes)

/-- The network numbers of the program. -/
def nets (p : Prog) : List Nat := List.range (netTotal p)

/-- Check 1 at network `n`: another strand can write an address that it can write. -/
def bad1 (c : CheckCtx) (p : Prog) (n : Nat) : Bool :=
  (nets p).any fun m => decide (netOwner p n < 4 ∧ netOwner p m < 4 ∧ netOwner p n ≠ netOwner p m)
    && spansMeet (netWrites c p n) (netWrites c p m)

/-- Check 2 at network `n`: a task and a strand other than strand 0 can write one address. -/
def bad2 (c : CheckCtx) (p : Prog) (n : Nat) : Bool :=
  let t (o : Nat) : Bool := decide (4 ≤ o ∧ o < 99)
  let s (o : Nat) : Bool := decide (1 ≤ o ∧ o < 4)
  (nets p).any fun m =>
    (t (netOwner p n) && s (netOwner p m) || s (netOwner p n) && t (netOwner p m))
      && spansMeet (netWrites c p n) (netWrites c p m)

/-- Blocks that network `n` reads and a network of another pipe can write (R121, check 3). -/
def crossBlocks (c : CheckCtx) (p : Prog) (n : Nat) : List Nat :=
  let ws := ((nets p).filter fun m => decide (ownerPipe (netOwner p m) ≠ ownerPipe (netOwner p n))).flatMap
    (netWrites c p)
  (((netReads p n).flatMap fun s =>
    (List.range s.n).filterMap fun i =>
      if spansMeet [{ kind := s.kind, lo := s.lo + i, n := 1 }] ws then some (blockOf s.kind (s.lo + i)) else none)).eraseDups

/-- Check 3 at network `n`: a block of that kind that is not declared. -/
def bad3 (c : CheckCtx) (p : Prog) (n : Nat) : Bool :=
  (crossBlocks c p n).any fun b => !(decide (1 ≤ b / 8192 ∧ b / 8192 ≤ 3) && p.shared.contains b)

/-- T and C instances a network uses. -/
def netInst (c : CheckCtx) (p : Prog) (n : Nat) : List Span :=
  (netReads p n ++ netWrites c p n).filter fun s => s.kind == 4 || s.kind == 5

/-- Check 4 at network `n`: a T or C instance that another strand or task uses as well. -/
def bad4 (c : CheckCtx) (p : Prog) (n : Nat) : Bool :=
  (nets p).any fun m => netOwner p n != netOwner p m && spansMeet (netInst c p n) (netInst c p m)

/-- Check 5 at network `n`: an I address or a lane-event word is a write target, also as a ream's member (R116, R126). -/
def bad5 (c : CheckCtx) (p : Prog) (n : Nat) : Bool :=
  (netWords p n).any fun w =>
    let f := opForm (wOp w)
    let x := wX w
    let ream := f == .outr || f == .movr
    let writes := f == .bitW || f == .store || f == .qimm || f == .edge || f == .timer || f == .counter || f == .crst
    (writes && (xReg x == 0 || xReg x == 8 || (xReg x == 3 && decide (15360 ≤ xOff x ∧ xOff x ≤ 15487))))
      || (ream && (xReg x == 0 || xReg x == 8) && !(c.lanes (x / 65536 % 16)).isEmpty)

/-- Check 7 at network `n`: a ream that is undefined or not of family lanes. -/
def bad7 (c : CheckCtx) (p : Prog) (n : Nat) : Bool :=
  (netWords p n).any fun w =>
    (opForm (wOp w) == .outr || opForm (wOp w) == .movr) && (nth none c.reamLanes (wX w / 65536 % 16)).isNone

/-- Ranges of strands and tasks that are in use. -/
def usedRanges (p : Prog) : List (Nat × Nat) :=
  (((List.range 4).map (strandRange p)) ++ ((List.range 17).map (taskRange p))).filter fun r => r.2 != 0

/-- Two ranges of the program overlap. -/
def rangesClash : List (Nat × Nat) → Bool
  | [] => false
  | r :: rs => rs.any (fun t => decide (r.1 < t.1 + t.2 ∧ t.1 < r.1 + r.2)) || rangesClash rs

/-- A task entry that breaks R123. -/
def taskBad (t : TaskEnt) : Bool :=
  let unused := t.count == 0 && t.kind == 0
  if unused then t != { } else
  decide (t.count = 0 ∨ t.kind = 0 ∨ 3 < t.kind ∨ 32767 < t.first ∨ 32768 < t.count)
    || t.prio / 16 % 8 != 0 || (decide (128 ≤ t.prio) && t.kind != 1)
    || (match t.kind with
        | 1 => decide (t.trigB = 0 ∨ 3 < t.trigB)
        | 2 => decide (7 < t.trigA ∨ 31 < t.trigB)
        | _ => t.trigA != 0 || t.trigB != 0)
    || decide (t.period = 0 ∨ t.period ≤ t.phase)

/-- Check 8 as it concerns no one network: the layout, with whether a reserved byte of Table 6.4 is not zero, and the task
table. -/
def bad8All (p : Prog) (layout : Bool) : Bool :=
  layout || decide (p.strands = 0 ∨ 4 < p.strands)
    || (List.range 4).any (fun k => decide (32767 < (strandRange p k).1 ∨ 32768 < (strandRange p k).2))
    || (List.range 4).any (fun k => decide (p.strands ≤ k ∧ (strandRange p k).2 ≠ 0))
    || (usedRanges p).any (fun r => decide (netTotal p < r.1 + r.2))
    || rangesClash (usedRanges p)
    || p.tasks.any taskBad || decide (32767 < p.tickFirst ∨ 32768 < p.tickCount)
    || decide (32768 < netTotal p)

/-- Check 8 at network `n`: it lies in no range, or its header names another strand. -/
def bad8 (p : Prog) (n : Nat) : Bool :=
  netOwner p n == 99 ||
    (decide (netOwner p n < 4) && wX (nth 0 (netWords p n) 0) / 4194304 != netOwner p n)

/-- Check 18 at network `n`: an instance named by two timer instructions, two CTU or two CTD. -/
def bad18 (p : Prog) (n : Nat) : Bool :=
  let cls (w : Word) : Nat :=
    match opForm (wOp w) with
    | .timer => 1
    | .counter => if wOp w = 0x13 then 2 else 3
    | _ => 0
  let words (m : Nat) := (List.range (netWords p m).length).map fun i => (m, i, nth 0 (netWords p m) i)
  (words n).any fun a => cls a.2.2 != 0 &&
    ((nets p).flatMap words).any fun b => (a.1 != b.1 || a.2.1 != b.2.1) && cls a.2.2 == cls b.2.2
      && spansMeet (reachMem (wX a.2.2) 1) (reachMem (wX b.2.2) 1)

/-- Check 19 at network `n`: a QIMM bit that no block output carries. -/
def bad19 (c : CheckCtx) (p : Prog) (n : Nat) : Bool :=
  (netWords p n).any fun w => opForm (wOp w) == .qimm && (reachMem (wX w) 1).any fun s => !c.mapped.contains s.lo

/-- Check `k` fails at network `n`. -/
def badAt (c : CheckCtx) (p : Prog) (k n : Nat) : Bool :=
  let ws := netWords p n
  match k with
  | 1 => bad1 c p n
  | 2 => bad2 c p n
  | 3 => bad3 c p n
  | 4 => bad4 c p n
  | 5 => bad5 c p n
  | 6 => lockBad c.lanes (ownerPipe (netOwner p n)) ws
  | 7 => bad7 c p n
  | 8 => bad8 p n
  | 10 => ws.any fun w => wOp w != 0x30 && fail10 w
  | 11 => ws.any fail11
  | 12 => ws.any fail12
  | 13 => ws.any fail13
  | 14 => litBad ws
  | 15 => jumpBad ws
  | 16 => stackBad ws
  | 17 => netBad p n
  | 18 => bad18 p n
  | 19 => bad19 c p n
  | _ => false

/-- What the program records show that a program has no place for: a reserved byte of the strand layout record that is not
zero (Table 6.4), a malformed shared declaration (R121). -/
structure RecFaults where
  layout : Bool
  shared : Bool
deriving DecidableEq, Repr

/-- The code words before the first NET word, which lie in no network (R135). -/
def preWords (p : Prog) : List Word := (List.range (netStart p 0)).map (pw p)

/-- An encoding check fails in the words before the first NET word (R155). -/
def badPre (p : Prog) (k : Nat) : Bool :=
  let ws := preWords p
  match k with
  | 10 => ws.any fail10
  | 11 => ws.any fail11
  | 12 => ws.any fail12
  | 13 => ws.any fail13
  | 14 => litBad ws
  | 15 => jumpBad ws
  | 16 => stackBad ws
  | _ => false

/-- Check 9: more shared blocks than may be declared, or a malformed entry (marked `badShared`). -/
def bad9 (c : CheckCtx) (p : Prog) (badShared : Bool) : Bool :=
  badShared || decide (1024 < ((nets p).flatMap (crossBlocks c p)).eraseDups.length)

/-- The checks that fail, in ascending order, each with the lowest network or 0xFFFF (R126). -/
def failedChecks (c : CheckCtx) (p : Prog) (f : RecFaults) : List (Nat × Nat) :=
  (List.range 20).filterMap fun k =>
    let all := (k == 8 && bad8All p f.layout) || (k == 9 && bad9 c p f.shared) || (k == 17 && wOp (pw p 0) != 0x30)
      || badPre p k
    match (nets p).find? (badAt c p k) with
    | some n => some (k, n)
    | none => if all then some (k, 0xFFFF) else none

/-! ## Program records (R120, R121, R123) -/

/-- The task table payload: tick range and sixteen entries. -/
def parseTasks (bs : List Byte) : Nat × Nat × List TaskEnt :=
  (fld bs 0 2, fld bs 2 2, (List.range 16).map fun i =>
    let o := 8 + 12 * i
    { first := fld bs o 2, count := fld bs (o + 2) 2, kind := fld bs (o + 4) 1, prio := fld bs (o + 5) 1,
      trigA := fld bs (o + 6) 1, trigB := fld bs (o + 7) 1, period := fld bs (o + 8) 2, phase := fld bs (o + 10) 2 })

/-- The strand layout payload: strands and four ranges. -/
def parseStrands (bs : List Byte) : Nat × List (Nat × Nat) :=
  (fld bs 0 1, (List.range 4).map fun k => (fld bs (4 + 4 * k) 2, fld bs (6 + 4 * k) 2))

/-- The shared declarations: blocks, and whether an entry is malformed (R121). -/
def parseShared (bs : List Byte) : List Nat × Bool :=
  let n := fld bs 0 2
  let es := (List.range (min n 1024)).map fun i => fld bs (4 + 4 * i) 4
  let bad (e : Nat) : Bool :=
    let k := e / 268435456
    let b := e % 8192
    e / 8192 % 32768 != 0 ||
      !((k == 1 && decide (b < 128)) || (k == 2 && decide (b < 1024)) || k == 3)
  (es.map fun e => e / 268435456 * 8192 + e % 8192, es.any bad || decide (1024 < n))

/-- Words of a code payload. -/
def codeWords (bs : List Byte) : Tbl Word :=
  (List.range (bs.length / 4)).foldl (fun m i => tset 0 m i (BitVec.ofNat 32 (fld bs (4 * i) 4))) []

/-- A program made of a slot's words, its code length and its three tables; reserved bytes of the task table and of the
shared declarations are accepted as they are. -/
def mkProg (words : Tbl Word) (n : Nat) (tasks strands shared : List Byte) : Prog × RecFaults :=
  let t := parseTasks tasks
  let s := parseStrands strands
  let d := parseShared shared
  ({ words := words, n := n, valid := true, strands := s.1, ranges := s.2,
     tickFirst := t.1, tickCount := t.2.1, tasks := t.2.2, shared := d.1 },
   { layout := fld strands 1 3 != 0, shared := d.2 })

end Sys2Proof.Machine
end

