-- ==== Sys2Proof/Machine/Sheet.lean ====
section
/-! DEFINITION. What a running network, task or trial sees of a sheet and writes into it (06_sheets_and_strands,
08_run_ahead): overlays, the views of R117, R162 and R164, block sets and the recording of accesses. -/

namespace Sys2Proof.Machine

/-! ## Overlays -/

/-- A byte seen through an overlay. -/
def Overlay.byte (o : Overlay) (old : Byte) (a : Nat) : Byte :=
  let m := tget 0 o.mask a
  (old &&& ~~~m) ||| (tget 0 o.val a &&& m)

/-- The masked bits of byte `a` written. -/
def Overlay.write (o : Overlay) (a : Nat) (v m : Byte) : Overlay :=
  { val := tset 0 o.val a ((tget 0 o.val a &&& ~~~m) ||| (v &&& m)),
    mask := tset 0 o.mask a (tget 0 o.mask a ||| m) }

/-- A later overlay written over an earlier one. -/
def Overlay.join (o later : Overlay) : Overlay :=
  later.mask.foldl (fun o e => o.write e.1 (tget 0 later.val e.1) e.2) o

/-- An overlay written into a memory. -/
def Overlay.apply (o : Overlay) (m : Memory) : Memory :=
  o.mask.foldl (fun m e => tset 0 m e.1 (o.byte (tget 0 m e.1) e.1)) m

/-! ## Block sets -/

/-- A block recorded; the ninth distinct block turns the set into "everything" (R160). -/
def BlockSet.add (b : BlockSet) (blk : Nat) : BlockSet :=
  if b.all ∨ blk ∈ b.bl then b
  else if 8 ≤ b.bl.length then { all := true, bl := [] }
  else { b with bl := b.bl ++ [blk] }

/-- A block set in an exact filter, which has no limit (R161). -/
def BlockSet.mark (b : BlockSet) (blk : Nat) : BlockSet :=
  if b.all ∨ blk ∈ b.bl then b else { b with bl := b.bl ++ [blk] }

/-- The set holds nothing. -/
def BlockSet.isEmpty (b : BlockSet) : Bool := !b.all && b.bl.isEmpty

/-- Two sets meet; "everything" meets any non-empty set (Table 8.2). -/
def BlockSet.meets (a b : BlockSet) : Bool :=
  if a.isEmpty || b.isEmpty then false
  else a.all || b.all || a.bl.any fun x => b.bl.contains x

/-! ## Who runs -/

/-- What executes: a strand, the task run on top of pipe 0, a trial strand, a trial task run. -/
inductive Cx where
  | strand (k : Nat)
  | task
  | tstrand
  | ttask
deriving DecidableEq, Repr

/-- A strand of the cycle. -/
def strand (k : Nat) (s : State) : Strand := tget {} s.exe.strands k
/-- Strand `k` replaced. -/
def setStrand (k : Nat) (x : Strand) (s : State) : State := { s with exe.strands := tset {} s.exe.strands k x }

/-- The running slot's program. -/
def running (s : State) : Prog := if s.exe.runSlot = 0 then s.exe.prog0 else s.exe.prog1
/-- The shadow slot's program. -/
def shadow (s : State) : Prog := if s.exe.runSlot = 0 then s.exe.prog1 else s.exe.prog0
/-- The shadow slot replaced. -/
def setShadow (p : Prog) (s : State) : State :=
  if s.exe.runSlot = 0 then { s with exe.prog1 := p } else { s with exe.prog0 := p }

/-- The program that a context executes. -/
def progOf (c : Cx) (s : State) : Prog :=
  match c with
  | .strand _ | .task => running s
  | .tstrand | .ttask => shadow s

/-- The network run of a context. -/
def runOf (c : Cx) (s : State) : NetRun :=
  match c with
  | .strand k => (strand k s).run
  | .task => match s.exe.tasks with | t :: _ => t.run | [] => {}
  | .tstrand => s.trial.run
  | .ttask => match s.trial.tasks with | t :: _ => t.run | [] => {}

/-- The network run of a context replaced. -/
def setRun (c : Cx) (r : NetRun) (s : State) : State :=
  match c with
  | .strand k => setStrand k { strand k s with run := r } s
  | .task => match s.exe.tasks with | t :: ts => { s with exe.tasks := { t with run := r } :: ts } | [] => s
  | .tstrand => { s with trial.run := r }
  | .ttask => match s.trial.tasks with | t :: ts => { s with trial.tasks := { t with run := r } :: ts } | [] => s

/-- The pipe of a context. -/
def pipeOf : Cx → Nat
  | .strand k => k
  | .task => 0
  | .tstrand | .ttask => 3

/-- The tick that timers evaluate against (R118, R124). -/
def timerTick (c : Cx) (s : State) : Nat :=
  match c with
  | .strand _ | .tstrand => s.exe.first
  | .task => match s.exe.tasks with | t :: _ => t.tick | [] => s.clk.tick
  | .ttask => match s.trial.tasks with | t :: _ => t.tick | [] => s.clk.tick

/-! ## Reading -/

/-- An address of the I image. -/
def inI (a : Nat) : Bool := decide (0x11000000 ≤ a ∧ a < 0x11000400)
/-- An address of a lane-event word, D15360 to D15487. -/
def inEv (a : Nat) : Bool := decide (0x11010000 + 4 * 15360 ≤ a ∧ a < 0x11010000 + 4 * 15488)

/-- The byte a context sees at an address (R117, R162, R164, R176). -/
def seeByte (c : Cx) (s : State) (a : Nat) : Byte :=
  match c with
  | .strand k =>
    let x := strand k s
    let base := if inI a || inEv a then tget 0 s.exe.latched a else tget 0 s.exe.couched a
    let own := if x.phase = .spec then x.recs.foldl (fun b r => r.ov.byte b a) base else x.com.byte base a
    x.run.ov.byte own a
  | .task =>
    let base := if inI a then tget 0 s.exe.latched a
      else if inEv a then tget 0 s.exe.evNext a else tget 0 s.exe.couched a
    (strand 0 s).com.byte base a
  | .tstrand =>
    let base := if inI a || inEv a then tget 0 s.exe.latched a else tget 0 s.trial.sheet a
    (tget ({} : Overlay) s.trial.coms s.trial.strand).byte base a
  | .ttask =>
    let base := if inI a || inEv a then tget 0 s.exe.latched a else tget 0 s.trial.sheet a
    (tget ({} : Overlay) s.trial.coms 0).byte base a

/-- `n` bytes little-endian as a context sees them. -/
def seeLe (c : Cx) (s : State) (a : Nat) : Nat → Nat
  | 0 => 0
  | n + 1 => (seeByte c s a).toNat + 256 * seeLe c s (a + 1) n

/-- The bit of an address: a bit of I, Q or M, a timer's q, a counter's q_up (R137), a constant (Table 7.2). -/
def seeBit (c : Cx) (s : State) (kind idx : Nat) : Bool :=
  if kind = 14 then idx = 1
  else if kind = 4 then bitOf (seeLe c s (byteAddr 4 idx + 10) 1) 4
  else if kind = 5 then bitOf (seeLe c s (byteAddr 5 idx + 8) 1) 2
  else bitOf (seeByte c s (bitAddr kind idx)).toNat (idx % 8)

/-- The word of an address: 32 bits of I, Q or M, a D word, a timer's elapsed, a counter's value (R137). -/
def seeWord (c : Cx) (s : State) (kind idx : Nat) : Word :=
  BitVec.ofNat 32 (
    if kind = 4 then seeLe c s (byteAddr 4 idx + 12) 4
    else if kind = 5 then seeLe c s (byteAddr 5 idx + 4) 4
    else seeLe c s (byteAddr kind idx) 4)

/-- The bit's value in the last couched sheet, against which edges are taken (R139); for a trial the I bits are the
live sheet's and the rest the trial sheet's. -/
def couchedBit (c : Cx) (s : State) (kind idx : Nat) : Bool :=
  let m := match c with
    | .strand _ | .task => s.exe.couched
    | .tstrand | .ttask => if kind = 0 then s.exe.couched else s.trial.sheet
  if kind = 14 then idx = 1
  else if kind = 4 then bitOf (tget 0 m (byteAddr 4 idx + 10)).toNat 4
  else if kind = 5 then bitOf (tget 0 m (byteAddr 5 idx + 8)).toNat 2
  else bitOf (tget 0 m (bitAddr kind idx)).toNat (idx % 8)

/-! ## Watchpoints (R480) and recording -/

/-- A watchpoint matches an access of a pipe or task: the index, or the words and bits of a wider access. -/
def wpMatches (w : Wp) (write : Bool) (kind lo n : Nat) (v : Nat) : Bool :=
  w.en && w.region == kind && decide (lo ≤ w.index ∧ w.index < lo + n)
    && (if write then 2 ≤ w.access else w.access % 2 == 1)
    && (!w.compare || (write && v == w.value.toNat))

/-- An access seen by the watchpoints: the lowest that matches halts the pipe at its next boundary. -/
def watch (c : Cx) (write : Bool) (kind lo n v : Nat) (s : State) : State :=
  match c with
  | .tstrand | .ttask => s
  | _ =>
    match s.dbg.wps.find? fun e => wpMatches e.2 write kind lo n v with
    | some (i, _) =>
      if tget 0 s.dbg.wpHit (pipeOf c) = 0 then { s with dbg.wpHit := tset 0 s.dbg.wpHit (pipeOf c) (i + 1) } else s
    | none => s

/-- A block read, recorded in the network's read set (R160). -/
def noteRd (c : Cx) (kind idx : Nat) (s : State) : State :=
  let r := runOf c s
  setRun c { r with rd := r.rd.add (blockOf kind idx) } s

/-- A block written, recorded in the network's write set (R160). -/
def noteWr (c : Cx) (kind idx : Nat) (s : State) : State :=
  let r := runOf c s
  setRun c { r with wr := r.wr.add (blockOf kind idx) } s

/-- A block that a task run writes: its own list, and strand 0's dirty filter (R164, R166). -/
def noteTaskWr (blk : Nat) (s : State) : State :=
  match s.exe.tasks with
  | [] => s
  | t :: ts =>
    let s := { s with exe.tasks := { t with wrote := if blk ∈ t.wrote then t.wrote else t.wrote ++ [blk] } :: ts }
    let x := strand 0 s
    setStrand 0 { x with dirty := x.dirty.mark blk } s

/-! ## Writing -/

/-- The masked bits of one byte written where the context's writes go: a wet network's own writes, a fenced
network's and a task's straight to the strand, a trial's to the trial sheet. -/
def putByte (c : Cx) (a : Nat) (v m : Byte) (s : State) : State :=
  match c with
  | .strand k =>
    let x := strand k s
    if x.run.fence then setStrand k { x with com := x.com.write a v m } s
    else setStrand k { x with run := { x.run with ov := x.run.ov.write a v m } } s
  | .task =>
    let x := strand 0 s
    setStrand 0 { x with com := x.com.write a v m } s
  | .tstrand =>
    { s with trial.coms := tmod {} s.trial.coms s.trial.strand (fun o => o.write a v m) }
  | .ttask => { s with trial.coms := tmod {} s.trial.coms 0 (fun o => o.write a v m) }

/-- Bytes written from an address on. -/
def putBytes (c : Cx) : Nat → List Byte → State → State
  | _, [], s => s
  | a, b :: bs, s => putBytes c (a + 1) bs (putByte c a b 0xFF s)

/-- The record of a write to block of (kind, idx) by a context. -/
def noteWrite (c : Cx) (kind idx : Nat) (s : State) : State :=
  let s := noteWr c kind idx s
  match c with
  | .task => noteTaskWr (blockOf kind idx) s
  | _ => s

/-- A bit written (R136, R485). -/
def putBit (c : Cx) (kind idx : Nat) (v : Bool) (s : State) : State :=
  let m : Byte := BitVec.ofNat 8 (2 ^ (idx % 8))
  let s := putByte c (bitAddr kind idx) (if v then m else 0) m (noteWrite c kind idx s)
  watch c true kind idx 1 (b2n v) s

/-- A 32-bit word written to Q, M or D. -/
def putWord (c : Cx) (kind idx : Nat) (w : Word) (s : State) : State :=
  let s := putBytes c (byteAddr kind idx) (leBytes 4 w.toNat) (noteWrite c kind idx s)
  watch c true kind idx (if kind = 3 then 1 else 32) w.toNat s

/-- A bit read, with its record. A constant records nothing (R160). -/
def getBit (c : Cx) (kind idx : Nat) (s : State) : Bool × State :=
  if kind = 14 then (seeBit c s kind idx, s)
  else (seeBit c s kind idx, watch c false kind idx 1 0 (noteRd c kind idx s))

/-- A word read, with its record. -/
def getWord (c : Cx) (kind idx : Nat) (s : State) : Word × State :=
  (seeWord c s kind idx, watch c false kind idx (if kind = 3 then 1 else if kind ≤ 2 then 32 else 1) 0 (noteRd c kind idx s))

end Sys2Proof.Machine
end

