-- ==== Sys2Proof/Machine/Conf.lean ====
section
/-! DEFINITION. Fields of the configuration records in use (05_the_furnish_image): an absent record, or a byte
past the end of a shorter payload, takes the default of the field's layout table (R106). -/

namespace Sys2Proof.Machine

/-- The payload of a configuration record, when the copy carries it. -/
def cfgRec (s : State) (typ inst : Nat) : Option (List Byte) :=
  (s.img.cfg.find? fun r => r.typ == typ && r.inst == inst).map CfgRec.payload

/-- A field of `n` bytes at offset `o`; `d` when the record is absent. -/
def cf (s : State) (typ inst o n d : Nat) : Nat :=
  match cfgRec s typ inst with
  | some bs => if o < bs.length then fld bs o n else d
  | none => d

/-- Bytes of a field; zeros when the record is absent. -/
def cfBytes (s : State) (typ inst o n : Nat) : List Byte :=
  match cfgRec s typ inst with
  | some bs => (bs.drop o).take n
  | none => List.replicate n 0

/-- A bit of a bit string in a record. -/
def cfBit (s : State) (typ inst o k : Nat) : Bool := bitOf (cf s typ inst (o + k / 8) 1 0) (k % 8)

/-! ## Tick, mode, system and lane records -/

/-- cycle_ticks (Table 2.2). -/
def cycleTicks (s : State) : Nat := max 1 (cf s 0x12 0 1 1 1)
/-- sample_us. -/
def sampleUs (s : State) : Nat := cf s 0x12 0 2 1 32
/-- late_limit. -/
def lateLimit (s : State) : Nat := cf s 0x12 0 3 1 3
/-- Couch on completion (Table 2.2). -/
def couchOnCompletion (s : State) : Bool := cf s 0x12 0 4 1 0 == 1
/-- Microseconds of a tick period (Table 2.1). -/
def tickUs (sel : Nat) : Nat := 125 * 2 ^ sel
/-- E-clocks of a tick period (Table 2.1). -/
def tickE (sel : Nat) : Nat := 50000 * 2 ^ sel
/-- Ticks in one second of the unit's own tick count (R439, Table 2.1). -/
def ticksPerSec (s : State) : Nat := nth 1000 [8000, 4000, 2000, 1000] s.clk.tickSel
/-- start_mode (Table 3.3). -/
def startMode (s : State) : Nat := cf s 0x13 0 0 1 0
/-- lane_on. -/
def laneOn (s : State) : Nat := cf s 0x13 0 1 1 0xFF
/-- wake_src. -/
def wakeSrc (s : State) : Nat := cf s 0x13 0 2 1 0xF
/-- wake_to. -/
def wakeTo (s : State) : Nat := cf s 0x13 0 3 1 1
/-- hold_val of Q bit `q`. -/
def holdVal (s : State) (q : Nat) : Bool := cfBit s 0x13 0 48 q
/-- hold_keep of Q bit `q`. -/
def holdKeep (s : State) (q : Nat) : Bool := cfBit s 0x13 0 1072 q
/-- lane_mask (Table 5.8). -/
def laneMask (s : State) : Nat := cf s 0x10 0 4 1 0xFF
/-- kind of a lane (Table 5.9). -/
def laneKind (s : State) (l : Nat) : Nat := cf s 0x11 l 0 1 0
/-- ports_on of a lane. -/
def portsOn (s : State) (l : Nat) : Nat := cf s 0x11 l 1 1 0x3F
/-- subscriber of a lane. -/
def laneSub (s : State) (l : Nat) : Nat := cf s 0x11 l 2 1 l
/-- legal of a lane. -/
def laneLegal (s : State) (l : Nat) : Bool := cf s 0x11 l 3 1 0 == 1
/-- A lane whose domain may be powered (R107). -/
def laneUsed (s : State) (l : Nat) : Bool := bitOf (laneMask s) l && laneKind s l != 0

/-! ## Reams (R132) -/

/-- Family of ream `r` (Table 6.9). -/
def reamFamily (s : State) (r : Nat) : Nat := cf s 0x16 0 (16 * r) 1 0xFF
/-- Members of ream `r`, in increasing order. -/
def reamMembers (s : State) (r : Nat) : List Nat :=
  let f := reamFamily s r
  if f = 0 then (List.range 8).filter fun l => bitOf (cf s 0x16 0 (16 * r + 8) 1 0) l
  else if f = 2 then (List.range 16).filter fun b => bitOf (cf s 0x16 0 (16 * r + 8) 2 0) b
  else if f ≤ 5 then
    (List.range (cf s 0x16 0 (16 * r + 4) 2 0)).map fun i =>
      cf s 0x16 0 (16 * r + 2) 2 0 + i * cf s 0x16 0 (16 * r + 6) 2 1
  else []
/-- Lanes of a program ream (R133). -/
def reamLanes (s : State) (r : Nat) : List Nat := if reamFamily s r = 0 then reamMembers s r else []

/-! ## The field chain record's map (Table 11.8) -/

/-- Blocks of the field chain record. -/
def chainBlocks (s : State) : Nat := cf s 0x14 0 0 1 0
/-- in_base of block `b`. -/
def inBase (s : State) (b : Nat) : Nat := cf s 0x14 0 (8 + 88 * b) 2 0
/-- out_base of block `b`. -/
def outBase (s : State) (b : Nat) : Nat := cf s 0x14 0 (10 + 88 * b) 2 0
/-- Q bits that the record maps to block outputs. -/
def mappedQ (s : State) : List Nat :=
  (List.range (chainBlocks s)).flatMap fun b => (List.range 8).map fun j => outBase s b + j

/-- What the program checks need of the configuration in use (R126). -/
def checkCtx (s : State) : CheckCtx :=
  { reamLanes := (List.range 16).map fun r =>
      if reamFamily s r = 0 then some (cf s 0x16 0 (16 * r + 8) 1 0) else none,
    mapped := mappedQ s }

end Sys2Proof.Machine
end

