-- ==== Sys2Proof/Machine/Syslog.lean ====
section
/-! DEFINITION. The calendar (R419, R420) and the text of a syslog message (R415). -/

namespace Sys2Proof.Machine

/-! ## The calendar (R419, R420) -/

/-- Seconds from 2000-01-01 to 2200-01-01. -/
def calEnd : Nat := 73049 * 86400

/-- Year, month and day of a day counted from 2000-01-01. -/
def civil (day : Nat) : Nat × Nat × Nat :=
  let z := day + 730425
  let doe := z % 146097
  let yoe := (doe - doe / 1460 + doe / 36524 - doe / 146096) / 365
  let doy := doe - (365 * yoe + yoe / 4 - yoe / 100)
  let mp := (5 * doy + 2) / 153
  let d := doy - (153 * mp + 2) / 5 + 1
  let m := if mp < 10 then mp + 3 else mp - 9
  (yoe + z / 146097 * 400 + (if m ≤ 2 then 1 else 0), m, d)

/-- Weekday of a day counted from 2000-01-01, a Saturday; 0 Monday. -/
def weekday (day : Nat) : Nat := (day + 5) % 7

/-! ## The syslog message (R415) -/

/-- The own IPv4 address: static, or what the DHCPv4 server of the network gave. -/
def ownV4 (s : State) (e : Nat) : Nat :=
  let fixed := beNat (cfBytes s 0x1C 0 (20 + 4 * (2 * e + s.boot.unitId)) 4)
  if fixed = 0 then Config.dhcpV4 e else fixed

/-- Characters as bytes. -/
def ascii (s : String) : List Byte := s.toList.map fun c => BitVec.ofNat 8 c.toNat

/-- The last `n` decimal digits of a number. -/
def decDigits : Nat → Nat → List Byte
  | 0, _ => []
  | n + 1, x => decDigits n (x / 10) ++ [BitVec.ofNat 8 (48 + x % 10)]

/-- A word as ASCII decimal without leading zeros. -/
def decimal (x : Nat) : List Byte := (Nat.toDigits 10 x).map fun c => BitVec.ofNat 8 c.toNat

/-- The last `n` hexadecimal digits of a number. -/
def hexDigits : Nat → Nat → List Byte
  | 0, _ => []
  | n + 1, x => hexDigits n (x / 16) ++ [BitVec.ofNat 8 (if x % 16 < 10 then 48 + x % 16 else 55 + x % 16)]

/-- The severity of a class. -/
def severity (cls : Nat) : Nat := if cls = 0x46 then 2 else if cls = 0x57 then 4 else 6

/-- TIMESTAMP: the clock as the message is built, to the microsecond; "-" while the clock is not valid. -/
def timestamp (s : State) : List Byte :=
  if !s.rtc.valid then ascii "-"
  else
    let d := civil (s.rtc.cal / 86400)
    let t := s.rtc.cal % 86400
    decDigits 4 d.1 ++ ascii "-" ++ decDigits 2 d.2.1 ++ ascii "-" ++ decDigits 2 d.2.2 ++ ascii "T" ++ decDigits 2 (t / 3600)
      ++ ascii ":" ++ decDigits 2 (t / 60 % 60) ++ ascii ":" ++ decDigits 2 (t % 60) ++ ascii "."
      ++ decDigits 6 (s.rtc.sub * 1000000 / 32768) ++ ascii "Z"

/-- HOSTNAME: unit_name, or the own IPv4 address of E0 where the name is all zeros. -/
def hostName (s : State) : List Byte :=
  let name := (cfBytes s 0x10 0 8 16).filter (· != 0)
  if !name.isEmpty then name
  else
    let a := ownV4 s 0
    decimal (a / 2 ^ 24 % 256) ++ ascii "." ++ decimal (a / 2 ^ 16 % 256) ++ ascii "." ++ decimal (a / 256 % 256) ++ ascii "."
      ++ decimal (a % 256)

/-- The message of an event. -/
def syslogText (e : LogEntry) (s : State) : List Byte :=
  ascii "<" ++ decimal (128 + severity e.cls) ++ ascii ">1 " ++ timestamp s ++ ascii " " ++ hostName s
    ++ ascii " KL-640 - EVT-" ++ hexDigits 4 e.code ++ ascii " - seq=" ++ decimal e.seq ++ ascii " tick=" ++ decimal e.tick
    ++ ascii " lane=" ++ decimal e.lane ++ ascii " arg=0x" ++ hexDigits 8 e.arg

end Sys2Proof.Machine
end

