-- ==== Sys2Proof/Machine/Exec.lean ====
section
/-! DEFINITION. How a pipe takes one program word (06, 07, 08, 22): which network, task run or trial a pipe
executes, breakpoints and halts, parity, the end of a network and the verification walk of R165. -/

namespace Sys2Proof.Machine

/-! ## Which context a pipe executes -/

/-- Bit `k` of the halted mask. -/
def pipeHalted (s : State) (k : Nat) : Bool := bitOf s.dbg.halted k

/-- One past strand `k`'s last network. -/
def strandEnd (s : State) (k : Nat) : Nat := (strandRange (running s) k).1 + (strandRange (running s) k).2

/-- Strand `k` has a network to execute now. -/
def strandRuns (s : State) (k : Nat) : Bool :=
  let x := strand k s
  (x.phase == .spec || x.phase == .verify) && decide (x.pos < strandEnd s k) && !pipeHalted s k
    && !(k == 0 && s.exe.held0)

/-- The cycle engine executes in ACTIVE, within a cycle (R56). -/
def engineRuns (s : State) : Bool := s.md.mode == .active && s.exe.inCycle

/-- The trial state runs trial cycles (Table 8.7). -/
def trialLive (s : State) : Bool :=
  s.trial.st == .running || s.trial.st == .passed || s.trial.st == .failed

/-- What a pipe executes next: the highest task run on pipe 0, else the strand; the trial only in pipe 3's spare
time (R122, R176). -/
def pickCx (w : Who) (s : State) : Option Cx :=
  match w with
  | .pipe k =>
    if !engineRuns s || s.exe.dead.contains k.val then none
    else if k.val = 0 ∧ s.exe.tasks ≠ [] then (if pipeHalted s 0 && !s.dbg.s0Only then none else some .task)
    else if strandRuns s k.val then some (.strand k.val) else none
  | .trial =>
    if engineRuns s && trialLive s && s.trial.started && !s.trial.finished && !strandRuns s 3
        && !pipeHalted s 3 && !s.exe.dead.contains 3 then
      (if s.trial.tasks ≠ [] then some .ttask else some .tstrand)
    else none

/-! ## Faults and halts at an instruction boundary -/

/-- R156: bad parity or an illegal word stops the pipe; the cycle does not couch; EVT-0702. -/
def parityFault (pipe word : Nat) (s : State) : State :=
  raise 0x0702 (pipe * 2 ^ 30 + word % 2 ^ 18)
    { s with exe.spoiled := true, exe.dead := if s.exe.dead.contains pipe then s.exe.dead else pipe :: s.exe.dead }

/-- R156 in a trial: the unit enters HOLD/F with EVT-0702 as well, for pipe 3 fetched the word; but the live strand and the
live couch go on, and only the trial executes nothing more in its cycle (R178). -/
def trialFault (pipe word : Nat) (s : State) : State :=
  raise 0x0702 (pipe * 2 ^ 30 + word % 2 ^ 18) { s with trial.started := false }

/-- A word that the checks of a single word let pass, a jump in its direction (R148, R155). -/
def wordSound (w : Word) : Bool :=
  wordOk w && (match opForm (wOp w) with
    | .jump | .cond => decide (0 < wDisp w)
    | .lnxt => decide (wDisp w < 0)
    | _ => true)

/-- The word fetched at `pc` has bad parity, or it is one that could have passed the checks only through corruption: the word
taken, and the one that the slot holds there within the code (R156). -/
def corrupt (c : Cx) (pc : Nat) (w : Word) (s : State) : Bool :=
  let p := progOf c s
  p.bad.contains pc || !wordSound w || (decide (pc < p.n) && !wordSound (pw p pc))

/-- A mask with bit `k` set. -/
def setBit (m k : Nat) : Nat := if bitOf m k then m else m + 2 ^ k
/-- A mask with bit `k` clear. -/
def clrBit (m k : Nat) : Nat := if bitOf m k then m - 2 ^ k else m

/-- Pipe `k` halts with this cause: DBG_STAT, EVT-2203 (R475, R476, R483). -/
def haltPipe (k cause index : Nat) (s : State) : State :=
  raise 0x2203 (2 ^ k)
    { s with dbg.halted := setBit s.dbg.halted k,
             dbg.pending := clrBit s.dbg.pending k,
             dbg.s0Only := if k = 0 then cause == 0 && bitOf s.dbg.pending 0 && s.dbg.pendS0 else s.dbg.s0Only,
             dbg.lastPipe := k, dbg.lastCause := cause, dbg.lastIndex := index,
             dbg.stepping := tset 0 s.dbg.stepping k 0,
             dbg.wpHit := tset 0 s.dbg.wpHit k 0 }

/-- The enabled breakpoint on a word of the running slot (R479). -/
def bpAt (s : State) (word : Nat) : Option Nat :=
  (s.dbg.bps.find? fun e => e.2.en && e.2.word == word).map Prod.fst

/-- A live context. -/
def isLive : Cx → Bool
  | .strand _ | .task => true
  | _ => false

/-- What stops a live pipe before the word at `pc`: a breakpoint first, then a watchpoint that fired, then a
requested halt, which for strand 0 alone lets task runs go on (R473, R479, R480). Nothing stops it inside an
interlock block. -/
def haltBefore (c : Cx) (s : State) (pc : Nat) : Option (Nat × Nat) :=
  let r := runOf c s
  let k := pipeOf c
  if !isLive c || r.regs.lock then none else
  let bp := if bitOf s.dbg.passBp k then none else bpAt s pc
  match bp with
  | some i => some (1, i)
  | none =>
    if tget 0 s.dbg.wpHit k ≠ 0 then some (2, tget 0 s.dbg.wpHit k - 1)
    else if bitOf s.dbg.pending k && s.exe.sampled && !(k == 0 && s.dbg.pendS0 && c == .task) then some (0, 0)
    else none

/-! ## Entering and ending networks -/

/-- The network that a context enters next. -/
def nextNet (c : Cx) (s : State) : Nat :=
  match c with
  | .strand k => (strand k s).pos
  | .task => match s.exe.tasks with | t :: _ => t.pos | [] => 0
  | .tstrand => s.trial.pos
  | .ttask => match s.trial.tasks with | t :: _ => t.pos | [] => 0

/-- The word number a context executes next. -/
def pcOf (c : Cx) (s : State) : Nat :=
  let r := runOf c s
  if r.opened then r.regs.pc else netStart (progOf c s) (nextNet c s)

/-- Block of a byte address of a sheet, as kind × 8192 + index. -/
def blockOfAddr (a : Nat) : Nat :=
  if a < 0x11000400 then (a - 0x11000000) / 8
  else if a < 0x11001000 then 8192 + (a - 0x11000400) / 8
  else if a < 0x11010000 then 2 * 8192 + (a - 0x11001000) / 8
  else if a < 0x11020000 then 3 * 8192 + (a - 0x11010000) / 8
  else if a < 0x11024000 then 4 * 8192 + (a - 0x11020000) / 16
  else 5 * 8192 + (a - 0x11024000) / 16

/-- Blocks that an overlay writes. -/
def Overlay.blocks (o : Overlay) : List Nat := (o.mask.map fun e => blockOfAddr e.1).eraseDups

/-- The value of a block of strand `k` as later speculative networks saw it after network `n` (R165). -/
def specBlock (k n : Nat) (s : State) (blk : Nat) : List Byte :=
  let x := strand k s
  (List.range (blockBytes blk).2).map fun i =>
    let a := (blockBytes blk).1 + i
    (x.recs.filter fun r => decide (r.net ≤ n)).foldl (fun b r => r.ov.byte b a) (tget 0 s.exe.couched a)

/-- The value of a block of strand `k` after the networks verified so far. -/
def verBlock (k : Nat) (s : State) (blk : Nat) : List Byte :=
  (List.range (blockBytes blk).2).map fun i =>
    let a := (blockBytes blk).1 + i
    (strand k s).com.byte (tget 0 s.exe.couched a) a

/-- The dirty filter of strand `k` after network `n` executed during verification (R161, R165). -/
def markDiffs (k n : Nat) (wr : BlockSet) (s : State) : State :=
  let x := strand k s
  if wr.all then setStrand k { x with dirty := { all := true, bl := [] } } s
  else
    let old := match x.recs.find? fun r => r.net == n with | some r => r.ov.blocks | none => []
    let diff := (wr.bl ++ old).filter fun b => specBlock k n s b != verBlock k s b
    setStrand k { x with dirty := diff.foldl (fun d b => d.mark b) x.dirty } s

/-- The ledger entry of the strand network in execution, as its accesses stand (R160). -/
def noteLedger (c : Cx) (s : State) : State :=
  match c with
  | .strand k =>
    let r := (strand k s).run
    { s with exe.ledger := tset {} s.exe.ledger r.net { rd := r.rd, wr := r.wr, lIn := r.lIn } }
  | _ => s

/-- A verified network whose standing execution overflowed a set counts once (Table 8.3). -/
def countOvf (rd wr : BlockSet) (s : State) : State :=
  if rd.all || wr.all then { s with exe.ovf := satInc 255 s.exe.ovf } else s

/-- One discard counted (R168). -/
def countBroke (s : State) : State := { s with exe.broke := satInc 65535 s.exe.broke }

/-- The test of Table 8.2 that confirms a speculated network. -/
def confirms (k : Nat) (r : NetRec) (s : State) : Bool :=
  let x := strand k s
  let ch : BlockSet := { all := false, bl := s.exe.changed }
  !(r.rd.meets ch || r.wr.meets ch || r.rd.meets x.dirty || r.wr.meets x.dirty) && x.run.regs.l == r.lIn

/-- Strand `k` walks on through confirmed networks to the next one that must execute, or to its end (R165). -/
def verifyWalk (k : Nat) : Nat → State → State
  | 0, s => s
  | fuel + 1, s =>
    let x := strand k s
    if strandEnd s k ≤ x.pos then setStrand k { x with phase := .done } s
    else match x.recs.find? fun r => r.net == x.pos with
      | none => s
      | some r =>
        if confirms k r s then
          let x' := { x with com := x.com.join r.ov, pos := x.pos + 1,
                             run := { x.run with regs := { x.run.regs with l := r.lOut } } }
          verifyWalk k fuel (countOvf r.rd r.wr (setStrand k x' s))
        else countBroke s

/-- Verification of strand `k` from where it stands. -/
def verify (k : Nat) (s : State) : State := verifyWalk k ((strandRange (running s) k).2 + 1) s

/-- The trial cycle begins again at its first network, on its sheet as it stood. -/
def trialRewind (s : State) : State :=
  { s with trial.finished := false, trial.strand := 0, trial.pos := (strandRange (shadow s) 0).1, trial.run := {},
           trial.coms := [], trial.tasks := [], trial.ran := 0 }

/-- The trial has begun a strand-0 network that comes after a placement (R177). -/
def trialPast (place : Nat) (s : State) : Bool :=
  let t := s.trial
  let r := strandRange (shadow s) 0
  let after := max place r.1
  if t.strand ≠ 0 then decide (after < r.1 + r.2) else decide (after < t.pos) || (t.run.opened && decide (after ≤ t.pos))

/-- The trial's next piece of work: a mirrored task run that is due before the next network (R177), the next
strand, or the end of the trial cycle. -/
def trialSettle : Nat → State → State
  | 0, s => s
  | fuel + 1, s =>
    let t := s.trial
    if t.tasks ≠ [] || t.run.opened then s else
    let p := shadow s
    let r := strandRange p t.strand
    let past := decide (t.strand ≠ 0 ∨ r.1 + r.2 ≤ t.pos)
    match (t.mirrors.drop t.ran).head?.filter fun m => past || decide (m.place ≤ t.pos) with
    | some m =>
      let tr := taskRange p m.task
      let s := { s with trial.ran := t.ran + 1 }
      if tr.2 = 0 then trialSettle fuel s
      else { s with trial.tasks := [{ task := m.task, tick := m.tick, pos := tr.1, last := tr.1 + tr.2,
                                      run := { regs := { a := m.a, l := m.l } } }] }
    | none =>
      if r.1 + r.2 ≤ t.pos then
        (if t.strand < 3 then
           trialSettle fuel { s with trial.strand := t.strand + 1, trial.pos := (strandRange p (t.strand + 1)).1,
                                     trial.run := {} }
         else { s with trial.finished := true })
      else s

/-- A task run ends: the unfenced strand-0 network that it interrupted during verification restarts when its
accesses meet the run's writes (R166); verification that waited for it begins (R165). -/
def endTask (t : TaskRun) (s : State) : State :=
  let x := strand 0 s
  let w : BlockSet := { all := false, bl := t.wrote }
  let s := if x.phase = .verify ∧ x.run.opened ∧ ¬ x.run.fence ∧ (x.run.rd.meets w || x.run.wr.meets w) then
      countBroke (setStrand 0 { x with run := { regs := { l := x.run.lIn } } } s)
    else s
  if s.exe.held0 && s.exe.tasks.isEmpty then verify 0 { s with exe.held0 := false } else s

/-- The network in execution has reached its end. -/
def endNet (c : Cx) (s : State) : State :=
  let r := runOf c s
  let idle : NetRun := { regs := { r.regs with pc := 0, lit := none } }
  match c with
  | .strand k =>
    let x := strand k s
    if x.phase = .spec then
      setStrand k { x with run := idle, pos := x.pos + 1,
                           recs := x.recs ++ [{ net := x.pos, lIn := r.lIn, lOut := r.regs.l, rd := r.rd,
                                                wr := r.wr, ov := r.ov }] } s
    else
      let s := setStrand k { x with com := if r.fence then x.com else x.com.join r.ov, run := idle } s
      let s := markDiffs k x.pos r.wr (countOvf r.rd r.wr s)
      verify k (setStrand k { strand k s with pos := x.pos + 1 } s)
  | .task =>
    match s.exe.tasks with
    | [] => s
    | t :: ts =>
      if t.pos + 1 < t.last then { s with exe.tasks := { t with run := idle, pos := t.pos + 1 } :: ts }
      else endTask t { s with exe.tasks := ts }
  | .tstrand => trialSettle 64 { s with trial.run := idle, trial.pos := s.trial.pos + 1 }
  | .ttask =>
    match s.trial.tasks with
    | [] => s
    | t :: ts =>
      if t.pos + 1 < t.last then { s with trial.tasks := { t with run := idle, pos := t.pos + 1 } :: ts }
      else trialSettle 64 { s with trial.tasks := ts }

/-- A NET word opens network `nextNet` (R142, R150). A speculating pipe passes over a fenced network (R163). -/
def openNet (c : Cx) (fence : Bool) (s : State) : State :=
  let r := runOf c s
  let n := nextNet c s
  let isTask := c == .task || c == .ttask
  let regs := { r.regs with la := false, stack := [], a := if isTask then r.regs.a else 0,
                            b := if isTask then r.regs.b else 0,
                            pc := netStart (progOf c s) n + 1, lock := false, lit := none }
  let opened : NetRun := { regs := regs, opened := true, net := n, fence := fence && !isTask && c != .tstrand,
                           lIn := r.regs.l }
  match c with
  | .strand k =>
    let x := strand k s
    if fence && x.phase == .spec then setStrand k { x with pos := x.pos + 1 } s
    else setRun c opened s
  | _ => setRun c opened s

/-! ## Taking one word -/

/-- The NET word of an open network, reached by its own LNXT (R142). -/
def reopenNet (c : Cx) (s : State) : State :=
  let r := runOf c s
  let isTask := c == .task || c == .ttask
  setRun c { r with regs := { r.regs with la := false, stack := [], a := if isTask then r.regs.a else 0,
                                          b := if isTask then r.regs.b else 0, pc := r.regs.pc + 1, lit := none } } s

/-- After a word: the ledger shows its accesses; at the network's end the network ends; a step that reaches a NET word halts there (R478). -/
def afterWord (c : Cx) (s : State) : State :=
  let r := runOf c s
  let s := noteLedger c s
  let s := { s with dbg.passBp := if isLive c then clrBit s.dbg.passBp (pipeOf c) else s.dbg.passBp }
  if netEnd (progOf c s) r.net ≤ r.regs.pc then
    let s := endNet c s
    let k := pipeOf c
    if isLive c && tget 0 s.dbg.stepping k != 0 then
      (match c with
       | .strand j => if strandEnd s j ≤ (strand j s).pos then { s with dbg.stepWait := setBit s.dbg.stepWait k }
                      else haltPipe k 3 0 s
       | _ => haltPipe k 3 0 s)
    else s
  else s

/-- One word of a program taken by a pipe: `body` gives the effect on the state and the displacement of the next
word. A word that is corrupt is a fault (R156). A word outside an open network, like one sent to a pipe with nothing to execute, is not executed. -/
def takeWord (w : Who) (op md x : Nat) (body : Cx → State → State × Int) (s : State) : State :=
  match pickCx w s with
  | none => s
  | some c =>
    let pc := pcOf c s
    match haltBefore c s pc with
    | some (cause, i) => haltPipe (pipeOf c) cause i s
    | none =>
      if corrupt c pc (mkWord op md x) s then (if isLive c then parityFault else trialFault) (pipeOf c) pc s
      else if op = 0x30 then
        (if (runOf c s).opened then
           (if pc = netStart (progOf c s) (runOf c s).net then afterWord c (reopenNet c s) else s)
         else
         let s' := openNet c (bitOf x 20) s
         if (runOf c s').opened then afterWord c s' else s')
      else if !(runOf c s).opened then s
      else
        let keep := op == 0x33
        let (s', d) := body c s
        let r := runOf c s'
        let pc' := ((pc : Int) + d).toNat
        afterWord c (setRun c { r with regs := { r.regs with pc := pc', lit := if keep then r.regs.lit else none } } s')

/-- The pipe registers of a context. -/
def regsOf (c : Cx) (s : State) : Regs := (runOf c s).regs
/-- The pipe registers of a context replaced. -/
def setRegs (c : Cx) (g : Regs) (s : State) : State := setRun c { runOf c s with regs := g } s

end Sys2Proof.Machine
end

