-- ==== Sys2Proof/Machine/SwitchOps.lean ====
section
/-! DEFINITION. The workings of the lane switch (13_the_lane_switch): live parameters, the books, admission, weighted fair queueing,
shapers and policers, lookahead with its undo, cancels and closing lane domains. -/

namespace Sys2Proof.Machine

/-- A field of a status word, `n` bits from bit `lo`, raised by one and saturating. -/
def satField (lo n x : Nat) : Nat := if bitsOf x (lo + n - 1) lo < 2 ^ n - 1 then x + 2 ^ lo else x

/-! ## Live parameters (R302 to R304) -/

/-- Bytes of a field with the mirror's bytes laid over them. -/
def mirrored (m : Tbl Nat) (o n base : Nat) : Nat :=
  leNat ((List.range n).map fun i =>
    let v := tget 0 m (o + i)
    BitVec.ofNat 8 (if v = 0 then base / 256 ^ i else v - 1))

/-- A live field of the scheduler record. -/
def sch (s : State) (o n d : Nat) : Nat := mirrored s.sw.sched o n (cf s 0x19 0 o n d)
/-- A live field of the policer record. -/
def plc (s : State) (o n d : Nat) : Nat := mirrored s.sw.polm o n (cf s 0x1A 0 o n d)

/-- drain_ticks (Table 13.4). -/
def drainTicks (s : State) : Nat := sch s 0 1 8
/-- reserve_legal. -/
def reserveLegal (s : State) : Nat := sch s 2 2 256
/-- Port slot of queue `q` (Table 13.6). -/
def qPort (s : State) (q : Nat) : Nat := sch s (1296 + 16 * q) 1 0xFF
/-- Service of queue `q`. -/
def qSvc (s : State) (q : Nat) : Nat := sch s (1297 + 16 * q) 1 7
/-- Subscriber of queue `q`. -/
def qSub (s : State) (q : Nat) : Nat := sch s (1298 + 16 * q) 1 0
/-- src of queue `q`. -/
def qSrc (s : State) (q : Nat) : Nat := sch s (1299 + 16 * q) 1 0xFF
/-- weight of queue `q`. -/
def qWeight (s : State) (q : Nat) : Nat := sch s (1300 + 16 * q) 2 256
/-- max_cells of queue `q`. -/
def qMax (s : State) (q : Nat) : Nat := sch s (1302 + 16 * q) 2 256
/-- policer of queue `q`. -/
def qPol (s : State) (q : Nat) : Nat := sch s (1304 + 16 * q) 2 0xFFFF
/-- yellow_q of queue `q`. -/
def qYellow (s : State) (q : Nat) : Nat := sch s (1306 + 16 * q) 2 0xFFFF
/-- weight of subscriber `u`. -/
def subWeight (s : State) (u : Nat) : Nat := sch s (1040 + 4 * u) 2 256
/-- weight of service `v` (2 to 7) at port `p`. -/
def svcWeight (s : State) (p v : Nat) : Nat := sch s (20 + 16 * p + 2 * (v - 2)) 2 256

/-- The length L of a packet at port `p` (R291). -/
def lenAt (s : State) (p bytes : Nat) : Nat :=
  if sch s (16 + 16 * p) 1 1 = 0 then 1
  else
    let b := bytes + sch s (17 + 16 * p) 1 0
    if sch s (18 + 16 * p) 1 0 = 1 then ceilDiv (b * 10) 8 else b

/-! ## The books (R282 to R284) -/

/-- Cells of a packet of `b` bytes (R282). -/
def cellsOf (b : Nat) : Nat := ceilDiv b 128
/-- Waiting packets of queue `q`, head first. -/
def queue (s : State) (q : Nat) : List Pkt := tget [] s.sw.queues q
/-- The chosen packet of port `p`. -/
def chosenAt (s : State) (p : Nat) : Option Chosen := tget none s.sw.chosen p
/-- Cells of a list of packets. -/
def pktCells (l : List Pkt) : Nat := (l.map fun k => cellsOf k.bytes).sum
/-- Chosen packets, with the ports that chose them. -/
def chosenList (s : State) : List (Nat × Chosen) := s.sw.chosen.filterMap fun e => e.2.map fun c => (e.1, c)
/-- Cells of queue `q`, its chosen packet among them. -/
def queueCells (s : State) (q : Nat) : Nat :=
  pktCells (queue s q) + pktCells ((chosenList s).filterMap fun c => if c.2.q = q then some c.2.pkt else none)
/-- Packets of queue `q`. -/
def queuePkts (s : State) (q : Nat) : Nat :=
  (queue s q).length + ((chosenList s).filter fun c => c.2.q == q).length
/-- Cells queued. -/
def queuedCells (s : State) : Nat :=
  (s.sw.queues.map fun e => pktCells e.2).sum + pktCells ((chosenList s).map fun c => c.2.pkt)
/-- Cells held by the ingress engines: those of the frames in progress. -/
def ingressCells (s : State) : Nat := (s.engs.map fun e => cellsOf e.2.raw.length).sum
/-- Cells held by the egress engines. -/
def egressCells (s : State) : Nat := (s.sw.egr.map Prod.snd).sum
/-- Free cells. -/
def freeCells (s : State) : Nat := 16384 - queuedCells s - ingressCells s - egressCells s

/-- The book snapshot of a boundary (R284). -/
def takeSnapshot (s : State) : State :=
  let f := freeCells s
  let q := queuedCells s
  let i := ingressCells s
  let e := egressCells s
  let s := { s with sw.snap0 := f * 65536 + q, sw.snap1 := i * 65536 + e, sw.snapTick := s.clk.tick % 2 ^ 32 }
  if f + q + i + e = 16384 then s else raise 0x1305 f s

/-! ## Port slots and lanes (R259, R285) -/

/-- The lane of a port slot's power domain. -/
def laneOfSlot (p : Nat) : Option Nat :=
  if 2 ≤ p ∧ p ≤ 41 then some ((p - 2) / 5) else if 42 ≤ p ∧ p ≤ 49 then some (p - 42) else none
/-- A lane. -/
def lane (s : State) (n : Nat) : Lane := tget {} s.lanes n
/-- A lane changed. -/
def modLane (n : Nat) (f : Lane → Lane) (s : State) : State := { s with lanes := tmod {} s.lanes n f }
/-- The lane's domain is off or closing (R22). -/
def laneShut (s : State) (n : Nat) : Bool := (lane s n).dom == .off || (lane s n).dom == .closing
/-- A port whose lane domain is closing or off. -/
def slotShut (s : State) (p : Nat) : Bool :=
  match laneOfSlot p with | some n => (lane s n).dom != .on | none => false

/-! ## Shapers and eligibility (R289, R292, R293, R319) -/

/-- What a shaper is bound to. -/
inductive Node where
  | queue (q : Nat)
  | sub (p u : Nat)
  | svc (p v : Nat)
  | port (p : Nat)
deriving DecidableEq, Repr

/-- The node of shaper `k` (Table 13.7). -/
def shaperNode (s : State) (k : Nat) : Option Node :=
  let o := 34064 + 16 * k
  let p := sch s (o + 1) 1 0
  let t := sch s (o + 2) 2 0
  match sch s o 1 0 with
  | 1 => some (.queue t)
  | 2 => some (.sub p t)
  | 3 => some (.svc p t)
  | 4 => some (.port p)
  | _ => none

/-- The shapers bound, with their nodes. -/
def shapers (s : State) : List (Nat × Node) :=
  if (cfgRec s 0x19 0).isNone && s.sw.sched.isEmpty then []
  else (List.range 512).filterMap fun k => (shaperNode s k).map fun n => (k, n)

/-- The shaper of a node. -/
def shaperOf (s : State) (n : Node) : Option Nat := ((shapers s).find? fun e => e.2 == n).map Prod.fst
/-- Credit of shaper `k`. -/
def credit (s : State) (k : Nat) : Int := tget 0 s.sw.credit k
/-- A node whose own shaper, if any, has credit of at least 0. -/
def nodeOk (s : State) (n : Node) : Bool :=
  match shaperOf s n with | some k => decide (0 ≤ credit s k) | none => true

/-- The session of a lane: lanes 0 to 7, else the store session. -/
def sessOf (s : State) (lane : Nat) : Sess := tget {} s.klp.sess (min 8 lane)
/-- Bytes of the KLP store in use (R319). -/
def storeUsed (s : State) : Nat :=
  (s.klp.sess.map fun e => (e.2.unack.map fun u => u.data.length).sum + (e.2.held.map fun h => h.data.length).sum).sum
/-- The uplink that serves KLP, as a port slot (Table 14.2). -/
def klpPort (s : State) : Nat := cf s 0x1C 0 6 1 0

/-- A head packet keeps its session within 64 unacknowledged datagrams and the store's space (R319). -/
def klpRoom (s : State) (p : Nat) (k : Pkt) : Bool :=
  if p = klpPort s ∧ k.typ ≠ 0 ∧ k.form = 0 then
    let x := sessOf s k.lane
    !x.isOpen || (decide (x.unack.length < 64) && decide (storeUsed s + k.data.length ≤ 524288))
  else true

/-- Queue `q` has a head packet that nothing holds. -/
def queueElig (s : State) (q : Nat) : Bool :=
  match queue s q with
  | k :: _ => nodeOk s (.queue q) && klpRoom s (qPort s q) k
  | [] => false

/-! ## Weighted fair queueing (R289, R290) -/

/-- Tag `a` is earlier than tag `b`, modulo 2^48. -/
def earlier (a b : Nat) : Bool :=
  let d := (b + 2 ^ 48 - a % 2 ^ 48) % 2 ^ 48
  decide (1 ≤ d ∧ d < 2 ^ 47)
/-- The later of two tags. -/
def laterTag (a b : Nat) : Nat := if earlier a b then b else a
/-- The advance of a finish tag. -/
def advance (t l w : Nat) : Nat := (t + ceilDiv (l * 4096) (max 1 w)) % 2 ^ 48

/-- The child with the earliest F; of equal ones the first listed. -/
def earliest (f : Nat → Nat) : List Nat → Option Nat
  | [] => none
  | c :: l => some (l.foldl (fun b d => if earlier (f d) (f b) then d else b) c)

/-- Key of subscriber `u` at service `v` of port `p`. -/
def keyU (p v u : Nat) : Nat := (p * 8 + v) * 64 + u
/-- Key of service `v` of port `p`. -/
def keyS (p v : Nat) : Nat := p * 8 + v

/-- The queues with waiting packets of a subscriber at a service of a port. -/
def busyQueues (s : State) (p v u : Nat) : List Nat :=
  (s.sw.queues.map Prod.fst).filter fun q => qPort s q == p && qSvc s q == v && qSub s q == u
/-- The subscribers with waiting packets at a service of a port, rising. -/
def busySubs (s : State) (p v : Nat) : List Nat :=
  let qs := (s.sw.queues.map Prod.fst).filter fun q => qPort s q == p && qSvc s q == v
  (List.range 64).filter fun u => qs.any fun q => qSub s q == u
/-- Some queue waits at a service of a port. -/
def svcBusy (s : State) (p v : Nat) : Bool :=
  (s.sw.queues.map Prod.fst).any fun q => qPort s q == p && qSvc s q == v

/-- The queue that a subscriber's choice gives. -/
def pickQueue (s : State) (p v u : Nat) : Option Nat :=
  earliest (fun q => (tget {} s.sw.tagQ q).f) ((busyQueues s p v u).filter fun q => queueElig s q)
/-- A subscriber is eligible at a service of a port. -/
def subElig (s : State) (p v u : Nat) : Bool := nodeOk s (.sub p u) && (pickQueue s p v u).isSome
/-- The subscriber that a service's choice gives. -/
def pickSub (s : State) (p v : Nat) : Option Nat :=
  earliest (fun u => (tget {} s.sw.tagU (keyU p v u)).f) ((busySubs s p v).filter fun u => subElig s p v u)
/-- A service is eligible at its port. -/
def svcElig (s : State) (p v : Nat) : Bool := nodeOk s (.svc p v) && (pickSub s p v).isSome
/-- The service that a port's choice gives: 0, then 1, then by weight; a port shaper never holds service 0. -/
def pickSvc (s : State) (p : Nat) : Option Nat :=
  if svcElig s p 0 then some 0
  else if !nodeOk s (.port p) then none
  else if svcElig s p 1 then some 1
  else earliest (fun v => (tget {} s.sw.tagS (keyS p v)).f) ([2, 3, 4, 5, 6, 7].filter fun v => svcElig s p v)

/-- The length that queue `q` offers. -/
def lenQ (s : State) (q : Nat) : Option Nat := (queue s q).head?.map fun k => lenAt s (qPort s q) k.bytes
/-- The length that a subscriber's choice gives now. -/
def lenU (s : State) (p v u : Nat) : Option Nat := (pickQueue s p v u).bind (lenQ s)
/-- The length that a service's choice gives now. -/
def lenS (s : State) (p v : Nat) : Option Nat := (pickSub s p v).bind (lenU s p v)

/-- A child's tags brought up to date (R290): newly backlogged, newly eligible after a hold, or a new head length. -/
def touch (v w : Nat) (busy elig : Bool) (len : Option Nat) (t : Tag) : Tag :=
  let l := len.getD t.len
  if !busy then { t with busy := false, elig := false, len := 0 }
  else if !t.busy then
    let st := laterTag v t.last
    { t with s := st, f := advance st l w, len := l, busy := true, elig := elig }
  else if elig && !t.elig then
    let st := laterTag v t.s
    { t with s := st, f := advance st l w, len := l, elig := true }
  else if l ≠ t.len then { t with f := advance t.s l w, len := l, elig := elig }
  else { t with elig := elig }

/-- Queue `q`'s tag brought up to date. -/
def touchQ (q : Nat) (s : State) : State :=
  let k := keyU (qPort s q) (qSvc s q) (qSub s q)
  let f := touch (tget 0 s.sw.vQ k) (qWeight s q) (!(queue s q).isEmpty) (queueElig s q) (lenQ s q)
  { s with sw.tagQ := tmod {} s.sw.tagQ q f }
/-- A subscriber's tag brought up to date. -/
def touchU (p v u : Nat) (s : State) : State :=
  let f := touch (tget 0 s.sw.vU (keyS p v)) (subWeight s u) (!(busyQueues s p v u).isEmpty) (subElig s p v u)
    (lenU s p v u)
  { s with sw.tagU := tmod {} s.sw.tagU (keyU p v u) f }
/-- A service's tag brought up to date. -/
def touchS (p v : Nat) (s : State) : State :=
  if v < 2 then s else
  let f := touch (tget 0 s.sw.vS p) (svcWeight s p v) (svcBusy s p v) (svcElig s p v) (lenS s p v)
  { s with sw.tagS := tmod {} s.sw.tagS (keyS p v) f }

/-- The path of queue `q` brought up to date, from the queue upward. -/
def refreshPath (s : State) (q : Nat) : State :=
  let p := qPort s q
  let v := qSvc s q
  let u := qSub s q
  touchS p v (touchU p v u (touchQ q s))

/-- Every path with waiting packets brought up to date. -/
def refreshAll (s : State) : State := (s.sw.queues.map Prod.fst).foldl refreshPath s

/-- A child after its selection: F_last := F, and a new S and F while it still has a waiting packet. -/
def selected (w : Nat) (still : Bool) (len : Option Nat) (t : Tag) : Tag :=
  let l := len.getD t.len
  if still then { t with last := t.f, s := t.f, f := advance t.f l w, len := l }
  else { t with last := t.f, busy := false, elig := false, len := 0 }

/-! ## Choosing, undoing, committing (R297, R298) -/

/-- The nodes on a path, from the queue to the port. -/
def pathNodes (p v u q : Nat) : List Node := [.queue q, .sub p u, .svc p v, .port p]

/-- A node has a waiting packet. -/
def nodeBusy (s : State) : Node → Bool
  | .queue q => !(queue s q).isEmpty
  | .sub p u => (s.sw.queues.map Prod.fst).any fun q => qPort s q == p && qSub s q == u
  | .svc p v => svcBusy s p v
  | .port p => (s.sw.queues.map Prod.fst).any fun q => qPort s q == p

/-- A shaper charged for a packet of length `l` selected through its node, then emptied of surplus credit when the
node's last waiting packet has left (R292). -/
def chargeNode (l : Nat) (s : State) (n : Node) : State :=
  match shaperOf s n with
  | none => s
  | some k =>
    let o := 34064 + 16 * k
    let c := max (-((sch s (o + 14) 2 2048 : Nat) : Int) * 256) (credit s k - l * sch s (o + 8) 2 256)
    { s with sw.credit := tset 0 s.sw.credit k (if !nodeBusy s n ∧ 0 < c then 0 else c) }

/-- Surplus credit taken from the nodes of a path whose last waiting packet was withdrawn (R292). -/
def settleNode (s : State) (n : Node) : State :=
  match shaperOf s n with
  | none => s
  | some k => if !nodeBusy s n ∧ 0 < credit s k then { s with sw.credit := tset 0 s.sw.credit k 0 } else s

/-- The choice of a port with nothing chosen: the path's tags, virtual times and credits advance, with a saved copy. -/
def choose (p : Nat) (s : State) : State :=
  if (chosenAt s p).isSome then s else
  match pickSvc s p with
  | none => s
  | some v => match pickSub s p v with
    | none => s
    | some u => match pickQueue s p v u with
      | none => s
      | some q => match queue s q with
        | [] => s
        | k :: rest =>
          let ku := keyU p v u
          let ks := keyS p v
          let tq := tget {} s.sw.tagQ q
          let tu := tget {} s.sw.tagU ku
          let ts := tget {} s.sw.tagS ks
          let nodes := pathNodes p v u q
          let saved := nodes.filterMap fun n => (shaperOf s n).map fun i => (i, credit s i)
          let c : Chosen := { q := q, pkt := k, tq := tq, tu := tu, ts := ts, vq := tget 0 s.sw.vQ ku,
                              vu := tget 0 s.sw.vU ks, vs := tget 0 s.sw.vS p, credits := saved }
          let s := { s with sw.queues := tset [] s.sw.queues q rest, sw.chosen := tset none s.sw.chosen p (some c) }
          let s := { s with sw.vQ := tset 0 s.sw.vQ ku tq.f,
                            sw.tagQ := tset {} s.sw.tagQ q (selected (qWeight s q) (!rest.isEmpty) (lenQ s q) tq) }
          let s := { s with sw.vU := tset 0 s.sw.vU ks tu.f,
                            sw.tagU := tset {} s.sw.tagU ku
                              (selected (subWeight s u) (!(busyQueues s p v u).isEmpty) (lenU s p v u) tu) }
          let s := if v < 2 then s else
            { s with sw.vS := tset 0 s.sw.vS p ts.f,
                     sw.tagS := tset {} s.sw.tagS ks
                       (selected (svcWeight s p v) (svcBusy s p v) (lenS s p v) ts) }
          let s := nodes.foldl (chargeNode (lenAt s p k.bytes)) s
          refreshPath s q

/-- The choice of a port undone: the saved values come back, and the packet returns to the head of its queue unless it
was withdrawn (R298). -/
def undo (p : Nat) (putBack : Bool) (s : State) : State :=
  match chosenAt s p with
  | none => s
  | some c =>
    let v := qSvc s c.q
    let u := qSub s c.q
    let s := { s with sw.chosen := tset none s.sw.chosen p none,
                      sw.undos := satInc 65535 s.sw.undos,
                      sw.tagQ := tset {} s.sw.tagQ c.q c.tq,
                      sw.tagU := tset {} s.sw.tagU (keyU p v u) c.tu,
                      sw.tagS := tset {} s.sw.tagS (keyS p v) c.ts,
                      sw.vQ := tset 0 s.sw.vQ (keyU p v u) c.vq,
                      sw.vU := tset 0 s.sw.vU (keyS p v) c.vu,
                      sw.vS := tset 0 s.sw.vS p c.vs,
                      sw.credit := c.credits.foldl (fun m e => tset 0 m e.1 e.2) s.sw.credit }
    let s := if putBack then { s with sw.queues := tset [] s.sw.queues c.q (c.pkt :: queue s c.q) } else s
    let s := if putBack then s else (pathNodes p v u c.q).foldl settleNode s
    refreshPath s c.q

/-! ## Admission (R287, R288) -/

/-- What admission made of a packet. -/
inductive Adm where
  | accepted | source | red | yellow | closing | full
deriving DecidableEq, Repr

/-- A drop of queue `q` counted in its Q_DROP field. -/
def countDrop (q lo : Nat) (s : State) : State :=
  { s with sw.drop := tmod 0 s.sw.drop q (satField lo 8) }

/-- Checks 1, 3 and 4 of R287, and the packet joins its queue; `heldByIt` are the cells already taken for it. A service
numbered lower than the chosen packet's undoes that choice (R298). -/
def joinQueue (q slot : Nat) (k : Pkt) (s : State) : Adm × State :=
  let p := qPort s q
  let cells := cellsOf k.bytes
  if p = 0xFF ∨ (qSrc s q ≠ 0xFF ∧ qSrc s q ≠ slot) then (.source, countDrop q 24 s)
  else if slotShut s p then
    (.closing, match laneOfSlot p with
      | some n => modLane n (fun x => { x with closeRej := satInc (2 ^ 32 - 1) x.closeRej }) s
      | none => s)
  else if qMax s q < queueCells s q + cells ∨ (qSvc s q ≠ 0 ∧ freeCells s < reserveLegal s + cells) ∨ freeCells s < cells then
    (.full, countDrop q 0 s)
  else
    let s := { s with sw.queues := tset [] s.sw.queues q (queue s q ++ [{ k with src := slot }]) }
    let s := refreshPath s q
    match chosenAt s p with
    | some c => if qSvc s q < qSvc s c.q then (.accepted, choose p (undo p true s)) else (.accepted, s)
    | none => (.accepted, s)

/-- mode of policer `i` (R303). -/
def polMode (s : State) (i : Nat) : Nat := plc s (20 * i) 1 0

/-- The colour of a packet at policer `i` (R294): 0 green, 1 yellow, 2 red; its buckets charged. -/
def colour (i b : Nat) (pre : Nat) (s : State) : Nat × State :=
  let need := b * 1024
  let tc := tget 2097152 s.sw.tc i
  let tp := tget 2097152 s.sw.tp i
  let bump (lo : Nat) (s : State) := { s with sw.polCnt := tmod 0 s.sw.polCnt i (satField lo 16) }
  if pre = 2 ∨ tp < need then (2, bump 0 s)
  else if pre = 1 ∨ tc < need then (1, bump 16 { s with sw.tp := tset 2097152 s.sw.tp i (tp - need) })
  else (0, { s with sw.tp := tset 2097152 s.sw.tp i (tp - need), sw.tc := tset 2097152 s.sw.tc i (tc - need) })

/-- A completed packet offered to queue `q` from a slot: source, policer, closing, space (R287, R295). `dei` says that
it came with an 802.1Q tag whose DEI bit is 1. -/
def offerPkt (q slot : Nat) (dei : Bool) (k : Pkt) (s : State) : Adm × State :=
  if qPort s q = 0xFF ∨ (qSrc s q ≠ 0xFF ∧ qSrc s q ≠ slot) then (.source, countDrop q 24 s)
  else
    let i := qPol s q
    if i = 0xFFFF ∨ polMode s i = 0 then joinQueue q slot k s
    else
      let (c, s) := colour i k.bytes (if polMode s i = 2 && dei then 1 else 0) s
      if c = 2 then (.red, countDrop q 16 s)
      else if c = 1 then
        (if qYellow s q = 0xFFFF then (.yellow, countDrop q 8 s) else joinQueue (qYellow s q) slot k s)
      else joinQueue q slot k s

/-- Traffic of port G enters no queue of service 0 or 1 (R27). -/
def admitFrom (q slot : Nat) (dei : Bool) (k : Pkt) (s : State) : Adm × State :=
  if slot = 55 ∧ qSvc s q < 2 then (.source, countDrop q 24 s) else offerPkt q slot dei k s

/-! ## Cancels (R299) -/

/-- A packet tag is the one named. -/
def hasTag (t : Nat × Nat) (k : Pkt) : Bool := k.tag == some t

/-- A packet with this tag removed from queue `q`; the answer says whether it was withdrawn. -/
def withdraw (q : Nat) (t : Nat × Nat) (s : State) : Bool × State :=
  let p := qPort s q
  match (chosenAt s p) with
  | some c =>
    if c.q = q ∧ hasTag t c.pkt then (true, choose p (undo p false s))
    else if (queue s q).any (hasTag t) then
      (true, refreshPath ((pathNodes p (qSvc s q) (qSub s q) q).foldl settleNode
        { s with sw.queues := tset [] s.sw.queues q ((queue s q).eraseP (hasTag t)) }) q)
    else (false, s)
  | none =>
    if (queue s q).any (hasTag t) then
      (true, refreshPath ((pathNodes p (qSvc s q) (qSub s q) q).foldl settleNode
        { s with sw.queues := tset [] s.sw.queues q ((queue s q).eraseP (hasTag t)) }) q)
    else (false, s)

/-- A cancel: withdrawn before the commit, or late. A packet that has been committed counts in cancel_late and raises EVT-1302;
one that is not found is late and no more. The answer is 0 withdrawn, 1 late. -/
def cancel (q : Nat) (t : Nat × Nat) (s : State) : Nat × State :=
  match withdraw q t s with
  | (true, s) => (0, s)
  | (false, s) =>
    (1, if s.sw.sent.any fun e => hasTag t e.2 then raise 0x1302 q { s with sw.cancelLate := satInc 65535 s.sw.cancelLate } else s)

/-! ## The boundary in the data plane (R296) -/

/-- A policer's buckets refilled. -/
def refill (s : State) (i : Nat) : State :=
  let o := 20 * i
  let f (d : Nat) : Nat := plc s d 4 0
  { s with
    sw.tc := tset 2097152 s.sw.tc i (min (plc s (o + 12) 4 2048 * 1024) (tget 2097152 s.sw.tc i + f (o + 4))),
    sw.tp := tset 2097152 s.sw.tp i (min (plc s (o + 16) 4 2048 * 1024) (tget 2097152 s.sw.tp i + f (o + 8))) }

/-- The policers, whose buckets all refill; without a record each is full by its defaults and stays so. -/
def policers (s : State) : List Nat :=
  if (cfgRec s 0x1A 0).isNone && s.sw.polm.isEmpty then [] else List.range 512

/-- Credit of a shaper after its idle step (R292). -/
def idled (s : State) (k : Nat) (busy : Bool) (c : Int) : Int :=
  let o := 34064 + 16 * k
  let i : Int := sch s (o + 4) 4 0
  if busy then min ((sch s (o + 12) 2 2048 * 256 : Nat) : Int) (c + i) else if c < 0 then min 0 (c + i) else c

/-- Shaper idle credit added, to the live credits and to the saved copies of pending choices (R292, R298). -/
def addIdle (s : State) : State :=
  let sh := shapers s
  let s' := { s with
    sw.credit := sh.foldl (fun m e => tset 0 m e.1 (idled s e.1 (nodeBusy s e.2) (tget 0 m e.1))) s.sw.credit,
    sw.chosen := s.sw.chosen.map fun e =>
      (e.1, e.2.map fun c => { c with credits := c.credits.map fun kc => (kc.1, idled s kc.1 true kc.2) }) }
  refreshAll s'

/-- Buckets set full and every tag, virtual time and credit set to 0, as tail threading leaves them. -/
def switchReset (s : State) : State :=
  let s := { s with sw := {} }
  (policers s).foldl (fun s i =>
    { s with sw.tc := tset 2097152 s.sw.tc i (plc s (20 * i + 12) 4 2048 * 1024),
             sw.tp := tset 2097152 s.sw.tp i (plc s (20 * i + 16) 4 2048 * 1024) }) s

/-! ## Closing a lane domain (R300) -/

/-- The port slots of lane `n`. -/
def laneSlots (n : Nat) : List Nat := (List.range 5).map (fun i => 2 + 5 * n + i) ++ [42 + n]

/-- Packets and egress cells still held for lane `n`. -/
def laneHolds (s : State) (n : Nat) : Bool :=
  (laneSlots n).any fun p =>
    (chosenAt s p).isSome || tget 0 s.sw.egr p != 0 || (s.sw.queues.map Prod.fst).any fun q => qPort s q == p

/-- Every cell of lane `n`'s ports returned to free: the count of packets removed, and the switch without them. -/
def flushLane (n : Nat) (s : State) : Nat × State :=
  (laneSlots n).foldl (fun (cs : Nat × State) p =>
    let (c, s) := cs
    let c1 := if (chosenAt s p).isSome then 1 else 0
    let s := undo p false s
    let qs := (s.sw.queues.map Prod.fst).filter fun q => qPort s q == p
    let c2 := (qs.map fun q => (queue s q).length).sum
    let s := qs.foldl (fun s q =>
      refreshPath ((pathNodes p (qSvc s q) (qSub s q) q).foldl settleNode
        { s with sw.queues := tset [] s.sw.queues q [] }) q) s
    let c3 := if tget 0 s.sw.egr p = 0 then 0 else 1
    (c + c1 + c2 + c3, { s with sw.egr := tset 0 s.sw.egr p 0 })) (0, s)

/-- The flush of a closing domain: CLOSE_DROP, EVT-1303 when packets were removed; off at a later boundary (R67). -/
def closeFlush (n : Nat) (s : State) : State :=
  let (c, s) := flushLane n s
  let s := modLane n (fun x => { x with flushed := true, closeDrop := satAdd (2 ^ 32 - 1) x.closeDrop c }) s
  if c = 0 then s else raiseL 0x1303 c n s

end Sys2Proof.Machine
end

