-- ==== Sys2Proof/Machine/Done.lean ====
section
/-! DEFINITION. The end of every command: the events that it raised are delivered together, and the KLP EVENTs among
them are offered as soon as KLP is served. -/

namespace Sys2Proof.Machine

/-- The pair is configured (Table 9.7). -/
def paired (s : State) : Bool := cf s 0x15 0 0 1 0 == 1

/-- KLP is served now (R309). -/
def klpServed (s : State) : Bool :=
  (cfgRec s 0x1C 0).isSome &&
    (if paired s then s.felt.lpown else s.md.mode == .hold || s.md.mode == .active)

/-- Bytes of the Ethernet frame that carries a KLP payload of `n` bytes on the session of `lane` (Table 13.1, R312). -/
def klpFrameBytes (s : State) (lane n : Nat) : Nat :=
  let x := sessOf s lane
  let vlan := cf s 0x1C 0 (8 + 2 * klpPort s) 2 0
  18 + (if vlan = 0 then 0 else 4) + (if x.v6 then 40 else 20) + 8 + 24 + n + (if x.auth then 16 else 0)

/-- A packet of the KLP engine offered to q_ctrl (Table 14.2). -/
def klpOffer (k : Pkt) (s : State) : State := (offerPkt (cf s 0x1C 0 58 2 0) (klpPort s) false k s).2

/-- A datagram of the KLP engine on the session of `lane`. -/
def klpSend (lane typ form seq : Nat) (data : List Byte) (s : State) : State :=
  klpOffer { bytes := max 64 (klpFrameBytes s lane data.length), lane := lane, typ := typ, form := form, seq := seq,
             data := data } s

/-- The payload of an EVENT (Table 14.5). -/
def eventPayload (e : LogEntry) : List Byte :=
  beBytes 2 e.code ++ [BitVec.ofNat 8 e.lane, 0] ++ beBytes 6 e.tick ++ [0, 0] ++ beBytes 4 e.arg

/-- Held EVENTs sent while KLP is served; otherwise at most 16 are held, oldest first (R528). -/
def sendEvents (s : State) : State :=
  if s.evt.klpHeld.isEmpty then s
  else if klpServed s then
    s.evt.klpHeld.foldl (fun s e => klpSend e.lane 7 0 0 (eventPayload e) s) { s with evt.klpHeld := [] }
  else { s with evt.klpHeld := s.evt.klpHeld.take 16 }

/-- A collector is configured and the export runs in this mode (R396, R415). -/
def syslogOn (s : State) : Bool :=
  (cf s 0x1D 0 8 4 0 != 0 || cf s 0x1D 0 12 16 0 != 0) && s.md.mode != .backup && s.md.mode != .dormant

/-- EVT-1806 was raised less than a minute ago (R415). -/
def exportHushed (s : State) : Bool :=
  match s.hmp.sysLast with | some t => decide (s.clk.tick < t + 60 * ticksPerSec s) | none => false

/-- One event offered to the syslog export: sent within syslog_rate, else counted, EVT-1806 once per minute (R415). -/
def exportOne (s : State) (e : LogEntry) : State :=
  if !syslogOn s || decide (cf s 0x1D 0 32 1 6 < severity e.cls) then s
  else if s.hmp.sysSec < cf s 0x1D 0 30 2 50 then
    { s with hmp.sysSec := s.hmp.sysSec + 1, evt.sysSent := s.evt.sysSent ++ [syslogText e s] }
  else
    let s := { s with hmp.err := satField 0 8 s.hmp.err }
    if exportHushed s then s else raise 0x1806 (s.hmp.err % 256) { s with hmp.sysLast := some s.clk.tick }

/-- The events of the step offered to the collector; an EVT-1806 that this raises is delivered too. -/
def exportSyslog (s : State) : State :=
  let s := flushEvents (s.evt.sysOut.foldl exportOne { s with evt.sysOut := [] })
  s.evt.sysOut.foldl exportOne { s with evt.sysOut := [] }

/-- The events of a command delivered in ascending code order (R529): log, syslog export, EVENTs. -/
def settle (s : State) : State :=
  let t := sendEvents (exportSyslog (flushEvents s))
  { t with evt.atBnd := false }

/-- A command's answer: its next state, with its events delivered. -/
def ok (s : State) : Out := .next (settle s)

/-- The answer of a tick boundary, and of what acts at one: the moment lasts until another command comes. -/
def okBoundary (s : State) : Out :=
  let t := settle s
  .next { t with evt.atBnd := true }

/-- A command that acts only at a tick boundary; between two boundaries it has nothing to do. -/
def atBoundary (f : State → State) (s : State) : Out := if s.evt.atBnd then okBoundary (f s) else ok s

end Sys2Proof.Machine
end

