-- ==== Sys2Proof/Machine/Felt.lean ====
section
/-! DEFINITION. What the felt link carries, byte by byte (09): short frames (Tables 9.2 and 9.3), the pages of a sheet, the
two bursts of a copy as their sender forms them and as their receiver reads them (Table 9.4, R197). -/

namespace Sys2Proof.Machine

/-! ## Short frames (R192, R193) -/

/-- Bytes 0 to 59 of a short frame. -/
def shortHead (ftype tick : Nat) (payload : List Byte) : List Byte :=
  [BitVec.ofNat 8 ftype, 0] ++ leBytes 6 tick ++ (payload ++ List.replicate (52 - payload.length) 0).take 52

/-- A short frame, 64 bytes. -/
def shortFrame (ftype tick : Nat) (payload : List Byte) : List Byte :=
  let h := shortHead ftype tick payload
  h ++ leBytes 4 (crc32 h)

/-- A short frame sent now; the frames of the present tick are kept. -/
def sendShort (ftype : Nat) (payload : List Byte) (s : State) : State :=
  { s with felt.sent := s.felt.sent ++ [shortFrame ftype s.clk.tick payload] }

/-- Payload of a heartbeat (type 0x01). -/
def heartbeatData (mode flags consistent gapRun : Nat) : List Byte :=
  [BitVec.ofNat 8 mode, BitVec.ofNat 8 flags] ++ leBytes 6 consistent ++ [BitVec.ofNat 8 gapRun]
/-- Payload of an edit report (type 0x05). -/
def editData (id digest : Nat) : List Byte := leBytes 4 id ++ beBytes 32 digest
/-- Payload of an echo (type 0x09). -/
def echoData (id turn : Nat) : List Byte := leBytes 4 id ++ leBytes 4 turn
/-- Payload of a negotiation frame (type 0x07). -/
def negoData : NegoPart → List Byte
  | .identity v h m b f => [0, v, BitVec.ofNat 8 (b2n h), m, b, BitVec.ofNat 8 (b2n f)]
  | .cfg d => 1 :: beBytes 32 d.toNat
  | .prog d => 2 :: beBytes 32 d.toNat
  | .low l => 3 :: (l.take 8).flatMap fun x => leBytes 4 x.toNat
  | .high l => 4 :: (l.take 8).flatMap fun x => leBytes 4 x.toNat

/-! ## Pages (R197, R199) -/

/-- First address of a page: M pages 0 to 31, T pages from 32, C pages from 96, D pages from 160. -/
def pageAddr (p : Nat) : Nat :=
  if p < 32 then 0x11001000 + 256 * p
  else if p < 96 then 0x11020000 + 256 * (p - 32)
  else if p < 160 then 0x11024000 + 256 * (p - 96)
  else 0x11010000 + 256 * (p - 160)

/-- The page of an address; none for I and Q. -/
def pageOf (a : Nat) : Option Nat :=
  if 0x11001000 ≤ a ∧ a < 0x11003000 then some ((a - 0x11001000) / 256)
  else if 0x11020000 ≤ a ∧ a < 0x11024000 then some (32 + (a - 0x11020000) / 256)
  else if 0x11024000 ≤ a ∧ a < 0x11028000 then some (96 + (a - 0x11024000) / 256)
  else if 0x11010000 ≤ a ∧ a < 0x11020000 then some (160 + (a - 0x11010000) / 256)
  else none

/-- A byte of a timer's preset field, which no copy carries (R198). -/
def isPreset (a : Nat) : Bool := decide (0x11020000 ≤ a ∧ a < 0x11024000 ∧ a % 16 < 4)

/-- The part of a sheet that a copy carries: I and Q whole, and these pages without presets. -/
def copyMem (m : Memory) (pages : List Nat) : Memory :=
  m.filter fun e => decide (0x11000000 ≤ e.1 ∧ e.1 < 0x11000800) ||
    (match pageOf e.1 with | some p => pages.contains p && !isPreset e.1 | none => false)

/-- The runs of addresses whose bytes a page's entries carry: an M or D page whole, a T instance without its preset, a C
instance's first 9 bytes (R197). -/
def pageRuns (p : Nat) : List (Nat × Nat) :=
  let a := pageAddr p
  if p < 32 ∨ 160 ≤ p then [(a, 256)]
  else if p < 96 then (List.range 16).map fun i => (a + 16 * i + 4, 12)
  else (List.range 16).map fun i => (a + 16 * i, 9)

/-- The address runs of burst A's body: the I and Q images, then its dirty pages in page order. -/
def runsA (pages : List Nat) : List (Nat × Nat) :=
  (0x11000000, 2048) :: ((List.range 160).filter pages.contains).flatMap pageRuns
/-- The address runs of burst B's pages. -/
def runsB (pages : List Nat) : List (Nat × Nat) :=
  (((List.range 256).map (160 + ·)).filter pages.contains).flatMap pageRuns

/-- The bytes of some runs. -/
def runBytes (m : Memory) (l : List (Nat × Nat)) : List Byte := l.flatMap fun r => rdBytes 0 m r.1 r.2

/-- Bytes put back where the runs say; the bytes that remain. -/
def takeRuns : List (Nat × Nat) → List Byte → Memory → Memory × List Byte
  | [], bs, m => (m, bs)
  | r :: l, bs, m => takeRuns l (bs.drop r.2) (wrBytes 0 m r.1 (bs.take r.2))

/-- Bytes of some runs together. -/
def runLen (l : List (Nat × Nat)) : Nat := l.foldl (fun n r => n + r.2) 0

/-! ## The KLP and pair sections (R197, Table 14.7) -/

/-- One session entry, 50 bytes; an IPv4 address stands in the first 4 of its 16 bytes. -/
def sessBytes (e : SessEnt) : List Byte :=
  [BitVec.ofNat 8 e.lane, BitVec.ofNat 8 (b2n e.isOpen + 2 * b2n e.auth + 4 * b2n e.v6)] ++ leBytes 2 e.num
    ++ (if e.v6 then beBytes 16 e.addr else beBytes 4 e.addr ++ List.replicate 12 0) ++ leBytes 2 e.port
    ++ leBytes 4 e.txNext ++ leBytes 4 e.rxNext ++ leBytes 8 e.map ++ leBytes 4 e.key ++ leBytes 8 e.nonce

/-- A session entry read. -/
def sessOfBytes (bs : List Byte) : SessEnt :=
  let st := fld bs 1 1
  { lane := fld bs 0 1, isOpen := bitOf st 0, auth := bitOf st 1, v6 := bitOf st 2, num := fld bs 2 2,
    addr := beNat ((bs.drop 4).take (if bitOf st 2 then 16 else 4)), port := fld bs 20 2, txNext := fld bs 22 4,
    rxNext := fld bs 26 4, map := fld bs 30 8, key := fld bs 38 4, nonce := fld bs 42 8 }

/-- A section: its length, 2 zero bytes, its bytes. -/
def copySection (bs : List Byte) : List Byte := leBytes 2 bs.length ++ [0, 0] ++ bs

/-- A section read when its flag is set, and the bytes after it; none where it does not fit. -/
def takeSection (present : Bool) (bs : List Byte) : Option (Option (List Byte) × List Byte) :=
  if !present then some (none, bs)
  else if bs.length < 4 + fld bs 0 2 then none
  else some (some ((bs.drop 4).take (fld bs 0 2)), bs.drop (4 + fld bs 0 2))

/-! ## Bursts (R196) -/

/-- A burst: header, body, CRC-32. -/
def burst (index flags tick base map mark : Nat) (body : List Byte) : List Byte :=
  let b := leBytes 2 (0xF00A + index) ++ [BitVec.ofNat 8 index, BitVec.ofNat 8 flags] ++ leBytes 4 body.length
    ++ leBytes 6 tick ++ [0, 0] ++ leBytes 6 base ++ [0, 0] ++ leBytes 32 map ++ leBytes 4 mark ++ leBytes 4 0 ++ body
  b ++ leBytes 4 (crc32 b)

/-- A bit map of numbers. -/
def bitMap (l : List Nat) : Nat := l.foldl (fun n k => n ||| 2 ^ k) 0

/-- The flags byte of a copy (Table 9.4). -/
def copyFlags (c : Copy) : Nat :=
  b2n c.full + 2 * b2n c.handover + 4 * b2n c.swap.isSome + 8 * b2n c.dorm + 64 * b2n c.moved

/-- Burst A of a copy. -/
def burstA (c : Copy) : List Byte :=
  burst 0 (copyFlags c) c.tick c.base (bitMap (c.pages.filter fun p => decide (p < 160))) (c.swap.getD 0)
    (runBytes c.mem (runsA c.pages))

/-- Burst B of a copy. -/
def burstB (c : Copy) : List Byte :=
  let klp := match c.klp with | some l => copySection (l.flatMap sessBytes) | none => []
  let pair := match c.pair with | some r => copySection r | none => []
  burst 1 (copyFlags c + 16 * b2n c.klp.isSome + 32 * b2n c.pair.isSome) c.tick c.base
    (bitMap ((c.pages.filter fun p => decide (160 ≤ p)).map (· - 160))) (c.swap.getD 0)
    (runBytes c.mem (runsB c.pages) ++ klp ++ pair)

/-- A burst's CRC-32 holds. -/
def burstCrc (bs : List Byte) : Bool :=
  decide (68 ≤ bs.length) && fld bs (bs.length - 4) 4 == crc32 (bs.take (bs.length - 4))

/-- A burst of this index arrived whole: type, index and body length as its header says. -/
def burstWhole (index : Nat) (bs : List Byte) : Bool :=
  fld bs 0 2 == 0xF00A + index && fld bs 2 1 == index && fld bs 4 4 + 68 == bs.length

/-- The numbers of the bits set in a map of 256 bits. -/
def pageBits (m : Nat) : List Nat := (List.range 256).filter fun k => bitOf m k

/-- The copy that two whole bursts carry, when their headers agree and their bodies hold what the maps and flags say (R201).
The couch, base and flags 3:0 stand in both. -/
def readCopy (a b : List Byte) : Option Copy :=
  let fa := fld a 3 1
  let fb := fld b 3 1
  let pages := (pageBits (fld a 24 32)).filter (fun p => decide (p < 160)) ++ (pageBits (fld b 24 32)).map (160 + ·)
  let bodyA := (a.drop 64).take (fld a 4 4)
  let bodyB := (b.drop 64).take (fld b 4 4)
  if fld a 8 6 ≠ fld b 8 6 ∨ fld a 16 6 ≠ fld b 16 6 ∨ fa % 16 ≠ fb % 16 then none
  else if bodyA.length ≠ runLen (runsA pages) ∨ bodyB.length < runLen (runsB pages) then none
  else
    let (m, _) := takeRuns (runsA pages) bodyA []
    let (m, rest) := takeRuns (runsB pages) bodyB m
    match takeSection (bitOf fb 4) rest with
    | none => none
    | some (klp, rest) =>
      match takeSection (bitOf fb 5) rest with
      | none => none
      | some (pair, _) =>
        some { full := bitOf fa 0, handover := bitOf fa 1, swap := if bitOf fa 2 then some (fld a 56 4) else none,
               dorm := bitOf fa 3, moved := bitOf fa 6, tick := fld a 8 6, base := fld a 16 6, pages := pages, mem := m,
               klp := klp.map fun bs => (List.range (bs.length / 50)).map fun i => sessOfBytes (bs.drop (50 * i)),
               pair := pair }

/-- The copy of two bursts of which neither was lost or damaged. -/
def goodCopy (a b : Option (List Byte)) : Option Copy :=
  match a, b with
  | some a, some b => if burstCrc a && burstCrc b && burstWhole 0 a && burstWhole 1 b then readCopy a b else none
  | _, _ => none

/-- A burst that arrived valid. -/
def validBurst (index : Nat) (b : Option (List Byte)) : Bool :=
  match b with | some bs => burstCrc bs && burstWhole index bs | none => false

/-- A burst that arrived with a bad CRC. -/
def crcFailed (b : Option (List Byte)) : Bool := match b with | some bs => !burstCrc bs | none => false

end Sys2Proof.Machine
end

