-- ==== Sys2Proof/Machine/Wake.lean ====
section
/-! DEFINITION. Waking a DORMANT unit (R69 to R72): what a wake source does. -/

namespace Sys2Proof.Machine

/-- WAKE_CAUSE with bit `k` set. -/
def setCause (k : Nat) (s : State) : State :=
  if bitOf s.md.wakeCause k then s else { s with md.wakeCause := s.md.wakeCause + 2 ^ k }

/-- The wake sequence of R71 begins at the next boundary. -/
def startWake (s : State) : State := if s.md.wakeStep = 0 then { s with md.wakeStep := 1 } else s

/-- A wake frame to the partner (R72). -/
def signalWake (s : State) : State :=
  if paired s then sendShort 0x06 [BitVec.ofNat 8 s.md.wakeCause] { s with felt.wakeOut := s.md.wakeCause } else s

/-- A wake of this unit's own: in a pair the partner is told; the unit that was the standby only passes the wake on, while
the link can carry it (R72). -/
def beginWake (s : State) : State :=
  let s := signalWake s
  if paired s && s.md.prev == .standby && s.felt.trained then s else startWake s

/-- A wake by source `k`: bits 0 to 3 as in wake_src, 4 a management decision (R70). Between the request and the entry to
DORMANT it is held (R69); a standby that is to enter with its partner passes it on (R72). -/
def wake (k : Nat) (s : State) : State :=
  if k ≠ 4 ∧ !bitOf (wakeSrc s) k then s
  else if s.md.mode = .dormant then beginWake (setCause k s)
  else if s.md.dormReq then setCause k { s with md.heldWake := true }
  else if s.md.mode = .standby ∧ s.md.dormMark then signalWake (setCause k s)
  else s

end Sys2Proof.Machine
end

