-- ==== Sys2Proof/Machine/Rtc.lean ====
section
/-! DEFINITION. The real-time clock (19_time_backup_retain): counting, compensation, calendar, alarms, SNTP, the backup
domain. -/

namespace Sys2Proof.Machine

/-- A quotient as a whole number; where it is none and the manual does not say how it is rounded, either neighbour,
freely. -/
def divFree (num : Int) (den : Nat) (s : State) : Int × State :=
  if num % den = 0 then (num / den, s)
  else (num / den + (if Config.freeBool s.free then 1 else 0), { s with free := s.free + 1 })

/-! ## The calendar (R419, R420) -/

/-- RTC_DATE of a calendar second. -/
def rtcDate (cal : Nat) : Nat :=
  let day := cal / 86400
  let c := civil day
  weekday day * 2 ^ 28 + (c.1 - 2000) * 2 ^ 16 + c.2.1 * 2 ^ 8 + c.2.2
/-- RTC_TIME of a calendar second. -/
def rtcTime (cal : Nat) : Nat :=
  let t := cal % 86400
  t / 3600 * 2 ^ 16 + t / 60 % 60 * 2 ^ 8 + t % 60

/-! ## Alarms (R424 to R426) -/

/-- An alarm's word. -/
def almWord (s : State) (n : Nat) : Nat := if n = 0 then s.rtc.alm0.toNat else s.rtc.alm1.toNat

/-- A field of an alarm agrees: not compared, or equal. -/
def almField (w bit hi lo v : Nat) : Bool := !bitOf w bit || bitsOf w hi lo == v

/-- An enabled alarm's compared fields equal those of a calendar second. -/
def almMatches (w cal : Nat) : Bool :=
  let t := cal % 86400
  bitOf w 31 && almField w 30 26 24 (weekday (cal / 86400)) && almField w 29 20 16 (t / 3600)
    && almField w 28 13 8 (t / 60 % 60) && almField w 27 5 0 (t % 60)

/-- A matching second lies in `lo` to `hi`, both in one minute of the calendar. -/
def almInMinute (w lo hi : Nat) : Bool :=
  if bitOf w 27 then
    (let x := lo / 60 * 60 + bitsOf w 5 0
     decide (bitsOf w 5 0 < 60 ∧ lo ≤ x ∧ x ≤ hi) && almMatches w x)
  else almMatches w lo

/-- A matching second lies after `lo` and at or before `hi`: the pattern repeats every week, so the first 8 days
decide. -/
def almPassed (w lo hi : Nat) : Bool :=
  let top := min hi (lo + 8 * 86400)
  decide (lo < hi) && (List.range (top / 60 - (lo + 1) / 60 + 1)).any fun i =>
    let m := (lo + 1) / 60 + i
    almInMinute w (max (lo + 1) (60 * m)) (min top (60 * m + 59))

/-- Alarm `n` fires (R425, R426). -/
def alarmFires (n : Nat) (s : State) : State :=
  if s.rtc.onVbak then
    let first := s.rtc.almBk = 0
    { s with rtc.pin := true, rtc.almBk := satInc 255 s.rtc.almBk,
             rtc.almFirst := if first then n + 1 else s.rtc.almFirst,
             rtc.almBkSec := if first then s.rtc.sec else s.rtc.almBkSec }
  else
    let s := { s with rtc.fired := if bitOf s.rtc.fired n then s.rtc.fired else s.rtc.fired + 2 ^ n }
    match s.md.mode with
    | .dormant => wake 1 s
    | .backup => { s with rtc.fwAlarms := s.rtc.fwAlarms ++ [n] }
    | .thread =>
      if s.md.thStat < 6 then { s with rtc.fwAlarms := s.rtc.fwAlarms ++ [n] } else raise 0x1901 n s
    | _ => wake 1 (raise 0x1901 n s)

/-- Alarm `n` fires for the present second if it matches and has not yet fired for it. -/
def tryAlarm (n : Nat) (s : State) : State :=
  if almMatches (almWord s n) s.rtc.cal && !bitOf s.rtc.now n then
    alarmFires n { s with rtc.now := s.rtc.now + 2 ^ n }
  else s

/-- ALARM_FIRE (R424): at the start of a second whose compared fields equal the alarm's. -/
def execAlarmFire (n : Fin 2) (s : State) : Out := ok (tryAlarm n.val s)

/-- ALM_STAT_CLEAR (R426): write one to clear; bit 3 releases ALARM_N. -/
def execAlmStatClear (v : Word) (s : State) : Out :=
  ok { s with rtc.fired := s.rtc.fired &&& (3 - v.toNat % 4), rtc.pin := s.rtc.pin && !bitOf v.toNat 3 }

/-! ## Counting (R419, R422, R423) -/

/-- The calendar after its last second: 2000-01-01, valid cleared. -/
def calWrap (s : State) : State := { s with rtc.cal := 0, rtc.sec := 0, rtc.valid := false }

/-- A new second begins: the calendar moves on, and matching alarms fire. -/
def rtcSecond (s : State) : State :=
  let s := if s.rtc.cal + 1 = calEnd then calWrap s
    else { s with rtc.cal := s.rtc.cal + 1, rtc.sec := (s.rtc.sec + 1) % 2 ^ 32 }
  tryAlarm 1 (tryAlarm 0 { s with rtc.now := 0 })

/-- CALENDAR_WRAP (R419): the last second of 2199 ends. -/
def execCalendarWrap (s : State) : Out :=
  ok (if s.rtc.cal + 1 = calEnd then rtcSecond { s with rtc.sub := 0 } else s)

/-- The next 256 s period begins: k is the newest k_temp and the slew's share (R423, R431). -/
def rtcPeriod (s : State) : State :=
  let lo : Int := max (-2048) (-4096 - s.rtc.kTemp)
  let hi : Int := min 2048 (4096 - s.rtc.kTemp)
  let x := max lo (min hi s.rtc.slew)
  { s with rtc.cyc := 0, rtc.slew := s.rtc.slew - x, rtc.k := max (-4096) (min 4096 (s.rtc.kTemp + x)) }

/-- COMPENSATION_PERIOD (R422, R423, R431): a 256 s period ends and the next begins. -/
def execCompensationPeriod (s : State) : Out := ok (rtcPeriod s)

/-- Slot `j` of a period carries a correction (R423). -/
def slotCorrects (k : Int) (j : Nat) : Bool := decide (j * k.natAbs / 4096 < (j + 1) * k.natAbs / 4096)

/-- One cycle of the 32.768 kHz crystal; a slot's correction falls in its last cycle. -/
def rtcCycle (s : State) : State :=
  let c := s.rtc.cyc
  let fix := c % 2048 == 2047 && slotCorrects s.rtc.k (c / 2048)
  let n := if fix then (if 0 < s.rtc.k then 2 else 0) else 1
  let t := s.rtc.sub + n
  let s := if t < 32768 then { s with rtc.sub := t } else rtcSecond { s with rtc.sub := t - 32768 }
  if c + 1 < 8388608 then { s with rtc.cyc := c + 1 } else rtcPeriod s

/-- Rounding half away from zero of `num` ÷ `den`. -/
def roundDiv (num : Int) (den : Nat) : Int :=
  if 0 ≤ num then (2 * num + den) / (2 * den) else -((-2 * num + den) / (2 * den))

/-- SENSOR_READ (R422): a junction temperature in thousandths of a degree. -/
def execSensorRead (theta : BitVec 24) (s : State) : Out :=
  let t := theta.toInt
  let base1000 : Int :=
    if t ≤ -40000 then 5000 * curveWord s 0
    else if 115000 ≤ t then 5000 * curveWord s 31
    else
      let i := ((t + 40000) / 5000).toNat
      5000 * curveWord s i + (curveWord s (i + 1) - curveWord s i) * (t - (-40000 + 5000 * (i : Int)))
  ok { s with rtc.kTemp := roundDiv base1000 5000 + toSigned 16 (cf s 0x1F 0 2 2 0) }

/-! ## Reading and loading (R420) -/

/-- A read of RTC_SEC latches the sub-second count, date and time. -/
def latchRtc (s : State) : State :=
  { s with rtc.latSub := s.rtc.sub, rtc.latDate := rtcDate s.rtc.cal, rtc.latTime := rtcTime s.rtc.cal }

/-- RTC_SEC_READ (R420). -/
def execRtcSecRead (s : State) : Out :=
  ok { latchRtc s with bus.ans := BitVec.ofNat 32 s.rtc.sec, bus.status := 0 }

/-- The time loaded: alarms passed by a forward load fire once (R420, R424). -/
def rtcLoad (sec sub : Nat) (s : State) : State :=
  let old := s.rtc.cal
  let s := { s with rtc.sec := sec % 2 ^ 32, rtc.cal := sec % 2 ^ 32, rtc.sub := sub % 32768, rtc.valid := true,
                    rtc.now := 0 }
  (List.range 2).foldl (fun s n =>
    if almPassed (almWord s n) old s.rtc.cal then alarmFires n { s with rtc.now := s.rtc.now + 2 ^ n } else s) s

/-- RTC_LOAD (R420): a write of 1 to RTC_CTL.load. -/
def execRtcLoad (s : State) : Out := ok (rtcLoad s.rtc.setSec s.rtc.setSub s)

/-! ## SNTP (R430, R431) -/

/-- SNTP runs: on, with the system firmware running in a mode that serves it, and a server is known (R396, R430). -/
def sntpRuns (s : State) (option42 : Bool) : Bool :=
  cf s 0x1F 0 5 1 1 == 1 && s.md.mode != .backup && !s.boot.recovery && (s.md.mode != .thread || decide (6 ≤ s.md.thStat))
    && (cf s 0x1F 0 12 4 0 != 0 || cf s 0x1F 0 16 16 0 != 0 || option42)

/-- A poll without a usable reply is counted; eight in a row raise EVT-1906. -/
def sntpMiss (s : State) : State :=
  let n := min 8 (s.rtc.fails + 1)
  let s := { s with rtc.polling := false, rtc.fails := n % 8 }
  if n = 8 then raise 0x1906 0 s else s

/-- SNTP_POLL (R430): one request leaves; one still unanswered was without a usable reply. -/
def execSntpPoll (option42 : Bool) (s : State) : Out :=
  ok (if !sntpRuns s option42 then s
    else
      let s := if s.rtc.polling then sntpMiss s else s
      { s with rtc.polling := true })

/-- A difference of two 64-bit timestamps, signed. -/
def ntpDiff (a b : BitVec 64) : Int := (a - b).toInt

/-- A reply that R430 lets the unit use. -/
def sntpUsable (r : Sntp) : Bool :=
  r.mode == 4 && (r.version == 3 || r.version == 4) && decide (1 ≤ r.stratum.toNat ∧ r.stratum.toNat ≤ 15)
    && r.leap != 3 && r.echo
    && decide ((ntpDiff r.t4 r.t1 - ntpDiff r.t3 r.t2) * 10 ≤ 2 ^ 32)

/-- SNTP_REPLY (R430, R431): a usable reply steps or slews the clock. -/
def execSntpReply (r : Sntp) (s : State) : Out :=
  ok (if !s.rtc.polling || !sntpUsable r then s
    else
      let s := { s with rtc.polling := false, rtc.fails := 0 }
      let sum := ntpDiff r.t2 r.t1 + ntpDiff r.t3 r.t4
      let (cyc, s) := divFree sum (2 ^ 18) s
      if !s.rtc.valid || decide (cf s 0x1F 0 8 2 128 * 2 ^ 33 < sum.natAbs * 1000) then
        let (ms, s) := divFree (sum * 1000) (2 ^ 33) s
        let now : Int := (s.rtc.sec * 32768 + s.rtc.sub : Nat)
        let t := ((now + cyc) % ((2 ^ 47 : Nat) : Int)).toNat
        raise 0x1905 (ofSigned 32 ms) (rtcLoad (t / 32768) (t % 32768) s)
      else { s with rtc.slew := cyc })

/-! ## The backup domain (R421, R426 to R429) -/

/-- The mode that the clock record gives the trickle charger (R428, Table 19.1). -/
def chargerMode (s : State) : Nat := cf s 0x1F 0 4 1 0

/-- The backup domain switches to VBAK; the charger runs only while VDD_IO supplies the domain (R427, R428). An alarm that
fired in this crystal cycle counts as fired on backup (R426). -/
def toVbak (s : State) : State :=
  if s.rtc.onVbak then s
  else
    let now := (List.range 2).filter fun n => bitOf s.rtc.now n && s.rtc.sub == 0
    let s := { s with rtc.onVbak := true, rtc.charger := 0,
                      rtc.swFirst := if s.rtc.swCnt = 0 then s.rtc.sec else s.rtc.swFirst,
                      rtc.swCnt := satInc 65535 s.rtc.swCnt }
    now.foldl (fun s n => alarmFires n { s with rtc.fired := clrBit s.rtc.fired n }) s

/-- BACKUP_DOMAIN_RESET (R421): VDD_IO and VBAK both lost. -/
def backupReset (s : State) : State :=
  { s with rtc := { kTemp := s.rtc.kTemp, onVbak := s.rtc.onVbak, setSec := s.rtc.setSec, setSub := s.rtc.setSub,
                    latSub := s.rtc.latSub, latDate := s.rtc.latDate, latTime := s.rtc.latTime,
                    charger := s.rtc.charger } }

/-- BACKUP_DOMAIN_RESET (R421). -/
def execBackupDomainReset (s : State) : Out := ok (backupReset s)

/-- BK_CTL_CLEAR (R427, Table 19.5): bit 0 zeroes the switchover registers, bit 1 clears bk_low. -/
def execBkCtlClear (v : Word) (s : State) : Out :=
  let s := if bitOf v.toNat 0 then { s with rtc.swFirst := 0, rtc.swCnt := 0 } else s
  ok (if bitOf v.toNat 1 then { s with rtc.bkLow := false } else s)

/-- VBAK read at a THREAD or an hourly check. -/
def vbakCheck (low : Bool) (s : State) : State := if low then raise 0x190A 0 { s with rtc.bkLow := true } else s

/-- VBAK_CHECK (R429). -/
def execVbakCheck (low : Bool) (s : State) : Out := ok (if s.md.mode = .backup then s else vbakCheck low s)

/-- Step 11 of threading: what the backup domain reports (R421, R426, R427); the entry for an alarm on backup carries its
own time and flag. -/
def reportBackup (s : State) : State :=
  let s := if s.rtc.swCnt ≠ s.rtc.swSeen then raise 0x1903 s.rtc.swCnt s else s
  let s := if s.rtc.almBk ≠ 0 then
      note 0x1902 0x57 (s.rtc.almBk * 256 + s.rtc.almFirst) 255 1 s.rtc.almBkSec
        { s with rtc.almBk := 0, rtc.almFirst := 0, rtc.almBkSec := 0, rtc.pin := false } else s
  let s := if s.rtc.valid then s else raise 0x1908 0 s
  { s with rtc.swSeen := s.rtc.swCnt }

/-- RTC_STAT (Table 19.5). -/
def rtcStat (s : State) : Nat := b2n s.rtc.valid * 2 ^ 31 + ofSigned 13 s.rtc.k

end Sys2Proof.Machine
end

