-- ==== Sys2Proof/Machine/Keys.lean ====
section
/-! DEFINITION. Attendant keys (21_attendant_keys): measurement, debounce, STUCK, baselines and what the image shows. -/

namespace Sys2Proof.Machine

/-- A key channel. -/
def keyOf (s : State) (k : Nat) : Key := tget {} s.keys k
/-- A key channel changed. -/
def modKey (k : Nat) (f : Key → Key) (s : State) : State := { s with keys := tmod {} s.keys k f }
/-- Key `k` is enabled; the guard always is. -/
def keyOn (s : State) (k : Nat) : Bool := k == 16 || bitOf (cf s 0x20 0 0 2 0) k
/-- touch_th of key `k`, guard_th of the guard. -/
def touchTh (s : State) (k : Nat) : Int :=
  if k = 16 then cf s 0x20 0 6 2 300 else cf s 0x20 0 (16 + 2 * k) 2 200
/-- rel_th. -/
def relTh (s : State) (k : Nat) : Int := touchTh s k - touchTh s k / 4
/-- max_on_s × 10^6 ÷ T, rounded up; 0: no limit. -/
def maxOnTicks (s : State) : Nat := ceilDiv (cf s 0x20 0 4 2 60 * 1000000) (tickUs s.clk.tickSel)

/-- The condition of key `k` at raw count `raw` (R458): 1 fault, 2 reverse, 3 touch, 4 clear. -/
def keyCond (s : State) (k raw : Nat) : Nat :=
  let d : Int := (raw : Int) - (keyOf s k).base
  if raw = 0 ∨ raw = 65535 then 1
  else if d < -touchTh s k then 2
  else if touchTh s k ≤ d then 3
  else if d < relTh s k then 4
  else (keyOf s k).cond

/-- The mean of four raw counts. -/
def meanRaw (l : List Nat) (s : State) : Nat × State :=
  let (m, s) := divFree l.sum 4 s
  (m.toNat, s)

/-- The debounced effect of a condition that has held for 4 ticks (R458); no key becomes pressed during threading (R459). -/
def keyEffect (k c : Nat) (s : State) : State :=
  let x := keyOf s k
  match c with
  | 1 => if x.fault then s else raise 0x2104 k (modKey k (fun x => { x with fault := true, pressed := false }) s)
  | 2 =>
    let (m, s) := meanRaw x.last s
    raise 0x2101 k (modKey k (fun x => { x with base := m, pressed := false, stuck := false, on := 0, step := 0, run := 0,
                                                 last := [] }) s)
  | 3 =>
    if x.pressed ∨ x.stuck ∨ s.md.mode = .thread then s
    else
      let s := modKey k (fun x => { x with pressed := true, on := 0, step := 0 }) s
      if s.md.mode = .dormant ∨ s.md.dormReq then wake 2 s else s
  | 4 => modKey k (fun x => if x.pressed || x.stuck then { x with pressed := false, stuck := false, on := 0, step := 0 } else x) s
  | _ => s

/-- Key `k` measured while the guard is not active. -/
def keyMeasure (k raw : Nat) (s : State) : State :=
  if (keyOf s k).fault || !keyOn s k then modKey k (fun x => { x with raw := raw }) s
  else
    let c := keyCond s k raw
    let d : Int := (raw : Int) - (keyOf s k).base
    let moves (x : Key) : Bool := x.stuck || (!x.pressed && decide (d < relTh s k ∧ -relTh s k < d))
    let s := modKey k (fun x =>
      { x with
        raw := raw, cond := c, run := if x.cond = c then min 4 (x.run + 1) else 1,
        last := (raw :: (if x.cond = c then x.last else [])).take 4, on := if x.pressed then x.on + 1 else x.on,
        step := if moves x then x.step + 1 else x.step }) s
    if (keyOf s k).run = 4 then keyEffect k c s else s

/-- The guard measured: 1 active, debounced over 4 ticks; each activation raises EVT-2103, and after it the keys are
decided afresh (R460). -/
def guardMeasure (raw : Nat) (s : State) : State :=
  let act : Bool := decide (touchTh s 16 ≤ (raw : Int) - (keyOf s 16).base)
  let c := if act then 3 else 4
  let s := modKey 16 (fun x => { x with raw := raw, cond := c, run := if x.cond = c then min 4 (x.run + 1) else 1 }) s
  if (keyOf s 16).run = 4 ∧ s.guard ≠ act then
    let s := { s with guard := act }
    if act then raise 0x2103 0 s
    else (List.range 16).foldl (fun s k => modKey k (fun x => { x with run := 0, cond := 0, last := [] }) s) s
  else s

/-- One measurement of every channel: keys 0 to 15, then the guard (R457). -/
def measureKeys (raws : List Nat) (s : State) : State :=
  let s := guardMeasure (nth 0 raws 16) s
  if s.guard then (List.range 16).foldl (fun s k => modKey k (fun x => { x with raw := nth 0 raws k }) s) s
  else (List.range 16).foldl (fun s k => keyMeasure k (nth 0 raws k) s) s

/-- Step 8 of Table 4.1 with the mean of each channel's measurements (R459). -/
def baselineKeys (means : List Nat) (s : State) : State :=
  { s with guard := false,
           keys := (List.range 17).foldl (fun m k => tset {} m k { base := nth 0 means k, raw := nth 0 means k }) [] }

/-- KEY_STAT's pressed bit of key `k`, as placed in I (R463). -/
def keyPressed (s : State) (k : Nat) : Bool :=
  let x := keyOf s k
  keyOn s k && x.pressed && !x.stuck && !x.fault && !s.guard
/-- The STUCK flag of key `k`. -/
def keyStuck (s : State) (k : Nat) : Bool := keyOn s k && (keyOf s k).stuck
/-- KEY_STAT (Table 21.2). -/
def keyStat (s : State) : Nat :=
  ((List.range 16).map fun k => b2n (keyPressed s k) * 2 ^ k + b2n (keyStuck s k) * 2 ^ (16 + k)).sum

/-- KEY_STUCK (R461): a key that is still pressed at max_on_s. -/
def execKeyStuck (k : Fin 16) (s : State) : Out :=
  let x := keyOf s k.val
  ok (if x.pressed ∧ !x.stuck ∧ !s.guard ∧ maxOnTicks s ≠ 0 ∧ maxOnTicks s ≤ x.on then
      raise 0x2102 k.val (modKey k.val (fun x => { x with stuck := true, pressed := false, step := 0 }) s)
    else s)

/-- BASELINE_STEP (R462): at each absorb or drift interval the baseline moves one count toward raw. -/
def execBaselineStep (k : Fin 16) (s : State) : Out :=
  let k := k.val
  let x := keyOf s k
  let d : Int := (x.raw : Int) - x.base
  let drift := !x.pressed && !x.stuck && decide (d < relTh s k ∧ -relTh s k < d)
  let due := (x.stuck && decide (cf s 0x20 0 8 2 256 ≤ x.step)) || (drift && decide (cf s 0x20 0 10 2 1024 ≤ x.step))
  ok (if due && !s.guard && !x.fault && keyOn s k then
      modKey k (fun x => { x with step := 0, base := if 0 < d then x.base + 1 else if d < 0 then x.base - 1 else x.base }) s
    else s)

end Sys2Proof.Machine
end

