-- ==== Sys2Proof/Machine/Cv.lean ====
section
/-! DEFINITION. Check-value units and alive counters (17_check_values). -/

namespace Sys2Proof.Machine

/-! ## The arithmetic (R385 to R387) -/

/-- The lowest `n` bits of `x` reversed. -/
def revBits : Nat → Nat → Nat
  | 0, _ => 0
  | n + 1, x => x % 2 * 2 ^ n + revBits n (x / 2)

/-- The parameters of a unit (Table 17.1). -/
structure CvParam where
  width : Nat
  refin : Bool
  refout : Bool
  poly : Nat
  init : Nat
  xorout : Nat
deriving DecidableEq, Repr

/-- Bits `i` − 1 down to 0 of `b` shifted into the register. -/
def crcBits (p : CvParam) (b : Nat) : Nat → Nat → Nat
  | 0, r => r
  | i + 1, r =>
    let top := Bool.xor (bitOf r (p.width - 1)) (bitOf b i)
    let r' := r * 2 % 2 ^ p.width
    crcBits p b i (if top then r' ^^^ p.poly else r')

/-- The value that a unit computes over a byte sequence (R386). -/
def crcOf (p : CvParam) (bs : List Byte) : Nat :=
  let r := bs.foldl (fun r b => crcBits p (if p.refin then revBits 8 b.toNat else b.toNat) 8 r) p.init
  (if p.refout then revBits p.width r else r) ^^^ p.xorout

/-! ## The record of a unit (Table 17.1) -/

/-- Unit `u` has a record. -/
def cvPresent (s : State) (u : Nat) : Bool := (cfgRec s 0x1B u).isSome
/-- W of unit `u`. -/
def cvWidth (s : State) (u : Nat) : Nat := cf s 0x1B u 0 1 0
/-- flags of unit `u`. -/
def cvFlags (s : State) (u : Nat) : Nat := cf s 0x1B u 1 1 0
/-- alive_mode of unit `u`. -/
def cvMode (s : State) (u : Nat) : Nat := cf s 0x1B u 2 1 0
/-- alive_bits of unit `u`. -/
def cvBits (s : State) (u : Nat) : Nat := cf s 0x1B u 3 1 0
/-- The arithmetic of unit `u`. -/
def cvParam (s : State) (u : Nat) : CvParam :=
  { width := cvWidth s u, refin := bitOf (cvFlags s u) 0, refout := bitOf (cvFlags s u) 1,
    poly := cf s 0x1B u 4 4 0, init := cf s 0x1B u 8 4 0, xorout := cf s 0x1B u 12 4 0 }

/-- Counters of unit `u`. -/
def cvUnit (s : State) (u : Nat) : Cv := tget {} s.cv u
/-- Unit `u` changed. -/
def modCv (u : Nat) (f : Cv → Cv) (s : State) : State := { s with cv := tmod {} s.cv u f }

/-- Bytes of the check field. -/
def cvLen (s : State) (u : Nat) : Nat := ceilDiv (cvWidth s u) 8
/-- The check field of a value: least significant byte first, or most significant first (R387). -/
def cvField (s : State) (u : Nat) (big : Bool) (c : Nat) : List Byte :=
  if big then beBytes (cvLen s u) c else leBytes (cvLen s u) c

/-! ## Alive counters (R390 to R392) -/

/-- The counter of `n` bits at its place in a frame; none when the frame is too short. -/
def aliveAt (n off nib : Nat) (big : Bool) (fr : List Byte) : Option Nat :=
  if fr.length < off + (if n = 16 then 2 else 1) then none
  else if n = 4 then some (if nib = 1 then fld fr off 1 / 16 else fld fr off 1 % 16)
  else if n = 16 then some (if big then beNat ((fr.drop off).take 2) else fld fr off 2)
  else some (fld fr off 1)

/-- The successor of a counter of `n` bits (R391). -/
def aliveNext (n : Nat) (zeroFirst : Bool) (p : Nat) : Nat :=
  if p + 1 = 2 ^ n then (if zeroFirst then 1 else 0) else p + 1

/-- What the alive test makes of counter `a` after `p`: accepted, restart, skip, or repeat (Table in R391). -/
inductive AliveRes where
  | first | next | restart | skip | repeated
deriving DecidableEq, Repr

/-- The test of R391. -/
def aliveTest (n : Nat) (zeroFirst : Bool) (p : Option Nat) (a : Nat) : AliveRes :=
  match p with
  | none => .first
  | some p =>
    if a = p then .repeated
    else if zeroFirst && a == 0 then .restart
    else if a ≠ aliveNext n zeroFirst p then .skip
    else .next

/-- EVT-1702, at most once per tick per unit (R394). -/
def cvAlarm (u : Nat) (s : State) : State := raiseOnceKey (0x17020000 + u) 0x1702 u 255 s

/-- The check-value and alive tests of unit `u` on an unescaped frame whose check field starts at `at` and covers from
`first`; the answer says whether the frame passes (R387, R391). -/
def cvReceive (u pos first : Nat) (big : Bool) (fr : List Byte) (s : State) : Bool × State :=
  let c := crcOf (cvParam s u) ((fr.take pos).drop first)
  let fieldOk := decide (pos + cvLen s u ≤ fr.length) && decide (first ≤ pos)
    && ((fr.drop pos).take (cvLen s u) == cvField s u big c)
  if !fieldOk then (false, cvAlarm u (modCv u (fun x => { x with bad := satInc 65535 x.bad }) s))
  else if cvMode s u ≠ 1 then (true, s)
  else
    let z := bitOf (cvFlags s u) 3
    match aliveAt (cvBits s u) (cf s 0x1B u 16 2 0) (cf s 0x1B u 18 1 0) (bitOf (cvFlags s u) 2) fr with
    | none => (false, s)
    | some a =>
      match aliveTest (cvBits s u) z (cvUnit s u).p a with
      | .repeated => (false, cvAlarm u (modCv u (fun x => { x with rep := satInc 255 x.rep }) s))
      | .restart => (true, raise 0x1703 u (modCv u (fun x => { x with p := some a }) s))
      | .skip => (true, modCv u (fun x => { x with p := some a, skip := satInc 255 x.skip }) s)
      | _ => (true, modCv u (fun x => { x with p := some a }) s)

/-- The generated counter written into a frame, and advanced (R392). -/
def cvGenerate (u : Nat) (fr : List Byte) (s : State) : List Byte × State :=
  if cvMode s u ≠ 2 then (fr, s)
  else
    let n := cvBits s u
    let off := cf s 0x1B u 16 2 0
    let g := (cvUnit s u).g
    let old := fld fr off 1
    let fr' :=
      if n = 4 then setNth fr off (BitVec.ofNat 8
        (if cf s 0x1B u 18 1 0 = 1 then g % 16 * 16 + old % 16 else old / 16 * 16 + g % 16))
      else if n = 16 then
        (if bitOf (cvFlags s u) 2 then setNth (setNth fr off (BitVec.ofNat 8 (g / 256))) (off + 1) (BitVec.ofNat 8 g)
         else setNth (setNth fr off (BitVec.ofNat 8 g)) (off + 1) (BitVec.ofNat 8 (g / 256)))
      else setNth fr off (BitVec.ofNat 8 g)
    (fr', modCv u (fun x => { x with g := aliveNext n (bitOf (cvFlags s u) 3) g }) s)

/-- The port bound to a unit starts from reset (R389). -/
def cvPortReset (u : Nat) (s : State) : State := modCv u (fun x => { x with p := none, g := 0 }) s

/-- CV_FORGET (R394): a receiving or idle unit forgets the counter of its last accepted frame. -/
def execCvForget (u : Fin 64) (s : State) : Out := ok (modCv u.val (fun x => { x with p := none }) s)

/-- The lane port record that binds a unit: the engine, and whether it is the send side (R388). -/
def cvBound (s : State) (u : Nat) : Option (Nat × Bool) :=
  (List.range 56).findSome? fun e =>
    if cf s 0x17 e 2 1 0xFF = u then some (e, false)
    else if cf s 0x17 e 3 1 0xFF = u then some (e, true) else none

end Sys2Proof.Machine
end

