-- ==== Sys2Proof/Machine/Switch.lean ====
section
/-! DEFINITION. The lane switch's commands that need no other unit (13_the_lane_switch): choosing, accepting, discarding
at ingress, cancelling, and the flush of a closing lane. -/

namespace Sys2Proof.Machine

/-- SELECTION_COMPLETE (R297): the port's choice completes, when it has none. -/
def execSelectionComplete (p : Fin 57) (s : State) : Out := ok (choose p.val s)

/-- PACKET_ACCEPTED (R287): a packet of this many bytes completed at an ingress port. -/
def execPacketAccepted (slot : Fin 57) (q : BitVec 11) (bytes : Nat) (dei : Bool) (data : List Byte) (s : State) : Out :=
  ok (if bytes = 0 ∨ 2048 < bytes then s
    else (admitFrom q.toNat slot.val dei { bytes := bytes, data := data } s).2)

/-- An engine other than port L's may not take `n` more cells: the free count would go below reserve_legal (R288). -/
def noCells (s : State) (n : Nat) : Bool := decide (freeCells s < reserveLegal s + n)

/-- A packet in progress is discarded for want of a cell: its cells return to free, and it is counted (R288). -/
def noBuffer (slot : Nat) (s : State) : State :=
  raiseOnceKey 0x1301 0x1301 slot 255 { s with sw.nobuf := satInc 65535 s.sw.nobuf }

/-- What a dialect engine was receiving is gone. -/
def dropFrame (e : Nat) (s : State) : State :=
  { s with engs := tmod {} s.engs e fun x => { x with raw := [], inFrame := false, trail := 0, outside := [], rtsOff := false } }

/-- INGRESS_NO_BUFFER (R288): the next byte of the packet in progress needs a cell that its engine may not take. -/
def execIngressNoBuffer (slot : Fin 57) (s : State) : Out :=
  ok (if slot.val = 56 ∨ !noCells s 1 then s
    else noBuffer slot.val (if 2 ≤ slot.val ∧ slot.val ≤ 53 then dropFrame (slot.val - 2) s else s))

/-- PACKET_CANCEL (R299). -/
def execPacketCancel (q : BitVec 11) (session : BitVec 16) (seq : BitVec 32) (s : State) : Out :=
  let (r, s) := cancel q.toNat (session.toNat, seq.toNat) s
  ok { s with sw.answer := r }

/-- CLOSE_FLUSH (R300): a closing lane at its drain limit, or empty, at a tick boundary. -/
def execCloseFlush (n : Fin 8) (s : State) : Out :=
  atBoundary (fun s =>
    let x := lane s n.val
    if x.dom = .closing ∧ !x.flushed ∧ (drainTicks s ≤ x.closeN ∨ !laneHolds s n.val) then closeFlush n.val s else s) s

end Sys2Proof.Machine
end

