-- ==== Sys2Proof/Machine/Lane.lean ====
section
/-! DEFINITION. Lane ports and dialect engines (12_lane_ports_and_dialects): which ports operate, receiving and
building frames, acknowledgement and polling, and the lane's side of the couch exchange. -/

namespace Sys2Proof.Machine

/-- The next free value, below `n`. -/
def drawNat (n : Nat) (s : State) : Nat × State := (Config.freeNat s.free % max 1 n, { s with free := s.free + 1 })

/-! ## Records (Tables 12.3 to 12.7) -/

/-- Engine `e`. -/
def eng (s : State) (e : Nat) : Eng := tget {} s.engs e
/-- Engine `e` changed. -/
def modEng (e : Nat) (f : Eng → Eng) (s : State) : State := { s with engs := tmod {} s.engs e f }
/-- A field of engine `e`'s lane port record. -/
def port (s : State) (e o n d : Nat) : Nat := cf s 0x17 e o n d
/-- The dialect of engine `e`; 0xFF: none. -/
def dialectOf (s : State) (e : Nat) : Nat := port s e 1 1 0xFF
/-- A field of engine `e`'s dialect table. -/
def dl (s : State) (e o n d : Nat) : Nat := cf s 0x18 (dialectOf s e) o n d
/-- A flag of engine `e`'s dialect (Table 12.4). -/
def dlFlag (s : State) (e k : Nat) : Bool := bitOf (dl s e 1 1 0) k
/-- Bytes of the byte pool of engine `e`'s dialect, from pool offset `o`. -/
def pool (s : State) (e o n : Nat) : List Byte := cfBytes s 0x18 (dialectOf s e) (576 + o) n

/-- The lane of engine `e` (Table 12.1); C engines belong to none. -/
def engLane (s : State) (e : Nat) : Option Nat :=
  if e < 40 then some (e / 5) else if e < 48 then some (e - 40)
  else if e < 52 then none else some (port s e 14 1 0 % 8)
/-- The port slot of engine `e` (Table 13.2); an auxiliary engine uses its H port's. -/
def engSlot (s : State) (e : Nat) : Nat := if e < 52 then 2 + e else 42 + port s e 14 1 0 % 8
/-- The unit operates its lane ports now (R260). -/
def portsServed (s : State) : Bool :=
  if paired s then s.felt.lpown && (s.md.mode == .hold || s.md.mode == .active || s.md.mode == .standby)
  else s.md.mode == .hold || s.md.mode == .active

/-- The lane whose power domain engine `e` belongs to: an auxiliary engine has one only while a function is bound to it, a C
engine none (R259). -/
def engDomain (s : State) (e : Nat) : Option Nat :=
  if e < 52 then engLane s e else if (eng s e).usbAddr = 0 then none else engLane s e

/-- The unit operates engine `e`'s port (R259, R260): a C port of an unpaired unit in every mode but BACKUP; of a paired one,
as every lane port, while LPOWN is high. -/
def operated (s : State) (e : Nat) : Bool :=
  if decide (48 ≤ e ∧ e < 52) && !paired s then s.md.mode != .backup else portsServed s

/-- PORT_STAT.state of engine `e` (Table 12.8): 0 disabled, 1 in reset, 2 running, 3 domain closing. -/
def portState (s : State) (e : Nat) : Nat :=
  if port s e 0 1 0 = 0 then 0
  else if !operated s e then 1
  else match engDomain s e with
    | none => 2
    | some n =>
      match (lane s n).dom with
      | .closing => 3
      | .on => 2
      | _ => 1

/-- The transmitter of a UART engine is stopped by its CTS input (R262, Table 12.3). -/
def ctsStops (s : State) (e : Nat) : Bool := decide (e < 16) && bitOf (port s e 12 1 1) 6 && !(eng s e).cts

/-- The bits that engine `e` last put on a UART line, one entry a byte: with nine data bits, bit 8 marks the frame's first
byte (R262). -/
def onWire (s : State) (e : Nat) : List (BitVec 9) :=
  let nine := port s e 12 1 1 % 4 == 2
  (eng s e).sentTpl.zipIdx.map fun b => b.1.zeroExtend 9 ||| (if nine && b.2 == 0 then 0x100 else 0)

/-- The levels of engine `e`'s own output balls (R260, R262, R516). -/
structure PortPins where
  mark : Bool        -- UART TXD rests at mark
  deRts : Bool       -- DE_RTS active, apart from the frames of DE mode
  vbus : Bool        -- the H port's VBUS enable
  recessive : Bool   -- CAN TX rests recessive
deriving DecidableEq, Repr

/-- What a port drives between frames: RTS while it receives and has room; VBUS while it is operated and no overcurrent has
dropped it. A port that is not operated drives nothing active (R260). -/
def portPins (s : State) (e : Nat) : PortPins :=
  let runs := portState s e == 2 || portState s e == 3
  { mark := true, recessive := true, deRts := runs && decide (e < 16) && bitOf (port s e 12 1 1) 6 && !(eng s e).rtsOff,
    vbus := runs && decide (40 ≤ e ∧ e < 48) && !(eng s e).oc }

/-- The engine starts from reset: what it was receiving, awaiting or bound to is gone, and its check-value units
forget (R260, R389). -/
def resetEng (e : Nat) (s : State) : State :=
  let s := modEng e (fun x =>
    { x with
      raw := [], inFrame := false, outside := [], resync := false, trail := 0, rtsOff := false, usbAddr := 0,
      speed := 0, fault := false, busOff := false, missRun := 0, wait := none, poll := none, oc := false, tec := 0,
      recv := 0, restart := false, going := [], waiting := [] }) s
  let s := if port s e 2 1 0xFF < 64 then cvPortReset (port s e 2 1 0xFF) s else s
  if port s e 3 1 0xFF < 64 then cvPortReset (port s e 3 1 0xFF) s else s

/-- Engine `e` brought to the state its port is in now: it resets whenever operation starts or stops. -/
def syncEng (e : Nat) (s : State) : State :=
  let up := portState s e == 2
  if (eng s e).up = up then s else modEng e (fun x => { x with up := up }) (resetEng e s)

/-- Every engine with a record brought to its port's state. -/
def syncEngs (s : State) : State :=
  (s.img.cfg.filter fun r => r.typ == 0x17).foldl (fun s r => syncEng r.inst s) s

/-- Engine `e` receives: it runs and its port names a dialect. -/
def listening (s : State) (e : Nat) : Bool := (eng s e).up && decide (dialectOf s e ≤ 31)

/-! ## Failures, acknowledgement strings and faults (R274 to R277) -/

/-- A PORT_ERR field counted: 24 len_discard, 16 cv_fail, 8 check_fail, 0 nomatch. -/
def portErr (e lo : Nat) (s : State) : State := modEng e (fun x => { x with err := satField lo 8 x.err }) s

/-- A frame discarded on the lane's ports (word 14, R279). -/
def noteDiscard (e : Nat) (s : State) : State :=
  match engLane s e with
  | some n => modLane n (fun x => { x with disc := (x.disc + 1) % 2 ^ 32 }) s
  | none => s

/-- A received frame discarded and counted. -/
def frameFails (e lo : Nat) (s : State) : State := noteDiscard e (portErr e lo s)

/-- Bytes go out on the port; `frames` of them are counted in PORT_TX. While CTS stops the transmitter they wait (R262). -/
def sendBytes (frames e : Nat) (bs : List Byte) (s : State) : State :=
  if ctsStops s e then modEng e (fun x => { x with waiting := x.waiting ++ [(frames, bs)] }) s
  else modEng e (fun x => { x with sentTpl := bs, going := bs, tx := (x.tx + frames) % 2 ^ 32 }) s

/-- The ACK string of engine `e`'s dialect. -/
def ackString (s : State) (e : Nat) : List Byte := pool s e (dl s e 36 2 0) (dl s e 35 1 0)
/-- The NAK string. -/
def nakString (s : State) (e : Nat) : List Byte := pool s e (dl s e 40 2 0) (dl s e 38 1 0)

/-- Automatic ACK or NAK (R274); a string of length 0 is not sent. -/
def autoReply (e : Nat) (good : Bool) (s : State) : State :=
  let bs := if good then ackString s e else nakString s e
  if dlFlag s e 4 && !bs.isEmpty then sendBytes 0 e bs s else s

/-- EVT-1203 for engine `e` (Table 26.3). -/
def faultEvent (e : Nat) (set : Bool) (s : State) : State :=
  raiseL 0x1203 ((if set then 256 else 0) + e) ((engLane s e).getD 255) s

/-- The port's fault set, with its event when it was clear. -/
def setFault (e : Nat) (s : State) : State :=
  if (eng s e).fault then s else faultEvent e true (modEng e (fun x => { x with fault := true }) s)
/-- The port's fault cleared, with its event when it was set. -/
def clearFault (e : Nat) (s : State) : State :=
  if (eng s e).fault then faultEvent e false (modEng e (fun x => { x with fault := false }) s) else s

/-- A failure of R276 or R277; miss_limit of them in a row set fault. -/
def countMiss (e : Nat) (s : State) : State :=
  let run := min 15 ((eng s e).missRun + 1)
  let s := modEng e (fun x => { x with missRun := run }) s
  if run = dl s e 15 1 3 then setFault e s else s

/-- Reply deadline of a frame sent now. -/
def replyDeadline (s : State) (e : Nat) : Nat := s.clk.tick + dl s e 23 1 4

/-- The awaited frame is sent again, or dropped as a failure when its resends are used up (R276). -/
def resendOrDrop (e : Nat) (s : State) : State :=
  match (eng s e).wait with
  | none => s
  | some w =>
    if w.tries < dl s e 27 1 2 then
      sendBytes 1 e w.pkt.data
        (modEng e (fun x => { x with wait := some { w with tries := w.tries + 1, deadline := replyDeadline s e } }) s)
    else countMiss e (modEng e (fun x => { x with wait := none }) s)

/-- The ACK string came: in time, it completes the awaited frame (R276, R50). -/
def ackArrives (e : Nat) (s : State) : State :=
  match (eng s e).wait with
  | some w =>
    if s.clk.tick ≤ w.deadline then
      modEng e (fun x => { x with wait := none, missRun := if x.fault then x.missRun else 0 }) s
    else s
  | none => s

/-- ACK_RECEIVED (R276). -/
def execAckReceived (e : Fin 56) (s : State) : Out := ok (ackArrives e.val (syncEng e.val s))
/-- NAK_RECEIVED (R276): the awaited frame is resent, up to retries times. -/
def execNakReceived (e : Fin 56) (s : State) : Out := ok (resendOrDrop e.val (syncEng e.val s))

/-- REPLY_DEADLINE (R276, R277): a deadline that has passed resends or drops the frame, or fails the poll. -/
def execReplyDeadline (e : Fin 56) (s : State) : Out :=
  let s := syncEng e.val s
  let s := match (eng s e.val).wait with
    | some w => if w.deadline < s.clk.tick then resendOrDrop e.val s else s
    | none => s
  ok (match (eng s e.val).poll with
    | some d => if d < s.clk.tick then countMiss e.val (modEng e.val (fun x => { x with poll := none }) s) else s
    | none => s)

/-- POLL (R277, R264): in a tick that the phase rule selects the poll frame is sent, unless a poll reply is pending; on a
printer function the port status is read. -/
def execPoll (e : Fin 56) (status : Byte) (s : State) : Out :=
  let e := e.val
  let s := syncEng e s
  let per := max 1 (dl s e 28 2 1)
  ok (if listening s e && dlFlag s e 5 && (s.clk.tick + per * 65536 - dl s e 30 2 0) % per == 0
        && (eng s e).poll.isNone then
      let s := modEng e (fun x => { x with poll := some (replyDeadline s e) }) s
      let s := if port s e 16 2 0 = 7 then modEng e (fun x => { x with prnStatus := status.toNat }) s else s
      sendBytes 1 e (pool s e (dl s e 32 2 0) (dl s e 34 1 0)) s
    else s)

/-! ## Lane events (R278, R279) -/

/-- A pulse on a lane-event bit; the sixteenth pending one is lost. -/
def pulse (n bit : Nat) (s : State) : State :=
  modLane n (fun x =>
    if tget 0 x.pends bit < 15 then { x with pends := tmod 0 x.pends bit (· + 1) }
    else { x with lost := true, evOvf := satInc (2 ^ 32 - 1) x.evOvf }) s

/-- An entry for a word group: the ninth of a queue is dropped, and a group in latest mode keeps only the newest. The
answer says whether the entry was taken. -/
def putGroup (n first count : Nat) (latest : Bool) (ws : List Word) (s : State) : Bool × State :=
  let x := lane s n
  let ws := (ws ++ List.replicate count 0).take count
  let g : Group := (x.groups.find? fun g => g.first == first).getD { first := first, count := count, latest := latest }
  let put (g : Group) : State := modLane n (fun x => { x with groups := g :: x.groups.filter fun h => h.first != first }) s
  if g.latest then (true, put { g with ents := [ws] })
  else if g.ents.length < 8 then (true, put { g with ents := g.ents ++ [ws] })
  else
    let s := modLane n (fun x => { x with lost := true, evOvf := satInc (2 ^ 32 - 1) x.evOvf }) s
    (false, if s.evt.onceC.contains (0x12050000 + 16 * n + first) then s
      else raiseL 0x1205 first n { s with evt.onceC := (0x12050000 + 16 * n + first) :: s.evt.onceC })

/-! ## Receiving a frame (R270 to R272) -/

/-- The start delimiter of engine `e`'s dialect. -/
def startOf (s : State) (e : Nat) : List Byte := cfBytes s 0x18 (dialectOf s e) 8 (dl s e 7 1 0 % 4)
/-- The end delimiter. -/
def endOf (s : State) (e : Nat) : List Byte := cfBytes s 0x18 (dialectOf s e) 10 (dl s e 7 1 0 / 4 % 4)
/-- trail. -/
def trailOf (s : State) (e : Nat) : Nat := dl s e 12 1 0

/-- Escapes removed: the bytes, and whether an escape byte stands last. -/
def unescape (esc x : Byte) : List Byte → List Byte × Bool
  | [] => ([], false)
  | [b] => if b = esc then ([], true) else ([b], false)
  | b :: c :: l =>
    if b = esc then let r := unescape esc x l; ((c ^^^ x) :: r.1, r.2)
    else let r := unescape esc x (c :: l); (b :: r.1, r.2)

/-- A received frame with its escapes removed between the delimiters, and whether that failed (R272 step 1). -/
def plainFrame (s : State) (e : Nat) (raw : List Byte) : List Byte × Bool :=
  if !dlFlag s e 0 then (raw, false)
  else
    let n0 := (startOf s e).length
    let n1 := if dl s e 0 1 0 = 2 then (endOf s e).length + trailOf s e else 0
    let mid := (raw.drop n0).take (raw.length - n0 - n1)
    let r := unescape (BitVec.ofNat 8 (dl s e 13 1 0x10)) (BitVec.ofNat 8 (dl s e 14 1 0x20)) mid
    (raw.take n0 ++ r.1 ++ raw.drop (raw.length - n1), r.2)

/-- What an extraction gives (Table 12.5). -/
inductive Val where
  | num (x : Nat)
  | bytes (l : List Byte)
deriving DecidableEq, Repr

/-- An ASCII decimal digit. -/
def isDigit (b : Byte) : Bool := decide (0x30 ≤ b.toNat ∧ b.toNat ≤ 0x39)
/-- The value of an ASCII hexadecimal digit. -/
def hexDigit (b : Byte) : Option Nat :=
  let n := b.toNat
  if 0x30 ≤ n ∧ n ≤ 0x39 then some (n - 0x30) else if 0x41 ≤ n ∧ n ≤ 0x46 then some (n - 0x37)
  else if 0x61 ≤ n ∧ n ≤ 0x66 then some (n - 0x57) else none

/-- A value of at most 64 bits. -/
def in64 (x : Nat) : Option Val := if x < 2 ^ 64 then some (.num x) else none

/-- A conversion (Table 12.5, conv): none for a byte that is not valid for it, or a value wider than 64 bits. -/
def convert (conv : Nat) (bs : List Byte) : Option Val :=
  match conv with
  | 0 => some (.bytes bs)
  | 1 => if bs.all isDigit then in64 (bs.foldl (fun a b => 10 * a + (b.toNat - 0x30)) 0) else none
  | 2 => in64 (leNat bs)
  | 3 => in64 (beNat bs)
  | 4 => if bs.all fun b => decide (b.toNat / 16 ≤ 9 ∧ b.toNat % 16 ≤ 9) then
           in64 (bs.foldl (fun a b => 100 * a + (b.toNat / 16) * 10 + b.toNat % 16) 0) else none
  | 5 => ((bs.mapM hexDigit).map fun ds => ds.foldl (fun a d => 16 * a + d) 0).bind in64
  | 6 =>
    let v := toSigned (8 * bs.length) (leNat bs)
    if bs = [] then some (.num 0)
    else if -(2 ^ 63 : Int) ≤ v ∧ v < 2 ^ 63 then some (.num (ofSigned 64 v)) else none
  | _ => none

/-- The GS1 mod-10 check digit of the digits before it, weights 3 and 1 from the right. -/
def gs1 (ds : List Nat) : Nat :=
  (10 - ((ds.reverse.zipIdx.map fun d => if d.2 % 2 = 0 then 3 * d.1 else d.1).sum % 10)) % 10

/-- A field of ASCII digits whose last is the check digit of the others. -/
def gs1Ok (bs : List Byte) : Bool :=
  bs != [] && bs.all isDigit &&
    (bs.getLast?.map fun b => b.toNat - 0x30) == some (gs1 (bs.dropLast.map fun b => b.toNat - 0x30))

/-- Where the check field of a frame of `n` bytes starts, or where the part before the end delimiter stops. -/
def checkPos (s : State) (e n : Nat) : Nat :=
  if dlFlag s e 1 then n - dl s e 22 1 0 - cvLen s (port s e 2 1 0xFF)
  else if dl s e 0 1 0 = 2 then n - (endOf s e).length - trailOf s e else n

/-- Extraction `i` of a frame: symbology and value (R272 step 4). -/
def extract (s : State) (e i : Nat) (fr : List Byte) : Option (List Byte × Val) :=
  let o := 64 + 8 * i
  let off := dl s e o 2 0
  let cp := checkPos s e fr.length
  let start := if bitOf off 15 then cp - off % 4096 else off % 4096
  let len := dl s e (o + 2) 1 0
  let stop := if len = 0 then cp else start + len
  if fr.length < stop ∨ stop < start ∨ (bitOf off 15 ∧ cp < off % 4096) then none
  else
    let bs := (fr.drop start).take (stop - start)
    let (sym, bs) :=
      if dl s e (o + 5) 1 0 = 1 then
        (if bs.head? = some 0x5D then ((bs.drop 1).take 2, bs.drop 3)
         else (cfBytes s 0x18 (dialectOf s e) (o + 6) 2, bs))
      else ([], bs)
    if dl s e (o + 4) 1 0 = 1 ∧ !gs1Ok bs then none
    else (convert (dl s e (o + 3) 1 0) bs).map fun v => (sym, v)

/-- Every extraction of a frame, or none when one fails. -/
def extractAll (s : State) (e : Nat) (fr : List Byte) : Option (List (List Byte × Val)) :=
  (List.range (dl s e 24 1 0)).mapM fun i => extract s e i fr

/-- The words of a value: 2 per number, ⌈len ÷ 4⌉ per byte string, little-endian. -/
def valWords : Val → List Word
  | .num x => [BitVec.ofNat 32 x, BitVec.ofNat 32 (x / 2 ^ 32)]
  | .bytes l => (List.range (ceilDiv l.length 4)).map fun i => BitVec.ofNat 32 (fld l (4 * i) 4)

/-- The bytes of an extraction in a KLP payload: its symbology when it has one, then the value, numbers as 8 bytes most
significant first. -/
def valPayload (v : List Byte × Val) : List Byte :=
  v.1 ++ match v.2 with | .num x => beBytes 8 x | .bytes l => l

/-- The first map entry whose pattern the frame shows (R272 step 3). -/
def mapMatch (s : State) (e : Nat) (fr : List Byte) : Option Nat :=
  (List.range (dl s e 25 1 0)).find? fun m =>
    let o := 192 + 16 * m
    let n := dl s e (o + 2) 1 0
    let off := dl s e o 2 0
    n == 0 || (decide (off + n ≤ fr.length) && (fr.drop off).take n == pool s e (dl s e (o + 4) 2 0) n)

/-- The lane of map entry `m` for a frame's extractions. -/
def mapLane (s : State) (e m : Nat) (vs : List (List Byte × Val)) : Nat :=
  let o := 192 + 16 * m
  match dl s e (o + 12) 1 8 with
  | 8 => (engLane s e).getD 0
  | 9 =>
    (match (vs[dl s e (o + 13) 1 0]?).map Prod.snd with
     | some (.num x) => x % 8
     | some (.bytes (b :: _)) => b.toNat % 8
     | _ => 0)
  | l => l % 8

/-- The actions of map entry `m` (R272 step 5). -/
def mapActions (e m : Nat) (raw : List Byte) (vs : List (List Byte × Val)) (s : State) : State :=
  let o := 192 + 16 * m
  let n := mapLane s e m vs
  if laneShut s n then frameFails e 0 s
  else
    let typ := dl s e (o + 3) 1 0
    let mask := dl s e (o + 6) 2 0
    let s :=
      if typ = 0 then s
      else
        let body := (vs.zipIdx.filter fun v => bitOf mask v.2).flatMap fun v => valPayload v.1
        (offerPkt (port s e 24 2 0) (engSlot s e) false { bytes := raw.length, lane := n, typ := typ, data := body } s).2
    let evb := dl s e (o + 8) 1 0xFF
    let s := if evb = 0xFF then s else pulse n (evb + port s e 28 1 0) s
    let evw := dl s e (o + 9) 1 0xFF
    let grp := dl s e (o + 10) 1 1
    if evw = 0xFF then s
    else (putGroup n (evw + port s e 29 1 0) (grp % 8) (bitOf grp 4)
      ((vs.drop (dl s e (o + 11) 1 0)).flatMap fun v => valWords v.2) s).2

/-- A frame is accepted: counted, the poll answered, a fault cleared (R272, R277). -/
def frameAccepted (e : Nat) (s : State) : State :=
  let s := clearFault e s
  modEng e (fun x => { x with rx := (x.rx + 1) % 2 ^ 32, missRun := 0, poll := none }) s

/-- A complete frame processed in the order of R272. -/
def processFrame (e : Nat) (raw : List Byte) (s : State) : State :=
  let s := modEng e (fun x => { x with raw := [], inFrame := false, trail := 0, outside := [], rtsOff := false }) s
  let (fr, badEsc) := plainFrame s e raw
  if badEsc then autoReply e false (frameFails e 8 s)
  else
    let cvu := port s e 2 1 0xFF
    let (pass, s) := if dlFlag s e 1 && decide (cvu < 64) then
        cvReceive cvu (checkPos s e fr.length) (dl s e 20 2 0) (dlFlag s e 2) fr s
      else (true, s)
    if !pass then autoReply e false (frameFails e 16 s)
    else match mapMatch s e fr with
      | none => autoReply e false (frameFails e 0 s)
      | some m =>
        match extractAll s e fr with
        | none => autoReply e false (frameFails e 8 s)
        | some vs => autoReply e true (mapActions e m raw vs (frameAccepted e s))

/-- The frame in progress is discarded and counted under check_fail. -/
def dropPartial (e : Nat) (s : State) : State :=
  frameFails e 8 (modEng e (fun x => { x with raw := [], inFrame := false, trail := 0, outside := [], rtsOff := false }) s)

/-- A frame too long, or whose length field is impossible: discarded whole, EVT-1204 once per tick per port, and the
engine resynchronises (R271). -/
def lengthDiscard (e : Nat) (s : State) : State :=
  let s := modEng e (fun x => { x with raw := [], inFrame := false, trail := 0, outside := [], resync := true,
                                       rtsOff := false }) s
  raiseOnceKey (0x12040000 + e) 0x1204 e 255 (frameFails e 24 s)

/-- Where a frame in progress stands after its last byte (R270, R271). -/
inductive Fate where
  | more | trailing (n : Nat) | whole | restart | impossible
deriving DecidableEq, Repr

/-- A list ends with another. -/
def endsWith (l e : List Byte) : Bool := decide (e.length ≤ l.length) && l.drop (l.length - e.length) == e

/-- The fate of the frame in progress `raw` of engine `e`, with `trail` as in Eng. -/
def frameFate (s : State) (e : Nat) (raw : List Byte) (trail : Nat) : Fate :=
  let st := startOf s e
  let en := endOf s e
  let esc := BitVec.ofNat 8 (dl s e 13 1 0x10)
  let cnt := if dlFlag s e 0 then
      let r := unescape esc 0 (raw.drop st.length)
      st.length + r.1.length
    else raw.length
  let plain := if dlFlag s e 0 then
      st ++ (unescape esc (BitVec.ofNat 8 (dl s e 14 1 0x20)) (raw.drop st.length)).1 else raw
  match dl s e 0 1 0 with
  | 0 => if dl s e 2 2 1 ≤ cnt then .whole else if 2049 ≤ cnt then .impossible else .more
  | 1 =>
    let lo := dl s e 4 1 0
    let ls := dl s e 5 1 1
    if cnt < lo + ls then .more
    else
      let v := if dlFlag s e 3 then beNat ((plain.drop lo).take ls) else fld plain lo ls
      let n := v + dl s e 6 1 0
      if 2048 < n ∨ n < lo + ls then .impossible else if n ≤ cnt then .whole else .more
  | 2 =>
    if 1 < trail then (if trail = 2 then .whole else .trailing (trail - 1))
    else if !st.isEmpty && decide (2 * st.length ≤ raw.length) && endsWith raw st then .restart
    else if !en.isEmpty && decide (st.length + en.length ≤ raw.length) && endsWith raw en then
      (if trailOf s e = 0 then .whole else .trailing (1 + trailOf s e))
    else if 2049 ≤ cnt then .impossible else .more
  | _ => if 2049 ≤ cnt then .impossible else .more

/-- One byte of a frame in progress; it may need a cell that the engine may not take (R288). -/
def frameByte (e : Nat) (b : Byte) (s : State) : State :=
  let x := eng s e
  let raw := x.raw ++ [b]
  if x.raw.length % 128 = 0 ∧ noCells s 1 then noBuffer (engSlot s e) (dropFrame e s) else
  match frameFate s e raw x.trail with
  | .more =>
    modEng e (fun x =>
      { x with
        raw := raw, inFrame := true, outside := [],
        rtsOff := bitOf (port s e 12 1 1) 6 && decide (2048 - raw.length < 64) }) s
  | .trailing n => modEng e (fun x => { x with raw := raw, inFrame := true, trail := n }) s
  | .whole => processFrame e raw s
  | .restart => modEng e (fun x => { x with raw := startOf s e, inFrame := true }) (dropPartial e s)
  | .impossible => lengthDiscard e s

/-- One byte outside a frame (R270, R275): part of an awaited reply, part of a start delimiter, or the first byte of a
frame. -/
def outsideByte (e : Nat) (b : Byte) (s : State) : State :=
  let x := eng s e
  let cand := x.outside ++ [b]
  let ack := ackString s e
  let nak := nakString s e
  let st := startOf s e
  let waits := x.wait.isSome
  if waits && !ack.isEmpty && endsWith cand ack then ackArrives e (modEng e (fun x => { x with outside := [] }) s)
  else if waits && !nak.isEmpty && endsWith cand nak then resendOrDrop e (modEng e (fun x => { x with outside := [] }) s)
  else if st.isEmpty then
    (if x.resync then s
     else if waits && (cand.isPrefixOf ack || cand.isPrefixOf nak) then modEng e (fun x => { x with outside := cand }) s
     else cand.foldl (fun s b => frameByte e b s) (modEng e (fun x => { x with outside := [] }) s))
  else if endsWith cand st then
    frameByte e b (modEng e (fun x => { x with outside := [], resync := false, raw := st.dropLast }) s)
  else modEng e (fun x => { x with outside := cand.drop (cand.length - 8) }) s

/-- BYTE_RECEIVED (R271, R262): a byte of at most nine data bits completes, with its framing, parity or break error. -/
def execByteReceived (e : Fin 56) (data : BitVec 9) (bad : Bool) (s : State) : Out :=
  let e := e.val
  let s := syncEng e s
  ok (if !listening s e then s
    else if bad then dropPartial e s
    else
      let nine := port s e 12 1 1 % 4 == 2
      let b : Byte := data.extractLsb' 0 8
      if nine && data.getLsbD 8 then
        frameByte e b (if (eng s e).inFrame then dropPartial e s else s)
      else if (eng s e).inFrame then frameByte e b s else outsideByte e b s)

/-- The error counters of a CAN controller after a frame on its bus: what happens on the bus besides has no command, so both
are free (R265); other engines have none. -/
def canCounters (e : Nat) (s : State) : State :=
  if e < 48 ∨ 51 < e then s
  else
    let (t, s) := drawNat 256 s
    let (r, s) := drawNat 256 s
    modEng e (fun x => { x with tec := t, recv := r }) s

/-- FRAME_RECEIVED (R272): a complete frame of engine `e`, as a report, a CAN frame, or the frame in progress whole. -/
def execFrameReceived (e : Fin 56) (raw : List Byte) (s : State) : Out :=
  let s := syncEng e.val s
  ok (if !listening s e.val then s
    else if 2048 < raw.length then lengthDiscard e.val s
    else if noCells s (cellsOf raw.length) then noBuffer (engSlot s e.val) (dropFrame e.val (canCounters e.val s))
    else processFrame e.val raw (canCounters e.val s))

/-- The bytes received so far of a frame: also those that might still have become an awaited reply (R275). -/
def partOfFrame (s : State) (e : Nat) : List Byte :=
  let x := eng s e
  if x.inFrame then x.raw
  else if x.wait.isSome && !x.resync && (startOf s e).isEmpty then x.outside else []

/-- GAP_EXPIRY (R270, R271): no byte has begun for `quiet` bit times or microseconds. The end gap ends a gap-framed frame; a
resynchronisation without a start delimiter ends after ibto, or after 35 when ibto is 0. -/
def execGapExpiry (g : PortGap) (s : State) : Out :=
  let e := g.port.val
  let need := if dl s e 18 2 0 = 0 then 35 else dl s e 18 2 0
  let s := syncEng e s
  let raw := partOfFrame s e
  ok (if !listening s e then s
    else if dl s e 0 1 0 = 3 ∧ raw ≠ [] then (if dl s e 16 2 35 ≤ g.quiet.toNat then processFrame e raw s else s)
    else if need ≤ g.quiet.toNat then modEng e (fun x => { x with resync := false }) s else s)

/-- IBTO_EXPIRY (R271): a frame in progress that received no byte for ibto is discarded. -/
def execIbtoExpiry (e : Fin 56) (s : State) : Out :=
  let e := e.val
  let s := syncEng e s
  ok (if !listening s e || dl s e 18 2 0 == 0 then s
    else if partOfFrame s e ≠ [] then dropPartial e s
    else modEng e (fun x => { x with resync := false }) s)

/-! ## Ports: USB, CAN, flow control (R262 to R266, R516) -/

/-- Engine `e` would bind a function of this class and identity (R263). -/
def bindable (s : State) (e h cls vidpid : Nat) : Bool :=
  (eng s e).up && (eng s e).usbAddr == 0 && engLane s e == some h &&
    (if port s e 20 4 0 ≠ 0 then vidpid == port s e 20 4 0 else cls == port s e 16 2 0)

/-- USB_ATTACH (R263): a function is bound to an engine of the port: the port's own engine first, then the auxiliary
ones; one behind a second hub tier is not configured. -/
def execUsbAttach (h : Fin 8) (cls : BitVec 16) (vidpid : BitVec 32) (addr : BitVec 8) (speed : BitVec 2)
    (secondTier : Bool) (s : State) : Out :=
  let es := (40 + h.val) :: [52, 53, 54, 55]
  let s := es.foldl (fun s e => syncEng e s) s
  ok (if secondTier then raise 0x1206 (0x200 + 40 + h.val) s
    else match es.find? fun e => bindable s e h.val cls.toNat vidpid.toNat with
      | some e => raise 0x1206 e (modEng e (fun x => { x with usbAddr := max 1 addr.toNat, speed := speed.toNat,
                                                               usbPort := h.val }) s)
      | none => raise 0x1206 (40 + h.val) s)

/-- USB_DETACH (R263). -/
def execUsbDetach (e : Fin 56) (s : State) : Out :=
  ok (if (eng s e.val).usbAddr = 0 then s
    else raise 0x1206 (0x100 + e.val)
      (modEng e.val (fun x => { x with usbAddr := 0, speed := 0, usbPort := 255, raw := [], inFrame := false,
                                       wait := none, poll := none }) s))

/-- USB_OVERCURRENT (R263, R516): fault on every engine bound to the port, and its VBUS goes off until it restarts. -/
def execUsbOvercurrent (h : Fin 8) (s : State) : Out :=
  let es := (40 + h.val) :: [52, 53, 54, 55]
  let s := es.foldl (fun s e => if (eng s e).usbAddr ≠ 0 ∧ engLane s e = some h.val then setFault e s else s) s
  ok (modEng (40 + h.val) (fun x => { x with oc := true }) s)

/-- CAN_BUS_OFF (R265): bus-off sets fault; the error counters that led there are not given. -/
def execCanBusOff (c : Fin 4) (s : State) : Out :=
  let e := 48 + c.val
  let s := syncEng e s
  ok (if (eng s e).up then
      setFault e (modEng e (fun x => { x with busOff := true }) (canCounters e s))
    else s)

/-- CAN_BUS_OFF_RECOVERY (R265): the standard's recovery clears fault and the error counters. -/
def execCanBusOffRecovery (c : Fin 4) (s : State) : Out :=
  let e := 48 + c.val
  ok (if (eng s e).busOff then
      clearFault e (modEng e (fun x => { x with busOff := false, tec := 0, recv := 0 }) s)
    else s)

/-- CTS_CHANGE (R262): CTS stops or resumes the transmitter at a byte boundary; CTS exists on U0 to U15. How many bytes of the
frame in progress have left when it stops is free, for no command says when a byte leaves; the rest leaves after it resumes,
and then what has waited meanwhile. -/
def execCtsChange (e : Fin 16) (active : Bool) (s : State) : Out :=
  let was := ctsStops s e.val
  let s := modEng e.val (fun x => { x with cts := active }) s
  ok (if was = ctsStops s e.val then s
    else if active then
      modEng e.val (fun x =>
        match x.waiting.getLast? with
        | none => x
        | some w => { x with sentTpl := w.2, going := x.going ++ x.waiting.flatMap Prod.snd,
                             tx := (x.tx + (x.waiting.map Prod.fst).sum) % 2 ^ 32, waiting := [] }) s
    else
      let (n, s) := drawNat ((eng s e.val).going.length + 1) s
      modEng e.val (fun x => { x with going := x.going.drop n }) s)

/-- The transmitter of engine `e` may begin a frame: no reply is awaited, CTS allows it, no bus-off (R262, R265, R276). -/
def mayTransmit (s : State) (e : Nat) : Bool :=
  let x := eng s e
  (portState s e == 2 || portState s e == 3) && x.wait.isNone && !x.busOff && !ctsStops s e && x.waiting.isEmpty

/-- A committed frame leaves on its port, and awaits its reply when its template says so (R276). On a CAN port it may lose
arbitration or meet errors, how often is free: after can_retry repetitions it is given up (R265). -/
def sendFrame (e : Nat) (k : Pkt) (s : State) : State :=
  let can := decide (48 ≤ e ∧ e < 52)
  let (failed, s) := if can then drawNat 256 s else (0, s)
  let limit := port s e 15 1 15
  if can && decide (limit < 15 ∧ limit < failed) then canCounters e s else
  let s := sendBytes 1 e k.data (canCounters e s)
  if k.ack then modEng e (fun x => { x with wait := some { pkt := k, deadline := replyDeadline s e } }) s else s

/-! ## Building a frame (R273) -/

/-- Escapes added: esc, and the first bytes of the delimiters (R273 step 4). -/
def escapeBody (esc x : Byte) (firsts : List Byte) (l : List Byte) : List Byte :=
  l.flatMap fun b => if b = esc ∨ b ∈ firsts then [esc, b ^^^ x] else [b]

/-- `n` bytes that the manual gives no value. -/
def freeBytes : Nat → State → List Byte × State
  | 0, s => ([], s)
  | n + 1, s =>
    let (v, s) := drawNat 256 s
    let (l, s) := freeBytes n s
    (BitVec.ofNat 8 v :: l, s)

/-- Bytes written over a list from a place on. -/
def overlay (l : List Byte) (at' : Nat) (bs : List Byte) : List Byte :=
  (bs.zipIdx).foldl (fun l b => setNth l (at' + b.2) b.1) l

/-- A frame built from template `t` of engine `e` with these inserted bytes: its bytes on the wire, or none when it
would exceed 2 048 bytes (R273, R392). -/
def buildFrame (e t : Nat) (ins : List Byte) (s : State) : Option (List Byte) × State :=
  let o := 448 + 8 * t
  let fixed := pool s e (dl s e (o + 2) 2 0) (dl s e (o + 4) 1 0)
  let at' := dl s e (o + 5) 1 0xFF
  let body := if at' = 0xFF then fixed else fixed.take at' ++ ins ++ fixed.drop at'
  let st := startOf s e
  let delim := dl s e 0 1 0 == 2
  let en := if delim then endOf s e else []
  let (tr, s) := if delim then freeBytes (trailOf s e) s else ([], s)
  let cvu := port s e 3 1 0xFF
  let hasCv := dlFlag s e 1 && decide (cvu < 64)
  let n := if hasCv then cvLen s cvu else 0
  let back := dl s e 22 1 0
  let after := en.length + tr.length
  -- the check field's place: inside the trail, or `back - after` bytes before the body's end
  let inTrail := hasCv && decide (back + n ≤ tr.length)
  let k := body.length - (back - after)
  let body := if hasCv && !inTrail then body.take k ++ List.replicate n 0 ++ body.drop k else body
  let fr := st ++ body ++ en ++ tr
  let (fr, s) := if hasCv then cvGenerate cvu fr s else (fr, s)
  let fr := if dl s e 0 1 0 = 1 then
      let v := fr.length - dl s e 6 1 0
      let ls := dl s e 5 1 1
      overlay fr (dl s e 4 1 0) (if dlFlag s e 3 then beBytes ls v else leBytes ls v)
    else fr
  let pos := fr.length - back - n
  let fr := if hasCv then
      overlay fr pos (cvField s cvu (dlFlag s e 2) (crcOf (cvParam s cvu) ((fr.take pos).drop (dl s e 20 2 0))))
    else fr
  let esc := BitVec.ofNat 8 (dl s e 13 1 0x10)
  let x := BitVec.ofNat 8 (dl s e 14 1 0x20)
  let mid := (fr.drop st.length).take (fr.length - st.length - after)
  let mid := if dlFlag s e 0 then escapeBody esc x ((st.take 1) ++ (en.take 1)) mid else mid
  let out := fr.take st.length ++ mid ++ fr.drop (fr.length - after)
  (if 2048 < out.length then none else some out, s)

/-- A built frame offered to its engine's q_port; what admission made of it, none when it was too long (R273). -/
def offerFrame (e t : Nat) (ins : List Byte) (tag : Option (Nat × Nat)) (s : State) : Option Adm × State :=
  match buildFrame e t ins s with
  | (none, s) => (none, portErr e 24 s)
  | (some bs, s) =>
    let (a, s) := offerPkt (port s e 26 2 0) (engSlot s e) false
      { bytes := bs.length, tag := tag, eng := e, ack := dl s e (448 + 8 * t + 7) 1 0 == 1, data := bs } s
    (some a, s)

/-- The first template of engine `e` for a KLP type (R273). -/
def klpTemplate (s : State) (e typ : Nat) : Option Nat :=
  if 31 < dialectOf s e ∨ port s e 0 1 0 = 0 then none
  else (List.range (dl s e 26 1 0)).find? fun t => dl s e (448 + 8 * t) 1 0 == 0 && dl s e (449 + 8 * t) 1 0 == typ

/-! ## The couch exchange (R18 to R22, R278 to R280) -/

/-- Engines whose ports are shown in words 12 and 13 of lane `n`, with their bits. -/
def laneEngines (s : State) (n : Nat) : List (Nat × Nat) :=
  (List.range 5).map (fun i => (i, 5 * n + i)) ++ [(5, 40 + n)]
    ++ (((List.range 4).map fun i => (6 + i, 52 + i)).filter fun be =>
        (eng s be.2).usbAddr != 0 && engLane s be.2 == some n)

/-- A mask of the engines that meet a test. -/
def engMask (s : State) (n : Nat) (p : Eng → Bool) : Nat :=
  ((laneEngines s n).map fun be => if p (eng s be.2) then 2 ^ be.1 else 0).sum

/-- Heads that a consuming read has marked taken leave their queues (R279, R130). -/
def takeHeads (s : State) : State :=
  s.exe.taken.foldl (fun s lk =>
    modLane lk.1 (fun x => { x with groups := x.groups.map fun g =>
      if !g.latest && g.shown && decide (g.first ≤ lk.2 ∧ lk.2 < g.first + g.count) then
        { g with ents := g.ents.drop 1, shown := false } else g }) s) { s with exe.taken := [] }

/-- The head of a group, or zeros. -/
def groupHead (g : Group) : List Word := g.ents.headD (List.replicate g.count 0)

/-- The 16 lane-event words of lane `n` at an exchange. -/
def laneWords (s : State) (n : Nat) : List Word :=
  let x := lane s n
  let base := x.groups.foldl (fun l g => (groupHead g).zipIdx.foldl (fun l w => setNth l (g.first + w.2) w.1) l)
    (List.replicate 16 (0 : Word))
  let heads := (x.groups.filter fun g => !g.latest && !g.ents.isEmpty).foldl (fun m g => m ||| 2 ^ g.first) 0
  [(12, engMask s n Eng.up), (13, engMask s n Eng.fault), (14, x.disc), (15, heads)].foldl
    (fun l kv => setNth l kv.1 (BitVec.ofNat 32 kv.2)) base

/-- The pulse bits of lane `n` at an exchange. -/
def pulseBits (x : Lane) : Nat :=
  ((List.range 24).map fun b => if !bitOf x.prev b && tget 0 x.pends b != 0 then 2 ^ b else 0).sum

/-- The 32 lane-event bits of lane `n` at an exchange. -/
def laneBits (s : State) (n : Nat) : Nat :=
  let x := lane s n
  pulseBits x + b2n (sessOf s n).isOpen * 2 ^ 24 + b2n (x.dom == .on) * 2 ^ 25
    + b2n (engMask s n Eng.fault != 0) * 2 ^ 26 + b2n x.lost * 2 ^ 27

/-- Lane `n`'s events written: its bits and words for the sheet that begins; zeros for a lane off or closing (R22). -/
def writeEvents (s : State) (n : Nat) : Nat × List Word × State :=
  if laneShut s n then (0, List.replicate 16 0, modLane n (fun x => { x with prev := 0 }) s)
  else
    let bits := laneBits s n
    let ws := laneWords s n
    let put := bits % 2 ^ 24
    let s := modLane n (fun x => { x with
      prev := put, lost := false,
      pends := (List.range 24).foldl (fun m b => if bitOf put b then tmod 0 m b (· - 1) else m) x.pends,
      groups := x.groups.map fun g => { g with shown := !g.ents.isEmpty } }) s
    (bits, ws, s)

/-- The memory of lane-event bits and words that an exchange writes, by the addresses of R485, and the state after. -/
def exchangeEvents (s : State) : Memory × State :=
  let s := { takeHeads s with evt.onceC := [] }
  (List.range 8).foldl (fun (ms : Memory × State) n =>
    let (bits, ws, s) := writeEvents ms.2 n
    let m := wrLe 0 ms.1 (bitAddr 0 (1024 * n + 992)) 4 bits
    ((ws.zipIdx).foldl (fun m w => wrW 0 m (byteAddr 3 (15360 + 16 * n + w.2)) w.1) m, s)) ([], s)

/-- Lane `n`'s command bits in a sheet. -/
def cmdBits (m : Memory) (n : Nat) : Nat := rdLe 0 m (bitAddr 1 (1024 * n + 992)) 4
/-- Command word `k` of lane `n` in a sheet. -/
def cmdWordOf (m : Memory) (n k : Nat) : Nat := rdLe 0 m (byteAddr 3 (15488 + 16 * n + k)) 4

/-- The command templates of engine `e` that a couch fires, in index order (R280). -/
def fireTemplates (old new : Memory) (n : Nat) (s : State) (e : Nat) : State :=
  if portState s e ≠ 2 ∨ 31 < dialectOf s e then s else
  (List.range (dl s e 26 1 0)).foldl (fun s t =>
    let o := 448 + 8 * t
    let bit := dl s e (o + 1) 1 0 + port s e 30 1 0
    if dl s e o 1 0 = 1 ∧ bit < 32 ∧ bitOf (cmdBits new n) bit ∧ !bitOf (cmdBits old n) bit then
      let f := dl s e (o + 6) 1 0
      let w := cmdWordOf new n (f / 16 + port s e 31 1 0)
      let ins := match f % 16 with
        | 1 => decimal w
        | 2 => leBytes 4 w
        | 3 => beBytes 4 w
        | _ => []
      (offerFrame e t ins none s).2
    else s) s

/-- Lane `n`'s commands taken from the couching sheet `new`, against the previously couched `old`; a lane off or closing
discards them, counted when there is any (R22). -/
def takeCommands (old new : Memory) (s : State) (n : Nat) : State :=
  if laneShut s n then
    (if cmdBits new n ≠ 0 ∨ (List.range 16).any (fun k => cmdWordOf new n k != 0) then
       modLane n (fun x => { x with cmdDrop := satInc (2 ^ 32 - 1) x.cmdDrop }) s
     else s)
  else (((List.range 5).map fun i => 5 * n + i) ++ [40 + n] ++
      ((List.range 4).map fun i => 52 + i).filter fun e => engLane s e == some n).foldl (fireTemplates old new n) s

/-- The first part of the exchange: every lane's commands read from the sheet that couches (R19 step 1). -/
def exchangeCommands (old new : Memory) (s : State) : State := (List.range 8).foldl (takeCommands old new) s

end Sys2Proof.Machine
end

