-- ==== Sys2Proof/Machine/Net.lean ====
section
/-! DEFINITION. The addresses of a unit and of a pair on the uplinks (14_uplinks_and_klp, R306 to R310), and the fields of a
received KLP datagram (Table 14.3). -/

namespace Sys2Proof

/-! ## A received datagram as its bytes (R312, Table 14.3) -/

/-- A big-endian field of a datagram. -/
def KlpDgram.field (d : KlpDgram) (o n : Nat) : Nat := beNat ((d.udp.drop o).take n)
/-- Bytes of its UDP payload. -/
def KlpDgram.udpLen (d : KlpDgram) : Nat := d.udp.length
/-- magic. -/
def KlpDgram.magic (d : KlpDgram) : Nat := d.field 0 2
/-- version. -/
def KlpDgram.version (d : KlpDgram) : Nat := d.field 2 1
/-- type. -/
def KlpDgram.typ (d : KlpDgram) : Nat := d.field 3 1
/-- lane. -/
def KlpDgram.lane (d : KlpDgram) : Nat := d.field 4 1
/-- flags. -/
def KlpDgram.flags (d : KlpDgram) : Nat := d.field 5 1
/-- session. -/
def KlpDgram.session (d : KlpDgram) : Nat := d.field 6 2
/-- seq. -/
def KlpDgram.seq (d : KlpDgram) : Nat := d.field 8 4
/-- ack. -/
def KlpDgram.ack (d : KlpDgram) : Nat := d.field 12 4
/-- length. -/
def KlpDgram.length (d : KlpDgram) : Nat := d.field 16 2
/-- sub. -/
def KlpDgram.sub (d : KlpDgram) : Nat := d.field 18 1
/-- The last header byte, which is zero. -/
def KlpDgram.reserved (d : KlpDgram) : Nat := d.field 19 1
/-- The payload. -/
def KlpDgram.payload (d : KlpDgram) : List Byte := (d.udp.drop 20).take d.length
/-- flags bit 0: the datagram carries a tag. -/
def KlpDgram.tagged (d : KlpDgram) : Bool := bitOf d.flags 0
/-- flags bit 1, ack_only. -/
def KlpDgram.ackOnly (d : KlpDgram) : Bool := bitOf d.flags 1
/-- The CRC-32C over all preceding bytes is right. -/
def KlpDgram.crcOk (d : KlpDgram) : Bool :=
  d.field (d.udpLen - 4) 4 == Machine.crc32c (d.udp.take (d.udpLen - 4))
/-- Its tag is the first 16 bytes of HMAC-SHA-256 under this key over header and payload (R320). -/
def KlpDgram.tagUnder (d : KlpDgram) (key : List Byte) : Bool :=
  (d.udp.drop (20 + d.length)).take 16 == (Machine.hmac key (d.udp.take (20 + d.length))).take 16

end Sys2Proof

namespace Sys2Proof.Machine

/-! ## Interfaces and addresses (R88, R309, R498, Table 5.8) -/

/-- The interface of an uplink: 0 RGMII, 1 SGMII, 2 unused. Before step 6 and under the recovery listener E0 follows its straps,
of which 2 and 3 run RGMII, and E1 is unused. -/
def linkMode (s : State) (e : Nat) : Nat :=
  if s.boot.recovery || (s.md.mode == .thread && decide (s.md.thStat < 6)) then
    (if e = 0 then (if s.boot.e0Strap = 1 then 1 else 0) else 2)
  else cf s 0x10 0 (5 + e) 1 (if e = 0 then 0 else 2)

/-- An uplink in use. -/
def uplinkUsed (s : State) (e : Nat) : Bool := linkMode s e != 2

/-- A core-die signal that step `k` of threading configures no longer holds its reset state (R497). -/
def pinOn (k : Nat) (s : State) : Bool :=
  s.md.mode != .backup && s.md.powerGood && !s.wd.hold && !s.md.testHold && (s.md.mode != .thread || decide (k ≤ s.md.thStat))

/-- FL_RESET_N. -/
def flResetN (s : State) : Bool := pinOn 1 s
/-- Ee_PHY_RST_N. -/
def phyRstN (s : State) (e : Nat) : Bool := if e = 0 then pinOn 4 s else pinOn 6 s && uplinkUsed s 1
/-- FLK_OP/ON carry idle, from step 2; frames from step 9. -/
def flkIdle (s : State) : Bool := pinOn 2 s

/-- The MAC of this unit on uplink `e`: base_mac + 2u + e; without the record the manual gives no base. -/
def ownMac (s : State) (e : Nat) : Nat :=
  (match cfgRec s 0x1C 0 with | some bs => beNat (bs.take 6) | none => Config.bareMac) + 2 * s.boot.unitId + e

/-- The modified EUI-64 of a MAC. -/
def eui64 (mac : Nat) : Nat := ((mac / 2 ^ 24) ^^^ 0x020000) * 2 ^ 40 + 0xFFFE * 2 ^ 24 + mac % 2 ^ 24

/-- The own IPv6 addresses: link-local, and one for each prefix advertised on the network, but under the recovery listener. -/
def ownV6 (s : State) (e : Nat) : List Nat :=
  let id := eui64 (ownMac s e)
  (0xFE80 * 2 ^ 112 + id) :: (if s.boot.recovery then [] else (Config.prefixes e).map fun p => p % 2 ^ 64 * 2 ^ 64 + id)

/-- An address is this unit's own on uplink `e`. -/
def isOwn (s : State) (e : Nat) (v6 : Bool) (addr : Nat) : Bool :=
  if v6 then (ownV6 s e).contains addr else addr == ownV4 s e

/-- The shared address of the pair; 0 none (Table 9.7). -/
def sharedAddr (s : State) (v6 : Bool) : Nat :=
  if v6 then beNat (cfBytes s 0x15 0 20 16) else beNat (cfBytes s 0x15 0 16 4)

/-- The shared MAC. -/
def sharedMac (s : State) : Nat := beNat (cfBytes s 0x15 0 8 6)

/-- An address is the pair's shared one. -/
def isShared (s : State) (v6 : Bool) (addr : Nat) : Bool := addr != 0 && addr == sharedAddr s v6

/-- The unit answers for the shared addresses (R210, R309). -/
def answersShared (s : State) : Bool := paired s && s.felt.lpown && s.md.mode == .active

/-- The addresses for which the unit answers ARP and neighbour solicitations on uplink `e` (R210, R309). -/
def answersFor (s : State) (e : Nat) (v6 : Bool) (addr : Nat) : Bool :=
  uplinkUsed s e && (isOwn s e v6 addr || (answersShared s && isShared s v6 addr))

/-- The multicast groups joined on uplink `e`, as MACs: all nodes, and the solicited-node group of each address answered for. -/
def joined (s : State) (e : Nat) : List Nat :=
  0x333300000001 :: ((ownV6 s e ++ if answersShared s then [sharedAddr s true] else []).map fun a => 0x3333FF000000 + a % 2 ^ 24)

/-- Step 4 of R307: the destination MAC is one that the unit takes. -/
def takesMac (s : State) (e mac : Nat) : Bool :=
  mac == ownMac s e || (answersShared s && mac == sharedMac s) || mac == 0xFFFFFFFFFFFF || (joined s e).contains mac

/-- KLP is served at this address of klp_port (R309). -/
def servesAddr (s : State) (v6 : Bool) (addr : Nat) : Bool :=
  klpServed s && (if paired s then isShared s v6 addr else isOwn s (klpPort s) v6 addr)

/-! ## KLP keys and sent datagrams (R310, R312, R320) -/

/-- The key that a KLP key record of this key_id holds. -/
def klpKey (s : State) (id : Nat) : Option (List Byte) := (s.img.klpKeys.find? fun k => k.id == id).map KeyRec.bytes

/-- The session key: HKDF-SHA-256 with the KLP key, unit_nonce as salt, "KLP1", the lane and the session number as info. -/
def sessKey (s : State) (lane : Nat) (x : Sess) : Option (List Byte) :=
  (klpKey s x.key).map fun k => hkdf 32 k (beBytes 8 x.nonce) ([0x4B, 0x4C, 0x50, 0x31, BitVec.ofNat 8 lane] ++ beBytes 2 x.num)

/-- A datagram as its bytes: header, payload, the tag when there is a key for it, CRC-32C. -/
def dgramBytes (key : Option (List Byte)) (lane typ flags num seq ack : Nat) (data : List Byte) : List Byte :=
  let h : List Byte :=
    [0x4B, 0x4C, 1, BitVec.ofNat 8 typ, BitVec.ofNat 8 lane, BitVec.ofNat 8 (flags + b2n key.isSome)] ++ beBytes 2 num
      ++ beBytes 4 seq ++ beBytes 4 ack ++ beBytes 2 data.length ++ [0xFF, 0] ++ data
  let h := match key with | some k => h ++ (hmac k h).take 16 | none => h
  h ++ beBytes 4 (crc32c h)

end Sys2Proof.Machine
end

