-- ==== Sys2Proof/Machine/Klp.lean ====
section
/-! DEFINITION. The store uplinks and the Kwatu Lane Protocol (14_uplinks_and_klp): received frames and datagrams,
sessions, sequencing, routing of host messages, and what leaves on the KLP uplink. -/

namespace Sys2Proof.Machine

/-! ## The uplink record (Table 14.2) -/

/-- klp_auth. -/
def klpAuth (s : State) : Nat := cf s 0x1C 0 7 1 0
/-- rto_ticks. -/
def rtoTicks (s : State) : Nat := cf s 0x1C 0 48 2 40
/-- max_retx. -/
def maxRetx (s : State) : Nat := cf s 0x1C 0 50 1 8
/-- ack_delay. -/
def ackDelay (s : State) : Nat := cf s 0x1C 0 51 1 1
/-- idle_ticks. -/
def idleTicks (s : State) : Nat := cf s 0x1C 0 52 4 40000

/-- Index of a lane's session: 8 for the store session. -/
def sessIdx (lane : Nat) : Nat := min 8 lane
/-- A session changed. -/
def modSess (i : Nat) (f : Sess → Sess) (s : State) : State := { s with klp.sess := tmod {} s.klp.sess i f }
/-- A field of KLP_ERR counted. -/
def klpErr (lo : Nat) (s : State) : State := { s with klp.err := satField lo 8 s.klp.err }
/-- A field of KLP_ERR2 counted. -/
def klpErr2 (lo : Nat) (s : State) : State := { s with klp.err2 := satField lo 8 s.klp.err2 }
/-- A field of an uplink's ETH_ERR counted. -/
def ethErr (e lo : Nat) (s : State) : State :=
  if e = 0 then { s with klp.eth0 := satField lo 8 s.klp.eth0 } else { s with klp.eth1 := satField lo 8 s.klp.eth1 }

/-- Sequence number `a` is earlier than `b`, modulo 2^32 (R316). -/
def seqEarlier (a b : Nat) : Bool :=
  let d := (b + 2 ^ 32 - a % 2 ^ 32) % 2 ^ 32
  decide (1 ≤ d ∧ d < 2 ^ 31)

/-- EVT-1401 (Table 26.3). -/
def sessEvent (reason what lane : Nat) (s : State) : State := raiseL 0x1401 (reason * 256 + what) lane s

/-! ## Sessions (R314, R315) -/

/-- CLOSE's payload. -/
def closePayload (reason : Nat) : List Byte := [BitVec.ofNat 8 reason, 0, 0, 0]

/-- A CLOSE offered whole, with its bytes as they will leave: the session that it speaks of need not be open then. -/
def sendClose (v6 : Bool) (own addr port lane : Nat) (bytes : List Byte) (s : State) : State :=
  let vlan := if cf s 0x1C 0 (8 + 2 * klpPort s) 2 0 = 0 then 0 else 4
  klpOffer { bytes := max 64 (18 + vlan + (if v6 then 40 else 20) + 8 + bytes.length), lane := lane, typ := 2, form := 3,
             peer := some (v6, own, addr, port), data := bytes } s

/-- A session closed for this reason; its unacknowledged datagrams are discarded, EVT-1401. -/
def closeSess (i reason : Nat) (tell : Bool) (s : State) : State :=
  let x := tget {} s.klp.sess i
  if !x.isOpen then s
  else
    let lane := if i = 8 then 255 else i
    let key := if x.auth then sessKey s lane x else none
    let s := if tell then
        sendClose x.v6 x.own x.addr x.port lane (dgramBytes key lane 2 0 x.num x.txNext x.rxNext (closePayload reason)) s
      else s
    sessEvent reason 2 lane { s with klp.sess := tset {} s.klp.sess i {} }

/-- A number from 1 to 65 535 that no open session has, from candidate `v` on. -/
def newNum (s : State) : Nat → Nat → Nat
  | 0, v => v % 65535 + 1
  | n + 1, v => if s.klp.sess.any fun e => e.2.isOpen && e.2.num == v % 65535 + 1 then newNum s n (v + 1) else v % 65535 + 1

/-- The number of the session's first datagram, its number and its nonce are the unit's own choice, which the manual
leaves open: free values. -/
def openSess (i : Nat) (d : KlpDgram) (s : State) : State :=
  let (v, s) := drawNat 65535 s
  let (init, s) := drawNat (2 ^ 32) s
  let (nonce, s) := drawNat (2 ^ 64) s
  let lane := if i = 8 then 255 else i
  let auth := klpAuth s ≠ 0 ∧ d.tagged
  let key := beNat ((d.payload.drop 8).take 4)
  let replaced := (tget {} s.klp.sess i).isOpen
  let x : Sess := { isOpen := true, auth := auth, v6 := d.v6, num := newNum s 9 v, addr := d.addr.toNat,
                    port := d.sport.toNat, txNext := init, rxNext := (d.seq + 1) % 2 ^ 32, lastAck := init,
                    lastRx := s.clk.tick, key := key, nonce := nonce, own := d.dst.toNat }
  let s := { s with klp.sess := tset {} s.klp.sess i x }
  let kind := if i = 8 then 0 else laneKind s i
  let body := beBytes 8 nonce ++ (d.payload.take 8) ++ beBytes 4 key ++ [BitVec.ofNat 8 kind, 0, 0, 0]
  sessEvent 0 (if replaced then 1 else 0) lane (klpSend lane 1 0 0 body s)

/-- A CLOSE to a datagram that belongs to no session: it carries the session that the datagram names, another number when that
is 0; the manual gives no sequence number of its own, so that is free. -/
def answerClose (d : KlpDgram) (reason : Nat) (s : State) : State :=
  let (v, s) := drawNat 65535 s
  let (seq, s) := drawNat (2 ^ 32) s
  let num := if d.session = 0 then v + 1 else d.session
  sendClose d.v6 d.dst.toNat d.addr.toNat d.sport.toNat d.lane
    (dgramBytes none d.lane 2 0 num seq ((d.seq + 1) % 2 ^ 32) (closePayload reason)) s

/-- A host OPEN: a session of its own, a replacement, or a CLOSE with a reason of Table 14.4. -/
def hostOpen (d : KlpDgram) (s : State) : State :=
  let lane := d.lane
  let i := sessIdx lane
  let refuse (r : Nat) : State := answerClose d r s
  if klpAuth s = 2 ∧ !d.tagged then refuse 6
  else if lane ≠ 255 ∧ (8 ≤ lane ∨ !laneUsed s lane) then refuse 4
  else
    let x := tget {} s.klp.sess i
    let same := x.addr == d.addr.toNat && x.port == d.sport.toNat && x.v6 == d.v6
    if x.isOpen ∧ !same ∧ s.clk.tick ≤ x.lastRx + idleTicks s then refuse 3 else openSess i d s

/-! ## Routing host messages (R321 to R324) -/

/-- REFUSE for the message `seq` of a lane's session, with a reason of Table 14.6. -/
def refuseMsg (lane seq reason : Nat) (s : State) : State :=
  klpSend lane 4 0 0 (beBytes 4 seq ++ [BitVec.ofNat 8 reason, 0, 0, 0]) s

/-- The reason that a failed admission gives. -/
def admReason : Adm → Nat
  | .accepted => 0
  | .closing => 3
  | .source => 2
  | _ => 4

/-- Engines of a lane, lowest first. -/
def enginesOf (s : State) (lane : Nat) : List Nat := (List.range 56).filter fun e => engLane s e == some lane

/-- Engine sub belongs to the datagram's lane, or is a C engine on the store session (R321). -/
def subServes (s : State) (lane sub : Nat) : Bool :=
  decide (sub < 56) && (engLane s sub == some lane || (lane == 255 && decide (48 ≤ sub ∧ sub < 52)))

/-- The engine and template that a message of this type takes: engine sub, or the lowest-numbered engine of the lane
with a template for it (R321). -/
def routeTemplate (s : State) (lane sub typ : Nat) : Option (Nat × Nat) :=
  if sub ≠ 255 then
    (if subServes s lane sub then (klpTemplate s sub typ).map fun t => (sub, t) else none)
  else (enginesOf s lane).findSome? fun e => (klpTemplate s e typ).map fun t => (e, t)

/-- A message on the program route enters the lane's program group; the answer is a reason, 0 when it was placed
(R322). -/
def programRoute (lane : Nat) (m : HostMsg) (s : State) : Nat × State :=
  let pw := cf s 0x1C 0 56 1 0xFF
  let pb := cf s 0x1C 0 57 1 0xFF
  if pw = 0xFF ∨ 8 ≤ lane then (2, s)
  else if laneShut s lane then (3, s)
  else if 8 < m.data.length then (5, s)
  else
    let base := match (enginesOf s lane).find? fun e => port s e 0 1 0 == 1 with
      | some e => port s e 29 1 0
      | none => 0
    let w0 := m.typ + 256 * m.sub + 65536 * m.data.length
    let (placed, s) := putGroup lane (pw + base) 4 false
      [BitVec.ofNat 32 w0, BitVec.ofNat 32 m.seq, BitVec.ofNat 32 (fld m.data 0 4), BitVec.ofNat 32 (fld m.data 4 4)] s
    if placed then (0, if pb = 0xFF then s else pulse lane pb s) else (4, s)

/-- The queue that holds a packet with this tag. -/
def queueOfTag (s : State) (t : Nat × Nat) : Option Nat :=
  match (s.sw.queues.find? fun e => e.2.any (hasTag t)).map Prod.fst with
  | some q => some q
  | none => ((chosenList s).find? fun c => hasTag t c.2.pkt).map fun c => c.2.q

/-- Where a committed CAN frame stands on its bus when an abort arrives (R266). -/
inductive CanPhase where
  | waiting      -- before its start of frame
  | losing       -- losing arbitration
  | errorFrame   -- during an error frame
  | winning      -- winning arbitration, or later
deriving DecidableEq, Repr

/-- The phase of the frame that port slot `p` sends: nothing of it is left to send when its cells have returned; before, the
bus decides, and no command tells it, so it is free. -/
def canPhase (p : Nat) (s : State) : CanPhase × State :=
  if tget 0 s.sw.egr p = 0 then (.winning, s)
  else
    let (v, s) := drawNat 4 s
    (nth .winning [.waiting, .losing, .errorFrame, .winning] v, s)

/-- The abort of a committed CAN frame (R266): withdrawn in the first three phases, and then it is not sent; else late, counted
in abort_late, EVT-1207. -/
def canAbort (p : Nat) (k : Pkt) (s : State) : Nat × State :=
  let e := p - 2
  match canPhase p s with
  | (.winning, s) =>
    (1, raise 0x1207 (p - 50) (modEng e (fun x => { x with abortLate := satInc 65535 x.abortLate }) s))
  | (_, s) =>
    let s := { s with sw.egr := tset 0 s.sw.egr p 0 }
    (0, modEng e (fun x =>
      if x.sentTpl = k.data then
        { x with sentTpl := [], going := [], wait := none, tx := (x.tx + 2 ^ 32 - 1) % 2 ^ 32 } else x) s)

/-- A host CANCEL of `target` in a session numbered `num`: 0 withdrawn, 1 late (R323, R299, R266). -/
def hostCancel (num seq target : Nat) (s : State) : Nat × State :=
  let t := (num, target)
  if !seqEarlier target seq then (1, s)
  else match queueOfTag s t with
    | some q =>
      let held := queue s q ++ ((chosenList s).filter fun c => c.2.q == q).map fun c => c.2.pkt
      let island := held.any fun k => hasTag t k && (k.typ == 0x14 || (decide (0x20 ≤ k.typ) && decide (k.typ ≤ 0x23)))
      if island then (1, s) else cancel q t s
    | none =>
      match s.sw.sent.find? fun e => hasTag t e.2 with
      | some (p, k) =>
        if 50 ≤ p ∧ p ≤ 53 then canAbort p k s
        else cancel (port s k.eng 26 2 0) t s
      | none => (1, s)

/-- A message offered to a queue of the uplink record as it stands: the reason when it was not placed. -/
def offerRaw (q lane : Nat) (m : HostMsg) (num : Nat) (s : State) : Nat × State :=
  let (a, s) := offerPkt q (klpPort s) false
    { bytes := max 1 m.data.length, lane := lane, typ := m.typ, tag := some (num, m.seq), data := m.data } s
  (admReason a, s)

/-- One message delivered in order (R321, R324): the reason when it could not be placed, else 0. -/
def placeMsg (lane num : Nat) (m : HostMsg) (s : State) : Nat × State :=
  let template (s : State) : Option (Nat × State) :=
    (routeTemplate s lane m.sub m.typ).map fun et =>
      match offerFrame et.1 et.2 m.data (some (num, m.seq)) s with
      | (some a, s) => (admReason a, s)
      | (none, s) => (5, s)
  if m.typ = 0x05 then
    let target := beNat (m.data.take 4)
    let (r, s) := hostCancel num m.seq target s
    (0, klpSend lane 5 0 0 (beBytes 4 target ++ [BitVec.ofNat 8 r, 0, 0, 0]) s)
  else if m.typ = 0x14 then
    (if 8 ≤ lane then (2, s) else if 12 < m.data.length then (5, s) else offerRaw (cf s 0x1C 0 62 2 0) lane m num s)
  else if 0x20 ≤ m.typ ∧ m.typ ≤ 0x23 then
    (if 8 ≤ lane then (2, s)
     else if !laneLegal s lane then (6, s)
     else if 120 < m.data.length then (5, s)
     else offerRaw (cf s 0x1C 0 60 2 0) lane m num s)
  else if m.typ = 0x24 ∨ m.typ = 0x25 then (template s).getD (2, s)
  else if m.typ = 0x26 then (template s).getD (programRoute lane m s)
  else if m.typ = 0x27 ∨ m.typ = 0x28 then programRoute lane m s
  else (2, s)

/-- A delivered message: CLOSE ends the session, anything else is placed or refused. -/
def deliverMsg (i : Nat) (m : HostMsg) (s : State) : State :=
  let lane := if i = 8 then 255 else i
  if m.typ = 2 then closeSess i 0 false s
  else
    let (r, s) := placeMsg lane (tget {} s.klp.sess i).num m s
    if r = 0 then s
    else
      let s := if r = 2 ∧ 0x24 ≤ m.typ ∧ m.typ ≤ 0x26 ∧ subServes s lane m.sub then portErr m.sub 0 s else s
      refuseMsg lane m.seq r s

/-- Held messages delivered in seq order while the next one is there (R316). -/
def deliverHeld (i : Nat) : Nat → State → State
  | 0, s => s
  | n + 1, s =>
    let x := tget {} s.klp.sess i
    match x.held.find? fun m => m.seq == x.rxNext with
    | none => s
    | some m =>
      deliverHeld i n (deliverMsg i m (modSess i (fun x =>
        { x with rxNext := (x.rxNext + 1) % 2 ^ 32, held := x.held.filter fun h => h.seq != m.seq }) s))

/-! ## Acknowledgements (R317) -/

/-- An ack value processed: it acknowledges everything earlier; an ack out of its range changes nothing. -/
def takeAck (i a : Nat) (s : State) : State :=
  let x := tget {} s.klp.sess i
  if (a = x.txNext ∨ seqEarlier a x.txNext) ∧ !seqEarlier a x.lastAck then
    modSess i (fun x => { x with lastAck := a, unack := x.unack.filter fun u => !seqEarlier u.seq a }) s
  else s

/-- An ack-only datagram sent now. -/
def sendAck (i : Nat) (s : State) : State :=
  let lane := if i = 8 then 255 else i
  klpSend lane 0xFF 1 0 [] (modSess i (fun x => { x with ackDue := none }) s)

/-- An accepted data datagram is acknowledged after ack_delay ticks, or at once; a session that it closed has no more
acknowledgements. -/
def scheduleAck (i : Nat) (s : State) : State :=
  if !(tget {} s.klp.sess i).isOpen then s
  else if ackDelay s = 0 then sendAck i s
  else modSess i (fun x => { x with ackDue := some (x.ackDue.getD (s.clk.tick + ackDelay s)) }) s

/-! ## Datagrams (R313, R316) -/

/-- The tag of a datagram verifies: an OPEN's under the KLP key that it names, a WAKE's under any, another's under the key of
the session `x` (R320, R326). -/
def klpTag (s : State) (d : KlpDgram) (x : Option Sess) : Bool :=
  if d.typ = 1 then (match klpKey s (beNat ((d.payload.drop 8).take 4)) with | some k => d.tagUnder k | none => false)
  else if d.typ = 6 then s.img.klpKeys.any fun k => d.tagUnder k.bytes
  else match x with
    | some x => (match sessKey s d.lane x with | some k => d.tagUnder k | none => false)
    | none => true

/-- The tag of a datagram satisfies R320; `x` is the session that it names, when there is one. -/
def tagFits (s : State) (d : KlpDgram) (x : Option Sess) : Bool :=
  let tag := d.tagged
  match klpAuth s with
  | 0 => !tag
  | 1 =>
    if d.typ = 1 ∨ d.typ = 6 then !tag || klpTag s d none
    else match x with
      | some x => if x.auth then tag && klpTag s d (some x) else !tag
      | none => true
  | _ => if d.typ = 1 then !tag || klpTag s d none else tag && klpTag s d x

/-- The open session that a datagram names, with its source (R313 step 5). -/
def sessionFor (s : State) (d : KlpDgram) : Option Nat :=
  if d.lane ≠ 255 ∧ 8 ≤ d.lane then none
  else
    let i := sessIdx d.lane
    let x := tget {} s.klp.sess i
    if x.isOpen && x.num == d.session && x.addr == d.addr.toNat && x.v6 == d.v6 && x.port == d.sport.toNat
    then some i else none

/-- Steps 1 and 2 of R313: 0 pass, 1 header, 2 length. -/
def headerCheck (d : KlpDgram) : Nat :=
  if d.udpLen < 24 ∨ d.magic ≠ 0x4B4C ∨ d.version ≠ 1 ∨ 16 ≤ d.flags ∨ d.reserved ≠ 0 then 1
  else if 2048 < d.length ∨ 24 + d.length + (if d.tagged then 16 else 0) ≠ d.udpLen then 2
  else 0

/-- A data datagram of an open session (R316). -/
def takeData (i : Nat) (d : KlpDgram) (s : State) : State :=
  let x := tget {} s.klp.sess i
  let q := d.seq
  if seqEarlier q x.rxNext then sendAck i (klpErr2 16 s)
  else if (q + 2 ^ 32 - x.rxNext) % 2 ^ 32 < 64 then
    (if x.held.any fun m => m.seq == q then scheduleAck i s
     else if 524288 < storeUsed s + d.payload.length then s
     else
       let m : HostMsg := { seq := q, typ := d.typ, sub := d.sub, data := d.payload }
       scheduleAck i (deliverHeld i 64 (modSess i (fun x => { x with held := x.held ++ [m] }) s)))
  else klpErr2 8 s

/-- A datagram from an unknown session: counted, and answered once per tick per source. -/
def noSession (d : KlpDgram) (s : State) : State :=
  let src := d.addr.toNat * 65536 + d.sport.toNat
  let s := klpErr2 24 s
  if s.klp.closeTold.contains src then s
  else answerClose d 2 { s with klp.closeTold := src :: s.klp.closeTold }

/-- A WAKE (R326): in DORMANT an accepted one is a wake; elsewhere it is discarded and counted. -/
def takeWake (d : KlpDgram) (s : State) : State :=
  if s.md.mode ≠ .dormant then klpErr2 0 s
  else
    let ctr := beNat ((d.payload.drop 16).take 8)
    let all := if d.v6 then d.dst.toNat == 0xFF02 * 2 ^ 112 + 1 else d.dst.toNat == 0xFFFFFFFF
    let ok := (isOwn s (klpPort s) d.v6 d.dst.toNat || all) && d.uplink.val == klpPort s && headerCheck d == 0 && d.crcOk
      && d.session == 0 && d.lane == 255 && d.length == 24
      && (d.payload.take 16) == s.img.storeUuid ++ List.replicate (16 - s.img.storeUuid.length) 0
      && (klpAuth s == 0 || (d.tagged && klpTag s d none && decide (s.ret.wakeCtr < ctr)))
    if ok then wake 0 (if klpAuth s = 0 then s else { s with ret.wakeCtr := ctr })
    else raiseOnce 0x1406 0 s

/-- A KLP datagram at the engine (R309, R313, R316). -/
def klpReceive (d : KlpDgram) (s : State) : State :=
  if d.typ = 6 then takeWake d s
  else if d.uplink.val ≠ klpPort s ∨ !servesAddr s d.v6 d.dst.toNat then ethErr d.uplink.val 0 s
  else if headerCheck d = 1 then klpErr 24 s
  else if headerCheck d = 2 then klpErr 16 s
  else if !d.crcOk then klpErr 8 s
  else
    let si := sessionFor s d
    if !tagFits s d (si.map fun i => tget {} s.klp.sess i) then raiseOnce 0x1404 0 (klpErr 0 s)
    else if d.typ = 1 then (if d.session = 0 then hostOpen d s else klpErr2 24 s)
    else match si with
      | none => noSession d s
      | some i =>
        let s := takeAck i d.ack (modSess i (fun x => { x with lastRx := s.clk.tick }) s)
        if d.ackOnly then s else takeData i d s

/-! ## The commands that carry a host's datagram (Table 14.5): its own header says which message it is -/

/-- OPEN (R314). -/
def execOpen (d : KlpDgram) (s : State) : Out := ok (klpReceive d s)
/-- CLOSE (R315). -/
def execKlpClose (d : KlpDgram) (s : State) : Out := ok (klpReceive d s)
/-- An ack-only datagram (R317). -/
def execAckOnly (d : KlpDgram) (s : State) : Out := ok (klpReceive d s)
/-- CANCEL (R323). -/
def execCancel (d : KlpDgram) (s : State) : Out := ok (klpReceive d s)
/-- WAKE (R326). -/
def execKlpWake (d : KlpDgram) (s : State) : Out := ok (klpReceive d s)
/-- BAG (R321, R383): the request goes to q_bag, and the check starts when port G commits it. -/
def execBag (d : KlpDgram) (s : State) : Out := ok (klpReceive d s)
/-- PRICE (R321): to q_island as sluice code 0x01. -/
def execPrice (d : KlpDgram) (s : State) : Out := ok (klpReceive d s)
/-- TARE (R321): to q_island as sluice code 0x02. -/
def execTare (d : KlpDgram) (s : State) : Out := ok (klpReceive d s)
/-- ZERO (R321): to q_island as sluice code 0x03. -/
def execZero (d : KlpDgram) (s : State) : Out := ok (klpReceive d s)
/-- LDISP (R321): to q_island as sluice code 0x04. -/
def execLdisp (d : KlpDgram) (s : State) : Out := ok (klpReceive d s)
/-- DISPLAY (R273, R321). -/
def execDisplay (d : KlpDgram) (s : State) : Out := ok (klpReceive d s)
/-- PRINT (R273, R321). -/
def execPrint (d : KlpDgram) (s : State) : Out := ok (klpReceive d s)
/-- DRAWER (R321): a template, or the program route when the lane has none. -/
def execDrawer (d : KlpDgram) (s : State) : Out := ok (klpReceive d s)
/-- LIGHT (R322). -/
def execLight (d : KlpDgram) (s : State) : Out := ok (klpReceive d s)
/-- BELT (R322). -/
def execBelt (d : KlpDgram) (s : State) : Out := ok (klpReceive d s)

/-! ## Time-outs (R315, R317, R318) -/

/-- A session's unacknowledged datagrams that a resend is due for, resent. -/
def resendDue (i : Nat) (s : State) : State :=
  let lane := if i = 8 then 255 else i
  (tget {} s.klp.sess i).unack.foldl (fun s u =>
    if u.tries < maxRetx s ∧ u.tick + (u.tries + 1) * rtoTicks s ≤ s.clk.tick then
      klpSend lane u.typ 2 u.seq u.data (modSess i (fun x =>
        { x with
          resends := satInc 65535 x.resends,
          unack := x.unack.map fun w => if w.seq = u.seq then { w with tries := w.tries + 1 } else w }) s)
    else s) s

/-- RETRANSMIT (R318): datagrams due are resent; one whose last resend stayed unacknowledged beyond the tick in which an ack
would still be in time (R50) closes the session. -/
def execRetransmit (k : Fin 9) (s : State) : Out :=
  let x := tget {} s.klp.sess k.val
  ok (if x.unack.any fun u => decide (maxRetx s ≤ u.tries ∧ u.tick + (u.tries + 1) * rtoTicks s < s.clk.tick) then
      closeSess k.val 5 true (raiseL 0x1402 (if k.val = 8 then 255 else k.val) (if k.val = 8 then 255 else k.val) s)
    else resendDue k.val s)

/-- ACK_DELAY_EXPIRY (R317): ack-only is sent when no data datagram has carried the ack. -/
def execAckDelayExpiry (k : Fin 9) (s : State) : Out :=
  ok (match (tget {} s.klp.sess k.val).ackDue with
    | some t => if t ≤ s.clk.tick then sendAck k.val s else s
    | none => s)

/-- SESSION_IDLE (R315): a session without a datagram for idle_ticks closes. -/
def execSessionIdle (k : Fin 9) (s : State) : Out :=
  let x := tget {} s.klp.sess k.val
  ok (if x.isOpen ∧ x.lastRx + idleTicks s < s.clk.tick then closeSess k.val 1 true s else s)

/-! ## Uplinks (R306, R307) -/

/-- Frames for the management core take the lowest queue of port G that the uplink may use (R307). -/
def toManagement (slot : Nat) (data : List Byte) (len : Nat) (s : State) : State :=
  match (List.range 2048).find? fun q => qPort s q == 55 && (qSrc s q == 0xFF || qSrc s q == slot) with
  | some q => (offerPkt q slot false { bytes := len, data := data } s).2
  | none => s

/-- A KLP datagram in one or two fragments: the engine gets it when it is whole (R307). -/
def reassemble (key : Option Nat) (d : KlpDgram) (s : State) : State :=
  match key with
  | none => klpReceive d s
  | some k =>
    if s.klp.frags.any fun f => f.1 == k then
      klpReceive d { s with klp.frags := s.klp.frags.filter fun f => f.1 != k }
    else if 16 ≤ s.klp.frags.length then s
    else { s with klp.frags := s.klp.frags ++ [(k, s.clk.tick)] }

/-- ETH_FRAME (R307): an uplink that is not in use receives nothing; else FCS, length, VLAN and destination in order; a KLP datagram goes to the engine, the rest to the
management core. -/
def execEthFrame (f : EthFrame) (s : State) : Out :=
  let e := f.uplink.val
  ok (if !uplinkUsed s e then s
    else if !f.fcsOk then ethErr e 24 s
    else if f.len < 64 ∨ 1522 < f.len then ethErr e 16 s
    else if f.vid.toNat ≠ cf s 0x1C 0 (8 + 2 * e) 2 0 then ethErr e 8 s
    else if !takesMac s e f.dmac.toNat || !f.supported then ethErr e 0 s
    else match f.klp with
      | some d => if e = klpPort s then reassemble f.frag d s else ethErr e 0 s
      | none => toManagement e f.data f.len s)

/-- REASSEMBLY_TIMEOUT (R307): fragments not complete within 4 ticks are discarded. -/
def execReassemblyTimeout (key : Nat) (s : State) : Out :=
  ok { s with klp.frags := s.klp.frags.filter fun f => !(f.1 == key && decide (f.2 + 4 < s.clk.tick)) }

/-! ## Leaving on the KLP uplink (R310, R316, R325) -/

/-- A datagram on the wire from the address at which KLP is served, with the uplink's VLAN and the PCP of its queue's service
`svc` (R308, R310). -/
def klpWire (svc : Nat) (v6 : Bool) (own addr port : Nat) (bytes : List Byte) (s : State) : State :=
  let vid := cf s 0x1C 0 (8 + 2 * klpPort s) 2 0
  let pcp := cf s 0x1C 0 (12 + svc) 1 (nth 0 [7, 6, 5, 5, 4, 3, 1, 0] svc)
  { s with klp.sent := some { v6 := v6, src := own, sport := 47640, dst := addr, dport := port, vid := vid,
                              pcp := if vid = 0 then 0 else pcp, bytes := bytes } }

/-- A KLP packet committed at its uplink: a message takes its session's next seq and carries the ack; one without an
open session, or of a type that its source may not send, is discarded and counted. A resend that an ack has cancelled meanwhile
does not leave (R318). The type field of an ack-only datagram is free: no table gives it. While KLP is not served nothing of it
is sent (R310), and the packet is lost. -/
def klpDepart (svc : Nat) (k : Pkt) (s : State) : State :=
  let i := sessIdx k.lane
  let x := tget {} s.klp.sess i
  let key := if !x.auth then none else if k.typ = 1 then klpKey s x.key else sessKey s k.lane x
  let out (typ flags seq : Nat) (data : List Byte) (s : State) : State :=
    klpWire svc x.v6 x.own x.addr x.port (dgramBytes key k.lane typ flags x.num seq x.rxNext data) s
  if !klpServed s then s
  else if k.src = 54 ∧ k.typ ≠ 0x15 ∧ k.typ ≠ 0x07 then klpErr2 0 s
  else match k.form with
    | 3 => (match k.peer with | some p => klpWire svc p.1 p.2.1 p.2.2.1 p.2.2.2 k.data s | none => s)
    | 1 =>
      let (typ, s) := drawNat 256 s
      if x.isOpen then out typ 2 x.txNext [] s else s
    | 2 =>
      if x.unack.any fun u => u.seq == k.seq then
        out k.typ (if k.typ = 3 then 12 else 4) k.seq k.data (modSess i (fun x => { x with ackDue := none }) s)
      else s
    | _ =>
      if !x.isOpen then klpErr2 24 s
      else
        let u : Unack := { seq := x.txNext, typ := k.typ, tick := s.clk.tick, tries := 0, data := k.data }
        let s := out k.typ (if k.typ = 3 then 8 else 0) x.txNext k.data s
        modSess i (fun x => { x with txNext := (x.txNext + 1) % 2 ^ 32, unack := x.unack ++ [u], ackDue := none }) s

/-! ## Across a takeover (R327, R328) -/

/-- A session as a copy carries it (Table 14.7). -/
def sessEnt (i : Nat) (x : Sess) : SessEnt :=
  { lane := if i = 8 then 255 else i, isOpen := x.isOpen, auth := x.auth, v6 := x.v6, num := x.num, addr := x.addr,
    port := x.port, txNext := x.txNext, rxNext := x.rxNext,
    map := ((List.range 64).map fun k =>
      if x.held.any fun m => m.seq == (x.rxNext + 1 + k) % 2 ^ 32 then 2 ^ k else 0).sum,
    key := x.key, nonce := x.nonce }

/-- A session entry taken from a copy by the standby. -/
def takeEnt (s : State) (e : SessEnt) : State :=
  let i := sessIdx e.lane
  if e.isOpen then
    { s with klp.sess := tset {} s.klp.sess i { isOpen := true, auth := e.auth, v6 := e.v6, num := e.num, addr := e.addr,
                                                port := e.port, txNext := e.txNext, rxNext := e.rxNext,
                                                lastAck := e.txNext, lastRx := s.clk.tick, key := e.key,
                                                nonce := e.nonce, own := sharedAddr s e.v6 } }
  else { s with klp.sess := tset {} s.klp.sess i {} }

/-- SYNC on every open session when LPOWN rises after a takeover or a hand-over; EVT-1405. -/
def sendSyncs (cause : Nat) (s : State) : State :=
  let open' := (s.klp.sess.filter fun e => e.2.isOpen).map Prod.fst
  let s := open'.foldl (fun s i =>
    let s := modSess i (fun x => { x with
      txNext := (x.txNext + 65536) % 2 ^ 32, lastAck := (x.txNext + 65536) % 2 ^ 32, held := [], unack := [],
      lastRx := s.clk.tick }) s
    klpSend (if i = 8 then 255 else i) 3 0 0
      (beBytes 4 (tget {} s.klp.sess i).rxNext ++ [BitVec.ofNat 8 cause, 0, 0, 0]) s) s
  raise 0x1405 open'.length s

/-- KLP_SESS of session `i` (Table 14.8): word `w`. -/
def klpSessWord (s : State) (i w : Nat) : Nat :=
  let x := tget {} s.klp.sess i
  match w with
  | 0 => x.num * 65536 + b2n x.isOpen + 2 * b2n x.auth + 4 * b2n x.v6
  | 1 => x.txNext
  | 2 => x.rxNext
  | _ => x.resends * 65536 + x.unack.length % 128

end Sys2Proof.Machine
end

