-- ==== Sys2Proof/Machine/IslBase.lean ====
section
/-! DEFINITION. The sluice (R29 to R31), the island's identity and the legal parameters (R352, R360), which the legal
displays, the island and weighing share. -/

namespace Sys2Proof.Machine

/-- The island changed. -/
def modIsl (f : Isl → Isl) (s : State) : State := { s with isl := f s.isl }

/-! ## The sluice (R29 to R31) -/

/-- A downward message offered by the core side: refused and counted when all 32 slots are full. -/
def sluDown (code lane : Nat) (data : List Byte) (s : State) : Bool × State :=
  if 32 ≤ s.slu.down.length then
    (false, { s with slu.downFull := satInc (2 ^ 32 - 1) s.slu.downFull })
  else
    (true, { s with slu.down := s.slu.down ++ [{ code := code, lane := lane, seq := s.slu.downSeq, data := data }],
                    slu.downSeq := (s.slu.downSeq + 1) % 65536 })

/-- A message that its receiver discards for its form; the codes of its direction run from `lo` to `hi` (R30). -/
def sluBadForm (lo hi : Nat) (m : SluMsg) : Bool := decide (m.code < lo ∨ hi < m.code ∨ 120 < m.data.length ∨ m.rsvd ≠ 0)

/-- The head taken from the upward mailbox. -/
def popUp (s : State) : State := { s with slu.up := s.slu.up.drop 1 }

/-- Malformed messages at the head of the upward mailbox, discarded by the core side and counted. -/
def cleanUp : Nat → State → State
  | 0, s => s
  | n + 1, s =>
    match s.slu.up with
    | m :: _ =>
      if sluBadForm 0x81 0x83 m then cleanUp n (popUp { s with slu.badUp := satInc (2 ^ 32 - 1) s.slu.badUp }) else s
    | [] => s

/-- A message posted into a free upward slot. -/
def postMsg (m : SluMsg) (s : State) : State :=
  { s with slu.up := s.slu.up ++ [{ m with seq := s.slu.upSeq }], slu.upSeq := (s.slu.upSeq + 1) % 65536 }

/-- Held messages posted in order while upward slots are free (R30); after a reset they wait for the legal status, which goes
first (R31). -/
def postUp : Nat → State → State
  | 0, s => s
  | n + 1, s =>
    match s.isl.hold with
    | m :: rest =>
      if s.isl.first ∨ 32 ≤ s.slu.up.length then s
      else postUp n (postMsg m { s with isl.hold := rest })
    | [] => s

/-- A message into the upward hold: status and extracts before the weight records (R336). -/
def holdMsg (m : SluMsg) (s : State) : State :=
  let l := s.isl.hold
  let l := if m.code = 0x81 then l ++ [m]
    else (l.filter fun x => x.code != 0x81) ++ [m] ++ l.filter fun x => x.code == 0x81
  postUp 97 { s with isl.hold := l }

/-- The hold has room. -/
def holdRoom (s : State) : Bool := decide (s.isl.hold.length < 96)

/-! ## Identity, parameters (R352, R353, R360) -/

/-- The seal identity; 0: unsealed. -/
def sealId (s : State) : Nat := s.isl.sealWord.normal
/-- The audit counter: marginal bits count as blown (R353). -/
def auditCount (s : State) : Nat := min 255 (s.isl.count + s.isl.marginal)
/-- The running legal firmware copy. -/
def legalFw (s : State) : List Byte := if s.isl.fwRun = 0 then s.isl.fwA else s.isl.fwB
/-- The identification CRC (R352), over copy_len bytes. -/
def fwCrc (s : State) : Nat := if legalFw s = [] then 0 else crc32 ((legalFw s).take (fld (legalFw s) 36 4))
/-- The running legal firmware version, bytes major, minor, patch, 0. -/
def fwVer (s : State) : Nat := if legalFw s = [] then 0 else Config.legalFwVersion (legalFw s)
/-- The legal configuration copy in use. -/
def legalCfg (s : State) : LegalCfg := if s.isl.cfgSel = 0 then s.isl.cfgA else s.isl.cfgB

/-- Lane and field number of a lane parameter's identity. -/
def laneParam (id : Nat) : Option (Nat × Nat) :=
  if 0x1000 ≤ id ∧ id < 0x1800 then some ((id - 0x1000) / 256, id % 256) else none
/-- Channel and field number of a non-legal channel parameter's identity. -/
def chanParam (id : Nat) : Option (Nat × Nat) :=
  if 0x2000 ≤ id ∧ id < 0x2040 then some ((id - 0x2000) / 16, id % 16) else none
/-- Identity of lane `n`'s parameter `k`. -/
def laneId (n k : Nat) : Nat := 0x1000 + 0x100 * n + k
/-- Identity of channel `c`'s parameter `k`. -/
def chanId (c k : Nat) : Nat := 0x2000 + 0x10 * c + k

/-- Least, greatest and default value of a lane parameter that can be written (Table 16.2). -/
def laneRange (k : Nat) : Option (Int × Int × Int) :=
  match k with
  | 0x00 => some (0, 0x18, 0)
  | 0x01 => some (3, 4, 3)
  | 0x02 => some (0, 1, 0)
  | 0x03 => some (1, 1000000, 1000)
  | 0x04 => some (1, 3, 1)
  | 0x05 | 0x06 | 0x07 => some (1, 1000000, 0)
  | 0x08 | 0x09 | 0x0A => some (1, 100, 1)
  | 0x0B => some (100, 1000, 300)
  | 0x0C => some (1, 100, 10)
  | 0x0D => some (0, 1, 1)
  | 0x0E => some (50, 2000, 500)
  | 0x0F => some (-1, 7, -1)
  | 0x10 | 0x11 => some (0, 7, 0)
  | 0x12 | 0x13 | 0x14 => some (-2 ^ 31, 2 ^ 31 - 1, 0)
  | _ => none

/-- Least, greatest and default value of a legal parameter that can be written. -/
def paramRange (id : Nat) : Option (Int × Int × Int) :=
  match laneParam id, chanParam id with
  | some (_, k), _ => laneRange k
  | _, some (_, k) =>
    (match k with
     | 0 => some (0, 1, 0)
     | 1 => some (0, 1, 0)
     | 2 => some (1, 1000000, 1000)
     | 3 | 4 | 5 => some (-2 ^ 31, 2 ^ 31 - 1, 0)
     | _ => none)
  | none, none =>
    match id with
    | 2 => some (1, 100, 1)
    | 3 => some (1, 0x7FFFFFFF, 999999)
    | 4 => some (0, 3, 2)
    | 5 => some (-40, 150, -10)
    | 6 => some (-40, 150, 85)
    | _ => none

/-- A parameter's value in force. -/
def param (s : State) (id : Nat) : Int :=
  match tget none (legalCfg s).params id with
  | some v => v
  | none => match paramRange id with | some (_, _, d) => d | none => 0
/-- A parameter's value in the staged set. -/
def stagedParam (s : State) (id : Nat) : Int :=
  match (s.isl.stParams.reverse.find? fun e => e.1 == id) with | some (_, v) => v | none => param s id
/-- Lane `n`'s parameter `k`, as a number. -/
def lp (s : State) (n k : Nat) : Int := param s (laneId n k)

/-- A rational rounded half away from zero. -/
def roundAway (q : Rat) : Int := if 0 ≤ q then (q + 1 / 2).floor else -((-q + 1 / 2).floor)
/-- A rational rounded half away from zero to a multiple of `k`. -/
def roundTo (k : Int) (q : Rat) : Int := roundAway (q / k) * k

/-- An instrument of the island. -/
def islLane (s : State) (n : Nat) : IslLane := tget {} s.isl.lanes n
/-- An instrument changed. -/
def modIslLane (n : Nat) (f : IslLane → IslLane) (s : State) : State := { s with isl.lanes := tmod {} s.isl.lanes n f }


end Sys2Proof.Machine
end

