-- ==== Sys2Proof/Machine/Block.lean ====
section
/-! DEFINITION. What a KF-24 field block does (10_the_kf24, 11_the_field_link): inputs and their events, outputs and
diagnostics, the states of Table 10.3, and its part in every frame of the field link. -/

namespace Sys2Proof.Machine

/-- The unit has ticks. -/
def ticking (s : State) : Bool := s.md.mode != .backup && s.md.powerGood && !s.wd.hold && !s.md.testHold

/-- A block by FB number. -/
def block (fb : Nat) (s : State) : Block := tget {} s.fl.blocks fb
/-- A block replaced. -/
def setBlock (fb : Nat) (b : Block) (s : State) : State := { s with fl.blocks := tset {} s.fl.blocks fb b }
/-- A block changed. -/
def modBlock (fb : Nat) (f : Block → Block) (s : State) : State := setBlock fb (f (block fb s)) s

/-- This unit is the home unit: its UNIT_ID strap equals home_id (R86, Table 9.7). -/
def isHome (s : State) : Bool := s.boot.unitId == cf s 0x15 0 1 1 0
/-- The port of every block that leads to this unit: A on chain A, the home unit's, else B (R2). -/
def myPort (s : State) : Nat := if isHome s then 1 else 2
/-- Position of a block on this unit's chain, and the block at a position: chain B counts in reverse (R82). -/
def posOf (s : State) (fb : Nat) : Nat := if isHome s then fb else s.fl.n - 1 - fb

/-- The position a block keeps for a port. -/
def Block.pos (b : Block) (port : Nat) : Option Nat := if port = 1 then b.posA else b.posB
/-- The align_ns a block keeps for a port. -/
def Block.align (b : Block) (port : Nat) : Nat := if port = 1 then b.alignA else b.alignB

/-- Blocks in the order in which frames of `port` meet them, as far as the frames go: to the first that is not powered, or
to the first that turns them round (R241). -/
def walk (port : Nat) (s : State) : List Nat → List Nat
  | [] => []
  | fb :: rest =>
    let b := block fb s
    if !b.powered then [] else if (if port = 1 then b.turnA else b.turnB) then [fb] else fb :: walk port s rest

/-- The blocks that frames of `port` reach, nearest first: chain B meets them in reverse (R2). -/
def chain (port : Nat) (s : State) : List Nat :=
  let all := List.range (s.fl.blocks.foldl (fun n e => max n (e.1 + 1)) 0)
  walk port s (if port = 1 then all else all.reverse)

/-- Frames of `port` reach block `fb`. -/
def reached (port fb : Nat) (s : State) : Bool := (chain port s).contains fb

/-! ## Settings (Table 10.5) -/

/-- Valid settings are held. -/
def Block.settingsOk (b : Block) : Bool := !b.settings.isEmpty
/-- filter_us of input `k`. -/
def Block.filter (b : Block) (k : Nat) : Nat := fld b.settings (4 * k) 2
/-- in_mode of input `k`. -/
def Block.inMode (b : Block) (k : Nat) : Nat := fld b.settings (4 * k + 2) 1
/-- out_mode of output `j`. -/
def Block.outMode (b : Block) (j : Nat) : Nat := fld b.settings (64 + 2 * j) 1
/-- The settings entry is within the ranges of Table 10.5. -/
def settingsValid (bs : List Byte) : Bool :=
  bs.length == 80
    && (List.range 16).all (fun k => decide (fld bs (4 * k) 2 ≤ 1000) && decide (fld bs (4 * k + 2) 1 < 32)
        && fld bs (4 * k + 3) 1 == 0)
    && (List.range 8).all fun j => decide (fld bs (64 + 2 * j) 1 < 16) && decide (fld bs (64 + 2 * j) 1 % 4 < 3)
        && fld bs (65 + 2 * j) 1 == 0

/-- Bits of a mask by a test of each. -/
def maskOf (n : Nat) (f : Nat → Bool) : Nat := (List.range n).foldl (fun m k => m + b2n (f k) * 2 ^ k) 0

/-- inv bits of the inputs. -/
def Block.inv (b : Block) : Nat := maskOf 16 fun k => bitOf (b.inMode k) 3

/-- Direct channels whose micro-supply is down read 0 whatever inv holds (R217); a block without settings reads 0
(R220). -/
def Block.inputs (b : Block) : Nat :=
  if !b.settingsOk then 0 else maskOf 16 fun k => bitOf b.acc k && !(decide (k < 8) && bitOf b.dsup k)

/-! ## Outputs -/

/-- Outputs that are on: commanded, powered, settings held, VF good, commands arriving, not in shutdown (R227,
R231, R232, R236). -/
def Block.sensed (b : Block) : Nat :=
  if b.powered && b.settingsOk && b.vfOk && b.islandOk && b.vlOk && !b.cmdLost then
    maskOf 8 fun k => bitOf b.isl k && !bitOf b.hot k
  else 0

/-- ofault: in current limit, or any latch set (R230). -/
def Block.ofault (b : Block) : Nat := maskOf 8 fun k => bitOf b.limit k || bitOf b.therm k || bitOf b.olOn k || bitOf b.olOff k

/-- A bit set when `c` holds. -/
def setIf (c : Bool) (m k : Nat) : Nat := if c then setBit m k else m

/-- Masked bits of outputs. -/
def withMask (old mask val : Nat) : Nat := maskOf 8 fun k => if bitOf mask k then bitOf val k else bitOf old k

/-- The masked outputs take commanded values, which become the last commanded ones (R233, R250). -/
def Block.drive (b : Block) (mask val : Nat) : Block :=
  { b with cmd := withMask b.cmd mask val, isl := withMask b.isl mask val, safeHeld := withMask b.safeHeld mask 0 }

/-- Which outputs are in current limit now: the load decides, so for an output that is on it is free; an output that is
off carries no current (R227, R230). -/
def feelLimit (fb : Nat) (s : State) : State :=
  modBlock fb (fun b => { b with limit := Config.freeNat s.free % 256 &&& b.sensed }) { s with free := s.free + 1 }

/-- Each output takes its safe value: off, on, or the last commanded value (R233). -/
def Block.applySafe (b : Block) : Block :=
  { b with safeDue := false, safeHeld := 255,
           isl := maskOf 8 fun j => match b.outMode j % 4 with | 0 => false | 1 => true | _ => bitOf b.cmd j }

/-! ## The event queue (R222) -/

/-- An entry goes ahead of another: priority entries first, each class in the order of its timestamps, one timestamp in
channel order. DEDUCED: the time that orders entries is the timestamp (log entry 47). -/
def EvEntry.before (e f : EvEntry) : Bool :=
  if e.pri != f.pri then e.pri
  else if e.age != f.age then decide (f.age < e.age)
  else if e.stamp != f.stamp then decide (e.stamp < f.stamp)
  else decide (e.channel < f.channel)

/-- An entry placed. -/
def placeEntry (e : EvEntry) : List EvEntry → List EvEntry
  | [] => [e]
  | f :: l => if e.before f then e :: f :: l else f :: placeEntry e l

/-- The oldest entry without pri removed. -/
def dropOldest : List EvEntry → Option (List EvEntry)
  | [] => none
  | e :: l => if e.pri then (dropOldest l).map (e :: ·) else some l

/-- A new entry queued; a full queue loses its oldest entry without pri, or the new one (R222). -/
def Block.enqueue (b : Block) (e : EvEntry) : Block :=
  let lost (b : Block) : Block := { b with evLost := satInc 65535 b.evLost, ovf := true }
  if b.queue.length < 16 then { b with queue := placeEntry e b.queue }
  else match dropOldest b.queue with
    | some q => lost { b with queue := placeEntry e q }
    | none => lost b

/-- An accepted level of an input and, for an enabled edge, its event entry (R220 to R222). Without settings nothing
is produced; a direct channel whose supply is down produces nothing (R217). `age` counts the local boundaries since the
stamp. -/
def Block.accept (b : Block) (ch : Nat) (level : Bool) (stamp age : Nat) : Block :=
  let v := Bool.xor level (bitOf (b.inMode ch) 3)
  let old := bitOf b.acc ch
  let b := { b with acc := if v then setBit b.acc ch else clrBit b.acc ch }
  if !b.settingsOk || v == old || (decide (ch < 8) && bitOf b.dsup ch) then b
  else if (if v then bitOf (b.inMode ch) 1 else bitOf (b.inMode ch) 2) && b.counterOn then
    b.enqueue { rising := v, channel := ch, pri := bitOf (b.inMode ch) 4, age := age, stamp := stamp % 2 ^ 17 }
  else b

/-- The word of an event entry (Table 11.5). -/
def EvEntry.word (e : EvEntry) : Nat :=
  (if e.rising then 1 else 2) * 2 ^ 30 + e.channel * 2 ^ 26 + b2n e.pri * 2 ^ 25 + min e.age 3 * 2 ^ 23 + e.stamp

/-! ## Registers (Tables 10.6 to 10.9) -/

/-- The input slot (Table 10.6). -/
def Block.slot (b : Block) : Nat :=
  b2n b.safeSeen * 2 ^ 29 + b2n b.settingsOk * 2 ^ 28 + b2n b.ovf * 2 ^ 27 + b2n (b.dsup != 0) * 2 ^ 26
    + b2n b.islandOk * 2 ^ 25 + b2n b.vfOk * 2 ^ 24 + b.ofault * 2 ^ 16 + b.inputs

/-- The state's code in BLK_STAT. -/
def BlkSt.code : BlkSt → Nat
  | .unowned => 0 | .owned => 1 | .holding => 2 | .safe => 3

/-- A block register by offset (Table 10.7). DEDUCED: R6 names BLK_STAT for the stepping, which Tables 10.7 and 10.8 put
in BLK_ID[15:8] with BLK_STAT[31:20] zero; the tables are followed (log entry 47). -/
def Block.reg (b : Block) (off : Nat) : Option Nat :=
  match off with
  | 0x00 => some (b.part * 2 ^ 16 + b.stepping * 256)
  | 0x04 => some b.serial
  | 0x08 => some (b.holdM1 * 2 ^ 14 + min b.missed 255 * 2 ^ 6 + b2n b.keep * 2 ^ 5 + b.st.code * 4 + b.owner)
  | 0x0C => some (b.evLost * 2 ^ 16 + b.dsup)
  | 0x10 => some ((List.range 8).foldl (fun w k => w + (b2n (bitOf b.olOff k) * 8 + b2n (bitOf b.olOn k) * 4
              + b2n (bitOf b.therm k) * 2 + b2n (bitOf b.limit k)) * 16 ^ k) 0)
  | 0x14 => some (b.safeHeld * 2 ^ 16 + b.sensed * 2 ^ 8 + b.isl)
  | _ => none

/-- Open-load detection in the on state applies to output `k` (R229). -/
def Block.olOnApplies (b : Block) (k : Nat) : Bool := bitOf (b.outMode k) 2 && bitOf b.sensed k
/-- Open-load detection in the off state applies to output `k` (R229). -/
def Block.olOffApplies (b : Block) (k : Nat) : Bool := bitOf (b.outMode k) 3 && !bitOf b.sensed k && b.vfOk

/-- A write of OUT_DIAG: ones clear latches; a condition still present sets its latch again at once (R230). A thermal
shutdown is known; whether an open load is still there is the load's, in `load`: bit k on-state, bit 8 + k off-state. -/
def Block.clearDiag (b : Block) (load v : Nat) : Block :=
  { b with therm := maskOf 8 fun k => bitOf b.therm k && (!bitOf v (4 * k + 1) || bitOf b.hot k),
           olOn := maskOf 8 fun k => bitOf b.olOn k && (!bitOf v (4 * k + 2) || (bitOf load k && b.olOnApplies k)),
           olOff := maskOf 8 fun k => bitOf b.olOff k && (!bitOf v (4 * k + 3) || (bitOf load (8 + k) && b.olOffApplies k)) }

/-- Which open loads are present now: the loads decide, so it is a free value. -/
def drawLoads (s : State) : Nat × State := (Config.freeNat s.free % 65536, { s with free := s.free + 1 })

/-! ## Sweeps at a block (R245, R247, R253, R254) -/

/-- The counter and the local tick set at the J of a sweep whose hcrc checks: one from the owner port, or any while UNOWNED
(R247). -/
def Block.alignTo (b : Block) (port tickLo : Nat) (hdr : Bool) : Block :=
  if hdr && b.counterOn && (b.owner == port || b.st == .unowned) then
    { b with counter := b.align port / 10, tickLo := tickLo }
  else b

/-- A claim in a sweep of tick `tickLo` is accepted (R254). -/
def Block.claimOk (b : Block) (tickLo : Nat) : Bool :=
  b.st == .unowned || b.released || decide (2 ≤ b.missed + b2n (b.ownerTick != some tickLo))

/-- The owner's slot obeyed: outputs unless keep, then the release (R233, R253). -/
def Block.obey (b : Block) (tickLo slot : Nat) : Block :=
  let keep := bitOf slot 9
  let b := { b with st := .owned, keep := keep, cmdLost := false, ownerTick := some tickLo,
                    ownerSeen := b.ownerSeen || tickLo == b.tickLo }
  let b := if keep then b else { b.drive 255 slot with safeSeen := false }
  if bitOf slot 10 then { b with st := .holding, owner := 0, keep := false, released := true, relTick := true, missed := 1 }
  else b

/-- The output slot of a good sweep of tick `tickLo` acted on, and whether its claim is accepted. -/
def Block.act (b : Block) (port tickLo slot : Nat) : Block × Bool :=
  let acc := b.owner != port && bitOf slot 8 && b.claimOk tickLo
  let b := if acc then { b with owner := port, released := false, relTick := false, missed := 0, safeDue := false } else b
  (if b.owner = port then b.obey tickLo slot else b, acc)

/-- A sweep passes. -/
structure SweepIn where
  port : Nat
  tickLo : Nat
  slot : Nat
  hdr : Bool             -- its hcrc checks
  good : Bool            -- its crc checks
  free : Bool            -- urgent_pos reads 0xFF
deriving DecidableEq, Repr

/-- What the block then shows in the masks, were the crc good, whether it accepts a claim, the entry it writes into the
urgent field, and the block after (R245). -/
structure SweepOut where
  shows : Block
  acc : Bool
  head : Option EvEntry
  after : Block
deriving DecidableEq, Repr

/-- A sweep at a block with a position on its port (R245). -/
def Block.sweep (b : Block) (w : SweepIn) : SweepOut :=
  let b : Block := { b.alignTo w.port w.tickLo w.hdr with ovf := false }
  let r : Block × Bool := b.act w.port w.tickLo w.slot
  let head : Option EvEntry := match r.1.queue with
    | e :: _ => if r.1.st = .owned ∧ r.1.owner = w.port ∧ w.free ∧ e.pri then some e else none
    | [] => none
  { shows := r.1, acc := r.2, head := head,
    after := if w.good then { r.1 with queue := if head.isSome then r.1.queue.tail else r.1.queue } else b }

/-- The step to SAFE when missed has reached H: no owner port; the safe values follow 30 µs later (R233, R253). DEDUCED: the
state steps at the boundary itself (log entry 47). -/
def Block.testH (b : Block) : Block :=
  if b.holdM1 + 1 ≤ b.missed then { b with st := .safe, owner := 0, keep := false, safeDue := true, safeSeen := true } else b

/-- The local boundary (R253): the tick that ends is closed, held ream writes apply (R256), entries age. -/
def Block.boundary (b : Block) (load : Nat) : Block :=
  if !b.counterOn then b else
  let c := b.ream.foldl (fun (c : Block) (x : Nat × Word) => c.clearDiag load x.2.toNat) b
  let b := { c with counter := 0, tickLo := (b.tickLo + 1) % 65536, ownerSeen := false, ream := [], relTick := false,
                    queue := b.queue.map fun (e : EvEntry) => ({ e with age := e.age + 1 } : EvEntry),
                    ages := b.runs.map fun (x : Nat × Nat) => (x.1, tget 0 b.ages x.1 + 1) }
  match b.st with
  | .unowned | .safe => { b with missed := satInc 255 b.missed }
  | .owned | .holding =>
    if c.relTick then b.testH
    else if c.ownerSeen then { b with missed := 0 }
    else { b with st := .holding, missed := satInc 255 b.missed }.testH

/-! ## Field-side commands -/

/-- BRIDGED_SAMPLE (R218, R220): levels of IN8 to IN15 at this sample, with its stamp; a level not yet accepted counts
its consecutive samples. -/
def execBridgedSample (fb : Fin 16) (levels : Byte) (stamp : BitVec 17) (s : State) : Out :=
  ok (modBlock fb.val (fun b =>
    if !b.powered || !b.islandOk then b else
    (List.range 8).foldl (fun b i =>
      let ch := 8 + i
      let v := bitOf levels.toNat i
      let was := Bool.xor (bitOf b.acc ch) (bitOf (b.inMode ch) 3)
      let run := if v = was then 0 else if bitOf b.raw ch = v then tget 0 b.runs ch + 1 else 1
      { b with raw := if v then setBit b.raw ch else clrBit b.raw ch,
               runs := tset 0 b.runs ch run,
               stamps := if run = 1 then tset 0 b.stamps ch stamp.toNat else b.stamps,
               ages := if run ≤ 1 then tset 0 b.ages ch 0 else b.ages }) b) s)

/-- A direct input's level recorded and, after the filter time, accepted; its entry's age is the number of local boundaries
from the stamp to the present moment. -/
def Block.direct (b : Block) (ch : Nat) (level : Bool) (heldNs stamp : Nat) : Block :=
  let b := { b with raw := if level then setBit b.raw ch else clrBit b.raw ch }
  if b.settingsOk && decide (1000 * b.filter ch ≤ heldNs) then
    b.accept ch level stamp ((10 * stamp + heldNs) / (1000 * tickUs b.tickSel))
  else b

/-- A bridged input's level accepted after its run of samples. -/
def Block.bridged (b : Block) (ch : Nat) (level : Bool) : Block :=
  if b.settingsOk && bitOf b.raw ch == level && decide (max 1 (ceilDiv (b.filter ch) 5) ≤ tget 0 b.runs ch) then
    { b.accept ch level (tget 0 b.stamps ch) (tget 0 b.ages ch) with
      runs := tset 0 b.runs ch 0, ages := tset 0 b.ages ch 0 }
  else b

/-- INPUT_ACCEPTED (R220, R221): a level that has held for the filter time. A direct input comes with how long it has
held, in ns, and the stamp of the change; a pulse below 1 µs may be lost when there is no filter, which the free value
decides. A bridged input is accepted after its run of samples. -/
def execInputAccepted (fb : Fin 16) (ch : Fin 16) (level : Bool) (heldNs : Nat) (stamp : BitVec 17) (s : State) : Out :=
  let b := block fb.val s
  let short := decide (ch.val < 8 ∧ b.filter ch.val = 0 ∧ heldNs < 1000)
  ok (
    if !b.powered then s
    else if 8 ≤ ch.val then setBlock fb.val (b.bridged ch.val level) s
    else if short then
      (let s' := { s with free := s.free + 1 }
       if Config.freeBool s.free then setBlock fb.val (b.direct ch.val level heldNs stamp.toNat) s' else s')
    else setBlock fb.val (b.direct ch.val level heldNs stamp.toNat) s)

/-- DIRECT_SUPPLY_FAIL (R217): the micro-supply of IN0 to IN7 fails, or recovers with the level at its coupler accepted
at once without an entry. -/
def execDirectSupplyFail (fb : Fin 16) (ch : Fin 8) (fails level : Bool) (s : State) : Out :=
  ok (modBlock fb.val (fun b =>
    if fails then { b with dsup := setBit b.dsup ch.val }
    else
      let v := Bool.xor level (bitOf (b.inMode ch.val) 3)
      { b with dsup := clrBit b.dsup ch.val, raw := if level then setBit b.raw ch.val else clrBit b.raw ch.val,
               acc := if v then setBit b.acc ch.val else clrBit b.acc ch.val }) s)

/-- VF_LOW (R232): every output off, vf_ok 0. -/
def execVfLow (fb : Fin 16) (s : State) : Out := ok (modBlock fb.val (fun b => { b with vfOk := false }) s)
/-- VF_GOOD (R232): vf_ok 1, the outputs take their commands. -/
def execVfGood (fb : Fin 16) (s : State) : Out :=
  ok (modBlock fb.val (fun b => { b with vfOk := b.powered && b.islandOk }) s)
/-- COMMAND_TIMEOUT (R231): 50 µs without a command frame from the logic side; every output off until the next. -/
def execCommandTimeout (fb : Fin 16) (s : State) : Out := ok (modBlock fb.val (fun b => { b with cmdLost := true }) s)
/-- VL_FAIL (R231): logic power fails; every output off and the logic side's state is lost. -/
def execVlFail (fb : Fin 16) (s : State) : Out :=
  ok (modBlock fb.val (fun b => { serial := b.serial, part := b.part, stepping := b.stepping, vfOk := false, olOff := b.olOff }) s)
/-- BLOCK_POWER_UP (R233): UNOWNED with outputs off, running on its internal oscillator (R520). -/
def execBlockPowerUp (fb : Fin 16) (serial : BitVec 32) (id : PartId) (vf : Bool) (s : State) : Out :=
  ok (setBlock fb.val { powered := true, vlOk := true, islandOk := true, vfOk := vf, serial := serial.toNat,
                        part := id.part.toNat, stepping := id.stepping.toNat } s)
/-- FIRST_VALID_CODE_GROUP (R520): the block takes its timing from the line. -/
def execFirstValidCodeGroup (fb : Fin 16) (s : State) : Out :=
  ok (modBlock fb.val (fun b => if b.powered then { b with lineTimed := true } else b) s)
/-- THERMAL_SHUTDOWN (R227): the channel switches off and latches. -/
def execThermalShutdown (fb : Fin 16) (j : Fin 8) (s : State) : Out :=
  ok (modBlock fb.val (fun b => { b with hot := setBit b.hot j.val, therm := setBit b.therm j.val }) s)
/-- THERMAL_RECOVERY (R227): cooled by 15 K, the channel follows its command again; the latch stays. -/
def execThermalRecovery (fb : Fin 16) (j : Fin 8) (s : State) : Out :=
  ok (modBlock fb.val (fun b => { b with hot := clrBit b.hot j.val }) s)
/-- OPEN_LOAD_ON (R229): with ol_on = 1 and the output on, the on-state latch sets. -/
def execOpenLoadOn (fb : Fin 16) (j : Fin 8) (s : State) : Out :=
  ok (modBlock fb.val (fun b =>
    if b.olOnApplies j.val then { b with olOn := setBit b.olOn j.val } else b) s)
/-- OPEN_LOAD_OFF (R229): with ol_off = 1, the output off and VF good, the off-state latch sets. -/
def execOpenLoadOff (fb : Fin 16) (j : Fin 8) (s : State) : Out :=
  ok (modBlock fb.val (fun b =>
    if b.olOffApplies j.val then { b with olOff := setBit b.olOff j.val } else b) s)
/-- TURN_ROUND (R241): the away side of a chain has been silent for 10 µs; outbound frames turn round here. -/
def execTurnRound (fb : Fin 16) (port : Fin 2) (s : State) : Out :=
  ok (modBlock fb.val (fun b => if port.val = 0 then { b with turnA := true } else { b with turnB := true }) s)
/-- AWAY_SIDE_CODE_GROUPS (R241): valid code groups again; the block forwards frames to its away side. -/
def execAwaySideCodeGroups (fb : Fin 16) (port : Fin 2) (s : State) : Out :=
  ok (modBlock fb.val (fun b => if port.val = 0 then { b with turnA := false } else { b with turnB := false }) s)
/-- LOCAL_BOUNDARY (R253). -/
def execLocalBoundary (fb : Fin 16) (s : State) : Out :=
  let (load, s) := drawLoads s
  ok (modBlock fb.val (·.boundary load) s)
/-- SAFE_VALUES_APPLIED (R234): 30 µs after missed reached H, when no claim was accepted before. -/
def execSafeValuesApplied (fb : Fin 16) (s : State) : Out :=
  ok (modBlock fb.val (fun b => if b.safeDue then b.applySafe else b) s)

end Sys2Proof.Machine
end

