-- ==== Sys2Proof/Machine/Cycle.lean ====
section
/-! DEFINITION. The cycle of the engine (02, 06, 08): triggers and task dispatch, the sample point, completion, the
sheet that couches, the start of the next cycle, and the trial with its staging, comparison and swap. -/

namespace Sys2Proof.Machine

/-! ## Triggers and dispatch (R122 to R125) -/

/-- A trigger arrives: dropped outside ACTIVE, merged into one already pending (R125). -/
def addTrigger (task : Nat) (a : Word) (l : BitVec 3) (s : State) : State :=
  if s.md.mode ≠ .active then s
  else if s.exe.pend.any fun t => t.task == task then
    raise 0x0601 task
      { s with exe.pend := s.exe.pend.map fun t => if t.task = task then { t with a := a, l := l } else t,
               exe.miss := tset 0 s.exe.miss task (satInc 65535 (tget 0 s.exe.miss task)) }
  else { s with exe.pend := s.exe.pend ++ [{ task := task, a := a, l := l }] }

/-- Priority of a task on pipe 0: the tick task, then urgent event tasks, then event tasks, by prio (Table 6.2). -/
def taskPrio (s : State) (task : Nat) : Nat :=
  if task = 16 then 1000
  else
    let e := nth ({} : TaskEnt) (running s).tasks task
    (if 128 ≤ e.prio then 100 else 0) + e.prio % 16

/-- The pending trigger of highest priority; of equal ones the first triggered. -/
def topTrigger (s : State) : Option Trigger :=
  s.exe.pend.foldl (fun b t =>
    match b with
    | none => some t
    | some u => if taskPrio s u.task < taskPrio s t.task then some t else b) none

/-- The priority of what pipe 0 runs now; strand 0 lies below every task. -/
def pipe0Prio (s : State) : Int :=
  match s.exe.tasks with | t :: _ => taskPrio s t.task | [] => -1

/-- Pipe 0 is inside an interlock block (R131). -/
def pipe0Locked (s : State) : Bool :=
  match s.exe.tasks with
  | t :: _ => t.run.opened && t.run.regs.lock
  | [] => (strand 0 s).run.opened && (strand 0 s).run.regs.lock

/-- One run dispatched with its registers set (R124), placed after the verified networks of strand 0 (R122), and
mirrored in a trial (R177); a trial already past that placement runs its cycle again, with the mirrored run in its place. -/
def startTask (t : Trigger) (s : State) : State :=
  let r := taskRange (running s) t.task
  let s := { s with exe.pend := s.exe.pend.filter fun u => u.task != t.task }
  if r.2 = 0 then s else
  let place := if s.exe.sampled then (strand 0 s).pos else 0
  let place := if place ≤ (strandRange (running s) 0).1 then 0 else place
  let run : TaskRun := { task := t.task, run := { regs := { a := t.a, l := t.l } }, tick := s.clk.tick,
                         pos := r.1, last := r.1 + r.2, place := place, early := !s.exe.sampled }
  let s := { s with exe.tasks := run :: s.exe.tasks }
  if trialLive s then
    let m : Mirror := { task := t.task, a := t.a, l := t.l, place := place, tick := s.clk.tick }
    let s := { s with trial.mirrors := s.trial.mirrors ++ [m] }
    if !s.trial.started then s
    else if trialPast place s then trialSettle 64 (trialRewind s)
    else trialSettle 64 { s with trial.finished := false }
  else s

/-- The pending trigger that may preempt is dispatched: outside an interlock block, of higher priority than what
runs, with pipe 0 not halted (R122, R131, R474). -/
def dispatchTop (s : State) : State :=
  if !engineRuns s || pipe0Locked s || s.exe.dead.contains 0 || (pipeHalted s 0 && !s.dbg.s0Only) then s
  else match topTrigger s with
    | some t => if pipe0Prio s < taskPrio s t.task then startTask t s else s
    | none => s

/-- The event tasks of this kind, with their numbers. -/
def tasksOf (s : State) (kind : Nat) : List (Nat × TaskEnt) :=
  (List.range 16).filterMap fun i =>
    let e := nth ({} : TaskEnt) (running s).tasks i
    if e.kind = kind ∧ e.count ≠ 0 then some (i, e) else none

/-- Timer tasks triggered by the tick that begins (Table 6.5, kind 3). -/
def timerTriggers (s : State) : State :=
  (tasksOf s 3).foldl (fun s ie =>
    if (s.clk.tick + ie.2.period * 2 ^ 48 - ie.2.phase) % max 1 ie.2.period = 0 then
      addTrigger ie.1 (BitVec.ofNat 32 s.clk.tick) 0 s else s) s

/-- Lane-event tasks at a couch, in task index order: `rises` says which bit of a lane rises there (Table 6.5, kind 2). -/
def laneTriggers (rises : Nat → Nat → Bool) (s : State) : State :=
  (tasksOf s 2).foldl (fun s ie =>
    let lane := ie.2.trigA
    if rises lane ie.2.trigB then addTrigger ie.1 (BitVec.ofNat 32 lane) (BitVec.ofNat 3 lane) s else s) s

/-- Triggers that complete in one E-clock stand in task index order behind those that were pending before (R122). -/
def together (f : State → State) (s : State) : State :=
  let t := f s
  let was := if t.exe.runSlot = s.exe.runSlot then s.exe.pend.map Trigger.task else []
  let old (u : Trigger) : Bool := was.contains u.task
  { t with exe.pend := t.exe.pend.filter old
             ++ (t.exe.pend.filter fun u => !old u).mergeSort fun a b => decide (a.task ≤ b.task) }

/-- Field-edge tasks of an input's edge, with the entry that carried it in A (R124, kind 1). -/
def edgeTriggers (block input : Nat) (rising : Bool) (entry : Word) (s : State) : State :=
  (tasksOf s 1).foldl (fun s ie =>
    let e := ie.2
    if e.trigA = block * 16 + input ∧ (if rising then e.trigB % 2 = 1 else 2 ≤ e.trigB) then
      addTrigger ie.1 entry 0 s else s) s

/-! ## The sample point (R165) -/

/-- Blocks of I and of the lane-event words in which two latched images differ. -/
def changedBlocks (old new : Memory) : List Nat :=
  (((old.map Prod.fst) ++ (new.map Prod.fst)).filter fun a => tget 0 old a != tget 0 new a).map blockOfAddr |>.eraseDups

/-- Strand `k` at the sample point: its speculation ends, the network in progress is abandoned and counts as broke,
and it stands before its first network with L = 0 (R115, R165). -/
def sampleStrand (s : State) (k : Nat) : State :=
  let x := strand k s
  match x.phase with
  | .spec =>
    let s := if x.run.opened then countBroke s else s
    setStrand k { x with phase := .verify, run := {}, pos := (strandRange (running s) k).1 } s
  | .wait => setStrand k { x with phase := .verify, run := {}, pos := (strandRange (running s) k).1 } s
  | _ => s

/-- Halts requested before the sample point take effect there, and steps that ran to the strand's end; the cycle
proceeds as full (R473, R478). -/
def sampleHalts (s : State) : State :=
  let m := (List.range 4).filter fun k => bitOf s.dbg.pending k || bitOf s.dbg.stepWait k
  if m.isEmpty then s else
  let s := (List.range 4).foldl (fun s k => setStrand k { strand k s with recs := [] } s) s
  let s := { s with exe.fullRow := if s.exe.fullRow = 0 then 3 else s.exe.fullRow }
  let s := m.foldl (fun s k =>
    if k = 0 ∧ pipe0Locked s ∧ s.exe.tasks ≠ [] then s
    else haltPipe k (if bitOf s.dbg.pending k then 0 else 3) 0 s) s
  { s with dbg.stepWait := 0 }

/-- The sample point with the newly latched image. -/
def sampleCore (img : Memory) (s : State) : State :=
  if !engineRuns s || s.exe.sampled then s else
  let s := { s with exe.changed := changedBlocks s.exe.latched img, exe.latched := img, exe.sampled := true }
  let s := sampleHalts ((List.range 4).foldl sampleStrand s)
  let s := (List.range 4).foldl (fun s k =>
    if (strand k s).phase != .verify then s
    else if k = 0 ∧ s.exe.tasks ≠ [] then { s with exe.held0 := true } else verify k s) s
  if trialLive s then
    trialSettle 64 (trialRewind { s with trial.started := true })
  else s

/-! ## Completion and the couching sheet (R44, R169) -/

/-- The cycle is complete: every strand has verified its last network, no run is pending or in progress. -/
def cycleComplete (s : State) : Bool :=
  s.exe.inCycle && s.exe.sampled && !s.exe.spoiled && s.exe.tasks.isEmpty && s.exe.pend.isEmpty
    && (List.range 4).all fun k => (strand k s).phase == .done || (strand k s).phase == .idle

/-- A sheet with its I image and lane-event words replaced by the latched ones. -/
def withLatched (m latched : Memory) : Memory :=
  tmerge 0 (tclear (0x11010000 + 4 * 15360) 512 (tclear 0x11000000 0x400 m)) latched

/-- The wet sheet as it couches. -/
def wetSheet (s : State) : Memory :=
  withLatched ((List.range 4).foldl (fun m k => (strand k s).com.apply m) s.exe.couched) s.exe.latched

/-- Strand `k` cannot speculate: a breakpoint or watchpoint is armed on an address that it reaches (R481). -/
def strandWatched (s : State) (k : Nat) : Bool :=
  let p := running s
  let r := strandRange p k
  let hit (lo hi : Nat) : Bool := s.dbg.bps.any fun e => e.2.en && decide (lo ≤ e.2.word ∧ e.2.word < hi)
  r.2 != 0 && (hit (netStart p r.1) (netStart p (r.1 + r.2)) ||
    (s.dbg.wps.any fun e => e.2.en && (List.range r.2).any fun i =>
      spansMeet [{ kind := e.2.region, lo := e.2.index, n := 1 }]
        (netReads p (r.1 + i) ++ netWrites (checkCtx s) p (r.1 + i))))

/-- The next cycle begins: first tick, due boundary, filters cleared, each strand speculating or, in a full cycle,
waiting for the sample point (R115, R161, R162, R172). -/
def beginCycle (firstTick : Nat) (s : State) : State :=
  let row := s.exe.nextFull
  let p := running s
  let strands := (List.range 4).foldl (fun m k =>
    if k < p.strands then
      tset {} m k { phase := if row ≠ 0 ∨ strandWatched s k then .wait else .spec, pos := (strandRange p k).1 }
    else m) []
  let row := if row = 0 ∧ (List.range p.strands).any (fun k => strandWatched s k) then 3 else row
  { s with exe.strands := strands, exe.inCycle := true, exe.sampled := false, exe.first := firstTick,
           exe.due := firstTick + cycleTicks s, exe.fullRow := row, exe.nextFull := 0, exe.changed := [],
           exe.broke := 0, exe.ovf := 0, exe.divPipes := [], exe.spoiled := false, exe.dead := [], exe.held0 := false }

/-- The cycle that couches reported in SPEC_STAT (Table 8.3). -/
def reportCycle (s : State) : State :=
  { s with exe.brokeLast := s.exe.broke, exe.ovfLast := s.exe.ovf, exe.fullLast := s.exe.fullRow, exe.noEdge := false }

/-! ## The trial (R173 to R187) -/

/-- Byte `o` of a slot. -/
def slotByte (p : Prog) (o : Nat) : Byte := BitVec.ofNat 8 ((pw p (o / 4)).toNat / 256 ^ (o % 4))
/-- `n` bytes of a slot from offset `o`. -/
def slotBytes (p : Prog) (o n : Nat) : List Byte := (List.range n).map fun i => slotByte p (o + i)
/-- Bytes of the first `n` code words of a slot. -/
def codeBytes (p : Prog) (n : Nat) : List Byte := slotBytes p 0 (4 * n)

/-- One shadow-slot word written (R173): ignored and noted while the trial state is not idle. -/
def shadowWrite (i : Nat) (v mask : Word) (s : State) : State :=
  if s.trial.st ≠ .idle then { s with trial.writeIgn := true }
  else
    let p := shadow s
    setShadow { p with words := tset 0 p.words i ((pw p i &&& ~~~mask) ||| (v &&& mask)), valid := false,
                       bad := p.bad.filter fun b => b != i } s

/-- Parts of a staged edit: the code, the descriptor with its declared changes, the three payloads (R173). -/
def editParts (p : Prog) (off : Nat) : List (Nat × Nat) :=
  let d := slotBytes p off 32
  let sh := fld d 20 4
  [(0, 4 * fld d 4 4), (off, 32 + 8 * fld d 10 2), (fld d 12 4, 200), (fld d 16 4, 20),
   (sh, 4 + 4 * fld (slotBytes p sh 4) 0 2)]

/-- The descriptor's fields and the layout meet Tables 8.5 and 8.6 and R173. -/
def editLayoutOk (p : Prog) (id off : Nat) : Bool :=
  let d := slotBytes p off 32
  let n := fld d 4 4
  let dc := fld d 10 2
  let parts := editParts p off
  off % 4 == 0 && fld d 0 4 == id && id != 0 && decide (1 ≤ n ∧ n ≤ 262144) && decide (4 * n ≤ off)
    && decide (dc ≤ 256) && fld d 24 8 == 0
    && parts.all (fun r => decide (r.1 + r.2 ≤ 1048576))
    && !rangesClash (parts.map fun r => (r.1, r.2))
    && (List.range dc).all fun i =>
        let e := slotBytes p (off + 32 + 8 * i) 8
        let f := fld e 0 4
        let reg := f / 2 ^ 28
        let size := if reg = 1 then 8192 else 16384
        (reg == 1 || reg == 3) && f / 2 ^ 14 % 2 ^ 14 == 0
          && decide (1 ≤ fld e 4 4 ∧ fld e 4 4 ≤ 8192) && decide (f % 2 ^ 14 + fld e 4 4 ≤ size)

/-- The staged program that a descriptor describes. -/
def stagedProg (p : Prog) (off : Nat) : Prog × RecFaults :=
  let d := slotBytes p off 32
  let sh := fld d 20 4
  let (q, badSh) := mkProg p.words (fld d 4 4) (slotBytes p (fld d 12 4) 200) (slotBytes p (fld d 16 4) 20)
    (slotBytes p sh (4 + 4 * fld (slotBytes p sh 4) 0 2))
  ({ q with bad := p.bad }, badSh)

/-- The online limits (R174). -/
def onlineOk (s : State) (q : Prog) : Bool :=
  let a := netTotal q
  let b := netTotal (running s)
  decide (a ≤ b + 4096 ∧ b ≤ a + 4096) && q.strands == (running s).strands

/-- EVT-0804 with its cause, and status 2. -/
def refuseEdit (cause : Nat) (s : State) : Nat × State := (2, raise 0x0804 cause s)

/-- Kind 0x02: the staged edit is checked (R174). -/
def editStaged (id off : Nat) (s : State) : Nat × State :=
  if s.trial.st ≠ .idle then (2, s)
  else if !editLayoutOk (shadow s) id off then refuseEdit 1 s
  else
    let (q, badSh) := stagedProg (shadow s) off
    let fails := failedChecks (checkCtx s) q badSh
    if fails ≠ [] then
      refuseEdit 2 (fails.foldl (fun s f => raise 0x0602 (f.2 * 65536 + f.1) s) s)
    else if (s.md.mode == .active || s.md.mode == .standby) && !onlineOk s q then refuseEdit 3 s
    else
      let d := slotBytes (shadow s) off 32
      let decl := (List.range (fld d 10 2)).map fun i =>
        let e := slotBytes (shadow s) (off + 32 + 8 * i) 8
        (fld e 0 4 / 2 ^ 28, fld e 0 4 % 2 ^ 14, fld e 4 4)
      (1, setShadow q { s with trial.st := .staged, trial.armed := false, trial.cycles := 0, trial.cycNo := 0,
                               trial.skipRun := 0, trial.writeIgn := false, trial.diffs := [],
                               trial.editId := id, trial.k := if fld d 8 2 = 0 then 256 else fld d 8 2,
                               trial.decl := decl,
                               trial.digest := sha256 (codeBytes q q.n) })

/-- The trial state goes back to staged (Table 8.7). -/
def trialToStaged (s : State) : State :=
  if trialLive s then
    { s with trial.st := .staged, trial.armed := false, trial.started := false, trial.finished := false,
             trial.run := {}, trial.coms := [], trial.mirrors := [], trial.ran := 0, trial.tasks := [] }
  else s

/-- Kind 0x03: the trial starts from a copy of the couched sheet (R175); the K comparisons of Table 8.7 count from here. -/
def trialStart (id : Nat) (s : State) : Nat × State :=
  if s.trial.st = .staged ∧ id = s.trial.editId ∧ s.md.mode = .active then
    (if !onlineOk s (shadow s) then refuseEdit 3 s
     else (1, { s with trial.st := .running, trial.sheet := s.exe.couched, trial.compared := 0, trial.cycNo := 1,
                       trial.skipRun := 0, trial.started := false, trial.finished := false, trial.run := {},
                       trial.coms := [], trial.mirrors := [], trial.ran := 0, trial.tasks := [] }))
  else (2, s)

/-- T or C instances that a program's timer or counter instructions name, with the opcode's type; counters 0. -/
def namedInst (p : Prog) (kind i : Nat) : List Nat :=
  ((List.range p.n).filterMap fun k =>
    let w := pw p k
    let f := opForm (wOp w)
    let hit := (reachMem (wX w) 1).any fun sp => sp.kind == kind && sp.lo == i
    if kind = 4 ∧ f = .timer ∧ hit then some (wOp w - 0x0F)
    else if kind = 5 ∧ (f = .counter ∨ f = .crst) ∧ hit then some 0 else none).eraseDups

/-- Timer and counter instances across a swap: kept when both programs name them with one type, else zero when
either names them (R182). -/
def carryInst (old new : Prog) (m : Memory) : Memory :=
  let addrs := (m.map Prod.fst).filter fun a => decide (0x11020000 ≤ a)
  let insts := (addrs.map fun a => if a < 0x11024000 then (4, (a - 0x11020000) / 16) else (5, (a - 0x11024000) / 16)).eraseDups
  insts.foldl (fun m ki =>
    let o := namedInst old ki.1 ki.2
    let n := namedInst new ki.1 ki.2
    if (o.isEmpty && n.isEmpty) || o == n then m else tclear (byteAddr ki.1 ki.2) 16 m) m

/-- The trial in state idle: what TRIAL_STAT, TRIAL_COUNT and TRIAL_DIFF show stands until the state leaves idle (R187); no
edit is staged and no commit waits. -/
def trialIdle (t : Trial) : Trial :=
  { cycles := t.cycles, skipRun := t.skipRun, writeIgn := t.writeIgn, diffs := t.diffs, lastEdit := t.lastEdit,
    persist := t.persist }

/-- The swap: the shadow slot becomes the running slot, the sheet carries over, the ledger is cleared, the trial is
idle, EVT-0803, and the edit waits to be persisted (R182, R113). -/
def swapSlots (s : State) : State :=
  let id := s.trial.editId
  let m := carryInst (running s) (shadow s) s.exe.couched
  raise 0x0803 id
    { s with exe.runSlot := 1 - s.exe.runSlot, exe.couched := m, exe.ledger := [], exe.nextFull := 2,
             trial := { trialIdle s.trial with lastEdit := id, persist := some id } }

/-- Kinds 0x04 and 0x06 on the trial state; `guard` is the pair guard (R185, Table 8.7). The answer says whether the
swap takes place now. -/
def trialCommit (id : Nat) (auth guard : Bool) (s : State) : Nat × Bool × State :=
  if !auth || id ≠ s.trial.editId then (2, false, s)
  else match s.trial.st with
    | .staged => if s.md.mode = .hold then (1, true, s) else (2, false, s)
    | .running => (1, false, { s with trial.armed := true })
    | .passed => if guard then (1, true, s) else (2, false, raise 0x0804 4 s)
    | _ => (2, false, s)

/-- Kind 0x06: a failed trial accepted after K comparisons (Table 8.7). -/
def acceptAnyway (id : Nat) (auth guard : Bool) (s : State) : Nat × Bool × State :=
  if !auth || id ≠ s.trial.editId then (2, false, s)
  else if s.trial.st = .failed ∧ s.trial.k ≤ s.trial.compared then
    (if guard then (1, true, s) else (2, false, raise 0x0804 4 s))
  else (2, false, s)

/-- Kind 0x05: the edit is discarded, EVT-0806 (Table 8.7). -/
def trialDiscard (id : Nat) (s : State) : Nat × State :=
  if s.trial.st = .idle ∨ id ≠ s.trial.editId then (2, s)
  else (1, raise 0x0806 id { s with trial := trialIdle s.trial })

/-- The trial sheet at the end of its cycle. -/
def trialSheet (s : State) : Memory :=
  withLatched ((List.range 4).foldl (fun m k => (tget ({} : Overlay) s.trial.coms k).apply m) s.trial.sheet) s.exe.latched

/-- Q bits and D words in which two sheets differ, Q first, rising; the lane-event words stand aside (R180). -/
def sheetDiffs (a b : Memory) : List (Nat × Nat) :=
  let addrs := ((a.map Prod.fst) ++ (b.map Prod.fst)).filter fun x => tget 0 a x != tget 0 b x
  let q := (addrs.filter fun x => decide (0x11000400 ≤ x ∧ x < 0x11000800)).mergeSort.eraseDups
  let d := ((addrs.filter fun x => decide (0x11010000 ≤ x ∧ x < 0x11020000)).map fun x => (x - 0x11010000) / 4).mergeSort.eraseDups
  (q.flatMap fun x => ((List.range 8).filter fun j => bitOf (tget 0 a x).toNat j != bitOf (tget 0 b x).toNat j).map
      fun j => (1, 8 * (x - 0x11000400) + j))
    ++ ((d.filter fun i => decide (i < 15360 ∨ 15487 < i)).map fun i => (3, i))

/-- A declared-change entry covers an address (R180). -/
def isDeclared (t : Trial) (r i : Nat) : Bool := t.decl.any fun e => e.1 == r && decide (e.2.1 ≤ i ∧ i < e.2.1 + e.2.2)

/-- One differing address recorded (R187). -/
def recordDiff (t : Trial) (ri : Nat × Nat) : Trial :=
  if t.diffs.any fun d => d.region == ri.1 && d.index == ri.2 then
    { t with diffs := t.diffs.map fun d =>
        if d.region == ri.1 && d.index == ri.2 then { d with cycles := satInc 65535 d.cycles } else d }
  else { t with diffs := t.diffs ++ [{ region := ri.1, index := ri.2, declared := isDeclared t ri.1 ri.2,
                                       cycles := 1, first := min 65535 t.cycNo }] }

/-- Word 0 of a TRIAL_DIFF entry (R187). -/
def diffWord0 (d : TrialDiff) : Nat := d.region * 2 ^ 28 + b2n d.declared * 2 ^ 27 + d.index

/-- The end of a trial cycle at a live couch, before ring entries (R179 to R181): comparison or skip; only a running trial goes
back to staged at the sixteenth skip (Table 8.7). `live` is the
couching sheet; the answer says whether an armed commit swaps now. -/
def trialAtCouch (live : Memory) (guard : Bool) (s : State) : Bool × State :=
  if !trialLive s then (false, s)
  else if !s.trial.finished then
    let s := { s with trial.skipRun := satInc 16 s.trial.skipRun, trial.sheet := live, trial.cycNo := s.trial.cycNo + 1,
                      trial.started := false, trial.run := {}, trial.coms := [], trial.mirrors := [], trial.ran := 0,
                      trial.tasks := [] }
    (false, if s.trial.skipRun = 16 ∧ s.trial.st = .running then raise 0x0805 0 (trialToStaged s) else s)
  else
    let ds := sheetDiffs (trialSheet s) live
    let t := ds.foldl recordDiff { s.trial with
      skipRun := 0, cycles := satInc 65535 s.trial.cycles, compared := satInc 65535 s.trial.compared }
    let bad := ds.filter fun d => !isDeclared t d.1 d.2
    let s := { s with trial := { t with sheet := trialSheet s, cycNo := t.cycNo + 1, started := false,
                                        finished := false, run := {}, coms := [], mirrors := [], ran := 0, tasks := [] } }
    match bad with
    | (r, i) :: _ =>
      if s.trial.st = .failed then (false, s)
      else
        (false, raise 0x0801 (diffWord0 { region := r, index := i, declared := false, cycles := 0, first := 0 })
          { s with trial.st := .failed, trial.armed := false })
    | [] =>
      if s.trial.st = .running ∧ s.trial.k ≤ s.trial.compared ∧ s.trial.diffs.all TrialDiff.declared then
        let s := raise 0x0802 s.trial.editId { s with trial.st := .passed }
        if s.trial.armed then
          (if guard then (true, s) else (false, raise 0x0804 4 { s with trial.armed := false }))
        else (false, s)
      else (false, s)

/-- TRIAL_COUNT (R187): distinct undeclared and declared addresses, saturating. -/
def trialCount (t : Trial) : Nat :=
  min 65535 (t.diffs.filter fun d => !d.declared).length * 65536 + min 65535 (t.diffs.filter fun d => d.declared).length

end Sys2Proof.Machine
end

