-- ==== Sys2Proof/Machine/Link.lean ====
section
/-! DEFINITION. The field link (11_the_field_link): the frames at a block and at the controller, what a returned
sweep gives, carriers and urgent frames, management frames, ownership as the controller sees it, link errors. -/

namespace Sys2Proof.Machine

/-! ## Frames at a block -/

/-! ## When frames leave (R251) -/

/-- Event carriers of a tick (Table 2.1). -/
def carrierCount (sel : Nat) : Nat := nth 38 [3, 8, 18, 38] sel

/-- Fixed departures of a tick on the outbound pair: start and end, in E-clocks from the boundary (Table 2.3, R242). -/
def departures (s : State) : List (Nat × Nat) :=
  (0, 64 * (26 + 6 * s.fl.n)) :: (List.range (carrierCount s.clk.tickSel)).map fun k =>
    (16000 + 10000 * k, 16000 + 10000 * k + 64 * (5 + 4 * s.fl.n))

/-- A frame of `len` E-clocks may start at `e`: nothing is leaving, and it ends before the next departure. -/
def mayStart (s : State) (e len : Nat) : Bool :=
  (departures s).all (fun d => decide (e < d.1 ∨ d.2 ≤ e) && decide (d.1 ≤ e ∨ e + len ≤ d.1)) &&
    decide (s.fl.busyTill ≤ e ∧ e + len ≤ s.clk.tickLen)

/-- A management frame of `len` E-clocks may start at `e`: no urgent frame is pending, and it ends 0.96 µs before the next
departure. -/
def mgmtStart (s : State) (e len : Nat) : Bool :=
  ticking s && s.fl.urg.isEmpty && s.exe.qimm.isEmpty && mayStart s e (len + 384)

/-- Enumeration, probes and setup go out in step 9 and before the first sweep (R252). -/
def setupTime (s : State) : Bool := s.md.mode == .thread && s.md.thStat == 9 && s.md.swept == 0

/-! ## Check values (R243, R244, R248, R250) -/

/-- A frame with its CRC-16. -/
def withCrc16 (bs : List Byte) : List Byte := bs ++ leBytes 2 (crc16 bs)

/-- The sweep that leaves, from FT on (Table 11.3). -/
def sweepFrame (tick n : Nat) (out : Tbl Nat) : List Byte :=
  withCrc16 (withCrc16 ([0x10, 0] ++ leBytes 2 tick ++ [BitVec.ofNat 8 n, 0])
    ++ (List.range n).flatMap (fun p => leBytes 2 (tget 0 out p) ++ [0, 0, 0, 0]) ++ [0xFF] ++ List.replicate 13 0)

/-- A carrier as it leaves, every place zero (R248). -/
def carrierFrame (k n : Nat) : List Byte := withCrc16 (BitVec.ofNat 8 (0xC0 + k) :: List.replicate (4 * n) 0)

/-- An urgent frame as it leaves (R250). -/
def urgentFrame (p mask val : Nat) : List Byte :=
  let bs := [BitVec.ofNat 8 (0x40 + p), BitVec.ofNat 8 mask, BitVec.ofNat 8 val]
  bs ++ [BitVec.ofNat 8 (crc8 bs)]

/-- A type of Table 11.2. -/
def knownFt (ft : Nat) : Bool :=
  ft == 0x10 || ft / 16 == 4 || ft / 16 == 6 || decide (0x80 ≤ ft ∧ ft ≤ 0x85) || decide (0xC0 ≤ ft ∧ ft ≤ 0xE5)

/-- A returned frame of a type that Table 11.2 does not list is counted; what was sent has not returned with it. -/
def countFt (s : State) : State := { s with fl.unknownFt := satInc 15 s.fl.unknownFt }

/-! ## Frames at a block -/

/-- What a sweep's pass of the block at position `p` leaves in the frame: the slot latched at arrival, the masks as if the crc
checks, the urgent entry of a priority head; a frame found bad stays bad (R243, R245). -/
def Sweep.pass (w : Sweep) (port fb p slot : Nat) (good : Bool) (r : SweepOut) : Sweep :=
  let w := { w with ins := tset 0 w.ins p slot,
                    own := setIf (r.shows.owner == port) w.own p,
                    foreign := setIf (r.shows.owner != 0 && r.shows.owner != port) w.foreign p,
                    absent := setIf (r.shows.st != .owned) w.absent p,
                    accept := setIf r.acc w.accept p,
                    reached := setBit w.reached fb, bad := !good }
  match r.head with | some e => { w with urgentPos := p, urgentEntry := e.word } | none => w

/-- SWEEP_AT_BLOCK (R245, R247, R253, R254, R257). A block without a position on the port only flags the sweep. -/
def execSweepAtBlock (fb : Fin 16) (src : SweepSrc) (s : State) : Out :=
  let s := feelLimit fb.val s
  let b := block fb.val s
  ok (match src with
    | .own hdr good =>
      let port := myPort s
      (match s.fl.sweep with
       | some w =>
         if !b.powered || !reached port fb.val s || bitOf w.reached fb.val then s else
         (match b.pos port with
          | some p =>
            let good := hdr && good && !w.bad
            let r := b.sweep { port := port, tickLo := w.tick % 65536, slot := tget 0 w.out p, hdr := hdr, good := good,
                               free := w.urgentPos == 255 }
            setBlock fb.val r.after { s with fl.sweep := some (w.pass port fb.val p b.slot good r) }
          | none => { s with fl.sweep := some { w with stranger := true } })
       | none => s)
    | .other hdr good free tickLo slot =>
      let port := 3 - myPort s
      if !b.powered || !reached port fb.val s || (b.pos port).isNone then s
      else setBlock fb.val (b.sweep { port := port, tickLo := tickLo.toNat, slot := slot.toNat, hdr := hdr,
                                      good := hdr && good, free := free }).after s)

/-- CARRIER_AT_BLOCK (R248, R222): an OWNED block writes its queue head into its own place of a carrier that arrives
from its owner port; the entry leaves the queue when the crc checks. -/
def execCarrierAtBlock (fb : Fin 16) (own good : Bool) (s : State) : Out :=
  let b := block fb.val s
  let port := if own then myPort s else 3 - myPort s
  ok (match b.pos port with
    | none => s
    | some p =>
      if !b.powered || !reached port fb.val s then s
      else
        let head := if b.st = .owned ∧ b.owner = port then b.queue.head? else none
        let taken (s : State) : State := if head.isSome then setBlock fb.val { b with queue := b.queue.tail } s else s
        if !own then (if good then taken s else s)
        else match s.fl.carrier with
        | none => s
        | some c =>
          if bitOf c.passed fb.val then s
          else
            let good := good && !c.bad
            let s := { s with fl.carrier := some { c with
              places := (match head with | some e => tset 0 c.places p e.word | none => c.places),
              passed := setBit c.passed fb.val, bad := !good } }
            if good then taken s else s)

/-- URGENT_FRAME_AT_BLOCK (R250, R233): the target applies the masked bits of its owner port's frame, even while keep
is 1, and marks the frame applied. A frame received bad goes on bad. -/
def execUrgentFrameAtBlock (fb : Fin 16) (src : UrgentSrc) (s : State) : Out :=
  let b := block fb.val s
  let at' (port : Nat) : Bool := b.powered && reached port fb.val s && (b.pos port).isSome
  let apply (mask val : Nat) (s : State) : State := setBlock fb.val { b.drive mask val with cmdLost := false } s
  ok (match src with
    | .own good =>
      (match s.fl.fly with
       | u :: us =>
         if !at' (myPort s) then s
         else if !good || u.bad then { s with fl.fly := { u with bad := true } :: us }
         else if u.fb = fb.val ∧ b.owner = myPort s ∧ !u.applied then
           apply u.mask u.val { s with fl.fly := { u with applied := true } :: us }
         else s
       | [] => s)
    | .other good mask val =>
      if at' (3 - myPort s) ∧ good ∧ b.owner = 3 - myPort s then apply mask.toNat val.toNat s else s)

/-! ## Management frames at a block (R252, R230, R236, R256) -/

/-- The reply that a management frame brings back to this unit's controller. -/
def reply (own : Bool) (r : List Nat) (s : State) : State := if own then { s with fl.reply := r } else s

/-- A management frame of `port` meets block `fb`: the block acts, or the frame brings back the reply `silent` of a target
that it does not reach, or nothing that the controller can use when it is received bad (R243, R252). -/
def meets (fb port : Nat) (good : Bool) (silent : List Nat) (act : Block → State → State) (s : State) : State :=
  let b := block fb s
  let own := port == myPort s
  if !b.powered || !reached port fb s then reply own silent s
  else if !good then reply own [] s
  else act b s

/-- The same for a frame that a block without a position on the port passes on. -/
def meetsTarget (fb port : Nat) (good : Bool) (silent : List Nat) (act : Block → State → State) (s : State) : State :=
  if ((block fb s).pos port).isNone then reply (port == myPort s) silent s else meets fb port good silent act s

/-- A block's position on a port stored, with ev_lost set to 0. -/
def Block.enumerated (b : Block) (port hop : Nat) : Block :=
  if port = 1 then { b with posA := some hop, evLost := 0 } else { b with posB := some hop, evLost := 0 }

/-- ENUMERATION_FRAME: the block writes its reply and stores the hop count as its position on the arrival port; ev_lost
is set to 0; at hop 16 it sets overflow and writes nothing. The reply begins with the hop byte as it goes on. -/
def execEnumerationFrame (fb : Fin 16) (port : Fin 2) (hop : Nat) (good : Bool) (s : State) : Out :=
  let pt := port.val + 1
  ok (if pt = myPort s ∧ !setupTime s then s
    else meets fb.val pt good [hop] (fun b s =>
      if 16 ≤ hop then reply (pt == myPort s) [16 + 128] s
      else setBlock fb.val (b.enumerated pt hop) (reply (pt == myPort s) [hop + 1, b.part, b.stepping, b.owner, b.serial] s)) s)

/-- align_ns of position `p` from a probe's time from J to J, ns: Table 11.1 with the blocks up to the target and the target
itself, which turns the probe round (R242, R247). -/
def alignOf (p round : Nat) : Nat := 200 + 320 * p + (round - (500 + 400 * (p + 1))) / 2

/-- PROBE_FRAME: the target turns the probe round; this unit's controller derives align_ns from the time from J to
J (Table 11.1). -/
def execProbeFrame (fb : Fin 16) (port : Fin 2) (good : Bool) (roundNs : Nat) (s : State) : Out :=
  let pt := port.val + 1
  ok (if pt ≠ myPort s ∨ !setupTime s then s
    else meetsTarget fb.val pt good [] (fun b s =>
      { s with fl.align := tset 0 s.fl.align fb.val (alignOf ((b.pos pt).getD 0) roundNs) }) s)

/-- A register frame of this unit's port leaves at `e`, where R251 lets it; another unit's arrives as it comes. -/
def regFrame (port e len : Nat) (f : State → State) (s : State) : State :=
  if port ≠ myPort s then f s
  else if mgmtStart s e len then f { s with fl.busyTill := e + len } else s

/-- REGISTER_READ_FRAME: the target answers with the register named by the offset; status 3 for a bad offset. -/
def execRegisterReadFrame (fb : Fin 16) (port : Fin 2) (off : Byte) (f : MgmtFrame) (s : State) : Out :=
  let pt := port.val + 1
  ok (regFrame pt f.e 768 (fun s => meetsTarget fb.val pt f.good [0, 0] (fun b s =>
    reply (pt == myPort s) (match b.reg off.toNat with | some v => [v, 1] | none => [0, 3]) s) (feelLimit fb.val s)) s)

/-- The status of a register write at a block: OUT_DIAG only, from the owner port only. -/
def regWriteStatus (b : Block) (port off : Nat) : Nat :=
  if (b.reg off).isNone then 3 else if off = 0x10 ∧ b.owner = port then 1 else 2

/-- A register write at its block: ones clear OUT_DIAG latches when it comes from the owner port (R230). -/
def regWrite (fb port off : Nat) (v : Word) (b : Block) (s : State) : State :=
  let (load, s) := drawLoads s
  if regWriteStatus b port off = 1 then setBlock fb (b.clearDiag load v.toNat) s else s

/-- REGISTER_WRITE_FRAME (R230). -/
def execRegisterWriteFrame (fb : Fin 16) (port : Fin 2) (off : Byte) (data : Word) (f : MgmtFrame) (s : State) : Out :=
  let pt := port.val + 1
  ok (regFrame pt f.e 768 (meetsTarget fb.val pt f.good [data.toNat, 0] fun b s =>
    reply (pt == myPort s) [data.toNat, regWriteStatus b pt off.toNat] (regWrite fb.val pt off.toNat data b s)) s)

/-- The settings taken: every input's level is accepted at once, without an entry (R220). -/
def Block.takeSettings (b : Block) (sel hold : Nat) (set : List Byte) : Block :=
  let b := { b with tickSel := sel, holdM1 := hold, settings := set, counterOn := true }
  { b with acc := maskOf 16 fun k => Bool.xor (bitOf b.raw k) (bitOf b.inv k), runs := [], stamps := [], ages := [] }

/-- SETUP_FRAME: align_ns of the arrival port; the rest unless another port owns the block or a value is out of
range. -/
def setupBlock (b : Block) (port align sel hold : Nat) (set : List Byte) : Block × Nat :=
  let b := if port = 1 then { b with alignA := align } else { b with alignB := align }
  if (b.owner ≠ 0 ∧ b.owner ≠ port) ∨ 3 < sel ∨ 63 < hold ∨ !settingsValid set then (b, 2)
  else (b.takeSettings sel hold set, 1)

/-- SETUP_FRAME (R252, R236). -/
def execSetupFrame (fb : Fin 16) (port : Fin 2) (align : BitVec 16) (sel hold : Byte) (set : List Byte) (good : Bool)
    (s : State) : Out :=
  let pt := port.val + 1
  ok (if pt = myPort s ∧ !setupTime s then s
    else meetsTarget fb.val pt good [0] (fun b s =>
      let (b', st) := setupBlock b pt align.toNat sel.toNat hold.toNat set
      setBlock fb.val b' (reply (pt == myPort s) [st] s)) s)

/-- A member owned through the arrival port holds a ream write for its next local boundary (R256). -/
def Block.hold (b : Block) (port p mask off : Nat) (data : Word) : Option Block :=
  if bitOf mask p && b.owner == port && off == 0x10 then some { b with ream := b.ream ++ [(off, data)] } else none

/-- The data of a ream write's frame. -/
def ReamOut.data (x : ReamOut) : Word := x.write.mask &&& x.write.val

/-- This unit's own ream frame, of which `x` is the write: it leaves at `e` where R251 lets it, and goes by every block. -/
def reamFrame (fb port e : Nat) (good : Bool) (x : ReamOut) (s : State) : State :=
  let started := x.start == some e
  if !started && (x.start.isSome || !mgmtStart s e 896) then s
  else
    let put (x : ReamOut) (s : State) : State :=
      { s with fl.reams := s.fl.reams.map fun y => if y.write = x.write then x else y, fl.busyTill := max s.fl.busyTill (e + 896) }
    let x := { x with start := some e }
    let b := block fb s
    match b.pos port with
    | none => put x s
    | some p =>
      if !b.powered || !reached port fb s then put x s
      else if !good || x.bad then put { x with bad := true } s
      else match b.hold port p x.mask 0x10 x.data with
        | some b => setBlock fb b (put { x with done := setBit x.done p } s)
        | none => put x s

/-- REAM_WRITE_FRAME (R256): a member owned through the arrival port holds the write for its next local boundary and
sets its done bit. A frame of this unit's port is one of the ream writes that landed at the tick's boundary. -/
def execReamWriteFrame (fb : Fin 16) (port : Fin 2) (mask : BitVec 16) (off : Byte) (data : Word) (f : MgmtFrame) (s : State) : Out :=
  let pt := port.val + 1
  ok (if pt = myPort s then
      match s.fl.reams.find? fun x => x.mask == mask.toNat && off == 0x10 && x.data == data with
      | some x => reamFrame fb.val pt f.e f.good x s
      | none => s
    else meetsTarget fb.val pt f.good [] (fun b s =>
      match b.hold pt ((b.pos pt).getD 0) mask.toNat off.toNat data with
      | some b => setBlock fb.val b s
      | none => s) s)

/-! ## The controller -/

/-- The value of Q bit `q` in the current sheet. -/
def qBit (s : State) (q : Nat) : Bool := bitOf (tget 0 s.exe.couched (bitAddr 1 q)).toNat (q % 8)
/-- The hold value of Q bit `q` (R57). -/
def holdBit (s : State) (q : Nat) : Bool := if holdKeep s q && s.exe.everCouched then qBit s q else holdVal s q

/-- The eight output bits of block `fb` in the current sheet, or the hold values. -/
def outByte (s : State) (hold : Bool) (fb : Nat) : Nat :=
  maskOf 8 fun j => if hold then holdBit s (outBase s fb + j) else qBit s (outBase s fb + j)

/-- A sweep leaves with these output slots by FB number (R244). -/
def sendSweep (measure : Bool) (slot : Nat → Nat) (s : State) : State :=
  let out := (List.range s.fl.n).foldl (fun m fb => tset 0 m (posOf s fb) (slot fb)) []
  { s with fl.sweep := some { tick := s.clk.tick, count := s.fl.n, out := out, measure := measure },
           fl.left := sweepFrame s.clk.tick s.fl.n out }

/-- loss_limit (Table 11.8). -/
def lossLimit (s : State) : Nat := cf s 0x14 0 2 1 3
/-- hold_ticks (Table 11.8). -/
def holdTicks (s : State) : Nat := cf s 0x14 0 1 1 8

/-- A sweep lost or bad: counted, EVT-1101, a fault at loss_limit (R257). -/
def sweepFails (s : State) : State :=
  let run := s.fl.lostRun + 1
  let s := { s with fl.sweep := none, fl.sweepBad := satInc 255 s.fl.sweepBad, fl.lostRun := min 15 run,
                    felt.witness := false }
  if run = lossLimit s then raiseAs 0x46 0x1101 run 255 s else raise 0x1101 run s

/-- The events that a block's new input slot raises against the last good one; the first slot after a reset changes
nothing (R238). -/
def slotEvents (fb old new : Nat) (s : State) : State :=
  let of (v : Nat) : Nat := v / 2 ^ 16 % 256
  let s := if (List.range 8).any fun k => bitOf (of new) k && !bitOf (of old) k then raise 0x1001 (fb * 256 + of new) s else s
  let s := if bitOf old 24 && !bitOf new 24 then raise 0x1002 fb s else s
  let s := if bitOf s.fl.known fb && (bitOf old 26 != bitOf new 26 || bitOf old 25 != bitOf new 25) then
      raise 0x1003 (fb * 256 + b2n (bitOf new 26) * 2 + b2n (bitOf new 25)) s else s
  if bitOf new 27 then raise 0x1004 fb s else s

/-- One block's part of a good returned sweep (R246, R238). -/
def takeSlot (w : Sweep) (s : State) (fb : Nat) : State :=
  let p := posOf s fb
  let owned := bitOf w.own p
  let seen := owned || bitOf w.foreign p || bitOf w.absent p
  if !seen then
    { s with fl.owned := clrBit s.fl.owned fb, fl.told := clrBit s.fl.told fb,
             fl.seenOwn := clrBit s.fl.seenOwn fb, fl.seenForeign := clrBit s.fl.seenForeign fb }
  else
    let v := tget 0 w.ins p
    let s := slotEvents fb (tget 0 s.fl.slots fb) v s
    let report := owned && bitOf v 29 && !bitOf s.fl.told fb
    let s := if report then raise 0x1005 fb s else s
    { s with fl.slots := tset 0 s.fl.slots fb v, fl.fresh := setBit s.fl.fresh fb, fl.known := setBit s.fl.known fb,
             fl.owned := if owned then setBit s.fl.owned fb else clrBit s.fl.owned fb,
             fl.told := if owned then setIf report s.fl.told fb else clrBit s.fl.told fb,
             fl.seenOwn := if owned then setBit s.fl.seenOwn fb else clrBit s.fl.seenOwn fb,
             fl.seenForeign := if bitOf w.foreign p then setBit s.fl.seenForeign fb else clrBit s.fl.seenForeign fb }

/-- An event entry dispatched to the tasks it triggers (R249). -/
def dispatchEntry (fb : Nat) (v : Nat) (s : State) : State :=
  if v / 2 ^ 30 = 1 ∨ v / 2 ^ 30 = 2 then
    edgeTriggers fb (v / 2 ^ 26 % 16) (v / 2 ^ 30 == 1) (BitVec.ofNat 32 v) s
  else s

/-- The FB number at a position of this unit's chain. -/
def fbAt (s : State) (p : Nat) : Nat := if isHome s then p else s.fl.n - 1 - p

/-- Edges of the wake_edge entries that the slots of a sweep show in DORMANT (R70). -/
def wakeEdges (w : Sweep) (s : State) : State :=
  if s.md.mode ≠ .dormant ∧ !s.md.dormReq ∧ !s.md.dormMark then s else
  let hit := (List.range 8).any fun i =>
    let v := cf s 0x13 0 (16 + 4 * i) 4 0
    let a := v % 65536
    let edge := v / 65536 % 4
    (List.range s.fl.n).any fun fb =>
      let p := posOf s fb
      let seen := bitOf w.own p || bitOf w.foreign p || bitOf w.absent p
      let was := bitOf (tget 0 s.fl.slots fb) (a - inBase s fb)
      let now := bitOf (tget 0 w.ins p) (a - inBase s fb)
      seen && decide (inBase s fb ≤ a ∧ a < inBase s fb + 16)
        && ((bitOf edge 0 && !was && now) || (bitOf edge 1 && was && !now))
  if hit then wake 3 s else s

/-- Claims of an ACTIVE unit that this sweep shows refused: the fourth in a row at a block is EVT-0908, and the unit
gives up every block (R208). A block that the sweep did not reach has refused nothing (R246). -/
def countRefusals (w : Sweep) (s : State) : State :=
  if s.md.mode ≠ .active then { s with fl.refused := [] } else
  let next := (List.range s.fl.n).foldl (fun m fb =>
    let p := posOf s fb
    tset 0 m fb (if bitOf (tget 0 w.out p) 8 && !bitOf w.own p && (bitOf w.foreign p || bitOf w.absent p) then tget 0 s.fl.refused fb + 1 else 0)) []
  let s := { s with fl.refused := next }
  if next.any fun e => e.2 == 4 then
    raise 0x0908 (next.foldl (fun m e => if 4 ≤ e.2 then setBit m e.1 else m) 0) { s with fl.relAll := true }
  else s

/-- A good returned sweep: slots, masks, stranger, return time, foreign owners, urgent entry (R85, R246, R249, R257); a
measurement sweep is one, and its return time is measured instead (R84). -/
def takeSweep (w : Sweep) (rttNs : Nat) (s : State) : State :=
  let all := s.fl.n != 0 && (List.range s.fl.n).all fun p => bitOf w.absent p
  let s := countRefusals w (wakeEdges w { s with fl.sweep := none, fl.lostRun := 0, felt.witness := all })
  let s := (List.range s.fl.n).foldl (takeSlot w) s
  let th := s.md.mode == .thread
  let s := if w.stranger then
      let s := { s with fl.strangers := satInc 15 s.fl.strangers }
      if s.fl.strangerLast == some false || (s.fl.strangerLast.isNone && !th) then raise 0x1105 0 s else s
    else s
  let off := !w.measure && decide (s.fl.rtt + 40 < rttNs ∨ rttNs + 40 < s.fl.rtt)
  let s := if off && s.fl.rttSeen != some rttNs then raise 0x1104 rttNs s else s
  let s := { s with fl.strangerLast := if w.stranger && th then none else some w.stranger, fl.rttSeen := if off then some rttNs else none }
  let s := if s.md.mode == .thread && s.fl.seenForeign != 0 && !s.fl.foreign then raise 0x040A s.fl.seenForeign s else s
  let s := { s with fl.foreign := s.fl.seenForeign != 0 }
  if w.urgentPos < 16 then dispatchEntry (fbAt s w.urgentPos) w.urgentEntry s else s

/-- Carriers leave in HOLD, ACTIVE and DORMANT (Table 3.2). -/
def carriersRun (s : State) : Bool := s.md.mode == .hold || s.md.mode == .active || s.md.mode == .dormant

/-- CARRIER_DEPARTURE (R40): carrier k leaves with every place zero. -/
def execCarrierDeparture (k : Fin 38) (s : State) : Out :=
  ok (if s.fl.n ≠ 0 ∧ k.val < carrierCount s.clk.tickSel ∧ carriersRun s = true then
      { s with fl.carrier := some { k := k.val }, fl.left := carrierFrame k.val s.fl.n } else s)

/-- CARRIER_RETURN (R249): a good carrier's entries trigger tasks in position order; a bad or lost one is counted. -/
def execCarrierReturn (f : FieldFrame) (s : State) : Out :=
  ok (match s.fl.carrier with
    | none => s
    | some c =>
      if !knownFt f.ft.toNat then countFt s
      else
        let s := { s with fl.carrier := none }
        if f.good && !c.bad && f.ft.toNat == 0xC0 + c.k then
          let s := (List.range s.fl.n).foldl (fun s p => dispatchEntry (fbAt s p) (tget 0 c.places p) s) s
          dispatchTop s
        else raise 0x1102 0 { s with fl.carrierBad := satInc 255 s.fl.carrierBad })

/-! ## Urgent frames -/

/-- A command merged into the pending ones of its block (R250). -/
def pendUrgent (couch : Bool) (fb mask val : Nat) (s : State) : State :=
  if s.fl.urg.any fun u => u.fb == fb then
    { s with fl.urg := s.fl.urg.map fun u =>
        if u.fb = fb then { u with mask := u.mask ||| mask, val := withMask u.val mask val, couch := u.couch && couch } else u }
  else { s with fl.urg := s.fl.urg ++ [{ fb := fb, mask := mask, val := val, couch := couch }] }

/-- The block and output that a Q bit commands. -/
def outputOf (s : State) (q : Nat) : Option (Nat × Nat) :=
  ((List.range s.fl.n).find? fun b => decide (outBase s b ≤ q ∧ q < outBase s b + 8)).map fun b => (b, q - outBase s b)

/-- The bits that QIMM handed over, merged in order. -/
def absorbQimm (s : State) : State :=
  s.exe.qimm.foldl (fun s qv =>
    match outputOf s qv.1 with
    | some (b, j) => pendUrgent false b (2 ^ j) (b2n qv.2 * 2 ^ j) s
    | none => s) { s with exe.qimm := [] }

/-- URGENT_FRAME_SEND (R251): at this E-clock of the tick the oldest pending frame leaves when it can end before the
next departure; otherwise it waits. Urgent frames leave in ACTIVE alone (Table 3.2). -/
def execUrgentFrameSend (e : Nat) (s : State) : Out :=
  let s := absorbQimm s
  ok (if !(mayStart s e 384 && s.md.mode == .active) then s else
    match s.fl.urg with
    | u :: us => { s with fl.urg := us, fl.fly := s.fl.fly ++ [u], fl.busyTill := e + 384,
                          fl.left := urgentFrame (posOf s u.fb) u.mask u.val }
    | [] => s)

/-- The type byte with which an urgent frame returns: bit 5 marks it applied (R250). -/
def urgentFt (s : State) (u : Urgent) : Nat := (if u.applied then 0x60 else 0x40) + posOf s u.fb

/-- URGENT_FRAME_RETURN (R250): an unmarked or bad frame is counted, EVT-1103. -/
def execUrgentFrameReturn (f : FieldFrame) (s : State) : Out :=
  ok (match s.fl.fly with
    | [] => s
    | u :: us =>
      if !knownFt f.ft.toNat then countFt s
      else
        let s := { s with fl.fly := us }
        if f.good && u.applied && !u.bad && f.ft.toNat == urgentFt s u then s
        else raise 0x1103 0 { s with fl.urgentBad := satInc 255 s.fl.urgentBad })

/-! ## The I image at the sample point (R246) -/

/-- The inputs of the blocks whose slot came with this tick's sweep, copied to their in_base. -/
def latchInputs (s : State) (img : Memory) : Memory :=
  (List.range s.fl.n).foldl (fun m fb =>
    if bitOf s.fl.fresh fb then wrLe 0 m (bitAddr 0 (inBase s fb)) 2 (tget 0 s.fl.slots fb % 65536) else m) img

/-- FL_ERR (Table 11.7). -/
def flErr (s : State) : Nat :=
  s.fl.sweepBad * 2 ^ 24 + s.fl.carrierBad * 2 ^ 16 + s.fl.urgentBad * 2 ^ 8 + s.fl.unknownFt * 16 + s.fl.strangers
/-- FL_STAT (R257). -/
def flStat (s : State) : Nat := s.fl.lostRun * 2 ^ 16 + s.fl.owned

end Sys2Proof.Machine
end

