-- ==== Sys2Proof/Machine/Answer.lean ====
section
/-! DEFINITION. What HMP and the debug port are answered when an access or a request has been done (18_management_plane,
22_debugging). -/

namespace Sys2Proof.Machine

/-- A session changed; the number may carry 2^32 for the bulk connection. -/
def modHSess (who : Nat) (f : HSess → HSess) (s : State) : State :=
  { s with hmp.sess := s.hmp.sess.map fun x => if x.num = who % 2 ^ 32 then f x else x }

/-- Words as a result carries them. -/
def words32 (l : List Nat) : List Byte := l.flatMap (beBytes 4)

/-- The header of a datagram of this unit (Table 18.3). -/
def hmpHead (kind num counter len : Nat) : List Byte :=
  [0x48, 0x4D, 1, BitVec.ofNat 8 kind] ++ beBytes 4 num ++ beBytes 8 counter ++ beBytes 2 len ++ [0, 0]

/-- A response as the datagram that carries it: sealed on the session's channel, or plain with its trailer (R398, R400, R402). -/
def respBytes (bulk : Bool) (x : Option HSess) (r : HResp) : List Byte :=
  let body := beBytes 2 (r.op + 0x8000) ++ beBytes 4 r.req ++ [BitVec.ofNat 8 r.status, 0] ++ r.result
  match x with
  | some x =>
    let c := if bulk then x.bulkTx else x.tx
    let h := hmpHead (if bulk then 9 else 4) x.num c body.length
    h ++ gcmSeal ((x.key.drop 16).take 16) ((x.key.drop (if bulk then 44 else 36)).take 4 ++ beBytes 8 c) h body
  | none =>
    let h := hmpHead 6 0 0 body.length
    h ++ body ++ beBytes 4 (crc32c (h ++ body))

/-- A response sent; each datagram advances its channel's counter, which starts at 1 (R400). -/
def sendResp (who : Nat) (r : HResp) (s : State) : State :=
  let bulk := decide (2 ^ 32 ≤ who)
  let s := modHSess who (fun x =>
    { x with tx := if bulk then x.tx else x.tx + 1, bulkTx := if bulk then x.bulkTx + 1 else x.bulkTx }) s
  { s with hmp.answer := some r, hmp.sent := respBytes bulk (s.hmp.sess.find? fun x => x.num == who % 2 ^ 32) r }

/-- A request answered: the response is sent and kept among the session's last 8 (R402). `req` is the req_id with the op above
it. -/
def hmpAnswer (who req status : Nat) (result : List Byte) (s : State) : State :=
  let r : HResp := { op := req / 2 ^ 32, req := req % 2 ^ 32, status := status, result := result }
  modHSess who (fun x => { x with kept := (r :: x.kept).take 8 }) (sendResp who r s)

/-- The debug port's command ends with this status and result (R470). -/
def dapAnswer (status : Nat) (result : Word) (s : State) : State :=
  { s with dbg.busy := false, dbg.status := status, dbg.result := result }

/-- The requester of an access answered: 1 the debug port, 2 an HMP session, 0 none. The status is HMP's (Table 18.4);
the debug port's code for an address error is 3 (Table 22.2). -/
def answerAccess (who sess req status : Nat) (words : List Nat) (s : State) : State :=
  let v : Word := BitVec.ofNat 32 (nth 0 words 0)
  let s := { s with bus.status := status, bus.ans := v }
  if who = 1 then dapAnswer (if status = 4 then 3 else status) v s
  else if who = 2 then hmpAnswer sess req status (words32 words) s else s

/-- The requester of a staged write answered when it has landed or is refused (R405). -/
def answerStaged (w : Staged) (status : Nat) (s : State) : State := answerAccess w.who w.sess w.req status [] s

end Sys2Proof.Machine
end

