-- ==== Sys2Proof/Machine/Flash.lean ====
section
/-! DEFINITION. The furnish image in the external flash, byte by byte (05_the_furnish_image): CRC-32C, headers and
journals, record walks, the directory, the checks of a slot copy, and the writes that place an update. -/

namespace Sys2Proof.Machine

/-! ## Reading the flash -/

/-- `n` bytes of the flash from offset `o`; an erased byte reads 0xFF. -/
def flBytes (s : State) (o n : Nat) : List Byte := rdBytes 0xFF s.boot.flash o n
/-- A little-endian field of the flash. -/
def flLe (s : State) (o n : Nat) : Nat := leNat (flBytes s o n)
/-- Bytes of the device. -/
def flSize (s : State) : Nat := s.boot.flashMiB * 1048576

/-- The fastest interface mode that the SFDP table advertises, as a row of Table 4.4. -/
def fastest (s : State) : Nat := if bitOf s.boot.flashModes 2 then 3 else if bitOf s.boot.flashModes 1 then 2 else 1
/-- The mode of the management core's writes (Table 5.8). -/
def writeMode (s : State) : Nat := let m := cf s 0x10 0 7 1 0; if m = 0 then fastest s else m
/-- What the device's extended address register holds when it is reached at offset `o`: the 16 MiB bank, where only 3-byte
addressing is advertised (R80, R92). -/
def extBank (s : State) (o : Nat) : Nat := if s.boot.flashAddr4 ∨ s.boot.flashMiB ≤ 16 then 0 else o / 0x1000000

/-- The bytes of the magic, "KWATU-FI". -/
def magic : List Byte := [0x4B, 0x57, 0x41, 0x54, 0x55, 0x2D, 0x46, 0x49]
/-- The header at `h` carries the magic. -/
def hdrMagic (s : State) (h : Nat) : Bool := flBytes s h 8 == magic
/-- The fixed part of the header at `h` is valid (R95). -/
def hdrOk (s : State) (h : Nat) : Bool :=
  hdrMagic s h && flLe s (h + 8) 2 == 1 && flLe s (h + 3068) 4 == crc32c (flBytes s h 3068)

/-- A selector journal entry: offset in the flash, preferences, generation (Table 5.2). -/
structure Sel where
  off : Nat
  pref : List Nat          -- fw, cfg, prog
  gen : Nat
deriving DecidableEq, Repr

/-- Valid entries of the journal at header `h`, by increasing offset (R96). -/
def journal (s : State) (h : Nat) : List Sel :=
  if !hdrMagic s h then [] else
  (List.range 64).filterMap fun i =>
    let o := h + 3072 + 16 * i
    let e := flBytes s o 16
    if fld e 0 2 = 0xA55A ∧ fld e 5 3 = 0 ∧ 1 ≤ fld e 8 4 ∧ fld e 8 4 ≤ 0xFFFFFFFE ∧ fld e 12 4 = crc32c (e.take 12) then
      some { off := o, pref := [fld e 2 1, fld e 3 1, fld e 4 1], gen := fld e 8 4 }
    else none

/-- The boot selector: the highest generation, the first of equal ones in the primary then the mirror (R96). -/
def bootSel (s : State) : Option Sel :=
  (journal s 0 ++ journal s 0x1000).foldl (fun b e =>
    match b with
    | none => some e
    | some x => if x.gen < e.gen then some e else some x) none

/-! ## Records (R97 to R99) -/

/-- A record header read at an offset (Table 5.3). -/
structure Rec where
  off : Nat
  typ : Nat
  ver : Nat
  len : Nat
  required : Bool
  crc : Nat
  inst : Nat
deriving DecidableEq, Repr

/-- The header at an offset. -/
def recAt (s : State) (o : Nat) : Rec :=
  { off := o, typ := flLe s o 2, ver := flLe s (o + 2) 2, len := flLe s (o + 4) 4,
    required := bitOf (flLe s (o + 8) 4) 0, crc := flLe s (o + 12) 4, inst := flLe s (o + 16) 2 }

/-- The record's payload. -/
def Rec.payload (r : Rec) (s : State) : List Byte := flBytes s (r.off + 32) r.len
/-- Where the next record begins (R97). -/
def Rec.next (r : Rec) : Nat := r.off + 32 + ceilDiv r.len 8 * 8
/-- The record's crc holds (Table 5.3). -/
def Rec.crcOk (r : Rec) (s : State) : Bool :=
  r.crc == crc32c (flBytes s r.off 12 ++ List.replicate 4 0 ++ flBytes s (r.off + 16) 16 ++ r.payload s)

/-- What a walk gives: the records kept, every record met whose crc holds, its events in order, whether it failed, records
skipped or ignored. -/
structure Walk where
  recs : List Rec := []
  met : List Rec := []
  evts : List (Nat × Nat) := []
  bad : Bool := false
  skipped : Nat := 0
  fin : Nat := 0             -- where it ended
deriving DecidableEq, Repr

/-- A record of this type and inst has been met before (R99). -/
def Walk.repeats (w : Walk) (r : Rec) : Bool := w.met.any fun q => q.typ == r.typ && q.inst == r.inst
/-- A record met. -/
def Walk.meet (w : Walk) (r : Rec) : Walk := { w with met := w.met ++ [r] }

/-- The directory walk (Table 5.4, first column; R99). -/
def walkDir (s : State) (known : Nat → Bool) (top : Nat) : Nat → Nat → Walk → Walk
  | 0, o, w => { w with fin := o }
  | fuel + 1, o, w =>
    let r := recAt s o
    if r.len = 0xFFFFFFFF ∨ top < o + 32 then { w with fin := o }
    else if flSize s < r.next ∨ top < r.next then
      { w with evts := w.evts ++ [(0x0502, o)], skipped := w.skipped + 1, fin := o }
    else if !r.crcOk s then
      walkDir s known top fuel r.next { w with evts := w.evts ++ [(0x0503, o)], skipped := w.skipped + 1 }
    else if w.repeats r then
      walkDir s known top fuel r.next { w with evts := w.evts ++ [(0x0504, r.typ)], skipped := w.skipped + 1 }
    else if !(known r.typ && r.ver == 1) then
      (if r.required then { w with bad := true, fin := o }
       else walkDir s known top fuel r.next { w.meet r with skipped := w.skipped + 1 })
    else walkDir s known top fuel r.next { w.meet r with recs := w.recs ++ [r] }

/-- Record types a copy of an area may carry (Table 5.7, 06, 08; area 4 is legal firmware); the manual names none of the
firmware's own. -/
def knownIn (area typ : Nat) : Bool :=
  typ == 0xE0 || typ == 0xF0 || area == 1 || area == 4 || (area == 2 && decide (0x10 ≤ typ ∧ typ ≤ 0x21))
    || (area == 3 && decide (0x40 ≤ typ ∧ typ ≤ 0x43))

/-- The walk of a slot copy over its copy_len (Table 5.4, second column; R99, R102): a signature record in a configuration
copy is skipped. -/
def walkCopy (s : State) (area base cap len : Nat) : Nat → Nat → Walk → Walk
  | 0, o, w => { w with bad := true, fin := o }
  | fuel + 1, o, w =>
    if o = base + len then { w with fin := o } else
    let r := recAt s o
    if r.len = 0xFFFFFFFF ∨ base + cap < o + 32 ∨ base + len < o + 32 then { w with bad := true, fin := o }
    else if flSize s < r.next ∨ base + cap < r.next then { w with evts := w.evts ++ [(0x0502, o)], bad := true, fin := o }
    else if base + len < r.next then { w with bad := true, fin := o }
    else if !r.crcOk s then { w with evts := w.evts ++ [(0x0503, o)], bad := true, fin := o }
    else if w.repeats r then { w with evts := w.evts ++ [(0x0504, r.typ)], bad := true, fin := o }
    else if area = 2 ∧ r.typ = 0xF0 then
      walkCopy s area base cap len fuel r.next { w.meet r with skipped := w.skipped + 1 }
    else if !(knownIn area r.typ && r.ver == 1) then
      (if r.required then { w with bad := true, fin := o }
       else walkCopy s area base cap len fuel r.next { w.meet r with skipped := w.skipped + 1 })
    else walkCopy s area base cap len fuel r.next { w.meet r with recs := w.recs ++ [r] }

/-! ## Slot copies (R101 to R104) -/

/-- Largest capacity of an area (R101). -/
def maxCap (area : Nat) : Nat := if area = 1 then 8388608 else if area = 2 then 1048576 else 2097152

/-- A region of the image: offset and length. -/
abbrev Region := Nat × Nat

/-- Every region of the image in use: headers, directory, copies, key area (R101). -/
def regions (s : State) (dirOff dirLen : Nat) : List Region :=
  [(0, 4096), (4096, 4096), (dirOff, dirLen)] ++ (s.img.areas.map fun e => e.2)
    ++ (if s.img.keyAt.2 = 0 then [] else [s.img.keyAt])

/-- A region overlaps another one of the list (itself once apart). -/
def overlaps (rs : List Region) (r : Region) : Bool :=
  decide (1 < (rs.filter fun t => decide (r.1 < t.1 + t.2 ∧ t.1 < r.1 + r.2)).length)

/-- Offset and capacity of copy `c` of an area (1 firmware, 2 configuration, 3 program). -/
def copyRange (s : State) (area c : Nat) : Region := tget (0, 0) s.img.areas (2 * area + c)

/-- Bounds and alignment of a copy (R101). -/
def copyPlaced (s : State) (dirOff dirLen area c : Nat) : Bool :=
  let r := copyRange s area c
  r.2 != 0 && r.1 % 65536 == 0 && r.2 % 65536 == 0 && decide (r.2 ≤ maxCap area) && decide (r.1 + r.2 ≤ flSize s)
    && !overlaps (regions s dirOff dirLen) r

/-- The descriptor payload of a copy (Table 5.6). -/
def descOf (s : State) (area c : Nat) : List Byte := flBytes s ((copyRange s area c).1 + 32) 32
/-- copy_len of a copy. -/
def copyLen (s : State) (area c : Nat) : Nat := fld (descOf s area c) 4 4
/-- build of a copy. -/
def copyBuild (s : State) (area c : Nat) : Nat := fld (descOf s area c) 8 4
/-- Every byte of a copy. -/
def copyBytes (s : State) (area c : Nat) : List Byte := flBytes s (copyRange s area c).1 (copyLen s area c)

/-- The walk of a copy. -/
def copyWalk (s : State) (area c : Nat) : Walk :=
  let r := copyRange s area c
  walkCopy s area r.1 r.2 (copyLen s area c) (copyLen s area c / 32 + 2) r.1 {}

/-- The first record of a type in a walk. -/
def Walk.find (w : Walk) (typ : Nat) : Option Rec := w.recs.find? fun r => r.typ == typ

/-- Container structure of a copy (R102, R104): descriptor first and for its area, signature last and only last,
the stepping, exactly one code record (R135). -/
def containerOk (s : State) (area c fwBuild : Nat) (w : Walk) : Bool :=
  let r := copyRange s area c
  let d := descOf s area c
  !w.bad
    && (match w.recs with | q :: _ => q.typ == 0xE0 && q.off == r.1 && q.len == 32 | [] => false)
    && fld d 0 1 == area && decide (64 ≤ copyLen s area c ∧ copyLen s area c ≤ r.2)
    && bitOf (fld d 12 2) Config.stepping
    && (area == 2 || (match w.find 0xF0 with
        | some q => q.len == 132 && q.next == r.1 + copyLen s area c | none => false))
    && (area != 3 || (decide (fld d 24 4 ≤ fwBuild) && (match w.recs.filter fun q => q.typ == 0x40 with
        | [q] => q.len % 4 == 0 && decide (q.len ≤ 1048576) | _ => false)))

/-- The fused hash of a key position as words put together. -/
def hashNat (ws : List FuseWord) : Nat := ws.foldl (fun n w => n * 2 ^ 32 + w.normal) 0

/-- The signature of a copy verifies under a key position (R103). -/
def sigOk (s : State) (area c pos : Nat) (w : Walk) : Bool :=
  match w.find 0xF0 with
  | none => false
  | some q =>
    let p := q.payload s
    let key := (p.drop 4).take 64
    let fused := if pos = 0 then s.boot.fuses.seorfen else s.boot.fuses.customer
    let usable := if pos = 0 then s.boot.seorfenKey else s.boot.custKey == 1
    fld p 0 1 == pos && usable && sha256 key == hashNat fused
      && ecdsaVerify key ((p.drop 68).take 64)
          (sha256 (flBytes s (copyRange s area c).1 (q.off - (copyRange s area c).1)))

/-- The program of a user program copy, and the faults of its records. -/
def copyProg (s : State) (w : Walk) : Prog × RecFaults :=
  let pay (t : Nat) : List Byte := match w.find t with | some q => q.payload s | none => []
  let code := pay 0x40
  let strands := match w.find 0x42 with | some q => q.payload s | none => leBytes 20 1
  let (p, b) := mkProg (codeWords code) (code.length / 4) (pay 0x41) strands (pay 0x43)
  (if (w.find 0x41).isSome then p else { p with tasks := [], tickFirst := 0, tickCount := 0 }, b)

/-- The configuration records of a configuration copy, in increasing type order and, within a type, inst order (R106). -/
def copyCfg (s : State) (w : Walk) : List CfgRec :=
  let key (r : Rec) : Nat := 65536 * r.typ + r.inst
  ((w.recs.filter fun r => decide (0x10 ≤ r.typ ∧ r.typ ≤ 0x21)).mergeSort fun a b => decide (key a ≤ key b)).map fun r =>
    { typ := r.typ, inst := r.inst, payload := r.payload s }

/-- The check of R78: 0 good, else the step that fails; with the walk. -/
def checkCopy (s : State) (dirOff dirLen area c : Nat) : Nat × Walk :=
  if !copyPlaced s dirOff dirLen area c then (1, {}) else
  let w := copyWalk s area c
  if !containerOk s area c s.img.fwBuild w then (1, w)
  else if area = 1 ∧ !sigOk s 1 c 0 w then (2, w)
  else if area = 3 ∧ s.boot.custKey = 2 then (2, w)
  else if area = 3 ∧ s.boot.custKey = 1 ∧ !sigOk s 3 c 1 w then (2, w)
  else if area = 3 ∧ failedChecks (checkCtx s) (copyProg s w).1 (copyProg s w).2 ≠ [] then (3, w)
  else (0, w)

/-! ## Programming and erasing -/

/-- Programming clears bits: every byte becomes the AND of old and new (NOR flash, R92). -/
def flProgram (o : Nat) (bs : List Byte) (s : State) : State :=
  { s with boot.flash := (List.range bs.length).foldl (fun m i =>
      tset 0xFF m (o + i) (tget 0xFF m (o + i) &&& nth 0xFF bs i)) s.boot.flash }

/-- A region erased to 0xFF. -/
def flErase (o n : Nat) (s : State) : State := { s with boot.flash := tclear o n s.boot.flash }

/-- The sixteen bytes of a selector entry (Table 5.2). -/
def selBytes (pref : List Nat) (gen : Nat) : List Byte :=
  let b := leBytes 2 0xA55A ++ leBytes 1 (nth 0 pref 0) ++ leBytes 1 (nth 0 pref 1) ++ leBytes 1 (nth 0 pref 2)
    ++ leBytes 3 0 ++ leBytes 4 gen
  b ++ leBytes 4 (crc32c b)

/-- The first erased entry of the journal at `h`. -/
def freeEntry (s : State) (h : Nat) : Option Nat :=
  (List.range 64).find? fun i => flBytes s (h + 3072 + 16 * i) 16 == List.replicate 16 0xFF

/-- A header rewritten with its fixed part and one entry (R111). -/
def compactHdr (h : Nat) (fixed : List Byte) (sel : Option Sel) (s : State) : State :=
  let s := flProgram h fixed (flErase h 4096 s)
  match sel with
  | some e => flProgram (h + 3072) (selBytes e.pref e.gen) s
  | none => s

/-- The fixed part that a compaction writes back at header `h`: its own, or the other header's where its own is not valid. -/
def fixedPart (s : State) (h : Nat) : List Byte := flBytes s (if hdrOk s h then h else 0x1000 - h) 3072

/-- A compaction of both headers: the mirror, verified, then the primary (R111). -/
def compact (s : State) : State :=
  let sel := bootSel s
  let m := compactHdr 0x1000 (fixedPart s 0x1000) sel s
  if hdrOk m 0x1000 && (journal m 0x1000).map (·.gen) == sel.toList.map (·.gen) then compactHdr 0 (fixedPart s 0) sel m else m

/-- A selector entry appended to the primary journal, then the mirror, after compacting a full journal (R110, R111). -/
def appendSel (pref : List Nat) (gen : Nat) (s : State) : State :=
  let s := if (freeEntry s 0).isNone || (freeEntry s 0x1000).isNone then compact s else s
  [0, 0x1000].foldl (fun s h =>
    match freeEntry s h with
    | some i => flProgram (h + 3072 + 16 * i) (selBytes pref gen) s
    | none => s) s

/-- The preference changes to copy `c` of an area, generation one higher (R110 step 4). -/
def preferCopy (area c : Nat) (s : State) : State :=
  let cur := match bootSel s with | some e => (e.pref, e.gen) | none => ([0, 0, 0], 0)
  appendSel (setNth cur.1 (area - 1) c) (cur.2 + 1) s

end Sys2Proof.Machine
end

