-- ==== Sys2Proof/Machine/Retain.lean ====
section
/-! DEFINITION. The retain store (19_time_backup_retain, R433 to R439): row sets, rotation, flushes, the final save, the
restore, and the log's seconds. -/

namespace Sys2Proof.Machine

/-- D words of row set `r` in a sheet. -/
def rowWords (m : Memory) (r : Nat) : List Word := (List.range 32).map fun i => rdW 0 m (0x11010000 + 4 * (32 * r + i))

/-- A slot of a row set. -/
def rowSlot (s : State) (r t : Nat) : RowSlot := tget {} s.ret.rows (2 * r + t)

/-- A slot that a restore may use: its check holds and its index matches (R438). -/
def slotGood (x : RowSlot) (r : Nat) : Bool := x.good && x.index == r

/-- The slot with the newer gen; none without a good slot. -/
def newerSlot (s : State) (r : Nat) : Option Nat :=
  let a := rowSlot s r 0
  let b := rowSlot s r 1
  match slotGood a r, slotGood b r with
  | true, true => some (if a.gen < b.gen then 1 else 0)
  | true, false => some 0
  | false, true => some 1
  | false, false => none

/-- Row set `r` is dirty against a couched sheet (R435). -/
def rowDirty (s : State) (m : Memory) (r : Nat) : Bool :=
  match newerSlot s r with
  | some t => (rowSlot s r t).data != rowWords m r
  | none => true

/-- Row set `r` written from a couched sheet into the slot not holding the newer gen (R434); a write cut short leaves a
slot that fails its check. -/
def writeRow (m : Memory) (kind : Nat) (whole : Bool) (s : State) (r : Nat) : State :=
  let t := match newerSlot s r with | some t => 1 - t | none => 0
  let gen := match newerSlot s r with | some t => (rowSlot s r t).gen + 1 | none => 1
  let x : RowSlot := { good := whole, tick := s.exe.couchTick, index := r, kind := kind, gen := gen % 2 ^ 32, data := rowWords m r }
  { s with ret.rows := tset {} s.ret.rows (2 * r + t) x }

/-- retain_ms in E-clocks. -/
def retainE (s : State) : Nat := cf s 0x1F 0 0 2 100 * 400000

/-- The rotation step at a couch in E-clock `e` (R435); the first couch after THREAD makes the first step. -/
def rotateRow (e : Nat) (s : State) : State :=
  if s.ret.lastRot ≠ 0 ∧ e + 1 < s.ret.lastRot + retainE s then s
  else
    let s := if rowDirty s s.exe.couched s.ret.p then writeRow s.exe.couched 0 true s s.ret.p else s
    { s with ret.p := (s.ret.p + 1) % 64, ret.lastRot := e + 1 }

/-- Row sets dirty against the couched sheet. -/
def dirtyRows (s : State) : List Nat := (List.range 64).filter (rowDirty s s.exe.couched)

/-- Flushes of the last 3 600 s (R436). -/
def recentFlushes (s : State) : List Nat :=
  s.ret.flushes.filter fun t => decide (s.clk.tick < t + 3600 * ticksPerSec s)

/-- A flush of every dirty row set; EVT-1907 when more than 60 fall in the last 3 600 s (R436). -/
def flushRows (s : State) : State :=
  let s := (dirtyRows s).foldl (writeRow s.exe.couched 1 true) s
  let l := s.clk.tick :: recentFlushes s
  let s := { s with ret.flushes := l, exe.rfl := false }
  if 60 < l.length then raise 0x1907 l.length s else s

/-- The final save (R437); `rows` gives how many row sets are written whole when it is cut short, the next one then
being cut. -/
def finalSave (rows : Option Nat) (s : State) : State :=
  match rows with
  | none =>
    let s := (dirtyRows s).foldl (writeRow s.exe.couched 2 true) s
    { s with ret.pfDone := true, ret.pfCnt := satInc (2 ^ 32 - 1) s.ret.pfCnt }
  | some n =>
    let l := dirtyRows s
    let s := (l.take n).foldl (writeRow s.exe.couched 2 true) s
    match l.drop n with
    | r :: _ => writeRow s.exe.couched 2 false s r
    | [] => s

/-- POWERFAIL_N_FALL (R437): changes no mode; nothing has couched in THREAD, so nothing is saved there, and a core die held in
reset by an expiry starts no save (R449). A low shorter than 5 µs starts none, one of 10 µs or longer always does, and between
the two it is open (R508). -/
def execPowerfailNFall (low : PowerLow) (s : State) : Out :=
  ok (if s.md.mode = .backup ∨ !s.exe.everCouched ∨ s.wd.hold ∨ low.ns < 5000 then s
    else if 10000 ≤ low.ns then finalSave low.rows s
    else
      let t := { s with free := s.free + 1 }
      if Config.freeBool s.free then finalSave low.rows t else t)

/-- RETAINED_STORE_FLUSH (R436): in HOLD and DORMANT, where no couch occurs, a requested flush writes from the last
couched sheet, at a tick boundary. -/
def execRetainedStoreFlush (s : State) : Out :=
  atBoundary (fun s => if s.exe.rfl ∧ (s.md.mode = .hold ∨ s.md.mode = .dormant) then flushRows s else s) s

/-- The retained window restored into a sheet; a row set without a good slot becomes zeros, counted and reported
(R438). -/
def restoreRows (s : State) : State :=
  (List.range 64).foldl (fun s r =>
    match newerSlot s r with
    | some t =>
      { s with exe.couched := ((rowSlot s r t).data.zipIdx).foldl (fun m w => wrW 0 m (0x11010000 + 4 * (32 * r + w.2)) w.1)
                 s.exe.couched }
    | none => raise 0x0409 r { s with ret.bad := s.ret.bad + 1 }) { s with ret.bad := 0 }

/-- RET_STAT. -/
def retStat (s : State) : Nat :=
  min 255 (recentFlushes s).length * 2 ^ 24 + s.ret.p * 2 ^ 16 + b2n s.ret.pfDone * 2 ^ 15 + s.ret.bad
/-- RET_GEN: the highest gen of any row set. -/
def retGen (s : State) : Nat := (s.ret.rows.map fun e => e.2.gen).foldl max 0

/-- The end of a log second: lost entries recorded, the limits of the second start anew (R439, R401, R415). -/
def logSecond (s : State) : State :=
  let lost := s.evt.secLost
  let s := { s with evt.secCount := 0, evt.secLost := 0, evt.sysSent := [], hmp.sysSec := 0, hmp.helloSec := 0,
                    hmp.authSec := false }
  if lost = 0 then s else raise 0x1904 lost s

/-- LOG_RATE_SECOND (R439): a run of 10^6 ÷ T ticks ends. -/
def execLogRateSecond (s : State) : Out :=
  ok (if s.clk.tick % ticksPerSec s = 0 then logSecond s else s)

/-! ## The retain store as it is read (Table 19.2) -/

/-- Bytes 0 to 15 of a slot and its words; a slot that fails its check holds bytes that the manual does not give. -/
def slotBytesOf (x : RowSlot) : List Byte :=
  let head := leBytes 6 x.tick ++ [BitVec.ofNat 8 x.index, BitVec.ofNat 8 x.kind] ++ leBytes 4 x.gen
  let data := (x.data ++ List.replicate 32 0).take 32 |>.flatMap fun (w : Word) => leBytes 4 w.toNat
  head ++ leBytes 4 (crc32c (head ++ data)) ++ data

/-- One event log entry (Table 18.6). -/
def logBytes (e : LogEntry) : List Byte :=
  leBytes 4 e.seq ++ leBytes 2 e.code ++ [BitVec.ofNat 8 e.cls, BitVec.ofNat 8 e.lane] ++ leBytes 6 e.tick
    ++ leBytes 2 e.flags ++ leBytes 4 e.arg ++ leBytes 4 e.utc

/-- The word at an offset of the retain store; the places of the counters and reports within their ranges, which the
manual does not give, read as free values. -/
def retainWord (o : Nat) (s : State) : Nat :=
  if o < 0x4800 then
    let r := o / 288
    let t := o / 144 % 2
    let x := rowSlot s r t
    if x.good then fld (slotBytesOf x) (o % 144) 4
    else if x.data = [] then 0 else Config.freeAt s.free (0x40000000 + o) % 2 ^ 32
  else if (0x8000 ≤ o ∧ o < 0x8100) ∨ (0x9000 ≤ o ∧ o < 0x9800) then Config.freeAt s.free (0x40000000 + o) % 2 ^ 32
  else if 0x10000 ≤ o ∧ o < 0x28000 then
    let i := (o - 0x10000) / 24
    fld (logBytes (tget {} s.ret.log i)) ((o - 0x10000) % 24) 4
  else 0

end Sys2Proof.Machine
end

