-- ==== Sys2Proof/Machine/Wd.lean ====
section
/-! DEFINITION. The watchdogs WD-S and WD-C (20_watchdogs): periods, open windows, key sequences, lock, and the two first
steps of an expiry. -/

namespace Sys2Proof.Machine

/-- Which watchdog. -/
def wdOf (c : Bool) (s : State) : Wd := if c then s.wd.c else s.wd.s
/-- A watchdog changed; `true` is WD-C. -/
def modWd (c : Bool) (f : Wd → Wd) (s : State) : State :=
  if c then { s with wd.c := f s.wd.c } else { s with wd.s := f s.wd.s }
/-- A field of WD_ERR counted: 24 bad_svc, 16 late_per, 8 key_refused. -/
def wdErr (lo : Nat) (s : State) : State := { s with wd.err := satField lo 8 s.wd.err }

/-- A period in E-clocks. -/
def wdPeriod (c : Bool) (s : State) : Nat :=
  if c then (wdOf c s).per * tickE s.clk.tickSel else (wdOf c s).per * 400000
/-- E-clock `e` of the present tick. -/
def nowE (e : Nat) (s : State) : Nat := s.clk.boundaryE + e

/-- The watchdog counts now. -/
def wdRuns (c : Bool) (s : State) : Bool := (wdOf c s).en && (wdOf c s).run && !s.wd.hold && !s.boot.recovery && s.md.mode != .backup

/-- E-clock `t` lies in the open window: the first ⌈period ÷ 8⌉ E-clocks after the last service (R446). -/
def wdWindow (c : Bool) (t : Nat) (s : State) : Bool :=
  wdRuns c s && decide (t ≤ (wdOf c s).since + ceilDiv (wdPeriod c s) 8)

/-- The period has run out by E-clock `t`: the expiry, in that E-clock too, is due and beats a service (R444, Table 2.5). -/
def wdExpired (c : Bool) (t : Nat) (s : State) : Bool :=
  wdRuns c s && decide ((wdOf c s).since + wdPeriod c s ≤ t)

/-- Serviced in E-clock `t`; the period writes that wait for the open window are then performed, which services again,
and answered (R443, R446). -/
def wdServe (c : Bool) (t : Nat) (s : State) : State :=
  let l := (wdOf c s).held
  let s := modWd c (fun w =>
    { w with since := t, per := l.foldl (fun p x => maskWord p x.mask.toNat x.val.toNat) w.per, held := [] }) s
  l.foldl (fun s x => answerStaged x 0 s) s

/-- A service in E-clock `t`, which an expiry that is due beats. -/
def wdService (c : Bool) (t : Nat) (s : State) : State := if wdExpired c t s then s else wdServe c t s

/-- WDS_SVC_WRITE (R443): 0x0000_A55A services, any other value is counted. -/
def execWdsSvcWrite (v : Word) (e : Nat) (s : State) : Out :=
  ok (if v = 0xA55A then (if wdRuns false s then wdService false (nowE e s) s else s)
    else raise 0x2004 0 (wdErr 24 s))

/-- A write of a period that does not wait: inside the window it takes effect and services, outside it is refused. -/
def wdPer (c : Bool) (v t : Nat) (s : State) : State :=
  if wdWindow c t s && !wdExpired c t s then wdServe c t (modWd c (fun w => { w with per := v }) s)
  else raise 0x2002 (b2n c) (wdErr 16 s)

/-- A period write from outside: held by the management core and performed at the start of the next open window, that is at
the watchdog's next service (R446). -/
def wdHeldPer (c : Bool) (x : Staged) (s : State) : State := modWd c (fun w => { w with held := w.held ++ [x] }) s

/-- WD_PERIOD_WRITE (R446): by the firmware, or through HMP or the debug port. -/
def execWdPeriodWrite (c : Bool) (v : Word) (outside : Bool) (e : Nat) (s : State) : Out :=
  ok (if outside then wdHeldPer c { addr := 0, mask := 0xFFFFFFFF, val := v } s
    else wdPer c v.toNat (nowE e s) s)

/-- A completed key sequence refused by the lock (R448). -/
def wdRefuseKey (c : Bool) (s : State) : State := raise 0x2002 (256 + b2n c) (wdErr 8 s)

/-- A key write (R447, R448): 0x5EA1 then 0x0FF0 within 256 E-clocks disables, unless locked. -/
def wdKey (c : Bool) (v : Nat) (t : Nat) (s : State) : State :=
  let w := wdOf c s
  if v = 0x5EA1 then modWd c (fun w => { w with key := some t }) s
  else
    let armed := match w.key with | some k => decide (v = 0x0FF0 ∧ t ≤ k + 256) | none => false
    let s := modWd c (fun w => { w with key := none }) s
    if !armed then s
    else if w.lock then wdRefuseKey c s
    else if w.en then modWd c (fun w => { w with en := false, since := t, cut := some (t, w.since) }) s
    else s

/-- WD_KEY_WRITE (R447). -/
def execWdKeyWrite (c : Bool) (v : Word) (e : Nat) (s : State) : Out := ok (wdKey c v.toNat (nowE e s) s)

/-- Enabled and serviced. -/
def wdEnable (c : Bool) (t : Nat) (s : State) : State :=
  if wdExpired c t s then s else wdServe c t (modWd c (fun w => { w with en := true }) s)

/-- Lock set; a disabled watchdog is enabled, but a disable of the same E-clock is refused after all (R448). -/
def wdLock (c : Bool) (t : Nat) (s : State) : State :=
  let w := wdOf c s
  let s := if w.en then s
    else match w.cut with
      | some (at', since) =>
        if at' = t then wdRefuseKey c (modWd c (fun w => { w with en := true, since := since, cut := none }) s) else wdEnable c t s
      | none => wdEnable c t s
  modWd c (fun w => { w with lock := true }) s

/-- WD_LOCK_WRITE (R448): a 1 locks, a 0 is ignored. -/
def execWdLockWrite (c v : Bool) (e : Nat) (s : State) : Out := ok (if v then wdLock c (nowE e s) s else s)

/-- WD_ENABLE_WRITE (R447): a 1 enables and services, a 0 is ignored. -/
def execWdEnableWrite (c v : Bool) (e : Nat) (s : State) : Out := ok (if v then wdEnable c (nowE e s) s else s)

/-- WAKE_POINT (R451): at 7/8 of the period in DORMANT the management core services WD-S and may decide to wake the
unit. -/
def execWakePoint (decides : Bool) (e : Nat) (s : State) : Out :=
  ok (if s.md.mode = .dormant ∧ wdRuns false s ∧ (wdOf false s).since + wdPeriod false s * 7 / 8 ≤ nowE e s then
      let s := wdService false (nowE e s) s
      if decides then wake 4 s else s
    else s)

/-- Entering or leaving DORMANT puts the other WD-S period in force, in the open window (R451). -/
def wdDormant (on : Bool) (s : State) : State :=
  let v := if on then cf s 0x1E 0 8 4 600000 else cf s 0x1E 0 4 4 1000
  { modWd false (fun w => { w with per := v, since := if w.en then nowE 0 s else w.since }) s with wd.dorm := on }

/-- WD-C serviced by a couch in E-clock `t`; the first couch after entry to ACTIVE starts it (R443, R445). -/
def wdCouch (t : Nat) (s : State) : State :=
  if wdExpired true t s then s else wdServe true t (modWd true (fun w => { w with run := true }) s)

/-- WD-C stops when the unit leaves ACTIVE (R445). -/
def wdStopC (s : State) : State := modWd true (fun w => { w with run := false }) s

/-- The watchdogs as the firmware starts them, before step 6 (R74, Table 20.3); a lock kept across the reset keeps its
watchdog enabled. -/
def wdStart (t : Nat) (s : State) : State :=
  { s with wd := { s := { en := true, lock := s.wd.s.lock, per := 1000, run := true, since := t },
                   c := { lock := s.wd.c.lock } } }

/-- The watchdog record in force at step 6. -/
def wdRecord (t : Nat) (s : State) : State :=
  let lock := cf s 0x1E 0 2 1 0
  let s := modWd false (fun w => { w with per := cf s 0x1E 0 4 4 1000, en := cf s 0x1E 0 0 1 1 == 1 || w.lock, since := t }) s
  let s := modWd true (fun w =>
    { w with per := cf s 0x1E 0 3 1 8 * cycleTicks s, en := cf s 0x1E 0 1 1 1 == 1 || w.lock, since := t }) s
  let s := if bitOf lock 0 then wdLock false t s else s
  if bitOf lock 1 then wdLock true t s else s

/-- µs to expiry. -/
def wdLeft (c : Bool) (e : Nat) (s : State) : Nat :=
  if wdRuns c s then ((wdOf c s).since + wdPeriod c s - nowE e s) / 400 else 0

/-- WDS_CTL or WDC_CTL (Table 20.5). -/
def wdCtl (c : Bool) (e : Nat) (s : State) : Nat :=
  let w := wdOf c s
  b2n w.lock * 2 ^ 31 + b2n w.en * 2 ^ 30 + b2n (wdWindow c (nowE e s) s) * 2 ^ 29 + b2n (wdRuns c s) * 2 ^ 28
    + (if c then 0 else b2n s.wd.dorm * 2 ^ 27)

end Sys2Proof.Machine
end

