-- ==== Sys2Proof/Machine/Pair.lean ====
section
/-! DEFINITION. The felt link and the standby pair (09): training, short frames, the copy at its sender and at its
receiver, readiness, negotiation (04), takeover, hand-over and return. -/

namespace Sys2Proof.Machine

/-! ## Training (R190) -/

/-- The unit uses the felt link: it is half of a pair, and its planes run. -/
def feltOn (s : State) : Bool := paired s && s.md.mode != .backup && !s.wd.hold

/-- A probe with a fresh number (R191). -/
def sendProbe (s : State) : State :=
  let n := (s.felt.probeId + 1) % 2 ^ 32
  sendShort 0x08 (leBytes 4 n) { s with felt.probeId := n }

/-- The modes in which the tick is slaved to the partner's: STANDBY and THREAD, and DORMANT for the unit that was the
standby; a unit in HOLD or ACTIVE runs on its crystal (R35, R36, R72). -/
def slaved (s : State) : Bool :=
  s.md.mode == .standby || s.md.mode == .thread || (s.md.mode == .dormant && s.md.prev == .standby)

/-- FELT_LINK_TRAINED (R190): both lanes in sync; a recovery raises EVT-0907. The slaving loop starts (R36). -/
def execFeltLinkTrained (s : State) : Out :=
  ok (if !feltOn s || s.felt.trained then s else
    let again := s.felt.wasTrained
    let s := { s with felt.lane0 := true, felt.lane1 := true, felt.trained := true, felt.wasTrained := true,
                      felt.lostTicks := 0, felt.probeN := 0 }
    let s := if s.clk.loopOn || !slaved s then s else { s with clk.loopOn := true, clk.loopN := 0 }
    if again then raise 0x0907 1 s else s)

/-- FELT_SYNC_LOSS (R190): a lane loses sync and the link retrains. -/
def execFeltSyncLoss (lane : Fin 2) (s : State) : Out :=
  ok (if !feltOn s then s else
    let was := s.felt.trained
    let s := if lane.val = 0 then { s with felt.lane0 := false } else { s with felt.lane1 := false }
    if was then raise 0x0907 0 { s with felt.trained := false, felt.lostTicks := 0 } else s)

/-! ## Readiness (R204) -/

/-- Phase error within 50 ns: 20 E-clocks (R36). -/
def inPhase (s : State) : Bool := decide (s.clk.phaseErr.natAbs ≤ 20)

/-- The standby is no longer ready, with the event of this row of Table 9.5. -/
def notReady (row : Nat) (s : State) : State :=
  if !s.felt.ready then s
  else if row = 5 then raise 0x0909 s.felt.silence { s with felt.ready := false }
  else raise 0x0902 row { s with felt.ready := false }

/-- This unit has a ready standby (R185): the partner's heartbeats say STANDBY and ready. -/
def partnerReady (s : State) : Bool :=
  paired s && s.felt.partnerMode == some 4 && bitOf s.felt.partnerFlags 1

/-- The pair guard (R185). -/
def pairGuard (s : State) : Bool :=
  !partnerReady s || (s.felt.reportId == s.trial.editId && s.felt.reportDigest == s.trial.digest)

/-- This unit receives copies: it is STANDBY, or becomes STANDBY at its first acknowledged copy. -/
def receiving (s : State) : Bool :=
  paired s && !s.wd.hold && (s.md.mode == .standby || (s.felt.wantStandby && (s.md.mode == .thread || s.md.mode == .hold)))

/-- FELT_STAT.role: 1 sending copies, 2 receiving copies. -/
def feltRole (s : State) : Nat := if receiving s then 2 else if paired s && s.md.mode == .active then 1 else 0

/-! ## Short frames (R192 to R194) -/

/-- The CRC-32 of a received short frame holds. -/
def frameGood (w : FeltWire) (payload : List Byte) : Bool :=
  w.crc.toNat == crc32 (shortHead w.ftype.toNat w.tick.toNat payload)

/-- What every short frame does: a bad CRC is counted and discards it, and so does an unlisted type; a good one breaks the
partner's silence and tells its tick. `typ` is the command's own type: a frame of another listed type is none of its. -/
def takeFrame (typ : Nat) (w : FeltWire) (payload : List Byte) (effect : State → State) (s : State) : Out :=
  ok (if !feltOn s then s
    else if !frameGood w payload then { s with felt.crcShort := satInc 65535 s.felt.crcShort }
    else if w.ftype.toNat < 1 ∨ 9 < w.ftype.toNat then { s with felt.unlisted := s.felt.unlisted + 1 }
    else
      let s := { s with felt.silence := 0, felt.partnerNow := w.tick.toNat }
      if w.ftype.toNat = typ then effect s else s)

/-- The end of a release whose partner has claimed: a unit that was asked for HOLD enters it (R63, R212); one that returns has
been in STANDBY since its release couch. -/
def endRelease (s : State) : State :=
  let toStandby := match s.felt.rel with | some r => r.toStandby | none => true
  let s := wdStopC (trialToStaged (stopEngine { s with felt.rel := none, felt.lpown := false, felt.keep := false }))
  if toStandby then s else setMode .hold s

/-- Entry to DORMANT, at the boundary that the rules give (R68, R72, R451). -/
def enterDormant (s : State) : State :=
  let s := setMode .dormant { s with md.dormReq := false, md.dormMark := false, md.mSlow := true, felt.ready := false }
  wdDormant true s

/-- The phase error of a heartbeat that arrives in E-clock `arrive` of this unit's tick: the arrival less the one-way delay,
counted to the nearer of the active unit's boundaries (R36, R191). The delay's rounding to E-clocks is free. -/
def measurePhase (arrive : Nat) (s : State) : State :=
  let (d, s) := divFree ((s.felt.delayNs : Int) * 2) 5 s
  let x := ((arrive : Int) - d) % (s.clk.tickLen : Int)
  let e := if 2 * x ≤ (s.clk.tickLen : Int) then x else x - s.clk.tickLen
  { s with clk.phasePrev := s.clk.phaseErr, clk.phaseErr := e }

/-- HEARTBEAT (R194): silence ends; mode, flags, consistent couch and gap run of the partner; the phase that this unit
slaves to (R36). A partner now DORMANT takes a marked standby with it. -/
def execHeartbeat (mode flags : Byte) (consistent : BitVec 48) (gapRun : Byte) (arrive : BitVec 20) (w : FeltWire) (s : State) :
    Out :=
  takeFrame 1 w (heartbeatData mode.toNat flags.toNat consistent.toNat gapRun.toNat) (fun (s : State) =>
    let s := { s with felt.partnerMode := some mode.toNat, felt.partnerFlags := flags.toNat,
                      felt.partnerTick := consistent.toNat, felt.partnerGap := gapRun.toNat }
    let s := if s.clk.loopOn && slaved s then measurePhase arrive.toNat s else s
    let s := if inPhase s then s else notReady 3 s
    let s := { s with felt.returnAsked := s.md.mode == Mode.active && bitOf flags.toNat 3 && mode == 4 }
    if s.md.dormMark && s.md.mode == Mode.standby && mode == 5 then enterDormant s else s) s

/-- HEARTBEAT_MISSED (R194, R207): the third in a row without a complete witness raises EVT-0909 and ends readiness. -/
def execHeartbeatMissed (s : State) : Out :=
  ok (if !feltOn s then s else
    let s := { s with felt.silence := min 15 (s.felt.silence + 1) }
    if s.md.mode = .standby ∧ s.felt.silence = 3 ∧ !s.felt.witness then notReady 5 s else s)

/-! ## Pages (R197, R199) -/

/-- Pages in which two sheets differ, noted as written at this couch. -/
def stampPages (old new : Memory) (tick : Nat) (s : State) : State :=
  let ps := (((old.map Prod.fst ++ new.map Prod.fst).filter fun a => tget 0 old a != tget 0 new a).filterMap pageOf).eraseDups
  { s with felt.pages := ps.foldl (fun m p => tset 0 m p (tick + 1)) s.felt.pages }

/-- The dirty map relative to a base couch. -/
def dirtyPages (s : State) (base : Nat) : List Nat :=
  (s.felt.pages.filter fun e => decide (base + 1 < e.2)).map Prod.fst

/-- Session entries stamped when they have changed since the last copy (R327). -/
def stampSessions (tick : Nat) (s : State) : State :=
  (List.range 9).foldl (fun s i =>
    let e := sessEnt i (tget {} s.klp.sess i)
    let e0 := sessEnt i {}
    if tget e0 s.felt.sessSnap i = e then s
    else { s with felt.sessSnap := tset e0 s.felt.sessSnap i e, felt.sessStamp := tset 0 s.felt.sessStamp i (tick + 1) }) s

/-- The copy of a couch is sent (R195, R196, R199, R206): full without a base or on request, else relative to the base;
the KLP and pair sections as they have changed since it, both in a full copy; its two bursts leave. -/
def sendCopy (moved handover : Bool) (s : State) : State :=
  if !(feltOn s) then s else
  let t := s.exe.couchTick
  let again := match s.felt.lastCopy with | some c => c.tick == t | none => false
  let s := stampSessions (if again then t + 1 else t) s
  let full := s.felt.fullNext || s.felt.base.isNone
  let base := match s.felt.base with | some b => b | none => 0
  let pages := if full then List.range 416 else dirtyPages s base
  let ents := (List.range 9).filterMap fun i =>
    let x := tget ({} : Sess) s.klp.sess i
    if full then (if x.isOpen then some (sessEnt i x) else none)
    else if base + 1 < tget 0 s.felt.sessStamp i then some (sessEnt i x) else none
  let pairNew := full || (!s.felt.pairRec.isEmpty && decide (base + 1 < s.felt.pairStamp))
  let c : Copy := { full := full, handover := handover, swap := s.felt.swapMark, dorm := s.felt.dormMark, moved := moved,
                    tick := t, base := if full then 2 ^ 48 - 1 else base, pages := pages,
                    mem := copyMem s.exe.couched pages,
                    klp := if full || !ents.isEmpty then some ents else none,
                    pair := if pairNew then some s.felt.pairRec else none }
  { s with felt.lastCopy := some c, felt.copying := true, felt.fullNext := false, felt.burstA := burstA c,
           felt.burstB := burstB c }

/-- ACKNOWLEDGE (R199, R206): of the copy last sent it is in time and moves the base; any acknowledgement of a marked
copy ends its mark. -/
def execAcknowledge (couch : BitVec 48) (w : FeltWire) (s : State) : Out :=
  takeFrame 2 w (leBytes 6 couch.toNat) (fun (s : State) =>
    let t := couch.toNat
    let inTime := match s.felt.lastCopy with | some c => c.tick == t | none => false
    let s := if inTime then
        { s with felt.base := some t, felt.pages := s.felt.pages.filter fun e => decide (t + 1 < e.2) } else s
    let s := if s.felt.swapMark.isSome ∧ s.felt.swapFrom ≤ t then { s with felt.swapMark := none } else s
    if s.felt.dormMark ∧ s.felt.dormFrom ≤ t then { s with felt.dormMark := false } else s) s

/-- FULL_REQUEST (R203): the next couch's copy is full. -/
def execFullRequest (w : FeltWire) (s : State) : Out := takeFrame 3 w [] (fun (s : State) => { s with felt.fullNext := true }) s

/-- EDIT_REPORT (R185). -/
def execEditReport (id : Word) (digest : BitVec 256) (w : FeltWire) (s : State) : Out :=
  takeFrame 5 w (editData id.toNat digest.toNat) (fun (s : State) => { s with felt.reportId := id.toNat, felt.reportDigest := digest.toNat }) s

/-- Wake causes merged into WAKE_CAUSE. -/
def takeCauses (m : Nat) (s : State) : State :=
  (List.range 5).foldl (fun s k => if bitOf m k then setCause k s else s) s

/-- WAKE_FRAME (R72): a DORMANT unit begins its wake sequence, and the one that was ACTIVE signals the wake in its turn; a
unit on its way into DORMANT holds it, and a standby that was to enter with it wakes into HOLD beside it. -/
def execWakeFrame (causes : Byte) (w : FeltWire) (s : State) : Out :=
  takeFrame 6 w [causes] (fun (s : State) =>
    if s.md.mode = .dormant then
      let s := takeCauses causes.toNat s
      startWake (if s.md.prev = .standby then s else signalWake s)
    else if s.md.dormReq then takeCauses causes.toNat { s with md.heldWake := true }
    else if s.md.mode = .standby ∧ s.md.dormMark then startWake (takeCauses causes.toNat { s with md.dormMark := false })
    else s) s

/-! ## The one-way delay (R191) -/

/-- PROBE (R191): the active unit echoes it with its turnaround, which the manual does not give a value: free. -/
def execProbe (id : Word) (w : FeltWire) (s : State) : Out :=
  takeFrame 8 w (leBytes 4 id.toNat) (fun (s : State) =>
    if receiving s then s
    else
      let (v, s) := drawNat (2 ^ 32) s
      sendShort 0x09 (echoData id.toNat v) { s with felt.turn := v }) s

/-- ECHO (R191): half the round trip less the turnaround, both in E-clocks, in ns; the rounding is not given. -/
def execEcho (id turn : Word) (roundE : BitVec 32) (w : FeltWire) (s : State) : Out :=
  takeFrame 9 w (echoData id.toNat turn.toNat) (fun (s : State) =>
    if s.felt.probeId = id.toNat ∧ (receiving s ∨ s.md.mode = .thread) then
      let (d, s) := divFree (((roundE.toNat : Int) - turn.toNat) * 5) 4 s
      { s with felt.delayNs := d.toNat }
    else s) s

/-! ## The copy at the standby (R201 to R206) -/

/-- A copy applied to the standby's sheet: I and Q whole, the named pages, presets as they were. -/
def applyCopy (c : Copy) (m : Memory) : Memory :=
  let pages := if c.full then List.range 416 else c.pages
  let kept := m.filter fun e => !(decide (0x11000000 ≤ e.1 ∧ e.1 < 0x11000800) ||
    (match pageOf e.1 with | some p => pages.contains p && !isPreset e.1 | none => false))
  tmerge 0 kept (copyMem c.mem pages)

/-- A copy that is not applied: a gap (R202). -/
def copyGap (tick : Nat) (s : State) : State :=
  let run := min 2 (s.felt.gapRun + 1)
  let s := raise 0x0901 (tick % 2 ^ 32)
    { s with felt.gaps := satInc (2 ^ 32 - 1) s.felt.gaps, felt.gapRun := run, felt.goodRun := 0 }
  if run = 2 then notReady 2 { s with felt.fullPending := true } else s

/-- A swap mark (R186, R206): swapped once; without the matching staged edit the unit leaves STANDBY. -/
def takeSwapMark (id : Nat) (s : State) : State :=
  if id = s.felt.swapped then s
  else if s.trial.st ≠ .idle ∧ s.trial.editId = id then { swapSlots s with felt.swapped := id }
  else raise 0x0804 5 { s with felt.editBad := true, md.stepDown := some .hold, felt.ready := false }

/-- The pair record of a copy offered to the island; one that finds the mailbox full is offered again with the next
copy (R214). -/
def offerPairRec (r : List Byte) (s : State) : State :=
  if r.isEmpty then s
  else
    let (taken, s) := sluDown 6 255 r { s with felt.pairRec := r }
    { s with felt.offerDue := !taken }

/-- STANDBY begins: the slaving loop runs, the next full copy makes the unit ready. -/
def beginStandby (s : State) : State :=
  { s with felt.wantStandby := false, felt.since := s.clk.tick, felt.goodRun := 0, felt.ready := false, clk.loopOn := true,
           clk.loopN := if s.clk.loopOn && slaved s then s.clk.loopN else 0, md.wakeStep := 0 }

/-- The first acknowledged copy takes the unit into STANDBY on the active unit's present tick number, which its frames tell
(R38, R203). -/
def enterStandby (tick : Nat) (s : State) : State :=
  if s.md.mode = .standby then s
  else
    let n := s.felt.goodRun
    let s := beginStandby { s with clk.tick := max tick s.felt.partnerNow }
    setMode .standby { s with felt.fullPending := true, felt.goodRun := n }

/-- An edit report to the active unit (R185, R206). -/
def reportEdit (s : State) : State :=
  sendShort 0x05 (editData s.trial.editId s.trial.digest) { s with felt.editOut := true }

/-- A whole, consistent copy applied and acknowledged (R201, R203, R204, R206). -/
def copyApplied (c : Copy) (s : State) : State :=
  let s := match c.swap with | some id => takeSwapMark id s | none => s
  let m := applyCopy c s.exe.couched
  let s := { s with exe.couched := m, exe.couchTick := c.tick, exe.everCouched := true, felt.consistent := some c.tick,
                    felt.gapRun := 0, felt.goodRun := satInc 65535 s.felt.goodRun,
                    felt.fullPending := s.felt.fullPending && !c.full }
  let s := (c.klp.getD []).foldl takeEnt s
  let s := match c.pair with
    | some r => offerPairRec r s
    | none => if s.felt.offerDue then offerPairRec s.felt.pairRec s else s
  let s := if c.dorm then { s with md.dormMark := true, md.laneReq := 0 } else s
  let s := if c.handover then
      { s with felt.claimIn := if couchOnCompletion s && !c.moved then 2 else 1 } else s
  let s := enterStandby c.tick (sendShort 0x02 (leBytes 6 c.tick) s)
  if !c.full then s
  else
    let s := if s.trial.st = .idle then s else reportEdit s
    if s.felt.ready || !inPhase s || !s.felt.trained || s.felt.editBad then s
    else raise 0x0903 0 { s with felt.ready := true }

/-- A copy fits this unit's last consistent sheet (R201). -/
def copyFits (c : Copy) (s : State) : Bool :=
  match s.felt.consistent with
  | none => c.full
  | some t => decide (t < c.tick) && (c.full || decide (c.base ≤ t))

/-- COPY_RECEIVED (R201, R202): the two bursts as they arrived; none: incomplete; and whether a bubble that the bytes do not show
touched them. Every bad CRC is counted, a valid burst breaks the silence. Of a copy that left no header the tick reported is free. -/
def execCopyReceived (a b : Option (List Byte)) (bubble : Bool) (s : State) : Out :=
  ok (if !receiving s || !feltOn s then s else
    let s := if validBurst 0 a || validBurst 1 b then { s with felt.silence := 0 } else s
    let s := { s with felt.crcBurst := satAdd 65535 s.felt.crcBurst (b2n (crcFailed a) + b2n (crcFailed b)) }
    match if bubble then none else goodCopy a b with
    | some c => if copyFits c s then copyApplied c s else copyGap c.tick s
    | none =>
      match (match a with | some x => some x | none => b) with
      | some x => copyGap (fld x 8 6) s
      | none =>
        let (v, s) := drawNat (2 ^ 32) s
        copyGap v s)

/-! ## Negotiation (R86, R87) -/

/-- Serial numbers of the enumerated blocks in home numbering. -/
def ownSerials (s : State) : List Nat := (List.range s.fl.n).map fun fb => (block fb s).serial

/-- The partner has told a stepping other than this unit's (R7). -/
def wrongStepping (s : State) : Bool := bitOf s.nego.parts 0 && s.nego.idcode != Config.stepping

/-- This unit's own half of the exchange: the five parts of Table 9.3 (R86). -/
def sendNego (s : State) : State :=
  let ser := (ownSerials s).map (BitVec.ofNat 32) ++ List.replicate 16 0
  [NegoPart.identity (BitVec.ofNat 8 Config.stepping) (isHome s) (BitVec.ofNat 8 s.md.mode.code) (BitVec.ofNat 8 s.fl.n)
      s.fl.foreign,
    .cfg (BitVec.ofNat 256 s.img.cfgDigest), .prog (BitVec.ofNat 256 s.img.progDigest), .low (ser.take 8),
    .high ((ser.drop 8).take 8)].foldl (fun s p => sendShort 0x07 (negoData p) s) s

/-- A negotiation outcome: HOLD raises EVT-0407 with the row, and beside another stepping it gives up its blocks (R7); STANDBY releases its blocks and reports it; ACTIVE beside
a partner waits for that report (R87). -/
def outcome (row : Nat) (m : Mode) (s : State) : State :=
  let s := { s with nego.row := row, nego.result := some m }
  let s := match m with
    | .hold => { raise 0x0407 row s with md.thStat := 11, fl.relAll := s.fl.relAll || wrongStepping s }
    | .standby => { s with fl.relAll := true, md.thStat := 11 }
    | _ => if row = 8 ∧ !bitOf s.nego.parts 5 then { s with nego.waitRelease := true } else { s with md.thStat := 11 }
  s

/-- Rows 3 to 5 do not hold: versions, serial lists and digests agree. -/
def firstMismatch (s : State) : Nat :=
  if s.nego.idcode ≠ Config.stepping then 3
  else if s.nego.serials.take s.nego.blocks ≠ ownSerials s ∨ s.nego.blocks ≠ s.fl.n then 4
  else if s.nego.cfg ≠ s.img.cfgDigest ∨ s.nego.prog ≠ s.img.progDigest then 5
  else 0

/-- Table 4.8 with the partner's data whole over a trained link: the first row that applies. A partner neither in THREAD nor
ACTIVE fits none: row 0 and HOLD, the model's own. -/
def negoSettle (s : State) : State :=
  let bad := firstMismatch s
  let active := s.nego.mode == 3 || s.felt.partnerMode == some 3
  let threading := s.nego.mode == 1 && !active
  if s.fl.foreign ∧ active then outcome 1 (if bad = 0 then .standby else .hold) s
  else if bad ≠ 0 then outcome bad .hold s
  else if active then outcome 6 .standby s
  else if threading ∧ s.nego.home = isHome s then outcome 7 .hold s
  else if threading then outcome 8 (if isHome s then .active else .standby) s
  else outcome 0 .hold s

/-- The end of the 500 ms of step 10; data complete in the last tick is in time (R50). A trained link with no whole exchange
fits no row of Table 4.8. -/
def negoTimeout (s : State) : State :=
  if s.felt.trained then outcome 0 .hold s
  else if s.fl.foreign then outcome 2 .hold s
  else if !s.felt.partnerOk then outcome 9 .active s
  else outcome 10 (if isHome s then .active else .hold) s

/-- Step 10 as it stands. -/
def negotiate (s : State) : State :=
  if s.md.mode ≠ .thread ∨ s.md.thStat ≠ 10 ∨ s.nego.result.isSome then s
  else if s.felt.trained ∧ s.nego.parts % 32 = 31 then negoSettle s
  else if 500 * ticksPerSec s < (s.clk.tick - s.md.negoAt) * 1000 then negoTimeout s
  else s

/-- A release report that has not come when the 500 ms of step 10 end: no role (R86, R87). -/
def reportTimeout (s : State) : State :=
  if s.nego.waitRelease ∧ 500 * ticksPerSec s < (s.clk.tick - s.md.negoAt) * 1000 then
    outcome 8 .hold { s with nego.waitRelease := false }
  else s

/-- A part of the negotiation data stored. -/
def takePart (p : NegoPart) (n : Nego) : Nego :=
  match p with
  | .identity v h m b f =>
    { n with parts := setBit n.parts 0, idcode := v.toNat, home := h, mode := m.toNat, blocks := b.toNat, foreign := f }
  | .cfg d => { n with parts := setBit n.parts 1, cfg := d.toNat }
  | .prog d => { n with parts := setBit n.parts 2, prog := d.toNat }
  | .low l =>
    { n with parts := setBit n.parts 3,
             serials := ((l ++ List.replicate 8 0).take 8).map BitVec.toNat ++ (n.serials ++ List.replicate 16 0 |>.drop 8).take 8 }
  | .high l =>
    { n with parts := setBit n.parts 4,
             serials := (n.serials ++ List.replicate 16 0).take 8 ++ ((l ++ List.replicate 8 0).take 8).map BitVec.toNat }

/-- NEGOTIATION_FRAME (R86): in THREAD a part of the partner's data; outside it the unit answers a threading partner with its
own half. A standby that learns of another stepping reports it and leaves STANDBY (R7, Table 3.4). -/
def execNegotiationFrame (p : NegoPart) (w : FeltWire) (s : State) : Out :=
  takeFrame 7 w (negoData p) (fun (s : State) =>
    if s.md.mode = .thread then negotiate { s with nego := takePart p s.nego }
    else match p with
      | .identity v _ _ _ _ =>
        let s := sendNego { s with nego := takePart p s.nego }
        if s.md.mode = .standby ∧ v.toNat ≠ Config.stepping then
          { raise 0x0407 3 s with nego.row := 3, md.stepDown := some .hold }
        else s
      | _ => s) s

/-- RELEASE_REPORT (R87): the partner owns no block any more, and the unit that becomes ACTIVE completes step 10. -/
def execReleaseReport (count : Byte) (w : FeltWire) (s : State) : Out :=
  takeFrame 4 w [count] (fun (s : State) =>
    let s := { s with nego.parts := setBit s.nego.parts 5, nego.blocks := if s.nego.parts % 2 = 0 then count.toNat else s.nego.blocks }
    let s := if s.md.mode = .thread then { s with fl.foreign := false } else s
    if s.md.mode = .thread ∧ s.nego.waitRelease then { s with nego.waitRelease := false, md.thStat := 11 } else s) s

/-! ## Takeover, hand-over and return (R207 to R213) -/

/-- PARTNER_OK_LOW (R450): a low of at least 1.0 µs is captured for the next boundary. -/
def execPartnerOkLow (ns : Nat) (s : State) : Out :=
  ok (if 1000 ≤ ns ∧ s.md.mode ≠ .backup then { s with felt.okLow := true } else s)

/-- Entry to ACTIVE at this boundary: the full cycle of Table 8.4 row 1 on the sheet of Table 6.3 (R60, R119). After a
takeover or a return I edges are taken against the last consistent sheet received (R139); else the cycle has none. -/
def enterActive (over' : Bool) (s : State) : State :=
  let s := trialToStaged s
  let latched := s.exe.couched.filter fun e => inI e.1 || inEv e.1
  setMode .active { s with exe.latched := latched, exe.nextFull := 1, exe.noEdge := !over',
                           clk.loopOn := false, clk.lateRun := 0, felt.wantStandby := false, felt.base := none,
                           felt.ready := false, felt.keep := over' }

/-- A ready standby becomes ACTIVE: path 1 or 2 of R207 raises EVT-0904, cause 3 or 4 is a hand-over. -/
def takeOver (cause : Nat) (s : State) : State :=
  let s := enterActive true { s with felt.lastCause := cause, felt.claimIn := 0, felt.returnPending := false,
                                     felt.syncDue := some cause, felt.okLow := false, felt.fullPending := false,
                                     md.dormMark := false }
  let s := if cause = 3 then { s with felt.returns := s.clk.tick :: s.felt.returns } else s
  if cause ≤ 2 then raise 0x0904 cause s else s

/-- The takeover test of a standby's boundary (R207, R212); only a ready one takes over (R204). A copy's hand-over mark does
not say why the partner releases: while this unit asks for its return the claim counts as one (cause 3), else as a
hand-over. -/
def takeoverCause (s : State) : Option Nat :=
  if s.md.mode ≠ .standby then none
  else if s.felt.ready ∧ s.felt.okLow then some 1
  else if s.felt.ready ∧ 2 ≤ s.felt.silence ∧ s.felt.witness then some 2
  else if s.felt.ready ∧ s.felt.claimIn = 1 then some (if s.felt.returnPending then 3 else 4)
  else none

/-- This unit's returns within the last 3 600 s counted in ticks. -/
def recentReturns (s : State) : List Nat :=
  s.felt.returns.filter fun t => decide (s.clk.tick < t + 3600 * ticksPerSec s)

/-- The home unit's return request, evaluated at each boundary (R213). -/
def askReturn (s : State) : State :=
  let could := s.md.mode == .standby && isHome s && cf s 0x15 0 2 1 1 == 1 && s.felt.ready
    && decide (4096 ≤ s.felt.goodRun) && !s.md.fault
    && decide (s.felt.since + cf s 0x15 0 4 2 60 * ticksPerSec s ≤ s.clk.tick)
  let s := { s with felt.returns := recentReturns s }
  if !could then { s with felt.returnPending := false }
  else if s.felt.returns.length < 3 then { s with felt.returnPending := true, felt.returnBlocked := false }
  else if s.felt.returnBlocked then { s with felt.returnPending := false }
  else raise 0x0906 0 { s with felt.returnPending := false, felt.returnBlocked := true }

/-- A release begins at the couch that applies it (R212 step 1): nothing executes any more, and a unit that returns or was
asked for STANDBY is in STANDBY from this couch on (Table 3.4). -/
def beginRelease (toStandby : Bool) (s : State) : State :=
  let s := wdStopC (trialToStaged (stopEngine { s with
    felt.rel := some { toStandby := toStandby }, felt.returnAsked := false, md.handOver := false, fl.urg := [] }))
  if toStandby then
    setMode .standby (beginStandby { s with felt.lpown := false, felt.keep := false, felt.fullPending := true,
                                            felt.consistent := none })
  else s

/-- The releasing unit at a boundary after its release sweep: when its partner is ACTIVE the release is over; at the second
boundary without a claim it claims again and re-enters ACTIVE from its own sheet (R212 step 4). -/
def releaseBoundary (s : State) : State :=
  match s.felt.rel with
  | none => s
  | some r =>
    if !r.swept then s
    else if s.felt.partnerMode = some 3 then endRelease s
    else if r.boundaries + 1 < 2 then { s with felt.rel := some { r with boundaries := r.boundaries + 1 } }
    else
      let s := enterActive true { s with felt.rel := none, felt.lastCause := 5, md.heldReset := 0, felt.syncDue := none,
                                         felt.fullPending := false }
      raise 0x090A 0 s

/-- LPOWN as it must stand now (R209, R210, R328): high while ACTIVE, every enumerated block owned, LPOWN_IN low at its rise;
the announcements and the SYNC datagrams follow its rise. -/
def lpownNow (s : State) : State :=
  let all := s.fl.n != 0 && (List.range s.fl.n).all fun b => bitOf s.fl.owned b
  let may := s.md.mode == .active && s.felt.rel.isNone && all && (s.felt.lpown || !s.felt.lpownIn)
  if may && !s.felt.lpown then
    let s := syncEngs { s with felt.lpown := true, felt.garp := if paired s then cf s 0x15 0 3 1 3 else 0 }
    match s.felt.syncDue with
    | some c => { sendSyncs (if c ≤ 2 then 0 else 1) s with felt.syncDue := none }
    | none => s
  else if may then s
  else if s.felt.lpown then syncEngs { s with felt.lpown := false, felt.garp := 0 } else s

/-- The announcements of one boundary: on every uplink in use, an ARP for shared_v4 and a neighbour advertisement for
shared_v6, each where the address is not 0 (R210). -/
def announcements (s : State) : List Announce :=
  let v4 := sharedAddr s false
  let v6 := sharedAddr s true
  let mac := sharedMac s
  ((List.range 2).filter (uplinkUsed s)).flatMap fun e =>
    (if v4 = 0 then [] else [{ uplink := e, v6 := false, addr := v4, mac := mac }])
      ++ (if v6 = 0 then [] else [{ uplink := e, v6 := true, addr := v6, mac := mac }])

/-- One address announcement at this boundary and the following ones (R210). -/
def announce (s : State) : State :=
  if s.felt.garp ≠ 0 ∧ s.felt.lpown then
    { s with felt.garp := s.felt.garp - 1, felt.announced := s.felt.announced + 1,
             felt.ann := s.felt.ann ++ announcements s }
  else s

/-- What the return of a sweep means for LPOWN: it rises as soon as every claim has been accepted, and the first announcement
goes out (R209, Table 9.6). -/
def lpownReturn (s : State) : State :=
  let t := lpownNow s
  if t.felt.lpown && !s.felt.lpown then announce t else t

/-- FELT_COPY_END (R171): the copy of the previous couch has ended. A couch on completion that waits for it
follows in execFeltCopyEnd. -/
def feltCopyEnd (s : State) : State := { s with felt.copying := false }

/-! ## Status (R216) -/

/-- FELT_STAT (Table 9.8). -/
def feltStat (s : State) : Nat :=
  min 15 s.felt.silence * 2 ^ 20 + s.felt.gapRun * 2 ^ 16 + b2n s.felt.witness * 2 ^ 7 + b2n s.felt.partnerOk * 2 ^ 6
    + b2n s.felt.fullPending * 2 ^ 5 + b2n s.felt.trained * 2 ^ 4 + feltRole s * 4 + b2n s.felt.lane1 * 2
    + b2n s.felt.lane0
/-- FELT_PHASE: phase error in ns, delay in ns. -/
def feltPhase (s : State) : Nat := ofSigned 16 (s.clk.phaseErr * 5 / 2) * 2 ^ 16 + s.felt.delayNs % 65536
/-- PAIR_STAT (Table 9.9). -/
def pairStat (s : State) : Nat :=
  s.felt.goodRun * 2 ^ 16 + min 3 (recentReturns s).length * 2 ^ 10 + b2n s.felt.returnBlocked * 2 ^ 9
    + b2n s.felt.returnPending * 2 ^ 8 + s.felt.lastCause

end Sys2Proof.Machine
end

