-- ==== Sys2Proof/Machine/Validate.lean ====
section
/-! DEFINITION. Step 6 of tail threading (04, 05, 26): the range checks of every configuration record, each naming the
first field at fault, and the checks between records. -/

namespace Sys2Proof.Machine

/-- A reader of a record: offset, size, default. -/
abbrev Getter := Nat → Nat → Nat → Nat
/-- Checks of a record in payload order: the offset of a field and whether its value is allowed. -/
abbrev Checks := List (Nat × Bool)

/-- The fields of a payload; bytes past its end take the default (R106). -/
def getter (bs : List Byte) : Getter := fun o n d => if o < bs.length then fld bs o n else d
/-- The offset of the first field at fault. -/
def firstBad (l : Checks) : Option Nat := (l.find? fun c => !c.2).map Prod.fst
/-- A value within a range. -/
def rng (g : Getter) (o n d lo hi : Nat) : Nat × Bool := (o, decide (lo ≤ g o n d ∧ g o n d ≤ hi))
/-- A value within a range, or all ones for none. -/
def rngOr (g : Getter) (o n d hi : Nat) : Nat × Bool := (o, decide (g o n d ≤ hi) || g o n d == 256 ^ n - 1)
/-- Reserved bytes, which must be zero. -/
def zer (g : Getter) (o n : Nat) : Nat × Bool := (o, g o n 0 == 0)

/-- Well-formed UTF-8 with `need` continuation bytes still to come. -/
def utf8 : Nat → List Byte → Bool
  | n, [] => n == 0
  | 0, b :: l =>
    if b.toNat < 0x80 then utf8 0 l
    else if 0xC2 ≤ b.toNat ∧ b.toNat < 0xE0 then utf8 1 l
    else if 0xE0 ≤ b.toNat ∧ b.toNat < 0xF0 then utf8 2 l
    else if 0xF0 ≤ b.toNat ∧ b.toNat < 0xF5 then utf8 3 l
    else false
  | n + 1, b :: l => decide (0x80 ≤ b.toNat ∧ b.toNat < 0xC0) && utf8 n l

/-! ## Records alone -/

/-- System record (Table 5.8). -/
def sysChecks (bs : List Byte) : Checks :=
  let g := getter bs
  [rng g 5 1 0 0 2, rng g 6 1 2 0 2, rng g 7 1 0 0 3, (8, utf8 0 ((bs.drop 8).take 16)), zer g 24 8]
/-- Lane record (Table 5.9). -/
def laneChecks (g : Getter) : Checks := [rng g 0 1 0 0 2, rng g 1 1 0x3F 0 0x3F, rng g 2 1 0 0 63, rng g 3 1 0 0 1, zer g 4 12]
/-- Tick record (Table 2.2). -/
def tickChecks (g : Getter) : Checks :=
  [rng g 0 1 1 0 3, rng g 1 1 1 1 64, rng g 2 1 32 16 96, rng g 3 1 3 1 15, rng g 4 1 0 0 1, zer g 5 3]
/-- Mode record (Table 3.3). -/
def modeChecks (g : Getter) : Checks :=
  [rng g 0 1 0 0 2, rng g 2 1 15 0 15, rng g 3 1 1 0 1, zer g 4 12] ++
    (List.range 8).map fun i =>
      (16 + 4 * i, decide (g (16 + 4 * i) 4 0 % 65536 ≤ 8191) && decide (g (16 + 4 * i) 4 0 / 65536 < 4))
/-- Block settings from offset `o` on (Table 10.5). -/
def settingChecks (g : Getter) (o : Nat) : Checks :=
  ((List.range 16).flatMap fun k =>
    [rng g (o + 4 * k) 2 0 0 1000, rng g (o + 4 * k + 2) 1 0 0 31, zer g (o + 4 * k + 3) 1]) ++
  (List.range 8).flatMap fun j =>
    [(o + 64 + 2 * j, decide (g (o + 64 + 2 * j) 1 0 < 16 ∧ g (o + 64 + 2 * j) 1 0 % 4 < 3)), zer g (o + 65 + 2 * j) 1]
/-- Field chain record (Table 11.8, R258). -/
def chainChecks (bs : List Byte) : Checks :=
  let g := getter bs
  let n := min 16 (g 0 1 0)
  let ib (b : Nat) : Nat := g (8 + 88 * b) 2 0
  let ob (b : Nat) : Nat := g (10 + 88 * b) 2 0
  [rng g 0 1 0 1 16, rng g 1 1 8 1 64, rng g 2 1 3 1 15, zer g 3 5] ++
    (List.range n).flatMap fun b =>
      [(8 + 88 * b, decide (ib b ≤ 8176 ∧ ib b % 16 = 0 ∧ ib b % 1024 < 992) && (List.range b).all fun c => ib c != ib b),
       (10 + 88 * b, decide (ob b ≤ 8184 ∧ ob b % 8 = 0 ∧ ob b % 1024 < 992) && (List.range b).all fun c => ob c != ob b),
       zer g (12 + 88 * b) 4] ++ settingChecks g (16 + 88 * b)
/-- Pair configuration record (Table 9.7, R215). -/
def pairChecks (g : Getter) : Checks :=
  let mac := g 8 6 0
  [rng g 0 1 0 0 1, rng g 1 1 0 0 1, rng g 2 1 1 0 1, rng g 3 1 3 1 8, rng g 4 2 60 0 3600, rng g 6 1 1 0 3, zer g 7 1,
   (8, g 0 1 0 != 1 || (mac != 0 && mac % 2 == 0)), zer g 14 2, zer g 36 4]
/-- Members that a ream family has (Table 6.9). -/
def familySize (f : Nat) : Nat := nth 0 [8, 56, 16, 2048, 512, 64] f
/-- Ream definitions record (R132). -/
def reamChecks (g : Getter) : Checks :=
  (List.range 16).flatMap fun r =>
    let o := 16 * r
    let f := g o 1 0xFF
    let listed := f == 1 || f == 3 || f == 4 || f == 5
    let first := g (o + 2) 2 0
    let count := g (o + 4) 2 0
    let stride := g (o + 6) 2 1
    [(o, decide (f ≤ 5) || f == 0xFF), zer g (o + 1) 1,
     (o + 2, !listed || decide (first < familySize f)),
     (o + 4, decide (count ≤ 2048) && (!listed || count == 0 || decide (first + (count - 1) * stride < familySize f))),
     (o + 6, decide (1 ≤ stride ∧ stride ≤ 64)),
     (o + 8, if f = 0 then decide (g (o + 8) 8 0 < 256) else if f = 2 then decide (g (o + 8) 8 0 < 65536)
             else g (o + 8) 8 0 == 0)]
/-- Lane that Table 12.1 gives engine `i`. -/
def engineLane (g : Getter) (i : Nat) : Nat :=
  if i < 40 then i / 5 else if i < 48 then i - 40 else if i < 52 then 0xFF else g 14 1 0
/-- Lane port record of instance `i` (Table 12.3, R267). -/
def portChecks (i : Nat) (g : Getter) : Checks :=
  let uart := decide (i < 40)
  let can := decide (48 ≤ i ∧ i < 52)
  let fmt := g 12 1 1
  let rate := g 4 4 9600
  let data := g 8 4 0
  let cls := g 16 2 0
  [rng g 0 1 0 0 1, rngOr g 1 1 0xFF 31, rngOr g 2 1 0xFF 63, rngOr g 3 1 0xFF 63,
   (4, (!uart || decide (300 ≤ rate ∧ rate ≤ 3000000)) && (!can || decide (10000 ≤ rate ∧ rate ≤ 1000000))),
   (8, !can || data == 0 || decide (1000000 ≤ data ∧ data ≤ 5000000)),
   (12, decide (fmt < 128 ∧ fmt % 4 < 3 ∧ fmt / 4 % 4 < 3) && (!bitOf fmt 6 || decide (i < 16))),
   (13, g 13 1 (engineLane g i) == engineLane g i),
   (14, decide (g 14 1 0 ≤ 7) && (!decide (40 ≤ i ∧ i < 48) || g 14 1 0 == i - 40)),
   rng g 15 1 15 0 15,
   (16, uart || can || cls == 2 || cls == 3 || cls == 7), zer g 18 2,
   rng g 24 2 0 0 2047, rng g 26 2 0 0 2047, rng g 28 1 0 0 23, rng g 29 1 0 0 11, rng g 30 1 0 0 31, rng g 31 1 0 0 15]
/-- KLP type codes (Table 14.5). -/
def klpTypes : List Nat :=
  [1, 2, 3, 4, 5, 6, 7, 0x10, 0x11, 0x12, 0x13, 0x14, 0x15, 0x20, 0x21, 0x22, 0x23, 0x24, 0x25, 0x26, 0x27, 0x28]
/-- Dialect table (R268, Tables 12.4 to 12.7). -/
def dialectChecks (bs : List Byte) : Checks :=
  let g := getter bs
  let poolLen := bs.length - 576
  let inPool (o n : Nat) : Bool := n == 0 || decide (o + n ≤ poolLen)
  let dlen := g 7 1 0
  [(0, decide (g 0 1 0 ≤ 3) && decide (bs.length ≤ 4096)), rng g 1 1 0 0 63, rng g 2 2 1 1 2048, rng g 4 1 0 0 15,
   rng g 5 1 1 1 2, (7, decide (dlen < 16 ∧ dlen % 4 ≤ 2 ∧ dlen / 4 ≤ 2)), rng g 12 1 0 0 4, rng g 15 1 3 1 15,
   rng g 16 2 35 2 65535, rng g 20 2 0 0 2047, rng g 22 1 0 0 15, rng g 23 1 4 1 255, rng g 24 1 0 0 16,
   rng g 25 1 0 0 16, rng g 26 1 0 0 16, rng g 27 1 2 0 7, rng g 28 2 1 1 65535,
   (30, decide (g 30 2 0 < g 28 2 1)),
   (32, !bitOf (g 1 1 0) 5 || inPool (g 32 2 0) (g 34 1 0)), (34, !bitOf (g 1 1 0) 5 || g 34 1 0 != 0),
   rng g 35 1 0 0 8, (36, inPool (g 36 2 0) (g 35 1 0)), rng g 38 1 0 0 8, zer g 39 1,
   (40, inPool (g 40 2 0) (g 38 1 0)), zer g 42 22] ++
  ((List.range (min 16 (g 24 1 0))).flatMap fun e =>
    let o := 64 + 8 * e
    [(o, decide (g o 2 0 % 32768 ≤ 2047)), rng g (o + 2) 1 0 0 64, rng g (o + 3) 1 0 0 6, rng g (o + 4) 1 0 0 1,
     rng g (o + 5) 1 0 0 1, (o + 6, decide (g (o + 6) 1 0x20 < 128)), (o + 7, decide (g (o + 7) 1 0x20 < 128))]) ++
  ((List.range (min 16 (g 25 1 0))).flatMap fun m =>
    let o := 192 + 16 * m
    let gr := g (o + 10) 1 1
    [rng g o 2 0 0 2047, rng g (o + 2) 1 0 0 8, (o + 3, [0, 0x10, 0x11, 0x24, 0x25, 0x26].contains (g (o + 3) 1 0)),
     (o + 4, inPool (g (o + 4) 2 0) (g (o + 2) 1 0)), rngOr g (o + 8) 1 0xFF 23, rngOr g (o + 9) 1 0xFF 11,
     (o + 10, decide (1 ≤ gr % 8 ∧ gr % 8 ≤ 4) && (gr / 8 == 0 || gr / 8 == 2)), rng g (o + 11) 1 0 0 15,
     rng g (o + 12) 1 8 0 9, rng g (o + 13) 1 0 0 15, zer g (o + 14) 2]) ++
  ((List.range (min 16 (g 26 1 0))).flatMap fun t =>
    let o := 448 + 8 * t
    let len := g (o + 4) 1 0
    let arg := g (o + 1) 1 0
    [rng g o 1 0 0 1, (o + 1, if g o 1 0 = 0 then klpTypes.contains arg else decide (arg ≤ 31)),
     (o + 2, inPool (g (o + 2) 2 0) len), (o + 5, decide (g (o + 5) 1 0xFF ≤ len) || g (o + 5) 1 0xFF == 0xFF),
     (o + 6, decide (g (o + 6) 1 0 % 16 ≤ 3)), rng g (o + 7) 1 0 0 1])
/-- The node that a shaper entry binds, as kind, port and target. -/
def shaperKey (g : Getter) (k : Nat) : Nat × Nat × Nat :=
  let o := 34064 + 16 * k
  let kind := g o 1 0
  (kind, if kind = 1 then 0 else g (o + 1) 1 0, if kind = 4 then 0 else g (o + 2) 2 0)
/-- Scheduler parameters (R302). -/
def schedChecks (g : Getter) : Checks :=
  let qp (q : Nat) : Nat := g (1296 + 16 * q) 1 0xFF
  let qv (q : Nat) : Nat := g (1297 + 16 * q) 1 7
  let qu (q : Nat) : Nat := g (1298 + 16 * q) 1 0
  [rng g 0 1 8 1 64, zer g 1 1, rng g 2 2 256 0 4096, zer g 4 12] ++
  ((List.range 64).flatMap fun p =>
    let o := 16 + 16 * p
    [rng g o 1 1 0 1, rng g (o + 1) 1 0 0 63, rng g (o + 2) 1 0 0 1, zer g (o + 3) 1] ++
      (List.range 6).map fun j => rng g (o + 4 + 2 * j) 2 256 1 4096) ++
  ((List.range 64).flatMap fun u => [rng g (1040 + 4 * u) 2 256 1 4096, zer g (1042 + 4 * u) 2]) ++
  ((List.range 2048).flatMap fun q =>
    let o := 1296 + 16 * q
    let src := g (o + 3) 1 0xFF
    let y := g (o + 10) 2 0xFFFF
    let used := qp q != 0xFF
    [rngOr g o 1 0xFF 56, rng g (o + 1) 1 7 0 7, rng g (o + 2) 1 0 0 63,
     (o + 3, (decide (src ≤ 56) || src == 0xFF) && (!used || (qv q != 0 || src == 56) && (decide (2 ≤ qv q) || src != 55))),
     rng g (o + 4) 2 256 1 4096, rng g (o + 6) 2 256 16 16384,
     (o + 8, decide (g (o + 8) 2 0xFFFF ≤ 511) || g (o + 8) 2 0xFFFF == 0xFFFF),
     (o + 8, !used || qv q != 0 || g (o + 8) 2 0xFFFF == 0xFFFF),
     (o + 10, y == 0xFFFF || (decide (y ≤ 2047) && qp y == qp q && qu y == qu q && qv y == qv q + 1)),
     zer g (o + 12) 4]) ++
  ((List.range 512).flatMap fun k =>
    let o := 34064 + 16 * k
    let kind := g o 1 0
    let t := g (o + 2) 2 0
    [rng g o 1 0 0 4, rng g (o + 1) 1 0 0 56,
     (o + 2, (match kind with
        | 1 => decide (t ≤ 2047) && (qp t == 0xFF || qv t != 0)
        | 2 => decide (t ≤ 63)
        | 3 => decide (1 ≤ t ∧ t ≤ 7)
        | 4 => t == 0
        | _ => true) && (kind == 0 || (List.range k).all fun j => shaperKey g j != shaperKey g k)),
     rng g (o + 8) 2 256 1 65535, zer g (o + 10) 2])
/-- Policer parameters (R303). -/
def policerChecks (g : Getter) : Checks :=
  (List.range 512).flatMap fun i =>
    let o := 20 * i
    [rng g o 1 0 0 2, zer g (o + 1) 3, (o + 4, decide (g (o + 4) 4 0 ≤ g (o + 8) 4 0)),
     rng g (o + 12) 4 2048 1 1048576, rng g (o + 16) 4 2048 1 1048576]
/-- Check-value unit record (Table 17.1, R385). -/
def cvChecks (g : Getter) : Checks :=
  let w := g 0 1 0
  let top := 2 ^ w
  let bits := g 3 1 0
  [rng g 0 1 0 3 32, rng g 1 1 0 0 15, rng g 2 1 0 0 2,
   (3, if g 2 1 0 = 0 then bits == 0 else bits == 4 || bits == 8 || bits == 16),
   (4, decide (g 4 4 0 < top) && g 4 4 0 % 2 == 1), (8, decide (g 8 4 0 < top)), (12, decide (g 12 4 0 < top)),
   rng g 16 2 0 0 2047, rng g 18 1 0 0 1, zer g 19 5]
/-- Uplink and KLP record (Table 14.2). -/
def uplinkChecks (g : Getter) : Checks :=
  let word := g 56 1 0xFF
  let bit := g 57 1 0xFF
  [(0, g 0 1 0 % 2 == 0 && decide (g 5 1 0 ≤ 0xFC)), rng g 6 1 0 0 1, rng g 7 1 0 0 2, rng g 8 2 0 0 4094, rng g 10 2 0 0 4094] ++
  ((List.range 8).map fun v => rng g (12 + v) 1 0 0 7) ++
  [rng g 36 1 24 1 30, rng g 37 1 24 1 30, zer g 38 2, rng g 48 2 40 4 4000, rng g 50 1 8 1 15, rng g 51 1 1 0 16,
   rng g 52 4 40000 400 4000000, (56, decide (word ≤ 8) || word == 0xFF), (57, decide (bit ≤ 23) || bit == 0xFF),
   rng g 58 2 0 0 2047, rng g 60 2 0 0 2047, rng g 62 2 0 0 2047] ++
  ((List.range 8).map fun n => rng g (64 + 2 * n) 2 0 0 2047) ++ [zer g 80 16]
/-- Management record (Table 18.2). -/
def mgmtChecks (g : Getter) : Checks :=
  let port := g 4 2 47642
  [rng g 0 1 3 1 3, rng g 1 1 4 1 4, rng g 2 2 60 10 3600, (4, decide (1024 ≤ port) && port != 47640 && port != 47641),
   rng g 6 1 1 0 1, rng g 7 1 8 1 32, rng g 28 2 514 1 65535, rng g 30 2 50 1 1000, rng g 32 1 6 0 7, zer g 33 31]
/-- Watchdog record (Table 20.3). -/
def wdChecks (g : Getter) : Checks :=
  [rng g 0 1 1 0 1, rng g 1 1 1 0 1, rng g 2 1 0 0 3, rng g 3 1 8 2 255, rng g 4 4 1000 10 60000,
   rng g 8 4 600000 1000 3600000, rng g 12 2 10 1 10000, zer g 14 2]
/-- Clock, backup and retain record (Table 19.1). -/
def clockChecks (g : Getter) : Checks :=
  let off := toSigned 16 (g 2 2 0)
  [rng g 0 2 100 100 10000, (2, decide (-2048 ≤ off ∧ off ≤ 2047)), rng g 4 1 0 0 2, rng g 5 1 1 0 1,
   rng g 6 2 256 64 1024, rng g 8 2 128 16 1000, zer g 10 2, zer g 32 8]
/-- Attendant key record (Table 21.1, R464). -/
def keyChecks (g : Getter) : Checks :=
  let base := g 2 2 0
  [(2, decide (base ≤ 8160 ∧ base % 32 = 0 ∧ base % 1024 < 992)), rng g 4 2 60 0 3600, rng g 6 2 300 16 4095,
   rng g 8 2 256 1 65535, rng g 10 2 1024 1 65535, zer g 12 4] ++
  (List.range 16).map fun k => rng g (16 + 2 * k) 2 200 16 4095
/-- Bag-check record (R381). -/
def bagChecks (g : Getter) : Checks :=
  [rng g 0 2 0 0 2047, zer g 2 6] ++
  (List.range 8).flatMap fun n =>
    let o := 8 + 8 * n
    let c := g o 1 0xFF
    [(o, (decide (c ≤ 3) && (List.range n).all fun m => g (8 + 8 * m) 1 0xFF != c) || c == 0xFF),
     rng g (o + 1) 1 2 0 50, rng g (o + 2) 2 100 0 10000, rng g (o + 4) 2 3000 500 10000,
     (o + 6, decide (g (o + 6) 2 0xFFFF ≤ 8191) || g (o + 6) 2 0xFFFF == 0xFFFF)]

/-- Instances of a record type (Table 5.7). -/
def recInsts (typ : Nat) : Nat :=
  if typ = 0x11 then 8 else if typ = 0x17 then 56 else if typ = 0x18 then 32 else if typ = 0x1B then 64 else 1
/-- The event of a record type (Table 26.2). -/
def recEvent (typ : Nat) : Nat :=
  nth 0x0509 [0x0509, 0x0509, 0x0204, 0x0301, 0x1106, 0x090B, 0x0603, 0x1202, 0x1201, 0x1304, 0x1304, 0x1701, 0x1403,
    0x1803, 0x2001, 0x1909, 0x2105, 0x1603] (typ - 0x10)
/-- The checks of a record alone. -/
def recChecks (r : CfgRec) : Checks :=
  let bs := r.payload
  let g := getter bs
  match r.typ with
  | 0x10 => sysChecks bs
  | 0x11 => laneChecks g
  | 0x12 => tickChecks g
  | 0x13 => modeChecks g
  | 0x14 => chainChecks bs
  | 0x15 => pairChecks g
  | 0x16 => reamChecks g
  | 0x17 => portChecks r.inst g
  | 0x18 => dialectChecks bs
  | 0x19 => schedChecks g
  | 0x1A => policerChecks g
  | 0x1B => cvChecks g
  | 0x1C => uplinkChecks g
  | 0x1D => mgmtChecks g
  | 0x1E => wdChecks g
  | 0x1F => clockChecks g
  | 0x20 => keyChecks g
  | _ => bagChecks g
/-- The failure of a record alone: its event and arg (R106). -/
def recFault (r : CfgRec) : List (Nat × Nat) :=
  if recInsts r.typ ≤ r.inst then [(recEvent r.typ, r.typ * 65536 + 0xFFFE)]
  else match firstBad (recChecks r) with
    | some o => [(recEvent r.typ, r.typ * 65536 + o)]
    | none => []

/-! ## Between records -/

/-- A failure when `bad` holds. -/
def fault (bad : Bool) (code typ off : Nat) : List (Nat × Nat) := if bad then [(code, typ * 65536 + off)] else []

/-- Instances of a record type present and within range. -/
def insts (s : State) (typ : Nat) : List Nat :=
  ((s.img.cfg.filter fun r => r.typ == typ && decide (r.inst < recInsts typ)).map CfgRec.inst).eraseDups.mergeSort

/-- Lane of a lane port record. -/
def recLane (s : State) (e : Nat) : Nat := engineLane (cf s 0x17 e) e

/-- A port's dialect table, when it names one that is present. -/
def portDialect (s : State) (e : Nat) : Option Nat :=
  let d := cf s 0x17 e 1 1 0xFF
  if (cfgRec s 0x18 d).isSome then some d else none

/-- Word groups of a port's map entries: map entry, first word with the port's base, words, mode. -/
def mapGroups (s : State) (e : Nat) : List (Nat × Nat × Nat × Nat) :=
  match portDialect s e with
  | none => []
  | some d => (List.range (cf s 0x18 d 25 1 0)).filterMap fun m =>
      let o := 192 + 16 * m
      let w := cf s 0x18 d (o + 9) 1 0xFF
      let gr := cf s 0x18 d (o + 10) 1 1
      if w = 0xFF then none else some (m, w + cf s 0x17 e 29 1 0, gr % 8, gr / 16)

/-- Event bits of a port's map entries, with the port's base. -/
def mapBits (s : State) (e : Nat) : List (Nat × Nat) :=
  match portDialect s e with
  | none => []
  | some d => (List.range (cf s 0x18 d 25 1 0)).filterMap fun m =>
      let b := cf s 0x18 d (192 + 16 * m + 8) 1 0xFF
      if b = 0xFF then none else some (m, b + cf s 0x17 e 28 1 0)

/-- Two word groups overlap. -/
def groupsMeet (a b : Nat × Nat) : Bool := decide (a.1 < b.1 + b.2 ∧ b.1 < a.1 + a.2)

/-- A dialect table against the ports that name it (R269): the first field at fault. -/
def dialectFault (s : State) (d : Nat) : List (Nat × Nat) :=
  let ports := (insts s 0x17).filter fun e => portDialect s e == some d
  let framing := ports.any fun e =>
    (decide (48 ≤ e ∧ e < 52) || (decide (40 ≤ e) && cf s 0x17 e 16 2 0 == 3)) && cf s 0x18 d 0 1 0 != 0
  let bitBad := ports.flatMap fun e => (mapBits s e).filterMap fun b =>
    if 23 < b.2 then some (192 + 16 * b.1 + 8) else none
  let wordBad := ports.flatMap fun e => (mapGroups s e).filterMap fun (w : Nat × Nat × Nat × Nat) =>
    let clash := (insts s 0x17).any fun e' =>
      recLane s e' == recLane s e && recLane s e != 0xFF && (mapGroups s e').any fun v =>
        groupsMeet (v.2.1, v.2.2.1) (w.2.1, w.2.2.1) && v.2 != w.2
    if 11 < w.2.1 + w.2.2.1 - 1 ∨ clash then some (192 + 16 * w.1 + 9) else none
  match (if framing then [0] else []) ++ bitBad ++ wordBad with
  | [] => []
  | o :: l => [(0x1201, 0x180000 + l.foldl min o)]

/-- Check-value bindings: unit, port, whether it checks received frames (R388). -/
def cvBindings (s : State) : List (Nat × Nat × Bool) :=
  (insts s 0x17).flatMap fun e =>
    (if cf s 0x17 e 2 1 0xFF < 64 then [(cf s 0x17 e 2 1 0xFF, e, true)] else []) ++
    (if cf s 0x17 e 3 1 0xFF < 64 then [(cf s 0x17 e 3 1 0xFF, e, false)] else [])

/-- A unit named twice (R267): the offset of the later name. -/
def cvTwice : List (Nat × Nat × Bool) → List Nat
  | [] => []
  | b :: l => (l.filter fun c => c.1 == b.1).map (fun c => if c.2.2 then 2 else 3) ++ cvTwice l

/-- Failures of one binding (R388). -/
def bindFault (s : State) (b : Nat × Nat × Bool) : List (Nat × Nat) :=
  let (u, e, rx) := b
  let off := if rx then 2 else 3
  if (cfgRec s 0x1B u).isNone then [(0x1701, 0x170000 + off)]
  else
    let mode := cf s 0x1B u 2 1 0
    let n := ceilDiv (cf s 0x1B u 3 1 0) 8
    let at' := cf s 0x1B u 16 2 0
    let meets := match portDialect s e with
      | some d =>
        let len := ceilDiv (cf s 0x1B u 0 1 0) 8
        let first := cf s 0x18 d 2 2 1 - cf s 0x18 d 22 1 0 - len
        cf s 0x18 d 0 1 0 == 0 && bitOf (cf s 0x18 d 1 1 0) 1 && n != 0 && groupsMeet (at', n) (first, len)
      | none => false
    fault ((rx && mode == 2) || (!rx && mode == 1)) 0x1701 0x1B 2 ++ fault meets 0x1701 0x1B 16

/-- A port whose dialect checks values and which names no unit for a direction (R388). -/
def cvMissing (s : State) (e : Nat) : List (Nat × Nat) :=
  match portDialect s e with
  | some d =>
    if !bitOf (cf s 0x18 d 1 1 0) 1 then []
    else if cf s 0x17 e 2 1 0xFF = 0xFF then [(0x1701, 0x170002)]
    else fault (cf s 0x17 e 3 1 0xFF == 0xFF) 0x1701 0x17 3
  | none => []

/-- The uplink record against the scheduler and the ports (R311). -/
def uplinkFault (s : State) : List (Nat × Nat) :=
  if (cfgRec s 0x1C 0).isNone then [] else
  let kp := cf s 0x1C 0 6 1 0
  let q (o : Nat) : Nat := cf s 0x1C 0 o 2 0
  let sq (i o d : Nat) : Nat := cf s 0x19 0 (1296 + 16 * i + o) 1 d
  let word := cf s 0x1C 0 56 1 0xFF
  let bit := cf s 0x1C 0 57 1 0xFF
  let ctrl := sq (q 58) 0 0xFF == kp && sq (q 58) 1 7 == 1 && sq (q 58) 3 0xFF == kp
  let groupHit := word != 0xFF && (insts s 0x17).any fun e => (mapGroups s e).any fun w => groupsMeet (word, 4) (w.2.1, w.2.2.1)
  let bitHit := bit != 0xFF && (insts s 0x17).any fun e => (mapBits s e).any fun b => b.2 == bit
  match firstBad ([(56, !groupHit), (57, !bitHit), (58, ctrl), (60, sq (q 60) 0 0xFF == 56), (62, sq (q 62) 0 0xFF == 55)] ++
      (List.range 8).map fun n => (64 + 2 * n, sq (q (64 + 2 * n)) 0 0xFF == kp && sq (q (64 + 2 * n)) 1 7 == 0)) with
  | some o => [(0x1403, 0x1C0000 + o)]
  | none => []

/-- The checks that involve two records (R106). -/
def crossFaults (s : State) : List (Nat × Nat) :=
  let pr := cf s 0x15 0 0 1 0 == 1
  let n := cf s 0x12 0 1 1 1
  let lanes := (List.range 8).filter fun l => laneUsed s l && (cfgRec s 0x11 l).isSome
  let twice := lanes.filter fun b => lanes.any fun a => decide (a < b) && laneSub s a == laneSub s b
  let keys := (cfgRec s 0x20 0).isSome
  let kb := cf s 0x20 0 2 2 0
  let hit := (List.range (min 16 (chainBlocks s))).filter fun b => keys && groupsMeet (inBase s b, 16) (kb, 32)
  fault ((cfgRec s 0x10 0).isNone) 0x0505 0x10 0xFFFF ++ fault ((cfgRec s 0x14 0).isNone) 0x0505 0x14 0xFFFF
    ++ (twice.map fun _ => (0x0505, 0x110002))
    ++ fault (pr && decide (n * tickUs (cf s 0x12 0 0 1 1) < 250)) 0x0204 0x12 1
    ++ fault (pr && decide (cf s 0x14 0 1 1 8 < 4)) 0x090B 0x14 1
    ++ (match hit with | b :: _ => [(0x1106, 0x140000 + 8 + 88 * b), (0x2105, 0x200002)] | [] => [])
    ++ (match cvTwice (cvBindings s) with | o :: _ => [(0x1202, 0x170000 + o)] | [] => [])
    ++ (insts s 0x18).flatMap (dialectFault s)
    ++ ((cvBindings s).flatMap (bindFault s) ++ (insts s 0x17).flatMap (cvMissing s)).eraseDups
    ++ uplinkFault s
    ++ fault (decide (cf s 0x1E 0 3 1 8 * n < n + lateLimit s)) 0x2001 0x1E 3
    ++ fault (pr && decide (cf s 0x1E 0 12 2 10 < 2)) 0x2001 0x1E 12
    ++ (if (cfgRec s 0x21 0).isNone then [] else
        let q := cf s 0x21 0 0 2 0
        fault (!(cf s 0x19 0 (1296 + 16 * q) 1 0xFF == 55 && cf s 0x19 0 (1297 + 16 * q) 1 7 == 0
          && cf s 0x19 0 (1299 + 16 * q) 1 0xFF == 56)) 0x1603 0x21 0)

/-- Every failure that step 6 finds in the configuration in use. -/
def cfgFaults (s : State) : List (Nat × Nat) := s.img.cfg.flatMap recFault ++ crossFaults s

/-- Step 6 (R106, R527, R529): the failures raise their events together, and threading ends in HOLD/F with the lowest
code. The answer says whether all records are valid. -/
def validate (s : State) : Bool × State :=
  match cfgFaults s with
  | [] => (true, s)
  | l => (false, enterHoldF (lowest (l.map Prod.fst)) (l.foldl (fun s f => note f.1 0x46 f.2 255 0 (utcNow s) s) s))

end Sys2Proof.Machine
end

