-- ==== Sys2Proof/Machine/Boot.lean ====
section
/-! DEFINITION. Tail threading (04_threading_the_tail, 05): what a reset clears and keeps, the boot ROM's steps 1 to 5, the
firmware's steps 6 to 9, step 11, and the resets of Table 3.5. Steps 1 to 8 and the enumeration take no tick of the
model; the measurement sweeps, negotiation and completion go on tick by tick. -/

namespace Sys2Proof.Machine

/-! ## What a reset leaves (R64, R65) -/

/-- The unit as a reset leaves it: everything built anew but the island, the sluice, the backup domain, the retain store,
the flash, the fuses, the field blocks, the pins and, but for a power-on, the watchdog locks. -/
def resetCore (on : Bool) (cause : Nat) (s : State) : State :=
  let lock (l : Bool) : Bool := !on && l
  { clk := {},
    md := { mode := .thread, prev := if s.md.mode = .backup then .thread else if s.wd.hold then s.md.prev else s.md.mode,
            rstCause := s.md.rstCause ||| cause, wakeCause := if on then 0 else s.md.wakeCause },
    boot := { unitId := s.boot.unitId, e0Strap := s.boot.e0Strap, banks := s.boot.banks, flash := s.boot.flash, flashMiB := s.boot.flashMiB,
              flashModes := s.boot.flashModes, flashAddr4 := s.boot.flashAddr4, extAddr := s.boot.extAddr,
              fuses := s.boot.fuses },
    evt := { batch := s.evt.batch, early := s.evt.early },
    ret := { s.ret with p := 0, lastRot := 0, flushes := [], pfDone := false, bootCnt := s.ret.bootCnt + 1 },
    rtc := { s.rtc with onVbak := false, charger := 0, polling := false, fails := 0 },
    dbg := { tapIr := if on then 2 else s.dbg.tapIr, boundary := if on then 0 else s.dbg.boundary,
             islIr := if on then 2 else s.dbg.islIr, islBoundary := if on then 0 else s.dbg.islBoundary,
             nonce := Config.freeNat s.free },
    fl := { blocks := s.fl.blocks },
    felt := { lpownIn := s.felt.lpownIn },
    slu := { s.slu with tick := 0, oper := false, paired := false },
    isl := s.isl,
    wd := { s := { lock := lock s.wd.s.lock }, c := { lock := lock s.wd.c.lock } },
    free := s.free + 1, pending := s.pending }

/-- The event of the transition to THREAD (R60), also of a reset taken in THREAD; BACKUP has no code and is written 0. -/
def noteThread (old : Nat) (s : State) : State := note 0x0302 0x49 (old * 256 + 1) 255 0 (utcNow s) s

/-! ## Steps 4 and 5: the boot ROM (R77 to R80, R95 to R105) -/

/-- The events of a walk. -/
def walkEvents (w : Walk) (s : State) : State :=
  w.evts.foldl (fun s e => raise e.1 e.2 s) { s with boot.skipped := satAdd 65535 s.boot.skipped w.skipped }

/-- An area's offsets and capacities taken from its directory record (Table 5.5). -/
def takeArea (s : State) (r : Rec) : State :=
  let p := r.payload s
  { s with img.areas := tset (0, 0) (tset (0, 0) s.img.areas (2 * r.typ) (fld p 0 4, fld p 4 4)) (2 * r.typ + 1)
             (fld p 8 4, fld p 12 4) }

/-- Runs of records of the key area: two sectors when it is 8 KiB or longer (R410). -/
def keyRuns (s : State) : List (Nat × Nat) :=
  if s.img.keyLen = 0 then []
  else if s.img.keyLen < 8192 then [(s.img.keyOff, s.img.keyLen)]
  else [(s.img.keyOff, 4096), (s.img.keyOff + 4096, 4096)]

/-- A key record read (R108, R320). -/
def keyRec (s : State) (r : Rec) : KeyRec :=
  let p := r.payload s
  { inst := r.inst, id := fld p 0 4, bytes := (p.drop 4).take 32 }

/-- The key area's records, by CRC alone (R108, R320, R410); the walk ends as in the directory. -/
def readKeys (s : State) : State :=
  let ws := (keyRuns s).map fun r => walkDir s (fun t => t == 0x30 || t == 0x31) (r.1 + r.2) (r.2 / 32 + 1) r.1 {}
  let recs := ws.flatMap Walk.recs
  let s := { s with boot.skipped := satAdd 65535 s.boot.skipped (ws.map Walk.skipped).sum }
  let of (t : Nat) : List KeyRec :=
    (recs.filter fun r => r.typ == t && decide (r.inst < 2) && r.len == 36).map (keyRec s)
  { s with img.keys := of 0x30, img.klpKeys := of 0x31, boot.keyArea := !(of 0x30).isEmpty }

/-- The directory's records taken (Table 5.5, R100, R101). -/
def takeDirectory (dirOff dirLen : Nat) (w : Walk) (s : State) : State :=
  let s := (w.recs.filter fun r => decide (1 ≤ r.typ ∧ r.typ ≤ 3)).foldl takeArea s
  let s := match w.recs.find? fun r => r.typ == 4 with
    | some r =>
      let p := r.payload s
      { s with img.storeUuid := p.take 16, img.storeName := (p.drop 16).take 32, img.storeNum := fld p 48 4 }
    | none => s
  let s := match w.recs.find? fun r => r.typ == 5 with
    | some r =>
      let p := r.payload s
      { s with img.keyOff := fld p 0 4, img.keyLen := fld p 4 4, img.keyAt := (fld p 0 4, fld p 4 4) }
    | none => s
  let k := (s.img.keyOff, s.img.keyLen)
  let good := k.1 % 4096 == 0 && k.2 % 4096 == 0 && decide (k.2 ≤ 65536) && decide (k.1 + k.2 ≤ flSize s)
    && !overlaps (regions s dirOff dirLen) k
  if good then readKeys s else { s with img.keyOff := 0, img.keyLen := 0 }

/-- The device is reached at offset `o`: its extended address register follows, where it is addressed through it (R80). -/
def reachFlash (o : Nat) (s : State) : State := { s with boot.extAddr := extBank s o }

/-- Step 4: header, journals and directory. The answer is the directory's place; none fails both firmware copies. -/
def readHeader (s : State) : Option (Nat × Nat) × State :=
  let s := { s with boot.sfdpOk := decide (32 ≤ s.boot.flashMiB ∧ s.boot.flashMiB ≤ 256) }
  if !s.boot.sfdpOk then (none, s) else
  let s := reachFlash 0 { s with boot.readMode := fastest s }
  let mirror := !hdrOk s 0
  let h := if mirror then 0x1000 else 0
  if mirror && !hdrOk s 0x1000 then (none, s) else
  let s := if mirror then raise 0x0501 0 s else s
  let s := { s with boot.hdrMirror := mirror, boot.journalUsed := (journal s h).length,
                    boot.journalGen := match bootSel s with | some e => e.gen | none => 0 }
  let off := flLe s (h + 16) 4
  let len := flLe s (h + 20) 4
  let min := flLe s (h + 12) 4
  if min < 32 ∨ s.boot.flashMiB < min ∨ off < 0x2000 ∨ flSize s < off + 4096 ∨ off % 4096 ≠ 0
      ∨ len < 4096 ∨ 65536 < len ∨ len % 4096 ≠ 0 then (none, s)
  else
    let w := walkDir s (fun t => decide (1 ≤ t ∧ t ≤ 5)) (off + len) (len / 32 + 1) off {}
    let s := walkEvents w s
    if w.bad then (none, s) else (some (off, len), takeDirectory off len w s)

/-- The copy an area prefers (R96). -/
def preferred (s : State) (area : Nat) : Nat :=
  match bootSel s with | some e => nth 0 e.pref (area - 1) % 2 | none => 0

/-- One copy checked, with what its walk and its load checks report (R78, R126). -/
def tryCopy (d : Nat × Nat) (area c : Nat) (s : State) : Nat × Walk × State :=
  let (step, w) := checkCopy s d.1 d.2 area c
  let r := copyRange s area c
  let s := walkEvents w (reachFlash (r.1 + min r.2 (copyLen s area c) - 1) s)
  let s := if step = 3 then
      (failedChecks (checkCtx s) (copyProg s w).1 (copyProg s w).2).foldl (fun s f => raise 0x0602 (f.2 * 65536 + f.1) s) s
    else s
  (step, w, s)

/-- The failure of an area's preferred copy recorded: EVT-0403 and the boot-failure report (R77). -/
def copyFails (area c step : Nat) (s : State) : State :=
  addReport { kind := 2, tick := s.clk.tick, data := [area, c, step] } (raise 0x0403 (step * 65536 + c * 256 + area) s)

/-- R77 for one area: the copy used, whether it is the other one, and its walk. The failure of the preferred copy raises
EVT-0403 and is reported. -/
def chooseCopy (d : Nat × Nat) (area : Nat) (s : State) : Option (Nat × Walk) × Bool × State :=
  let c := preferred s area
  let (step, w, s) := tryCopy d area c s
  if step = 0 then (some (c, w), false, s)
  else
    let s := copyFails area c step s
    let (step, w, s) := tryCopy d area (1 - c) s
    (if step = 0 then some (1 - c, w) else none, true, s)

/-- The firmware starts: the device's extended address register is 0 again (R80); the events kept so far are appended, WD-S runs, alarms that fired meanwhile are raised (R74, R425,
R529). -/
def startFirmware (s : State) : State :=
  let s := flushEvents (flushEarly s)
  let s := s.rtc.fwAlarms.foldl (fun s n => raise 0x1901 n s) s
  wdStart 0 { s with rtc.fwAlarms := [], boot.extAddr := 0 }

/-- No system firmware: HOLD/F with the recovery listener (R79, R88). -/
def noFirmware (s : State) : State := raise 0x0404 1 { s with boot.recovery := true }

/-- No copy can be checked: both system firmware copies count as failed (R79, R95). -/
def noHeader (s : State) : State :=
  noFirmware (copyFails 1 (if s.boot.sfdpOk then preferred s 1 else 0) 1 { s with boot.fwFall := true })

/-- Steps 1 to 5; `temp` is the junction temperature at the fuse read. Once an area has no valid copy the boot ROM does not go on
to the next one. DEDUCED: R77's loop has no exit, and R73 ends threading at once (log entry 48). -/
def bootRom (temp : Int) (s : State) : State :=
  let s := fuseBoot temp { s with md.thStat := 3 }
  match readHeader { s with md.thStat := 4 } with
  | (none, s) => noHeader s
  | (some d, s) =>
    let s := { s with md.thStat := 5 }
    match chooseCopy d 1 s with
    | (none, fall, s) => noFirmware { s with boot.fwFall := fall }
    | (some (c, _), fall, s) =>
      let s := { s with boot.fwSel := c, boot.fwFall := fall, img.fwBuild := copyBuild s 1 c }
      match chooseCopy d 2 s with
      | (none, fall, s) => startFirmware (raise 0x0404 2 { s with boot.cfgFall := fall })
      | (some (c, w), fall, s) =>
        let s := { s with boot.cfgSel := c, boot.cfgFall := fall, img.cfg := copyCfg s w,
                          img.cfgDigest := sha256 (copyBytes s 2 c) }
        let (got, fall, s) := chooseCopy d 3 s
        let s := { s with boot.progFall := fall }
        let s := match got with
          | some (c, w) =>
            let s := if s.boot.custKey = 0 then
                raise 0x0403 (2 * 65536 + c * 256 + 3) { s with boot.progUnsigned := true } else s
            { s with boot.progSel := c, img.progBuild := copyBuild s 3 c, exe.prog0 := (copyProg s w).1,
                     img.progDigest := sha256 (copyBytes s 3 c) }
          | none => note 0x0404 0x46 3 255 0 (utcNow s) s
        startFirmware { s with md.thStat := 6 }

/-! ## Step 9: the field chain (R82 to R85) -/

/-- The blocks that answer enumeration frames, nearest first. -/
def repliers (s : State) : List Nat := (chain (myPort s) s).take 16

/-- A block's settings with the edges and pri that the program's tasks of kind 1 need (R223). -/
def sentSettings (s : State) (fb : Nat) : List Byte :=
  let set := cfBytes s 0x14 0 (16 + 88 * fb) 80
  (List.range 16).foldl (fun (l : List Byte) k =>
    let m := (nth 0 l (4 * k + 2)).toNat
    let ts := (tasksOf s 1).map Prod.snd |>.filter fun e => e.trigA == fb * 16 + k
    let m := setIf (ts.any fun e => bitOf e.trigB 0) m 1
    let m := setIf (ts.any fun e => bitOf e.trigB 1) m 2
    let m := setIf (ts.any fun e => decide (128 ≤ e.prio)) (clrBit m 4) 4
    setNth l (4 * k + 2) (BitVec.ofNat 8 m)) set

/-- One block enumerated: it stores its position on this port and sets ev_lost to 0 (R252). -/
def enumerate (p fb : Nat) (s : State) : State := modBlock fb (·.enumerated (myPort s) p) s

/-- Probe and setup frames to one block (R84, R247, R252); `round` is the probe's time from J to J, ns. -/
def probeSetup (round : Nat) (fb : Nat) (s : State) : State :=
  let a := alignOf (posOf s fb) round
  let s := { s with fl.align := tset 0 s.fl.align fb a }
  setBlock fb (setupBlock (block fb s) (myPort s) a s.clk.nextSel (holdTicks s - 1) (sentSettings s fb)).1 s

/-- Enumeration, probes and setup; the case of R83 that fails ends threading, and no sweep then drives an output
(EVT-0406). -/
def enumerateChain (t : Thr) (s : State) : State :=
  let l := repliers s
  let k := if t.beyond then 16 else l.length
  let s := (l.zipIdx).foldl (fun s e => enumerate e.2 e.1 s) { s with fl.found := k }
  if k = 0 then raise 0x0406 256 s
  else if t.beyond then raise 0x0406 (2 * 256 + k) s
  else if k ≠ chainBlocks s then raise 0x0406 (3 * 256 + k) s
  else if l.any fun fb => (block fb s).part != 0x0F24 then raise 0x0406 (4 * 256 + k) s
  else (List.range k).foldl (fun s fb => probeSetup (nth 0 (t.probes.map BitVec.toNat) fb) fb s) { s with fl.n := k }

/-! ## The firmware's steps -/

/-- Threading has ended in HOLD/F. -/
def ended (s : State) : Bool := s.md.mode != .thread

/-- The sheet before any has couched: Q takes the hold values (R57, Table 6.3). -/
def holdSheet (s : State) : State :=
  { s with exe.couched := wrBytes 0 s.exe.couched (bitAddr 1 0) (cfBytes s 0x13 0 48 1024) }

/-- Steps 6 to 9 as far as the enumeration. -/
def firmwareSteps (t : Thr) (s : State) : State :=
  let (good, s) := validate s
  if !good then s else
  let s := switchReset (wdRecord 0
    { s with clk.nextSel := cf s 0x12 0 0 1 1, clk.lateLimit := lateLimit s, rtc.charger := chargerMode s })
  let s := { s with md.thStat := 7 }
  if t.failTest ≠ 0 then raise 0x0405 t.failTest.val s else
  let s := vbakCheck t.vbakLow (baselineKeys (t.means.map BitVec.toNat) (restoreRows (holdSheet { s with md.thStat := 8 })))
  enumerateChain t { s with md.thStat := 9 }

/-- Threading from power-good or the end of a reset. A record's tick period that step 6 took also serves a unit whose threading
ends at once in HOLD/F (R34). -/
def thread (t : Thr) (s : State) : State :=
  let s := bootRom t.temp.toInt s
  if ended s ∨ s.boot.recovery then s
  else
    let s := firmwareSteps t s
    if ended s then { s with clk.tickSel := s.clk.nextSel } else s

/-- A reset with these causes, and threading; the core die held in reset by TEST_EN takes none but a power-on reset (R498). -/
def resetThread (on : Bool) (cause : Nat) (t : Thr) (s : State) : State :=
  if s.md.testHold && !on then s else
  let old := if on then 0 else if s.wd.hold then s.md.prev.code else s.md.mode.code
  thread t (noteThread old (resetCore on cause s))

/-- The end of step 9, after the last measurement sweep: R41 is checked; without a program the unit enters HOLD/F; else
negotiation or step 11 (R79). -/
def endStep9 (s : State) : State :=
  if sampleUs s * 1000 < s.fl.rtt + 1000 then raise 0x0204 (0x0012 * 65536 + 2) s
  else if s.boot.progSel = 2 then enterHoldF 0x0404 { s with md.laneReq := maskOf 8 fun l => laneUsed s l && bitOf (laneOn s) l }
  else if startMode s = 2 then { s with md.thStat := 10, md.negoAt := s.clk.tick }
  else { s with md.thStat := 11 }

/-- Step 11: EVT-0305, the backup domain's reports, the lane domains of lane_on; the transition follows at the next
boundary. -/
def step11 (s : State) : State :=
  let s := reportBackup (raise 0x0305 s.md.rstCause s)
  { s with md.thStat := 15, md.thDone := true, md.laneReq := maskOf 8 fun l => laneUsed s l && bitOf (laneOn s) l }

/-! ## The commands -/

/-- What threading will find after a reset that waited. -/
def heldThread (s : State) : Thr :=
  match s.md.heldThr with
  | some t => t
  | none => { failTest := 0, beyond := false, means := [], probes := [], vbakLow := false }

/-- The levels of the VDDIO banks sensed at power-good, from their voltages in mV: 3.3 V or 1.8 V; what a bank between 2.0 V
and 3.0 V is set to the manual does not say (R505). -/
def senseBanks (mv : List Nat) (s : State) : State :=
  { s with
    boot.banks := (List.range 5).map fun i =>
      let v := nth 0 mv i
      decide (3000 < v) || (decide (2000 ≤ v) && Config.freeBool (s.free + i)),
    free := s.free + 5 }

/-- POWER_ON_RESET (R64, R507): from BACKUP, after a loss of power-good, or as the first power arrives; the straps are
sampled and the banks sensed, and TEST_EN high holds the core die in reset (R498, R505). -/
def execPowerOnReset (pins : Straps) (banks : List (BitVec 12)) (t : Thr) (s : State) : Out :=
  ok (if s.md.mode = .backup ∨ !s.md.powerGood ∨ (s.md.mode = .thread ∧ s.md.thStat = 1 ∧ !s.wd.hold) then
      let s := senseBanks (banks.map BitVec.toNat) { s with boot.unitId := b2n pins.unitId, boot.e0Strap := pins.e0.toNat }
      if pins.testEn then { resetCore true 1 s with md.testHold := true } else resetThread true 1 t s
    else s)

/-- RESET_N (R64): a low of at least 1 µs resets, one of 0.5 µs or less never does, and between the two it is open (R518). -/
def execResetN (ns : Nat) (t : Thr) (s : State) : Out :=
  ok (if s.md.mode = .backup ∨ ns ≤ 500 then s
    else if 1000 ≤ ns then resetThread false 2 t s
    else
      let u := { s with free := s.free + 1 }
      if Config.freeBool s.free then resetThread false 2 t u else u)

/-- THREADING_COMPLETE (R73 step 11). -/
def execThreadingComplete (s : State) : Out :=
  ok (if s.md.mode = .thread ∧ s.md.thStat = 11 ∧ !s.wd.hold then step11 s else s)

/-- Everything that runs from the core supplies stops. -/
def coreStops (s : State) : State :=
  wdStopC (trialToStaged (stopEngine { s with felt.lpown := false, md.stepDown := none, md.wakeStep := 0, fl.sweep := none,
                                              fl.carrier := none, fl.urg := [], fl.fly := [] }))

/-- VDD_IO_FAIL (R427, Table 3.4): the backup domain switches to VBAK, and the unit enters BACKUP. -/
def execVddIoFail (s : State) : Out :=
  ok (if s.md.mode = .backup then toVbak s else setMode .backup (coreStops (toVbak s)))

/-- POWER_GOOD_LOSS (R507): the core die stops until the next power-on reset enters THREAD; meanwhile the unit is in BACKUP,
the one mode in which no plane runs. -/
def execPowerGoodLoss (s : State) : Out :=
  let t := setMode .backup (coreStops s)
  ok { t with md.powerGood := false }

/-- Steps 1 to 3 of Table 20.2: cause bit, hold, count, and WDX_N low; an expiry within another adds its bit and count
only. -/
def wdExpire (c : Bool) (s : State) : State :=
  let s := { s with md.rstCause := s.md.rstCause ||| (if c then 8 else 4),
                    ret.wdS := if c then s.ret.wdS else satInc 65535 s.ret.wdS,
                    ret.wdC := if c then satInc 65535 s.ret.wdC else s.ret.wdC }
  if s.wd.hold then s
  else { coreStops s with wd := { s.wd with hold := true, pulse := true }, md.prev := s.md.mode, md.mode := .thread, md.thStat := 1 }

/-- An expiry in E-clock `e` of the tick: the period has passed since the last service (R444, R449); during another expiry
both watchdogs still stand. -/
def wdExpiry (c : Bool) (e : Nat) (s : State) : State :=
  let w := wdOf c s
  if w.en && w.run && !s.boot.recovery && decide (w.since + wdPeriod c s ≤ nowE e s) && s.md.mode != .backup then wdExpire c (modWd c (fun w => { w with run := false }) s)
  else s

/-- WD_S_EXPIRY (R449). -/
def execWdSExpiry (e : Nat) (s : State) : Out := ok (wdExpiry false e s)
/-- WD_C_EXPIRY (R449). -/
def execWdCExpiry (e : Nat) (s : State) : Out := ok (wdExpiry true e s)

/-- WDX_PULSE_END (R449 step 4): the hold is released and the unit threads; the cause bits are set already. -/
def execWdxPulseEnd (t : Thr) (s : State) : Out := ok (if s.wd.pulse then resetThread false 0 t s else s)

/-- FUSE_REREAD (R90): hourly, or after a change of temperature. -/
def execFuseReread (temp : BitVec 16) (s : State) : Out :=
  let c := fuseDue temp.toInt s
  ok (if c = 0 ∨ s.md.mode = .backup ∨ s.md.mode = .thread ∨ s.boot.recovery then s else fuseReread c temp.toInt s)

/-- RST_CAUSE_CLEAR (R64): bits written with one are cleared. -/
def execRstCauseClear (v : Word) (s : State) : Out :=
  ok { s with md.rstCause := s.md.rstCause &&& ((v.toNat % 64) ^^^ 63) }

/-- WAKE_CAUSE_CLEAR (R70). -/
def execWakeCauseClear (v : Word) (s : State) : Out :=
  ok { s with md.wakeCause := s.md.wakeCause &&& ((v.toNat % 32) ^^^ 31) }

end Sys2Proof.Machine
end

