-- ==== Sys2Proof/Machine/Mode.lean ====
section
/-! DEFINITION. Modes (03_six_modes): leaving ACTIVE, the DORMANT request, mode requests and their guards, and the slots
of the sweep that a unit sends in each mode (R57, R255). -/

namespace Sys2Proof.Machine

/-- What ends with ACTIVE: the cycle, the trial, WD-C, LPOWN, a release in progress, the urgent frames that wait (R56,
R181, R209, R445, Table 3.2). -/
def leaveActive (s : State) : State :=
  wdStopC (trialToStaged (stopEngine { s with felt.rel := none, felt.keep := false, felt.lpown := false,
                                              felt.returnAsked := false, md.handOver := false, fl.urg := [] }))

/-- The faults of a boundary taken: in DORMANT the latch is set and the unit stays there; elsewhere the unit enters HOLD/F
with the lowest code, or keeps it (R61, R527). -/
def takeFaults (s : State) : State :=
  if s.md.pendF.isEmpty then s
  else
    let c := lowest s.md.pendF
    let s := { s with md.pendF := [], md.faultNow := true }
    if s.md.mode = .dormant then
      (if s.md.fault then s else { s with md.fault := true, md.faultEvt := c })
    else if s.md.mode = .hold ∧ s.md.fault then s
    else
      let s := if s.md.mode = .active then leaveActive s else s
      enterHoldF c { s with md.stepDown := none, md.dormReq := false, md.wakeStep := 0, felt.ready := false,
                            felt.wantStandby := false, felt.claimIn := 0, felt.rel := none }

/-- A request refused, with the row of Table 3.4 whose guard failed; 0 when no row has the transition. -/
def refuseMode (row : Nat) (s : State) : Nat × State := (2, raise 0x0304 row s)

/-- The DORMANT request applied: HOLD first, the flush requested, every lane off, LANE_PWR writes that wait for the next
boundary dropped with it, the wake sources armed; a paired ACTIVE unit marks its copy (R63, R68, R72). It takes the place of
a transition accepted earlier; a wake held already stays held (R69). -/
def dormantRequest (s : State) : State :=
  let mark := s.md.mode == Mode.active && paired s
  let s := if s.md.mode = .active then setMode .hold (leaveActive s) else s
  let s := if mark then { s with felt.dormMark := true, felt.dormFrom := s.exe.couchTick } else s
  { s with md.dormReq := true, md.heldWake := s.md.dormReq && s.md.heldWake,
           md.wakeTarget := if s.md.dormReq then s.md.wakeTarget else none, md.stepDown := none, felt.wantStandby := false,
           exe.rfl := true, md.laneReq := 0,
           bus.staged := s.bus.staged.filter fun w => w.addr != 0x50000130 }

/-- The row of Table 3.4 of a request for `target` in the present mode; 0 when no row has the transition. -/
def requestRow (target : Nat) (s : State) : Nat :=
  match s.md.mode with
  | .hold => if target = 2 then (if s.md.fault then 12 else 0) else if target = 3 then 8 else if target = 4 then 9 else 10
  | .active => if target = 2 then 13 else if target = 4 then 15 else if target = 5 then 16 else 0
  | .standby => if target = 2 then 18 else 0
  | _ => 0

/-- A request accepted for the next boundary takes the place of a DORMANT request that is not yet complete. -/
def dropDormant (s : State) : State := { s with md.dormReq := false, md.heldWake := false }

/-- A mode request (R59 to R63): `arg` holds the target, force and clear_fault. One that falls where a fault is taken is
refused (R61), and so is one during a release, which the manual does not speak of. -/
def modeRequest (auth : Bool) (arg : Nat) (s : State) : Nat × State :=
  let target := arg % 8
  let force := bitOf arg 8
  let clear := bitOf arg 9
  if arg / 1024 ≠ 0 ∨ arg / 8 % 32 ≠ 0 ∨ target < 2 ∨ 5 < target then refuseMode 0 s
  else if s.md.faultNow then refuseMode (requestRow target s) s
  else if s.md.fault then
    (if target = 2 ∧ clear ∧ auth then
      (1, toMode .hold { s with md.fault := false, md.faultEvt := 0, clk.lateHold := false })
     else refuseMode (requestRow target s) s)
  else if target = s.md.mode.code then (1, s)
  else if s.felt.rel.isSome then refuseMode (requestRow target s) s
  else match s.md.mode with
    | .hold =>
      if target = 3 then
        (if (running s).valid ∧ !(paired s && s.felt.partnerMode == some 3) then
          (1, { dropDormant s with md.stepDown := some .active, felt.wantStandby := false })
         else refuseMode 8 s)
      else if target = 4 then
        (if paired s && s.felt.partnerMode == some 3 && s.felt.trained && bitOf s.nego.parts 0
            && s.nego.idcode == Config.stepping then
          (1, { dropDormant s with
                  felt.wantStandby := true, felt.fullPending := true, felt.consistent := none, md.stepDown := none })
         else refuseMode 9 s)
      else (1, dormantRequest s)
    | .active =>
      if target = 2 then
        (if partnerReady s then (1, beginRelease false s)
         else if !paired s ∨ force then (1, setMode .hold (leaveActive s))
         else refuseMode 13 s)
      else if target = 4 then
        (if partnerReady s then (1, beginRelease true s) else refuseMode 15 s)
      else (1, dormantRequest s)
    | .standby => if target = 2 then (1, { s with md.stepDown := some .hold }) else refuseMode 0 s
    | _ => (0, s)

/-! ## The sweep of each mode (R57, R85, R87, R208, R212, R255) -/

/-- The unit owned every enumerated block at its last good sweep. -/
def ownsAll (s : State) : Bool := s.fl.n != 0 && (List.range s.fl.n).all fun b => bitOf s.fl.owned b

/-- The output slot of block `fb`. -/
def slotOf (s : State) (fb : Nat) : Nat :=
  let claim (c : Bool) : Nat := b2n c * 256
  let keepBit (c : Bool) : Nat := b2n c * 512
  match s.md.mode with
  | .thread =>
    outByte s true fb + (if s.fl.relAll then 1024
      else claim (s.nego.result != some .standby && !bitOf s.fl.seenOwn fb && !bitOf s.fl.seenForeign fb))
  | .active =>
    outByte s false fb + (match s.felt.rel with
      | some r => if r.swept then 0 else 1024
      | none => claim true + keepBit s.felt.keep)
  | .standby => (match s.felt.rel with | some r => if r.swept then 0 else outByte s false fb + 1024 | none => 0)
  | .backup => 0
  | _ =>
    if s.fl.relAll then outByte s true fb + 1024 + 512
    else outByte s true fb + claim (!paired s || (ownsAll s && !wrongStepping s))

/-- A sweep leaves at the boundary (R43, R244): in step 9 the 64 measurement sweeps (R84), else the mode's slots; a threading
unit that will become STANDBY then reports the blocks it gives up (R87). No urgent
frame is then sent for the outputs of a couch that this sweep carries first (R45). -/
def sweepLeaves (s : State) : State :=
  if s.fl.n = 0 ∨ s.dbg.extest then s
  else if s.md.mode = .thread ∧ s.md.thStat = 9 then
    (if s.md.swept < 64 then sendSweep true (fun _ => 0) { s with md.swept := s.md.swept + 1 } else s)
  else
    let s := sendSweep false (slotOf s) { s with fl.claimed := bitOf (slotOf s 0) 8 }
    let s := if s.md.mode = .thread ∧ s.fl.relAll ∧ s.nego.result = some .standby then
        sendShort 0x04 [BitVec.ofNat 8 ((List.range s.fl.n).filter fun b => bitOf s.fl.owned b).length] s
      else s
    { s with fl.relAll := false, fl.urg := s.fl.urg.filter fun u => !u.couch,
             felt.rel := s.felt.rel.map fun r => { r with swept := true } }

end Sys2Proof.Machine
end

