-- ==== Sys2Proof/Machine/Ring.lean ====
section
/-! DEFINITION. The edit ring (R23 to R25, Table 1.4): its entries put, taken and applied, the answers that wait for them,
and the persistence of a committed edit (R113, R409). -/

namespace Sys2Proof.Machine

/-! ## The persistence of an edit (R113, R409) -/

/-- One record as it lies in a copy: header, payload, padding (R97). -/
def recordBytes (typ ver flags inst : Nat) (payload : List Byte) : List Byte :=
  let head (crc : Nat) : List Byte :=
    leBytes 2 typ ++ leBytes 2 ver ++ leBytes 4 payload.length ++ leBytes 4 flags ++ leBytes 4 crc ++ leBytes 2 inst
      ++ List.replicate 14 0
  head (crc32c (head 0 ++ payload)) ++ payload ++ List.replicate (ceilDiv payload.length 8 * 8 - payload.length) 0

/-- The task table payload of a program (R123). -/
def taskBytes (p : Prog) : List Byte :=
  leBytes 2 p.tickFirst ++ leBytes 2 p.tickCount ++ leBytes 4 0 ++
    (List.range 16).flatMap fun i =>
      let e := nth ({} : TaskEnt) p.tasks i
      leBytes 2 e.first ++ leBytes 2 e.count ++ leBytes 1 e.kind ++ leBytes 1 e.prio ++ leBytes 1 e.trigA
        ++ leBytes 1 e.trigB ++ leBytes 2 e.period ++ leBytes 2 e.phase

/-- The strand layout payload of a program (R120). -/
def strandBytes (p : Prog) : List Byte :=
  leBytes 4 p.strands ++ (List.range 4).flatMap fun k =>
    let r := nth (0, 0) p.ranges k
    leBytes 2 r.1 ++ leBytes 2 r.2

/-- The shared declaration payload of a program (R121). -/
def sharedBytes (p : Prog) : List Byte :=
  leBytes 4 p.shared.length ++ p.shared.flatMap fun b => leBytes 4 (b / 8192 * 2 ^ 28 + b % 8192)

/-- The unsigned copy that the management core builds from the running slot (R113). -/
def buildCopy (id : Nat) (s : State) : List Byte :=
  let w := copyWalk s 3 s.boot.progSel
  let p := running s
  let like (typ : Nat) (payload : List Byte) : List Byte :=
    match w.find typ with
    | some r => recordBytes typ r.ver (flLe s (r.off + 8) 4) r.inst payload
    | none => recordBytes typ 1 0 0 payload
  let sig : List Byte := match w.find 0xF0 with | some r => (r.payload s).take 4 | none => List.replicate 4 0
  let rest := (w.met.filter fun r => !(r.typ ∈ [0xE0, 0xF0, 0x40, 0x41, 0x42, 0x43])).flatMap fun r =>
    flBytes s r.off (r.next - r.off)
  let body := like 0x40 (codeBytes p p.n) ++ like 0x41 (taskBytes p) ++ like 0x42 (strandBytes p)
    ++ like 0x43 (sharedBytes p) ++ rest ++ like 0xF0 (sig ++ List.replicate 128 0)
  let d := descOf s 3 s.boot.progSel
  let desc := d.take 4 ++ leBytes 4 (64 + body.length) ++ leBytes 4 id ++ (d.drop 12).take 4 ++ leBytes 8 0 ++ d.drop 24
  like 0xE0 desc ++ body

/-- The copy of an area that the management core may write: the one not selected at this boot (R110). -/
def freeCopy (s : State) (area : Nat) : Nat :=
  let sel := if area = 1 then s.boot.fwSel else if area = 2 then s.boot.cfgSel else s.boot.progSel
  if sel = 0 then 1 else 0

/-- The read-back of a copy: every record CRC and, where it is signed, the signature (R110 step 3). -/
def readBack (s : State) (area c : Nat) : Bool :=
  let w := copyWalk s area c
  !w.bad && (area != 1 || sigOk s 1 c 0 w) && (area != 3 || s.boot.custKey == 0 || sigOk s 3 c 1 w)

/-- The copy built from the running slot, written, read back and preferred (R110, R113). -/
def persistBuilt (id : Nat) (s : State) : State :=
  let c := freeCopy s 3
  let r := copyRange s 3 c
  let bs := buildCopy id s
  if r.2 < bs.length then raise 0x0507 3 s
  else
    let s := flProgram r.1 bs (flErase r.1 r.2 s)
    if readBack s 3 c then preferCopy 3 c s else raise 0x0507 3 s

/-- A committed edit persisted when no write is in progress: by the held copy delivered with it, else, when the customer key is
unfused, by a copy built from the running slot; the program area being written refuses it (R112, R113, R409). -/
def persistEdit (s : State) : State :=
  match s.trial.persist with
  | none => s
  | some id =>
    let done (s : State) : State := { s with trial.persist := none }
    match s.hmp.write with
    | some w => if w.area = 3 then done (raise 0x0508 3 s) else s
    | none =>
      match s.hmp.held.filter fun w => w.hold == id with
      | some w => done (preferCopy 3 w.copy { s with hmp.held := none })
      | none => done (if s.boot.custKey ≠ 0 ∨ s.boot.recovery then s else persistBuilt id s)

/-! ## Entries (R23 to R25, R181 to R186) -/

/-- Entry number `i` of the ring. -/
def ringEntry (s : State) (i : Nat) : RingEntry := tget {} s.ring.slots (i % 64)

/-- An entry written by the management core; refused when all 64 are pending (R24). -/
def ringPut (e : RingEntry) (s : State) : Option Nat × State :=
  if s.ring.take + 64 ≤ s.ring.put then (none, s)
  else
    let i := s.ring.put
    (some i, { s with ring.slots := tset {} s.ring.slots (i % 64) { e with seq := i % 65536, status := 0 }, ring.put := i + 1 })

/-- What an entry does: its status, whether the slots swap now, and the state (Table 1.4). -/
def applyEntry (e : RingEntry) (s : State) : Nat × Bool × State :=
  let auth := bitOf e.flags 0
  if s.md.mode = .standby ∧ e.kind ∈ [3, 4, 6, 7] then (2, false, s)
  else if e.kind = 1 then
    let (st, s) := modeRequest auth e.arg s
    (st, false, s)
  else if e.kind = 2 then
    let (st, s) := editStaged e.arg e.stageOff s
    (st, false, if st = 1 ∧ s.md.mode = .standby then reportEdit s else s)
  else if e.kind = 3 then
    let (st, s) := trialStart e.arg s
    (st, false, s)
  else if e.kind = 4 then trialCommit e.arg auth (pairGuard s) s
  else if e.kind = 5 then
    let (st, s) := trialDiscard e.arg s
    let drop := match s.hmp.held with | some w => st == 1 && w.hold == e.arg | none => false
    (st, false, if drop then { s with hmp.held := none } else s)
  else if e.kind = 6 then acceptAnyway e.arg auth (pairGuard s) s
  else if e.kind = 7 then (1, false, { s with exe.rfl := true })
  else (3, false, s)

/-- The swap of a commit on this unit; in a pair its copies carry the mark (R182, R206). -/
def commitSwap (s : State) : State :=
  let id := s.trial.editId
  let s := swapSlots s
  if s.md.mode = .active ∧ paired s then { s with felt.swapMark := some id, felt.swapFrom := s.exe.couchTick } else s

/-- An entry's status written back, and the HMP request that waits for it answered (R24, R406). -/
def entryDone (i status : Nat) (s : State) : State :=
  let s := { s with ring.slots := tmod {} s.ring.slots (i % 64) fun e => { e with status := status } }
  let s := (s.hmp.posts.filter fun p => p.2.2 == i).foldl (fun s p => hmpAnswer p.1 p.2.1 0 [BitVec.ofNat 8 status] s) s
  { s with hmp.posts := s.hmp.posts.filter fun p => p.2.2 != i }

/-- One entry taken. -/
def takeEntry (s : State) (i : Nat) : State :=
  let (st, swap, s) := applyEntry (ringEntry s i) s
  entryDone i st (if swap then commitSwap s else s)

/-- The entries of this couch or boundary, at most 8, in ring order; a commit that swaps here goes before the others, which
then see the new program (R23, R183). -/
def takeEntries (s : State) : State :=
  let n := min 8 (s.ring.put - s.ring.take)
  let idx := (List.range n).map (s.ring.take + ·)
  let first := idx.find? fun i =>
    let e := ringEntry s i
    (e.kind == 4 || e.kind == 6) && (applyEntry e s).2.1
  let order := match first with | some i => i :: idx.filter (· != i) | none => idx
  let s := order.foldl takeEntry s
  { s with ring.take := s.ring.take + n }

/-- A request's answer, where a session waits for it: an entry that no HMP request made has none. -/
def answerEntry (who req status : Nat) (result : List Byte) (s : State) : State :=
  if who = 0 then s else hmpAnswer who req status result s

/-- Entries that found the ring full are tried again, at most 16 times; then status 3 (R406). -/
def retryPosts (s : State) : State :=
  s.hmp.retries.foldl (fun s r =>
    match ringPut r.2.2.1 s with
    | (some i, s) => if r.1 = 0 then s else { s with hmp.posts := s.hmp.posts ++ [(r.1, r.2.1, i)] }
    | (none, s) =>
      if 15 ≤ r.2.2.2 then answerEntry r.1 r.2.1 3 [] s
      else { s with hmp.retries := s.hmp.retries ++ [(r.1, r.2.1, r.2.2.1, r.2.2.2 + 1)] }) { s with hmp.retries := [] }

/-- The ring at a couch or at a boundary at which it is sampled. -/
def sampleRing (s : State) : State := retryPosts (takeEntries s)

/-- An edit ring entry written now: it is taken at the next couch, or at the next boundary where a unit has no couch (R23,
R25). When all 64 places are pending the management core tries again (R24, R406). -/
def enterRing (kind : Nat) (auth : Bool) (arg stageOff : Nat) (s : State) : State :=
  let e : RingEntry := { kind := kind, flags := b2n auth, arg := arg, stageOff := stageOff }
  match ringPut e s with
  | (none, s) => { s with hmp.retries := s.hmp.retries ++ [(0, 0, e, 0)] }
  | (some _, s) => s

/-- MODE_REQUEST (R59 to R63, kind 0x01). -/
def execModeRequest (auth : Bool) (arg : Word) (s : State) : Out := ok (enterRing 1 auth arg.toNat 0 s)
/-- EDIT_STAGED (R174, kind 0x02). -/
def execEditStaged (auth : Bool) (arg stageOff : Word) (s : State) : Out := ok (enterRing 2 auth arg.toNat stageOff.toNat s)
/-- TRIAL_START (R175, kind 0x03). -/
def execTrialStart (auth : Bool) (arg : Word) (s : State) : Out := ok (enterRing 3 auth arg.toNat 0 s)
/-- TRIAL_COMMIT (R181, kind 0x04). -/
def execTrialCommit (auth : Bool) (arg : Word) (s : State) : Out := ok (enterRing 4 auth arg.toNat 0 s)
/-- TRIAL_DISCARD (R181, kind 0x05). -/
def execTrialDiscard (auth : Bool) (arg : Word) (s : State) : Out := ok (enterRing 5 auth arg.toNat 0 s)
/-- ACCEPT_ANYWAY (R181, kind 0x06). -/
def execAcceptAnyway (auth : Bool) (arg : Word) (s : State) : Out := ok (enterRing 6 auth arg.toNat 0 s)

end Sys2Proof.Machine
end

