-- ==== Sys2Proof/Machine/Peek.lean ====
section
/-! DEFINITION. The address space that HMP and the debug port read (23_address_map_and_status): the word at every address of
Table 1.7, read without a side effect, and the side effects of the RC and RS registers. -/

namespace Sys2Proof.Machine

/-- Address `a` lies in `n` instances of `stride` bytes from
`base`. -/
def inArr (a base stride n : Nat) : Bool := decide (base ≤ a ∧ a < base + stride * n)

/-- An address of the image regions (R485). -/
def inImage (a : Nat) : Bool :=
  decide ((0x11000000 ≤ a ∧ a < 0x11000800) ∨ (0x11001000 ≤ a ∧ a < 0x11003000) ∨ (0x11010000 ≤ a ∧ a < 0x11028000))

/-- The bits of an image word that its instance has: a timer's five flags, a counter's four and no bytes past them
(Table 6.8, R128, R485). -/
def imageBits (a : Nat) : Nat :=
  if a < 0x11020000 then 0xFFFFFFFF
  else if a < 0x11024000 then (if a % 16 = 8 then 0x1FFFFF else 0xFFFFFFFF)
  else if a % 16 < 8 then 0xFFFFFFFF else if a % 16 = 8 then 0xF else 0

/-- A ledger reference word (Table 8.1). -/
def ledgerWord (b : BlockSet) (i : Nat) : Nat :=
  if b.all then (if i = 0 then 0xF0000000 else 0)
  else match b.bl.drop i with
    | x :: _ => 2 ^ 31 + x / 8192 * 2 ^ 28 + x % 8192
    | [] => 0

/-- A word of the ledger (R160). -/
def ledgerAt (o : Nat) (s : State) : Nat :=
  let l := tget {} s.exe.ledger (o / 64)
  if o % 64 < 32 then ledgerWord l.rd (o % 32 / 4) else ledgerWord l.wr (o % 32 / 4)

/-- The bytes of a waiting sluice message in its slot (Table 1.5). -/
def sluBytes (m : SluMsg) : List Byte :=
  [BitVec.ofNat 8 m.code, BitVec.ofNat 8 m.lane] ++ leBytes 2 m.seq ++ leBytes 2 m.data.length ++ leBytes 2 m.rsvd ++ m.data

/-- A word of the sluice's core side: message `seq` lies in slot seq mod 32; what a slot holds besides a waiting message is
a free value. -/
def sluWord (o : Nat) (s : State) : Nat :=
  let box := if o < 4096 then s.slu.down else s.slu.up
  let free := Config.freeAt s.free (0x60000000 + o) % 2 ^ 32
  match box.find? fun m => m.seq % 32 == o % 4096 / 128 with
  | some m =>
    let bs := ((sluBytes m).drop (o % 128)).take 4
    leNat bs + 256 ^ bs.length * (free / 256 ^ bs.length)
  | none => free

/-! ## Lane-switch registers (Table 23.2) -/

/-- PORT_STAT (Table 12.8). -/
def portStat (i : Nat) (s : State) : Nat :=
  let x := eng s i
  min 15 x.missRun * 2 ^ 24 + x.usbAddr % 256 * 2 ^ 16 + b2n x.fault * 128 + b2n x.busOff * 64 + b2n x.cts * 32
    + b2n (x.usbAddr != 0) * 16 + x.speed % 4 * 4 + portState s i

/-- A port block (Table 23.2). -/
def portBlock (i off : Nat) (s : State) : Nat :=
  let x := eng s i
  match off with
  | 0 => portStat i s
  | 4 => x.err
  | 8 => x.rx % 2 ^ 32
  | 12 => x.tx % 2 ^ 32
  | 16 => x.err
  | _ => 0

/-- CAN_STAT of port Cc (R281). -/
def canStat (c : Nat) (s : State) : Nat :=
  let x := eng s (48 + c)
  min 65535 x.abortLate * 2 ^ 16 + x.tec % 256 * 256 + x.recv % 256

/-- The counters of CV_ERR (Table 17.2). -/
def cvErr (i : Nat) (s : State) : Nat := (cvUnit s i).bad * 2 ^ 16 + (cvUnit s i).rep * 256 + (cvUnit s i).skip

/-- The registers of check-value unit `i` (Table 17.2). -/
def cvReg (i off : Nat) (s : State) : Nat :=
  let x := cvUnit s i
  match off with
  | 0 =>
    (match cvBound s i with
     | some (e, send) =>
       2 ^ 31 + b2n send * 2 ^ 30 + b2n x.p.isSome * 2 ^ 29 + e * 2 ^ 16 + (if send then x.g else x.p.getD 0) % 65536
     | none => 0)
  | 4 => cvErr i s
  | 12 => if (cvBound s i).isSome then cvWidth s i else 0
  | _ => 0

/-- KLP_SESS of session `i` (Table 14.8). -/
def klpSess (i w : Nat) (s : State) : Nat :=
  let x := tget {} s.klp.sess i
  match w with
  | 0 => x.num * 2 ^ 16 + b2n x.v6 * 4 + b2n x.auth * 2 + b2n x.isOpen
  | 1 => x.txNext % 2 ^ 32
  | 2 => x.rxNext % 2 ^ 32
  | _ => min 65535 x.resends * 2 ^ 16 + x.unack.length % 128

/-- Q_STAT (Table 13.8). -/
def qStat (q : Nat) (s : State) : Nat := queuePkts s q * 2 ^ 16 + queueCells s q

/-- Default bytes of the scheduler record by offset (Tables 13.4 to 13.7). -/
def schedDefault (o : Nat) : Nat :=
  if o < 16 then nth 0 [8, 0, 0, 1] o
  else if o < 1040 then nth 0 [1, 0, 0, 0, 0, 1, 0, 1, 0, 1, 0, 1, 0, 1, 0, 1] ((o - 16) % 16)
  else if o < 1296 then nth 0 [0, 1, 0, 0] ((o - 1040) % 4)
  else if o < 34064 then nth 0 [0xFF, 7, 0, 0xFF, 0, 1, 0, 1, 0xFF, 0xFF, 0xFF, 0xFF, 0, 0, 0, 0] ((o - 1296) % 16)
  else nth 0 [0, 0, 0, 0, 0, 0, 0, 0, 0, 1, 0, 0, 0, 8, 0, 8] ((o - 34064) % 16)
/-- Default bytes of the policer record by offset (R303). -/
def policerDefault (o : Nat) : Nat := if o % 20 = 13 ∨ o % 20 = 17 then 8 else 0

/-- A live byte of the scheduler record. -/
def schedByte (s : State) (o : Nat) : Nat :=
  if tget 0 s.sw.sched o = 0 then cf s 0x19 0 o 1 (schedDefault o) else tget 0 s.sw.sched o - 1
/-- A live byte of the policer record. -/
def policerByte (s : State) (o : Nat) : Nat :=
  if tget 0 s.sw.polm o = 0 then cf s 0x1A 0 o 1 (policerDefault o) else tget 0 s.sw.polm o - 1
/-- A number of live bytes. -/
def liveLe (f : Nat → Nat) (o n : Nat) : Nat := leNat ((List.range n).map fun i => BitVec.ofNat 8 (f (o + i)))

/-- An address of the scheduler mirror that holds the configuration of an unused port slot, 57 to 63 (R28). -/
def unusedPort (a : Nat) : Bool := decide (0x21600010 + 16 * 57 ≤ a ∧ a < 0x21600010 + 16 * 64)

/-- A word of the lane-switch register space. -/
def peekSwitch (a : Nat) (s : State) : Option Nat :=
  if inArr a 0x21000000 4 5 ∨ inArr a 0x2100008C 4 2 then
    some (match a % 128 with
      | 0 => s.sw.snap0
      | 4 => s.sw.snap1
      | 8 => s.sw.snapTick
      | 12 => s.sw.nobuf * 2 ^ 16
      | _ => s.sw.cancelLate * 2 ^ 16 + s.sw.undos)
  else if inArr a 0x21000040 4 8 then some (lane s ((a - 0x21000040) / 4)).closeDrop
  else if inArr a 0x21000060 4 8 then some (lane s ((a - 0x21000060) / 4)).closeRej
  else if inArr a 0x21100000 32 56 then some (portBlock ((a - 0x21100000) / 32) (a % 32) s)
  else if inArr a 0x21200000 4 8 then some (lane s ((a - 0x21200000) / 4)).cmdDrop
  else if inArr a 0x21200020 4 8 then some (lane s ((a - 0x21200020) / 4)).evOvf
  else if inArr a 0x21200040 4 4 then some (canStat ((a - 0x21200040) / 4) s)
  else if inArr a 0x21300000 8 2048 then
    some (if a % 8 = 0 then qStat ((a - 0x21300000) / 8) s else tget 0 s.sw.drop ((a - 0x21300000) / 8))
  else if inArr a 0x21340000 8 2048 ∧ a % 8 = 4 then some (tget 0 s.sw.drop ((a - 0x21340000) / 8))
  else if inArr a 0x21400000 16 512 ∧ a % 16 ≠ 12 then
    (let i := (a - 0x21400000) / 16
     some (match a % 16 with
      | 0 => tget 2097152 s.sw.tc i % 2 ^ 32
      | 4 => tget 2097152 s.sw.tp i % 2 ^ 32
      | _ => tget 0 s.sw.polCnt i))
  else if inArr a 0x21440000 16 512 ∧ a % 16 = 8 then some (tget 0 s.sw.polCnt ((a - 0x21440000) / 16))
  else if inArr a 0x21500000 4 512 then some (ofSigned 32 (credit s ((a - 0x21500000) / 4)))
  else if unusedPort a then some 0
  else if inArr a 0x21600000 1 42256 then some (liveLe (schedByte s) (a - 0x21600000) 4)
  else if inArr a 0x21700000 1 10240 then some (liveLe (policerByte s) (a - 0x21700000) 4)
  else if a = 0x21800000 ∨ a = 0x21800080 then some s.klp.err
  else if a = 0x21800004 ∨ a = 0x21800084 then some s.klp.err2
  else if a = 0x21800010 ∨ a = 0x21800090 then some s.klp.eth0
  else if a = 0x21800014 ∨ a = 0x21800094 then some s.klp.eth1
  else if inArr a 0x21800100 16 9 then some (klpSess ((a - 0x21800100) / 16) (a % 16 / 4) s)
  else if inArr a 0x21900000 16 64 then some (cvReg ((a - 0x21900000) / 16) (a % 16) s)
  else if inArr a 0x21900800 16 64 ∧ a % 16 = 4 then some (cvErr ((a - 0x21900800) / 16) s)
  else none

/-! ## System registers (Table 23.3) -/

/-- MODE_STAT (Table 3.1). -/
def modeStat (s : State) : Nat :=
  s.md.faultEvt * 2 ^ 16 + b2n (paired s && isHome s) * 512 + b2n (s.md.mode == .standby && s.felt.ready) * 256
    + s.md.prev.code * 16 + b2n s.md.fault * 8 + s.md.mode.code
/-- LATE_STAT (Table 2.4). -/
def lateStat (s : State) : Nat := min 255 s.clk.lateRun * 2 ^ 16 + s.clk.lateLimit * 256 + b2n s.clk.lateHold
/-- LANE_PWR_STAT's code of a domain (R66). -/
def Dom.code : Dom → Nat
  | .off => 0 | .powering => 1 | .on => 2 | .closing => 3
/-- LANE_PWR_STAT (R66). -/
def lanePwrStat (s : State) : Nat := (List.range 8).foldl (fun v n => v + (lane s n).dom.code * 4 ^ n) 0
/-- BOOT_STAT (Table 4.5). -/
def bootStat (s : State) : Nat :=
  let b := s.boot
  s.ret.bootCnt % 65536 * 2 ^ 16 + b2n b.progUnsigned * 2048 + b2n b.recovery * 1024 + b.cfgSel * 256 + b.progSel * 64
    + b.fwSel * 16 + b2n b.cfgFall * 8 + b2n b.progFall * 4 + b2n b.fwFall * 2 + b2n b.sfdpOk
/-- FUSE_STAT (Table 4.3). -/
def fuseStat (s : State) : Nat :=
  let b := s.boot
  min 255 b.marginal * 2 ^ 24 + min 255 b.unresolved * 2 ^ 16 + b.fuseCause * 64 + b2n b.debugLock * 8 + b.custKey * 2
    + b2n b.seorfenKey
/-- CHAIN_STAT (Table 4.7). -/
def chainStat (s : State) : Nat := s.fl.rtt % 65536 * 2 ^ 16 + b2n s.fl.foreign * 4096 + s.fl.found
/-- FI_STAT (Table 5.10). -/
def fiStat (s : State) : Nat :=
  min 65535 s.boot.skipped * 2 ^ 16 + s.boot.journalUsed * 256 + b2n s.boot.keyArea * 2 + b2n s.boot.hdrMirror
/-- SPEC_STAT (Table 8.3). -/
def specStat (s : State) : Nat :=
  s.exe.brokeLast * 2 ^ 16 + s.exe.ovfLast * 256 + s.exe.fullLast * 4 + b2n (s.exe.fullLast != 0) * 2
/-- The code of a trial state (Table 8.8). -/
def TrialSt.code : TrialSt → Nat
  | .idle => 0 | .staged => 1 | .running => 2 | .passed => 3 | .failed => 4
/-- TRIAL_STAT (Table 8.8). -/
def trialStat (s : State) : Nat :=
  let t := s.trial
  min 65535 t.cycles * 2 ^ 16 + min 16 t.skipRun * 2048 + t.st.code * 32 + b2n t.armed * 16 + b2n t.writeIgn * 2 + s.exe.runSlot
/-- TRIAL_DIFF (R187). -/
def trialDiff (o : Nat) (s : State) : Nat :=
  match (s.trial.diffs.take 64).drop (o / 8) with
  | d :: _ =>
    if o % 8 = 0 then diffWord0 d else min 65535 d.cycles * 2 ^ 16 + min 65535 d.first
  | [] => 0
/-- HMP_STAT (Table 18.8). -/
def hmpStat (s : State) : Nat :=
  let w := match s.hmp.write with | some w => w.area | none => 0
  min 7 s.hmp.sess.length * 2 ^ 24 + b2n s.hmp.bulk.isSome * 2 ^ 23 + b2n (decide (8192 ≤ s.img.keyLen)) * 2 ^ 22
    + maskOf 2 (fun k => s.img.keys.any fun r => r.inst == k) * 2 ^ 20 + w * 2 ^ 16
/-- DBG_STAT (Table 22.4). -/
def dbgStat (s : State) : Nat :=
  let d := s.dbg
  b2n (d.auth || !s.boot.debugLock) * 2 ^ 31 + b2n d.lockout * 2 ^ 30 + b2n d.extestRefused * 2 ^ 29
    + d.lastIndex * 2 ^ 20 + d.lastCause * 2 ^ 18 + d.lastPipe * 2 ^ 16 + d.pending * 256 + b2n d.s0Only * 16 + d.halted
/-- BP_STAT (R483). -/
def bpStat (s : State) : Nat := maskOf 16 fun k => (tget {} s.dbg.bps k).moved

/-- What a halted pipe was executing: on pipe 0 a task run, unless strand 0 alone is halted. -/
def pipeCx (k : Nat) (s : State) : Cx := if k = 0 ∧ s.exe.tasks ≠ [] ∧ !s.dbg.s0Only then .task else .strand k
/-- A per-pipe register, zero unless the pipe is halted (Table 22.5). -/
def pipeReg (k off : Nat) (s : State) : Nat :=
  if !pipeHalted s k then 0
  else
    let c := pipeCx k s
    let r := (runOf c s).regs
    match off with
    | 0 =>
      (match c, s.exe.tasks with
       | .task, t :: _ => 2 ^ 31 + t.task % 16 * 2 ^ 24 + pcOf c s % 2 ^ 18
       | _, _ => pcOf c s % 2 ^ 18)
    | 4 => r.a.toNat
    | 8 => r.b.toNat
    | _ =>
      r.l.toNat + b2n r.la * 8 + min 15 r.stack.length * 16
        + (r.stack.take 16).zipIdx.foldl (fun v b => v + b2n b.1 * 2 ^ (8 + b.2)) 0

/-- A lane view (Table 23.5). -/
def laneView (n off : Nat) (s : State) : Nat :=
  let x := lane s n
  match off with
  | 0 => b2n (bitOf s.md.laneReq n)
  | 4 => x.dom.code + b2n (tget ({} : Sess) s.klp.sess n).isOpen * 4 + b2n (laneLegal s n) * 8 + laneKind s n % 4 * 16
  | 8 => x.cmdDrop
  | 12 => x.evOvf
  | 16 => x.closeDrop
  | 20 => x.closeRej
  | _ => 0

/-- REAM_STAT (Table 23.7). -/
def reamStat (r w : Nat) (s : State) : Nat :=
  let x := tget {} s.bus.reams r
  if w = 0 then
    b2n x.pending * 2 ^ 31 + b2n x.refused * 2 ^ 30 + b2n x.skipped * 2 ^ 29 + x.firstSkip * 4096 + x.landed
  else b2n x.disagree * 2 ^ 31 + b2n x.readSkip * 2 ^ 30 + x.readMembers

/-- ADDR_ERR (Table 23.8). -/
def addrErr (s : State) : Nat := s.bus.errCount * 2 ^ 16 + s.bus.errReq * 256 + s.bus.errStatus

/-- Identification registers (Table 23.4). -/
def peekId (o : Nat) (s : State) : Option Nat :=
  match o with
  | 0x00 => some Config.idcode
  | 0x04 => some (Config.serial % 2 ^ 32)
  | 0x08 => some (Config.serial / 2 ^ 32 % 2 ^ 32)
  | 0x0C => some (s.boot.unitId + s.boot.e0Strap * 2)
  | 0x10 => some (Config.romVersion % 65536)
  | 0x14 => some s.img.fwBuild
  | 0x18 => some s.img.progBuild
  | 0x1C => some s.trial.lastEdit
  | 0x20 => some (cf s 0x10 0 0 4 0)
  | 0x24 => some s.img.storeNum
  | 0x30 | 0x34 | 0x38 | 0x3C => some (fld s.img.storeUuid (o - 0x30) 4)
  | 0x40 | 0x44 | 0x48 | 0x4C => some (fld (cfBytes s 0x10 0 8 16) (o - 0x40) 4)
  | _ => none

/-- Clock, mode, boot, engine and trial registers, from 0x5000_0080 to 0x5000_01BB. -/
def peekCore (o : Nat) (s : State) : Option Nat :=
  match o with
  | 0x80 | 0x84 => some (addrErr s)
  | 0x88 => some s.bus.errLast
  | 0x100 | 0x180 => some (s.clk.tick % 2 ^ 32)
  | 0x104 => some s.clk.tickHi
  | 0x110 => some (lateStat s)
  | 0x114 => some s.clk.lateCnt
  | 0x120 => some (modeStat s)
  | 0x124 => some s.md.rstCause
  | 0x128 => some s.md.wakeCause
  | 0x130 => some s.md.laneReq
  | 0x134 => some (lanePwrStat s)
  | 0x140 => some (bootStat s)
  | 0x144 => some s.md.thStat
  | 0x148 => some (fuseStat s)
  | 0x14C => some (chainStat s)
  | 0x150 => some (fiStat s)
  | 0x154 => some s.boot.journalGen
  | 0x160 | 0x164 | 0x168 | 0x16C | 0x170 | 0x174 | 0x178 | 0x17C =>
    let i := (o - 0x160) / 4 * 2
    some (tget 0 s.exe.miss (i + 1) * 2 ^ 16 + tget 0 s.exe.miss i)
  | 0x190 => some (s.exe.msgRej * 2 ^ 16 + s.exe.div0)
  | 0x1A0 => some (specStat s)
  | 0x1B0 => some (trialStat s)
  | 0x1B4 => some (if s.trial.st = .idle then 0 else s.trial.editId)
  | 0x1B8 => some (trialCount s.trial)
  | _ => none

/-- Pair, field-link, island and management registers, from 0x5000_01C0 to 0x5000_038F. -/
def peekLinks (o : Nat) (s : State) : Option Nat :=
  match o with
  | 0x1C0 => some (feltStat s)
  | 0x1C4 => some s.felt.gaps
  | 0x1C8 => some (s.felt.crcBurst * 2 ^ 16 + s.felt.crcShort)
  | 0x1D0 => some (feltPhase s)
  | 0x1D4 => some (pairStat s)
  | 0x200 => some (flStat s)
  | 0x204 | 0x284 => some (flErr s)
  | 0x300 => some (fld s.islView.status 0 4)
  | 0x304 => some (fld s.islView.status 4 4)
  | 0x308 => some (fld s.islView.status 8 4)
  | 0x30C => some (fld s.islView.status 12 4)
  | 0x310 => some s.slu.downFull
  | 0x314 => some s.slu.downLost
  | 0x380 => some (hmpStat s)
  | 0x384 | 0x388 => some s.hmp.err
  | 0x38C => some s.ret.evtSeq
  | _ => if inArr o 0x240 4 16 then some (tget 0 s.fl.slots ((o - 0x240) / 4)) else none

/-- Clock, backup and retain registers (Table 19.5); RET_STAT, PF_CNT and RET_GEN stand at 0x660 to 0x668. -/
def peekClock (o : Nat) (s : State) : Option Nat :=
  match o with
  | 0x600 | 0x680 => some s.rtc.sec
  | 0x604 => some s.rtc.latSub
  | 0x608 => some s.rtc.latDate
  | 0x60C => some s.rtc.latTime
  | 0x610 => some s.rtc.setSec
  | 0x614 => some s.rtc.setSub
  | 0x618 => some 0
  | 0x61C => some (rtcStat s)
  | 0x620 => some s.rtc.alm0.toNat
  | 0x624 => some s.rtc.alm1.toNat
  | 0x628 => some (s.rtc.fired + b2n s.rtc.pin * 8)
  | 0x62C => some (s.rtc.almBk * 256 + s.rtc.almFirst)
  | 0x630 => some s.rtc.almBkSec
  | 0x634 => some s.rtc.swFirst
  | 0x638 => some s.rtc.swCnt
  | 0x63C => some (b2n s.rtc.bkLow * 2)
  | 0x660 => some (retStat s)
  | 0x664 => some s.ret.pfCnt
  | 0x668 => some (retGen s)
  | _ => if inArr o 0x640 4 16 then some (tget 0 s.rtc.bkp ((o - 0x640) / 4)).toNat else none

/-- Watchdog registers (Table 20.4), read in E-clock `e` of the present tick. -/
def peekWd (e o : Nat) (s : State) : Option Nat :=
  match o with
  | 0x700 => some s.wd.s.per
  | 0x704 => some (wdCtl false e s)
  | 0x708 | 0x70C | 0x72C => some 0
  | 0x710 => some (wdLeft false e s)
  | 0x720 => some s.wd.c.per
  | 0x724 => some (wdCtl true e s)
  | 0x730 => some (wdLeft true e s)
  | 0x740 => some (s.ret.wdS * 2 ^ 16 + s.ret.wdC)
  | 0x744 | 0x7C4 => some s.wd.err
  | _ => none

/-- Key, debug, lane view and ream registers, from 0x5000_0800. -/
def peekViews (o : Nat) (s : State) : Option Nat :=
  if o = 0x800 then some (keyStat s)
  else if inArr o 0x840 4 17 then
    (let k := tget ({} : Key) s.keys ((o - 0x840) / 4)
     some (k.base * 2 ^ 16 + k.raw))
  else if o = 0x900 ∨ o = 0x980 then some (dbgStat s)
  else if o = 0x904 then some (bpStat s)
  else if inArr o 0x940 16 4 then some (pipeReg ((o - 0x940) / 16) (o % 16) s)
  else if inArr o 0xA00 32 8 then some (laneView ((o - 0xA00) / 32) (o % 32) s)
  else if inArr o 0xB00 8 16 then some (reamStat ((o - 0xB00) / 8) (o % 8 / 4) s)
  else none

/-- A word of the system register space; the field block views travel as frames (R489). -/
def peekSys (e o : Nat) (s : State) : Option Nat :=
  if o < 0x50 then peekId o s
  else if o < 0x1C0 then peekCore o s
  else if o < 0x400 then peekLinks o s
  else if o < 0x600 then some (trialDiff (o - 0x400) s)
  else if o < 0x700 then peekClock o s
  else if o < 0x800 then peekWd e o s
  else peekViews o s

/-- The word at an aligned address, read in E-clock `e` of the present tick with no side effect; none where no register
stands (R404, R484). The packet buffer and the management RAM hold contents whose layout the manual does not give. -/
def peekWord (e a : Nat) (s : State) : Option Nat :=
  if a % 4 ≠ 0 then none
  else if inArr a 0x10000000 1 0x100000 then some (pw s.exe.prog0 ((a - 0x10000000) / 4)).toNat
  else if inArr a 0x10100000 1 0x100000 then some (pw s.exe.prog1 ((a - 0x10100000) / 4)).toNat
  else if inImage a then some (rdLe 0 s.exe.couched a 4)
  else if inArr a 0x12000000 1 0x200000 then some (ledgerAt (a - 0x12000000) s)
  else if inArr a 0x20000000 1 0x200000 ∨ inArr a 0x30000000 1 0x100000 then some (Config.freeAt s.free a % 2 ^ 32)
  else if inArr a 0x21000000 1 0x1000000 then peekSwitch a s
  else if inArr a 0x40000000 1 0x40000 then some (retainWord (a - 0x40000000) s)
  else if inArr a 0x50000000 1 0x8000000 then peekSys e (a - 0x50000000) s
  else if inArr a 0x60000000 1 0x2000 then some (sluWord (a - 0x60000000) s)
  else none

/-! ## Side effects of a read -/

/-- The side effect of a read that has one: RC fields cleared, RS pairs latched (R39, R404, R420). -/
def readEffect (a : Nat) (s : State) : State :=
  if a = 0x50000080 then { s with bus.errCount := 0, bus.errReq := 0, bus.errStatus := 0 }
  else if a = 0x50000100 then { s with clk.tickHi := s.clk.tick / 2 ^ 32 % 65536 }
  else if a = 0x500001B0 then { s with trial.writeIgn := false }
  else if a = 0x50000204 then
    { s with fl.sweepBad := 0, fl.carrierBad := 0, fl.urgentBad := 0, fl.unknownFt := 0, fl.strangers := 0 }
  else if a = 0x50000384 then { s with hmp.err := 0 }
  else if a = 0x50000600 then latchRtc s
  else if a = 0x50000744 then { s with wd.err := 0 }
  else if a = 0x50000900 then { s with dbg.extestRefused := false }
  else if a = 0x2100000C then { s with sw.nobuf := 0 }
  else if a = 0x21000010 then { s with sw.cancelLate := 0, sw.undos := 0 }
  else if inArr a 0x21100000 32 56 ∧ a % 32 = 4 then modEng ((a - 0x21100000) / 32) (fun x => { x with err := 0 }) s
  else if inArr a 0x21300000 8 2048 ∧ a % 8 = 4 then { s with sw.drop := tset 0 s.sw.drop ((a - 0x21300000) / 8) 0 }
  else if inArr a 0x21400000 16 512 ∧ a % 16 = 8 then { s with sw.polCnt := tset 0 s.sw.polCnt ((a - 0x21400000) / 16) 0 }
  else if a = 0x21800000 then { s with klp.err := 0 }
  else if a = 0x21800004 then { s with klp.err2 := 0 }
  else if a = 0x21800010 then { s with klp.eth0 := 0 }
  else if a = 0x21800014 then { s with klp.eth1 := 0 }
  else if inArr a 0x21900000 16 64 ∧ a % 16 = 4 then
    modCv ((a - 0x21900000) / 16) (fun x => { x with bad := 0, rep := 0, skip := 0 }) s
  else s

/-- TICK_NOW_LO_READ (R39): bits [31:0] answered, bits [47:32] latched. -/
def execTickNowLoRead (s : State) : Out :=
  ok { readEffect 0x50000100 s with bus.ans := BitVec.ofNat 32 s.clk.tick, bus.status := 0 }

end Sys2Proof.Machine
end

