-- ==== Sys2Proof/Machine/Access.lean ====
section
/-! DEFINITION. Accesses of HMP and the debug port (23_address_map_and_status): address errors, reads, field block views, ream
windows, writes, and the landing of what was staged. -/

namespace Sys2Proof.Machine

/-- The error response of R33 and R484: counted, latched, EVT-2303 once per tick. -/
def accessError (who sess req a : Nat) (s : State) : State :=
  let s := { s with bus.errCount := satInc 65535 s.bus.errCount, bus.errReq := who,
                    bus.errStatus := if who = 1 then 3 else 4, bus.errLast := a }
  answerAccess who sess req 4 [] (raiseOnce 0x2303 a s)

/-! ## Ream windows, read (R490, R492) -/

/-- An address of a ream alias window. -/
def inReam (a : Nat) : Bool := inArr a 0x58000000 0x800000 16
/-- Ream and offset of a window address. -/
def reamOf (a : Nat) : Nat × Nat := ((a - 0x58000000) / 0x800000, (a - 0x58000000) % 0x800000)
/-- The size of a family's view (Table 23.6). -/
def viewSize (f : Nat) : Nat := nth 0 [32, 32, 32, 16, 20, 16] f
/-- The view of member `m` of family `f` (Table 23.6). -/
def viewAddr (f m : Nat) : Nat :=
  match f with
  | 0 => 0x50000A00 + 32 * m
  | 1 => 0x21100000 + 32 * m
  | 3 => 0x21600510 + 16 * m
  | 4 => 0x21700000 + 20 * m
  | 5 => 0x21900000 + 16 * m
  | _ => 0x50000C00 + 32 * m
/-- An access that the window takes: the ream is defined, has members, and its view has the offset. -/
def reamOk (s : State) (r o : Nat) : Bool :=
  decide (reamFamily s r ≤ 5) && !(reamMembers s r).isEmpty && decide (o < viewSize (reamFamily s r)) && o % 4 == 0

/-- What a member answers to a read at an offset of its view; a block answers when it is enumerated and its frame
returns. -/
def memberWord (s : State) (f o silent m : Nat) : Option Nat :=
  if f = 2 then
    (let b := block m s
     if s.fl.n ≤ m ∨ !b.powered ∨ !reached (myPort s) m s ∨ bitOf silent m then none else some ((b.reg o).getD 0))
  else peekWord 0 (viewAddr f m + o) s

/-- A ream read: the word of the lowest member that answers, and what REAM_STAT keeps of it. -/
def reamRead (r o silent : Nat) (s : State) : Option Nat × State :=
  if !reamOk s r o then (none, s)
  else
    let ms := reamMembers s r
    let s := if reamFamily s r = 2 then ms.foldl (fun s m => feelLimit m s) s else s
    let vals := ms.filterMap (memberWord s (reamFamily s r) o silent)
    let s := { s with bus.reams := tmod {} s.bus.reams r fun (x : ReamStat) =>
      { x with disagree := x.disagree || vals.any fun v => v != nth 0 vals 0, readSkip := decide (vals.length < ms.length),
               readMembers := vals.length } }
    (vals.head?, s)

/-! ## Reads -/

/-- An address of a field block view (R489). -/
def inFbView (a : Nat) : Bool := inArr a 0x50000C00 32 16
/-- A word whose content is a free value. -/
def drawsFree (a : Nat) : Bool :=
  inArr a 0x20000000 1 0x200000 || inArr a 0x30000000 1 0x100000 || inArr a 0x40000000 1 0x40000 || inArr a 0x60000000 1 0x2000

/-- `n` words read from address `a` on, after the words `acc`, and the answer; a word of a block travels as a frame first
(R404, R489). -/
def readWords (who sess req e : Nat) : Nat → Nat → List Nat → State → State
  | 0, _, acc, s => answerAccess who sess req 0 acc s
  | n + 1, a, acc, s =>
    if inFbView a ∧ a % 4 = 0 then
      (let fb := (a - 0x50000C00) / 32
       if 0x18 ≤ a % 32 then readWords who sess req e n (a + 4) (acc ++ [0]) s
       else if s.fl.n ≤ fb then accessError who sess req a s
       else { s with fl.access := s.fl.access ++
          [{ fb := fb, off := a % 32, write := false, val := 0, since := s.clk.tick, who := who, sess := sess, req := req,
             words := acc, more := n }] })
    else if inReam a then
      match reamRead (reamOf a).1 (reamOf a).2 0 s with
      | (some v, s) => readWords who sess req e n (a + 4) (acc ++ [v]) s
      | (none, s) => accessError who sess req a s
    else match peekWord e a s with
      | some v =>
        readWords who sess req e n (a + 4) (acc ++ [v]) (if drawsFree a then { s with free := s.free + 1 } else s)
      | none => accessError who sess req a s

/-- One word read with its side effect (R404); a ream window has none (R492). -/
def readOnce (who sess req e a : Nat) (s : State) : State :=
  if inFbView a ∨ inReam a then readWords who sess req e 1 a [] s
  else match peekWord e a s with
    | some v => answerAccess who sess req 0 [v] (readEffect a (if drawsFree a then { s with free := s.free + 1 } else s))
    | none => accessError who sess req a s

/-! ## Field block views (R489) -/

/-- The frame of a pending access returns good: the block's answer, or the error response of a status other than 1. -/
def fbAnswered (x : FbAccess) (s : State) : State :=
  let s := feelLimit x.fb { s with fl.access := s.fl.access.erase x }
  let a := 0x50000C00 + 32 * x.fb + x.off
  let b := block x.fb s
  let port := myPort s
  if !b.powered ∨ !reached port x.fb s ∨ (b.pos port).isNone then accessError x.who x.sess x.req a s
  else if x.write then
    (let st := regWriteStatus b port x.off
     let s := regWrite x.fb port x.off x.val b s
     if st = 1 then answerAccess x.who x.sess x.req 0 [] s else accessError x.who x.sess x.req a s)
  else match b.reg x.off with
    | some v => readWords x.who x.sess x.req 0 x.more (a + 4) (x.words ++ [v]) s
    | none => accessError x.who x.sess x.req a s

/-- A write of a field block view: its frame is to be sent. -/
def fbWrite (who sess req a : Nat) (v : Word) (s : State) : State :=
  let fb := (a - 0x50000C00) / 32
  if 0x18 ≤ a % 32 then answerAccess who sess req 0 [] s
  else if s.fl.n ≤ fb then accessError who sess req a s
  else { s with fl.access := s.fl.access ++
      [{ fb := fb, off := a % 32, write := true, val := v, since := s.clk.tick, who := who, sess := sess, req := req }] }

/-- FIELD_BLOCK_VIEW_ACCESS (R489): the frame of this access returns, good or not; an access that is not pending yet is
made first. One that returns bad is sent again; while an urgent frame is pending it waits (R251). -/
def execFieldBlockViewAccess (fb : Fin 16) (off : Fin 8) (write : Bool) (v : Word) (good : Bool) (s : State) : Out :=
  let a := 0x50000C00 + 32 * fb.val + 4 * off.val
  let hit (x : FbAccess) : Bool := x.fb == fb.val && x.off == 4 * off.val && x.write == write && (!write || x.val == v)
  let s := if s.fl.access.any hit then s else if write then fbWrite 0 0 0 a v s else readWords 0 0 0 0 1 a [] s
  ok (match s.fl.access.find? hit with
    | some x => if good && s.fl.urg.isEmpty && s.exe.qimm.isEmpty then fbAnswered x s else s
    | none => s)

/-- Accesses without a good return within 4 ticks take the error response. -/
def fbTimeouts (s : State) : State :=
  (s.fl.access.filter fun x => decide (x.since + 4 ≤ s.clk.tick)).foldl (fun s x =>
    accessError x.who x.sess x.req (0x50000C00 + 32 * x.fb + x.off) { s with fl.access := s.fl.access.erase x }) s

/-! ## Mirrors (R304) -/

/-- The address lies in the scheduler mirror. -/
def inSched (a : Nat) : Bool := inArr a 0x21600000 1 42256
/-- The address lies in the policer mirror. -/
def inPolicer (a : Nat) : Bool := inArr a 0x21700000 1 10240

/-- A mirror word written under its mask. -/
def putMirror (a : Nat) (mask v : Word) (s : State) : State :=
  let put (f : Nat → Nat) (o : Nat) (m : Tbl Nat) : Tbl Nat :=
    let x := maskWord (liveLe f o 4) mask.toNat v.toNat
    (List.range 4).foldl (fun m i => tset 0 m (o + i) (1 + x / 256 ^ i % 256)) m
  if inSched a then { s with sw.sched := put (schedByte s) (a - 0x21600000) s.sw.sched }
  else { s with sw.polm := put (policerByte s) (a - 0x21700000) s.sw.polm }

/-- The live parameters pass R302 and R303. -/
def mirrorsValid (s : State) : Bool :=
  (firstBad (schedChecks fun o n _ => liveLe (schedByte s) o n)).isNone
    && (firstBad (policerChecks fun o n _ => liveLe (policerByte s) o n)).isNone

/-- The write changes port, service or subscriber of a queue that holds cells. -/
def movesBusy (s s' : State) (a : Nat) : Bool :=
  inSched a && decide (0x21600510 ≤ a ∧ a < 0x21600510 + 16 * 2048) &&
    (let q := (a - 0x21600510) / 16
     queueCells s q != 0 && (qPort s q != qPort s' q || qSvc s q != qSvc s' q || qSub s q != qSub s' q))

/-- A parameter write that the checks of R304 let pass, and the state with it. -/
def mirrorTry (a : Nat) (mask v : Word) (s : State) : Option State :=
  let s' := putMirror a mask v s
  if !movesBusy s s' a && mirrorsValid s' then some s' else none

/-- A write refused with an error response and EVT-1306. -/
def mirrorRefuse (w : Staged) (s : State) : State := answerStaged w 2 (raise 0x1306 w.addr s)

/-- The live parameters with the mirror writes already staged. -/
def withStaged (s : State) : State :=
  s.bus.staged.foldl (fun s w => if inSched w.addr || inPolicer w.addr then putMirror w.addr w.mask w.val s else s) s

/-- A mirror write checked and staged (R304); one to an unused port slot is ignored (R28). -/
def mirrorWrite (w : Staged) (s : State) : State :=
  if unusedPort w.addr then answerStaged w 0 s
  else match mirrorTry w.addr w.mask w.val (withStaged s) with
  | some _ => { s with bus.staged := s.bus.staged ++ [w] }
  | none => mirrorRefuse w s

/-! ## Lane power and ports (R66, R107, R488) -/

/-- Used lanes as a mask. -/
def usedLanes (s : State) : Nat := maskOf 8 (laneUsed s)

/-- LANE_PWR written: bits of unused lanes are ignored, with EVT-0506 for each one asked on; the value takes effect at the
next boundary. -/
def lanePwrWrite (v : Nat) (s : State) : State :=
  if s.md.mode = .backup then s
  else
    let s := (List.range 8).foldl (fun s n => if bitOf v n && !laneUsed s n then raiseL 0x0506 n n s else s) s
    { s with md.laneReq := v % 256 &&& usedLanes s }

/-- A write of LANE_PWR or LANE_CTL: staged as well, so that it keeps its place among the ream writes (R491). -/
def lanePwrStage (mask v : Nat) (s : State) : State :=
  let s := lanePwrWrite (maskWord s.md.laneReq mask v) s
  { s with bus.staged := s.bus.staged ++ [{ addr := 0x50000130, mask := BitVec.ofNat 32 mask, val := BitVec.ofNat 32 v }] }

/-- LANE_PWR_WRITE (R66). -/
def execLanePwrWrite (v : Byte) (s : State) : Out := ok (lanePwrStage 0xFF v.toNat s)

/-- LANE_CTL_WRITE (R488): bit n of LANE_PWR. -/
def laneCtlWrite (n : Nat) (on : Bool) (s : State) : State := lanePwrStage (2 ^ n) (b2n on * 2 ^ n) s

/-- LANE_CTL_WRITE (R488). -/
def execLaneCtlWrite (n : Fin 8) (on : Bool) (s : State) : Out := ok (laneCtlWrite n.val on s)

/-- A port asked to restart at the next boundary; ignored unless it is running. -/
def portCtl (e : Nat) (s : State) : State :=
  if portState s e = 2 then modEng e (fun x => { x with restart := true }) s else s

/-- PORT_CTL_RESTART (R488). -/
def execPortCtlRestart (e : Fin 56) (s : State) : Out := ok (portCtl e.val s)

/-- A port and its engine restart: a frame in progress is discarded and counted under check_fail. -/
def restartPort (e : Nat) (s : State) : State :=
  let x := eng s e
  let s := if x.inFrame || !x.raw.isEmpty then frameFails e 8 s else s
  resetEng e s

/-- The restarts due at a boundary. -/
def portRestarts (s : State) : State :=
  (List.range 56).foldl (fun s e => if (eng s e).restart then restartPort e s else s) s

/-! ## Ream windows, written (R491) -/

/-- The offset takes writes (Table 23.6). -/
def reamWritable (f o : Nat) : Bool :=
  match f with
  | 0 => o == 0 | 1 => o == 20 | 2 => o == 16 | 5 => o == 8 | _ => true

/-- A member accepts a write (Table 23.6, R256). -/
def reamAccepts (s : State) (f m : Nat) : Bool :=
  match f with
  | 0 => laneUsed s m
  | 1 => portState s m == 2
  | 3 => (match laneOfSlot (qPort s m) with | some n => !laneShut s n | none => true)
  | 5 => (cvBound s m).isSome
  | _ => true

/-- A write applied to one member. -/
def reamApply (f o : Nat) (mask v : Word) (s : State) (m : Nat) : State :=
  let on := bitOf (mask &&& v).toNat 0
  match f with
  | 0 => if bitOf mask.toNat 0 then { s with md.laneReq := setIf on (clrBit s.md.laneReq m) m } else s
  | 1 => if on then restartPort m s else s
  | 5 => if on then modCv m (fun x => { x with p := none }) s else s
  | _ => putMirror (viewAddr f m + o) mask v s

/-- The result for every accepting member, when it passes the checks of R302 to R304. -/
def reamTry (f o : Nat) (mask v : Word) (ms : List Nat) (s : State) : Option State :=
  let s' := ms.foldl (reamApply f o mask v) s
  if !reamWritable f o then none
  else if (f = 3 ∨ f = 4) ∧ ((ms.any fun m => movesBusy s s' (viewAddr f m + o)) ∨ !mirrorsValid s') then none
  else some s'

/-- A ream write refused: EVT-2302. -/
def reamRefuse (w : Staged) (s : State) : State :=
  let r := (reamOf w.addr).1
  answerStaged w 2 (raise 0x2302 r { s with bus.reams := tmod {} s.bus.reams r fun x => { x with refused := true } })

/-- A ream write waits, staged or in its frame. -/
def reamWaits (r : Nat) (s : State) : Bool :=
  s.bus.staged.any (fun x => inReam x.addr && (reamOf x.addr).1 == r) || s.fl.reams.any fun x => (reamOf x.write.addr).1 == r

/-- A ream write has landed on `acc`, and `skip` could not accept it: REAM_STAT, EVT-2301, the response. -/
def reamLanded (w : Staged) (acc skip : List Nat) (s : State) : State :=
  let r := (reamOf w.addr).1
  let waits := reamWaits r s
  let s := { s with bus.reams := tmod {} s.bus.reams r fun x =>
    { x with pending := waits, landed := acc.length, firstSkip := skip.headD 4095, skipped := x.skipped || !skip.isEmpty } }
  answerStaged w 0 (if skip.isEmpty then s else raise 0x2301 (skip.headD 0 + r * 65536) s)

/-- The frame 0x85 of a ream write of family 2: its mask names the enumerated members by position (R256). -/
def reamOut (w : Staged) (s : State) : State :=
  let ms := (reamMembers s (reamOf w.addr).1).filter fun m => decide (m < s.fl.n)
  { s with fl.reams := s.fl.reams ++ [{ write := w, mask := ms.foldl (fun n m => setBit n (posOf s m)) 0 }] }

/-- The ream frame of a tick that ends: the members without a done bit are skipped (R256). -/
def settleReam (s : State) (x : ReamOut) : State :=
  let done (m : Nat) : Bool := decide (m < s.fl.n) && !x.bad && bitOf x.done (posOf s m)
  let ms := reamMembers s (reamOf x.write.addr).1
  reamLanded x.write (ms.filter done) (ms.filter fun m => !done m) { s with fl.reams := s.fl.reams.erase x }

/-- The ream frames of the tick that ends. -/
def settleReams (s : State) : State := s.fl.reams.foldl settleReam s

/-- A ream write lands: every accepting member is written, the others are skipped; or none is written. One to field blocks goes
out in a frame. -/
def landReam (w : Staged) (s : State) : State :=
  let (r, o) := reamOf w.addr
  let f := reamFamily s r
  let ms := reamMembers s r
  if f = 2 ∧ reamWritable f o then reamOut w s
  else
    let acc := ms.filter (reamAccepts s f)
    let waits := reamWaits r s
    let s' := { s with bus.reams := tmod {} s.bus.reams r fun x => { x with pending := waits } }
    match reamTry f o w.mask w.val acc s' with
    | none => reamRefuse w s'
    | some s => reamLanded w acc (ms.filter fun m => !reamAccepts s' f m) s

/-- A ream write staged: at most 8 at once. -/
def reamWrite (w : Staged) (s : State) : State :=
  let (r, o) := reamOf w.addr
  if !reamOk s r o then accessError w.who w.sess w.req w.addr s
  else if 8 ≤ (s.bus.staged.filter fun x => inReam x.addr).length then reamRefuse w s
  else { s with bus.staged := s.bus.staged ++ [w],
                bus.reams := tmod {} s.bus.reams r fun x => { x with pending := true } }

/-- REAM_WINDOW_WRITE (R491). -/
def execReamWindowWrite (r : Fin 16) (off : Nat) (mask v : Word) (s : State) : Out :=
  ok (if off < 0x800000 then reamWrite { addr := 0x58000000 + 0x800000 * r.val + off, mask := mask, val := v } s else s)

/-- REAM_WINDOW_READ (R492): `silent` names the blocks whose frames do not return. -/
def execReamWindowRead (r : Fin 16) (off : Nat) (silent : BitVec 16) (s : State) : Out :=
  ok (if off < 0x800000 then
      match reamRead r.val off silent.toNat s with
      | (some v, s) => answerAccess 0 0 0 0 [v] s
      | (none, s) => accessError 0 0 0 (0x58000000 + 0x800000 * r.val + off) s
    else s)

/-- Bits of REAM_STAT cleared by writing ones (Table 23.7). -/
def reamStatClear (r w v : Nat) (s : State) : State :=
  { s with bus.reams := tmod {} s.bus.reams r fun (x : ReamStat) =>
      if w = 0 then { x with refused := x.refused && !bitOf v 30, skipped := x.skipped && !bitOf v 29 }
      else { x with disagree := x.disagree && !bitOf v 31 } }

/-- REAM_STAT_CLEAR (Table 23.7). -/
def execReamStatClear (r : Fin 16) (w : Fin 2) (v : Word) (s : State) : Out := ok (reamStatClear r.val w.val v.toNat s)

/-! ## What lands at a boundary (R296, R491) -/

/-- A staged write of families 0 to 2, or of LANE_PWR: it lands at the boundary itself. -/
def landsFirst (s : State) (w : Staged) : Bool :=
  if inReam w.addr then decide (reamFamily s (reamOf w.addr).1 ≤ 2) else w.addr == 0x50000130

/-- One staged write lands. -/
def landOne (s : State) (w : Staged) : State :=
  let s := { s with bus.staged := s.bus.staged.erase w }
  if inReam w.addr then landReam w s
  else if w.addr = 0x50000130 then
    { s with md.laneReq := maskWord s.md.laneReq w.mask.toNat w.val.toNat % 256 &&& usedLanes s }
  else match mirrorTry w.addr w.mask w.val s with
    | some s => answerStaged w 0 s
    | none => mirrorRefuse w s

/-- The staged writes that land at the boundary itself, in the order in which they completed. -/
def landFirst (s : State) : State := (s.bus.staged.filter (landsFirst s)).foldl landOne s
/-- The staged writes that land in the data plane's first step. -/
def landStaged (s : State) : State := s.bus.staged.foldl landOne s

/-! ## Image writes (R486) -/

/-- One image write lands in the last couched sheet; a write to I also in the image that the next sample point latches. -/
def landImageOne (s : State) (w : Staged) : State :=
  let m := w.mask.toNat &&& imageBits w.addr
  let s := { s with exe.couched := wrLe 0 s.exe.couched w.addr 4 (maskWord (rdLe 0 s.exe.couched w.addr 4) m w.val.toNat) }
  let s := if inI w.addr then
      { s with exe.iPut := s.exe.iPut ++
          (List.range 4).map fun i => (w.addr + i, m / 256 ^ i % 256, w.val.toNat / 256 ^ i % 256) }
    else s
  answerStaged w 0 s

/-- The image writes land, in the order in which they completed: at a couch, or at a boundary in HOLD. -/
def landImage (s : State) : State := s.bus.image.foldl landImageOne { s with bus.image := [] }
/-- Image writes that a mode turns away. -/
def refuseImage (s : State) : State := s.bus.image.foldl (fun s w => answerStaged w 2 s) { s with bus.image := [] }

/-- An image write: to land later, or refused with status 2 (R405, R486). -/
def imageWrite (w : Staged) (s : State) : State :=
  if s.md.mode = .active ∨ s.md.mode = .hold then { s with bus.image := s.bus.image ++ [w] } else answerStaged w 2 s

/-- IMAGE_WRITE (R486). -/
def execImageWrite (a mask v : Word) (s : State) : Out :=
  ok (if inImage a.toNat && a.toNat % 4 == 0 then imageWrite { addr := a.toNat, mask := mask, val := v } s else s)

/-- MIRROR_WRITE (R304). -/
def execMirrorWrite (a mask v : Word) (s : State) : Out :=
  ok (if (inSched a.toNat || inPolicer a.toNat) && a.toNat % 4 == 0 then
      mirrorWrite { addr := a.toNat, mask := mask, val := v } s else s)

/-! ## Writes -/

/-- The completed key sequence is refused by the lock (R448). -/
def wdKeyRefused (c : Bool) (v t : Nat) (s : State) : Bool :=
  (wdOf c s).lock && v == 0x0FF0 && (match (wdOf c s).key with | some k => decide (t ≤ k + 256) | none => false)

/-- A watchdog register written (Table 20.4): one status and the state. -/
def wdWrite (o : Nat) (w : Staged) (e : Nat) (s : State) : State :=
  let t := nowE e s
  let v := (w.mask &&& w.val).toNat
  let ctl (c : Bool) : State :=
    let s := if bitOf v 31 then wdLock c t s else s
    if bitOf v 30 then wdEnable c t s else s
  match o with
  | 0x700 => wdHeldPer false w s
  | 0x720 => wdHeldPer true w s
  | 0x704 => answerStaged w 0 (ctl false)
  | 0x724 => answerStaged w 0 (ctl true)
  | 0x708 =>
    answerStaged w 0 (if v = 0xA55A then (if wdRuns false s then wdService false t s else s)
      else raise 0x2004 0 (wdErr 24 s))
  | 0x70C => answerStaged w (if wdKeyRefused false v t s then 2 else 0) (wdKey false v t s)
  | 0x72C => answerStaged w (if wdKeyRefused true v t s then 2 else 0) (wdKey true v t s)
  | _ => answerStaged w 0 s

/-- A register of clock or backup written (Table 19.5); the debug port loads no time (R420). -/
def clockWrite (o : Nat) (w : Staged) (s : State) : State :=
  let m := w.mask.toNat
  let v := w.val.toNat
  let one := (w.mask &&& w.val).toNat
  match o with
  | 0x610 => { s with rtc.setSec := maskWord s.rtc.setSec m v }
  | 0x614 => { s with rtc.setSub := maskWord s.rtc.setSub m v % 32768 }
  | 0x618 => if bitOf one 0 && w.who != 1 then rtcLoad s.rtc.setSec s.rtc.setSub s else s
  | 0x620 => { s with rtc.alm0 := BitVec.ofNat 32 (maskWord s.rtc.alm0.toNat m v) }
  | 0x624 => { s with rtc.alm1 := BitVec.ofNat 32 (maskWord s.rtc.alm1.toNat m v) }
  | 0x628 => { s with rtc.fired := s.rtc.fired &&& (3 - one % 4), rtc.pin := s.rtc.pin && !bitOf one 3 }
  | 0x63C =>
    let s := if bitOf one 0 then { s with rtc.swFirst := 0, rtc.swCnt := 0 } else s
    if bitOf one 1 then { s with rtc.bkLow := false } else s
  | _ =>
    if inArr o 0x640 4 16 ∧ ¬ inArr o 0x660 4 3 then
      { s with rtc.bkp := tmod 0 s.rtc.bkp ((o - 0x640) / 4) fun x => BitVec.ofNat 32 (maskWord x.toNat m v) }
    else s

/-- A system register written: read-only fields ignore it (R484). -/
def sysWrite (o : Nat) (w : Staged) (e : Nat) (s : State) : State :=
  let one := (w.mask &&& w.val).toNat
  if o = 0x124 then answerStaged w 0 { s with md.rstCause := s.md.rstCause &&& ((one % 64) ^^^ 63) }
  else if o = 0x128 then answerStaged w 0 { s with md.wakeCause := s.md.wakeCause &&& ((one % 32) ^^^ 31) }
  else if o = 0x130 then answerStaged w 0 (lanePwrStage (w.mask.toNat % 256) (w.val.toNat % 256) s)
  else if 0x600 ≤ o ∧ o < 0x6FF then answerStaged w 0 (clockWrite o w s)
  else if 0x700 ≤ o ∧ o < 0x800 then wdWrite o w e s
  else if inArr o 0xA00 32 8 ∧ o % 32 = 0 then
    answerStaged w 0 (if bitOf w.mask.toNat 0 then laneCtlWrite ((o - 0xA00) / 32) (bitOf w.val.toNat 0) s else s)
  else if inArr o 0xB00 8 16 then answerStaged w 0 (reamStatClear ((o - 0xB00) / 8) (o % 8 / 4) one s)
  else answerStaged w 0 s

/-- A lane-switch register written. -/
def switchWrite (a : Nat) (w : Staged) (s : State) : State :=
  let on := bitOf (w.mask &&& w.val).toNat 0
  if inSched a || inPolicer a then mirrorWrite w s
  else if inArr a 0x21100000 32 56 ∧ a % 32 = 20 then answerStaged w 0 (if on then portCtl ((a - 0x21100000) / 32) s else s)
  else if inArr a 0x21900000 16 64 ∧ a % 16 = 8 then
    answerStaged w 0 (if on then modCv ((a - 0x21900000) / 16) (fun x => { x with p := none }) s else s)
  else answerStaged w 0 s

/-- The program slot of an address. -/
def inSlot (a : Nat) : Option Nat :=
  if inArr a 0x10000000 1 0x100000 then some 0 else if inArr a 0x10100000 1 0x100000 then some 1 else none

/-- A write under its mask at an address, in E-clock `e` of the present tick (R405, R484, Table 23.1). -/
def writeWord (w : Staged) (e : Nat) (s : State) : State :=
  let a := w.addr
  if a % 4 ≠ 0 then accessError w.who w.sess w.req a s
  else if inImage a then imageWrite w s
  else if inFbView a then fbWrite w.who w.sess w.req a (w.mask &&& w.val) s
  else if inReam a then reamWrite w s
  else match inSlot a with
    | some k =>
      if k = s.exe.runSlot then accessError w.who w.sess w.req a s
      else answerStaged w 0 (shadowWrite (a % 0x100000 / 4) w.val w.mask s)
    | none =>
      if (peekWord e a s).isNone then accessError w.who w.sess w.req a s
      else if inArr a 0x21000000 1 0x1000000 then switchWrite a w s
      else if inArr a 0x50000000 1 0x8000000 then sysWrite (a - 0x50000000) w e s
      else accessError w.who w.sess w.req a s

/-- REGISTER_WRITE (R484). -/
def execRegisterWrite (a mask v : Word) (e : Nat) (s : State) : Out :=
  ok (writeWord { addr := a.toNat, mask := mask, val := v } e s)

end Sys2Proof.Machine
end

