-- ==== Sys2Proof/Machine/LegalDisp.lean ====
section
/-! DEFINITION. The legal displays (16_weighing_and_price, R377 to R379): the frames of a display port and what they show. -/

namespace Sys2Proof.Machine

/-- A number in decimal with `e` places after the point. -/
def decStr (x : Int) (e : Nat) : List Byte :=
  let d := decimal x.natAbs
  let d := List.replicate (e + 1 - d.length) 0x30 ++ d
  let t := if e = 0 then d else d.take (d.length - e) ++ [0x2E] ++ d.drop (d.length - e)
  if x < 0 then 0x2D :: t else t

/-- Trailing zeros of a decimal number, at most `n`. -/
def trailZeros : Nat → Nat → Nat
  | 0, _ => 0
  | n + 1, u => if u % 10 = 0 ∧ u ≠ 0 then 1 + trailZeros n (u / 10) else 0

/-- A weight of `x` record units of `u` millionths: the decimal point stands after the place that u sets (R378). -/
def weightStr (x : Int) (u : Nat) : List Byte :=
  let z := trailZeros 6 u
  decStr (x * ((u / 10 ^ z : Nat) : Int)) (6 - z)

/-- One hexadecimal digit, upper case. -/
def hexUp (x : Nat) : Byte := BitVec.ofNat 8 (if x < 10 then 0x30 + x else 0x37 + x)

/-- The identification: "L", version, CRC (R352). -/
def identText (s : State) : List Byte :=
  let v := fwVer s
  [0x4C] ++ decimal (v % 256) ++ [0x2E] ++ decimal (v / 256 % 256) ++ [0x2E] ++ decimal (v / 65536 % 256)
    ++ (List.range 8).map fun i => hexUp (fwCrc s / 16 ^ (7 - i) % 16)

/-- What a legal display shows of its lane at an instant. -/
structure LdView where
  flags : Nat
  net : Int
  tare : Int
  unitPrice : Nat
  price : Nat
  tooDear : Bool := false            -- the rounded price exceeds price_max
  message : List Byte
  text0 : List Byte
  text1 : List Byte
  inds : List Byte
deriving DecidableEq, Repr

/-- The message field (Table 16.8). -/
def ldMessage (s : State) (flags : Nat) : List Byte :=
  if s.isl.ident then (if s.isl.st = .fault ∧ s.isl.cause = 8 then ascii "no legal firmware" else identText s)
  else match s.isl.st with
    | .fault =>
      if s.isl.cause = 8 then ascii "no legal firmware"
      else if s.isl.cause = 1 then ascii "seal fault" else ascii "legal fault " ++ decimal s.isl.cause
    | .opened => ascii "CAL"
    | _ =>
      if bitOf flags 8 ∧ !bitOf flags 7 then ascii "weight invalid"
      else if bitOf flags 7 then ascii "ZERO" else []

/-- The characters of a field of Table 16.7; none where every position shows "-" (R378). -/
def ldField (s : State) (n : Nat) (v : LdView) (f : Nat) : Option (List Byte) :=
  let dash := bitOf v.flags 3 || bitOf v.flags 4 || bitOf v.flags 8
  let u := (lp s n 3).toNat
  let pd := (param s 4).toNat
  match f with
  | 1 => if dash then none else some (weightStr v.net u)
  | 2 => if dash then none else some (weightStr v.tare u)
  | 3 => if dash then none else some (decStr v.unitPrice pd)
  | 4 => if dash || v.tooDear then none else some (decStr v.price pd)
  | 5 => some (ascii (if lp s n 2 = 0 then "kg" else "lb"))
  | 6 => some v.inds
  | 7 => some v.message
  | 8 => some v.text0
  | 9 => some v.text1
  | _ => some []

/-- A field of `w` characters: right-aligned, or "-" throughout. -/
def ldFill (w : Nat) (t : Option (List Byte)) : List Byte :=
  match t with
  | some bs => if bs.length ≤ w then List.replicate (w - bs.length) 0x20 ++ bs else List.replicate w 0x2D
  | none => List.replicate w 0x2D

/-- The legal display dialect of lane `n`. -/
def ldDialect (s : State) (n : Nat) : List Byte := tget [] (legalCfg s).displays (lp s n 0x10).toNat

/-- The template of a dialect that has this arg. -/
def ldTemplate (d : List Byte) (a : Nat) : Option Nat :=
  (List.range (fld d 26 1)).find? fun t => fld d (448 + 8 * t) 1 == 0 && fld d (449 + 8 * t) 1 == a

/-- The frame of template arg `a` on lane `n`'s display: the fields written into the fixed bytes, then framed as R273
says; what stands in trail bytes is a free value. None without such a template. -/
def ldFrame (n a : Nat) (v : LdView) (s : State) : Option (List Byte) × State :=
  let d := ldDialect s n
  match ldTemplate d a with
  | none => (none, s)
  | some t =>
    let o := 448 + 8 * t
    let fixed := (d.drop (576 + fld d (o + 2) 2)).take (fld d (o + 4) 1)
    let body := (List.range (fld d 24 1)).foldl (fun b e =>
      let x := 64 + 8 * e
      if fld d (x + 3) 1 = a then overlay b (fld d x 2) (ldFill (fld d (x + 2) 1) ((ldField s n v (fld d (x + 4) 1)).map fun t =>
          if fld d (x + 4) 1 = 6 then t.take (fld d (x + 2) 1) else t)) else b)
      fixed
    let st := (d.drop 8).take (fld d 7 1 % 4)
    let delim := fld d 0 1 == 2
    let en := if delim then (d.drop 10).take (fld d 7 1 / 4 % 4) else []
    let (tr, s) := if delim then freeBytes (fld d 12 1) s else ([], s)
    let whole := st.length + body.length
    let body := if fld d 0 1 = 1 then
        let x := whole - fld d 6 1
        let ls := fld d 5 1
        (overlay (st ++ body) (fld d 4 1) (if bitOf (fld d 1 1) 3 then beBytes ls x else leBytes ls x)).drop st.length
      else body
    let mid := if bitOf (fld d 1 1) 0 then
        escapeBody (BitVec.ofNat 8 (fld d 13 1)) (BitVec.ofNat 8 (fld d 14 1)) (st.take 1 ++ en.take 1) body
      else body
    (some (st ++ mid ++ en ++ tr), s)

/-- A display port. -/
def ldPort (s : State) (p : Nat) : Ld := tget {} s.isl.lds p
/-- A display port changed. -/
def modLd (p : Nat) (f : Ld → Ld) (s : State) : State := { s with isl.lds := tmod {} s.isl.lds p f }

/-- The display port of lane `n`. -/
def ldOf (s : State) (n : Nat) : Option Nat := if lp s n 0x0F < 0 then none else some (lp s n 0x0F).toNat

/-- The view of a lane with every weight and price field shown as "-" (R453). -/
def dashView (m : List Byte) : LdView :=
  { flags := 256, net := 0, tare := 0, unitPrice := 0, price := 0, message := m,
    text0 := [], text1 := [], inds := [] }

/-- The two frames that WD-M's sequencer may send, built at threading for each display port that serves a lane
(R453). -/
def buildWdm (s : State) : State :=
  (List.range 8).foldl (fun s n =>
    match ldOf s n with
    | none => s
    | some p =>
      if lp s n 0 = 0 then s
      else
        let v := dashView (ascii "weight invalid")
        let (inds, s) := freeBytes 40 s
        let (w, s) := ldFrame n 1 { v with inds := inds } s
        let (m, s) := ldFrame n 2 v s
        modLd p (fun x => { x with wdm := w.toList ++ m.toList }) s) s

end Sys2Proof.Machine
end

