-- ==== Sys2Proof/Machine/Island.lean ====
section
/-! DEFINITION. The metrology island (15_the_metrology_island): the audit log, legal status, threading and
reset, the states SEALED, OPEN and FAULT, commits, the service port and pairing. -/

namespace Sys2Proof.Machine

/-- A source value that Table 16.2 allows. -/
def sourceOk (v : Int) : Bool := decide ((0 ≤ v ∧ v ≤ 4) ∨ (0x11 ≤ v ∧ v ≤ 0x18))

/-- No two lanes share one value, those that do not count apart. -/
def distinctOver (f : Nat → Int) (none' : Int) : Bool :=
  (List.range 8).all fun a => (List.range 8).all fun b => a == b || f a == none' || f a != f b

/-- The ranges of lane `n` under `g` are rising, with no more scale intervals than the class allows (R361). -/
def rangesOk (g : Nat → Int) (n : Nat) : Bool :=
  let p (k : Nat) : Int := g (laneId n k)
  let rn := (p 0x04).toNat
  let lim : Int := if p 0x01 = 3 then 6000 else 1000
  (List.range rn).all (fun i => decide (p (0x05 + i) ≤ lim * p (0x08 + i)))
    && (List.range (rn - 1)).all fun i => decide (p (0x05 + i) < p (0x06 + i) ∧ p (0x08 + i) < p (0x09 + i))

/-- A staged set breaks none of R361's rules. -/
def paramSetOk (g : Nat → Int) : Bool :=
  distinctOver (fun n => g (laneId n 0)) 0 && distinctOver (fun n => g (laneId n 0x0F)) (-1)
    && ((List.range 4).all fun c => g (chanId c 0) != 1 || (List.range 8).all fun n => g (laneId n 0) != (c : Int) + 1)
    && (List.range 8).all fun n => rangesOk g n

/-! ## The audit log (R354) -/

/-- State byte of the island (Table 15.5). -/
def islCode : IslSt → Nat
  | .sealed => 0 | .opened => 1 | _ => 2

/-- Bytes 0 to 39 of a record. -/
def auditHead (r : Audit) : List Byte :=
  leBytes 4 r.seq ++ [BitVec.ofNat 8 r.cls, BitVec.ofNat 8 (b2n r.counted), BitVec.ofNat 8 r.count, BitVec.ofNat 8 r.state]
    ++ leBytes 2 r.boot ++ leBytes 6 r.tick ++ leBytes 2 r.param ++ [BitVec.ofNat 8 r.chan, 0] ++ leBytes 4 r.old
    ++ leBytes 4 r.new ++ leBytes 4 r.detail ++ beBytes 8 r.prev
/-- The 48 bytes of a record. -/
def auditBytes (r : Audit) : List Byte := auditHead r ++ beBytes 8 r.tag

/-- The first 8 bytes of a 32-byte hash or tag. -/
def first8 (h : Nat) : Nat := h / 2 ^ 192 % 2 ^ 64
/-- The first 16 bytes of a 32-byte tag. -/
def first16 (h : Nat) : Nat := h / 2 ^ 128 % 2 ^ 128

/-- The island has its watermark key. -/
def hasKeys (s : State) : Bool := s.isl.pairPub != [] || s.isl.wmKey != 0

/-- The oldest uncounted record dropped. -/
def dropUncounted (l : List Audit) : List Audit := l.eraseP fun r => !r.counted

/-- A record appended; a full log loses its oldest uncounted one. -/
def auditAdd (cls : Nat) (counted : Bool) (param chan old new detail : Nat) (s : State) : State :=
  let prev := match s.isl.audit.getLast? with
    | some r => first8 (sha256 (auditBytes r))
    | none => 0
  let r : Audit := { seq := s.isl.auditSeq + 1, cls := cls, counted := counted, count := auditCount s,
                     state := islCode s.isl.st, boot := s.isl.boot % 65536, tick := s.slu.tick, param := param,
                     chan := chan, old := old % 2 ^ 32, new := new % 2 ^ 32, detail := detail, prev := prev, tag := 0 }
  let r := if hasKeys s then { r with tag := first8 (mac s.isl.wmKey (auditHead r)) } else r
  let l := if 1024 ≤ s.isl.audit.length then dropUncounted s.isl.audit else s.isl.audit
  { s with isl.audit := l ++ [r], isl.auditSeq := s.isl.auditSeq + 1 }

/-- A record's tag verifies; one written before first sealing has none. -/
def auditTagOk (s : State) (r : Audit) : Bool := r.tag == 0 || r.tag == first8 (mac s.isl.wmKey (auditHead r))

/-- Every record's tag and every hash link between records of consecutive seq. -/
def auditIntact (s : State) : List Audit → Bool
  | [] => true
  | [r] => auditTagOk s r
  | r :: q :: l =>
    auditTagOk s r && (q.seq != r.seq + 1 || q.prev == first8 (sha256 (auditBytes r))) && auditIntact s (q :: l)

/-- Records not yet sent, in extracts of one or two, while the hold has room (R340). -/
def sendExtracts : Nat → State → State
  | 0, s => s
  | n + 1, s =>
    match s.isl.audit.filter fun r => decide (s.isl.auditSent < r.seq) with
    | [] => s
    | rs =>
      if !holdRoom s then s
      else
        let two := rs.take 2
        let data := [BitVec.ofNat 8 two.length, 0, 0, 0] ++ leBytes 4 s.isl.auditSeq ++ two.flatMap auditBytes
        let last := match two.getLast? with | some r => r.seq | none => s.isl.auditSent
        sendExtracts n (holdMsg { code := 0x83, lane := 0xFF, seq := 0, data := data }
          { s with isl.auditSent := last })

/-! ## Legal status and pair records (R339, R348) -/

/-- A signed value of 4 bytes. -/
def s32 (x : Int) : List Byte := leBytes 4 (ofSigned 32 x)

/-- The island is paired (R348). -/
def islPaired (s : State) : Bool := s.isl.partner != 0
/-- Changes are staged. -/
def hasStaged (s : State) : Bool :=
  !s.isl.stParams.isEmpty || s.isl.stSeal.isSome || s.isl.stPair.isSome || s.isl.stFw || s.isl.stConfirm

/-- The pair offer, 72 bytes. -/
def offerRec (s : State) : List Byte := [1, 0, 0, 0] ++ leBytes 4 (sealId s) ++ s.isl.pairPub
/-- The pair state record, 96 bytes, formed now. -/
def pairStateRec (s : State) : List Byte :=
  let head := [2, 0, 0, 0] ++ leBytes 4 (sealId s) ++ leBytes 6 s.slu.tick ++ [0, 0]
    ++ (List.range 8).flatMap (fun n => s32 (roundAway (islLane s n).z))
    ++ (List.range 8).flatMap (fun n => s32 (islLane s n).t)
  head ++ beBytes 16 (first16 (mac s.isl.pairKey head))

/-- The pair record that a legal status carries now. -/
def pairRecord (s : State) : List Byte :=
  if s.isl.st = .opened ∧ sealId s ≠ 0 then offerRec s
  else if s.isl.st = .sealed ∧ islPaired s then s.isl.stateRec
  else []

/-- A mask over the lanes. -/
def laneMaskOf (s : State) (p : IslLane → Bool) : Nat :=
  ((List.range 8).map fun n => if p (islLane s n) then 2 ^ n else 0).sum

/-- The newest audit record's seq. -/
def auditLast (s : State) : Nat := s.isl.auditSeq

/-- Flags of the legal status (Table 15.5). -/
def statusFlags (s : State) (first : Bool) : Nat :=
  b2n first + 2 * b2n (islPaired s) + 4 * b2n (decide (0 < s.isl.marginal) || s.isl.sealWord.marginal || s.isl.debugOff.marginal || s.isl.trims.any fun e => e.2.marginal)
    + 8 * b2n (auditCount s == 255) + 16 * b2n (pairRecord s != []) + 32 * b2n s.isl.cal + 64 * b2n (hasStaged s)
    + 128 * b2n s.isl.rejected

/-- A lane with an instrument. -/
def hasSource (s : State) (n : Nat) : Bool := lp s n 0 != 0

/-- The fixed part of the legal status. -/
def statusFixed (s : State) (first : Bool) : List Byte :=
  [BitVec.ofNat 8 (islCode s.isl.st), BitVec.ofNat 8 (if s.isl.st = .fault then s.isl.cause else 0)]
    ++ leBytes 2 (statusFlags s first) ++ leBytes 4 (sealId s) ++ leBytes 4 (fwVer s) ++ leBytes 4 (fwCrc s)
    ++ [BitVec.ofNat 8 (auditCount s), BitVec.ofNat 8 (laneMaskOf s IslLane.zeroReq),
        BitVec.ofNat 8 (laneMaskOf s IslLane.invalid), BitVec.ofNat 8 s.isl.upload]
    ++ leBytes 4 (auditLast s)

/-- The legal status as a message. -/
def statusMsg (s : State) : SluMsg :=
  { code := 0x82, lane := 0xFF, seq := 0, data := statusFixed s s.isl.first ++ pairRecord s }
/-- The status has gone. -/
def statusGone (s : State) : State :=
  { s with isl.lastStatus := statusFixed { s with isl.rejected := false } false ++ pairRecord s,
           isl.statusAt := s.isl.ms, isl.first := false, isl.rejected := false }

/-- A legal status sent: the first after a reset takes a free upward slot ahead of all that is held, and the 16 newest audit
records follow it (R31, R340); a later one goes into the hold when that has room. -/
def sendStatus (s : State) : State :=
  let m := statusMsg s
  if s.isl.first then
    (if 32 ≤ s.slu.up.length then s
     else
       let s := statusGone (postMsg m s)
       { s with isl.auditSent := min s.isl.auditSent (s.isl.auditSeq - 16) })
  else if !holdRoom s then s
  else holdMsg m (statusGone s)

/-- The end of everything the island does: a status first after a reset and at every change, and every new audit
record (R339, R340). -/
def islSettle (s : State) : State :=
  if s.isl.st = .off then s
  else
    let s := if s.isl.first || s.isl.rejected || s.isl.lastStatus != statusFixed s false ++ pairRecord s then sendStatus s
      else s
    sendExtracts 1025 s

/-- The pair state record formed anew (R348). -/
def formState (s : State) : State :=
  if s.isl.st = .sealed ∧ islPaired s then { s with isl.stateRec := pairStateRec s, isl.stateAt := s.isl.ms } else s

/-! ## Threading and reset (R332 to R335, R342) -/

/-- A change of state, with its record; leaving OPEN with an upload in progress aborts it (R341). -/
def islEnter (st : IslSt) (cause : Nat) (s : State) : State :=
  let was := s.isl.st
  let s := { s with isl.st := st, isl.cause := cause }
  let s := if was = .opened ∧ st ≠ .opened ∧ s.isl.upload = 1 then
      { s with isl.upload := 3, isl.upNext := 0, isl.upTotal := 0, isl.upData := [] } else s
  if st = .fault then auditAdd 0x12 false 0 0xFF 0 0 cause s
  else if st = .opened then auditAdd 0x10 false 0 0xFF 0 0 0 s
  else if was = .opened then auditAdd 0x11 false 0 0xFF 0 0 0 s
  else s

/-- Every word of the island's fuses that reads differently at its two margins: 0 the seal word, 1 to 255 counter bits, 256
debug-off, 257 on the trim copies. DESIGN CHOICE: the manual gives no numbering (log entry 48). -/
def islMarginal (s : State) : List Nat :=
  (if s.isl.sealWord.marginal then [0] else [])
    ++ (List.range s.isl.marginal).map (fun i => 1 + s.isl.count + i)
    ++ (if s.isl.debugOff.marginal then [256] else [])
    ++ (s.isl.trims.filter fun e => e.2.marginal).map fun e => 257 + e.1

/-- A record 0x14 for every marginal fuse word. -/
def noteMarginal (s : State) : State := (islMarginal s).foldl (fun s i => auditAdd 0x14 false 0 0xFF 0 0 i s) s

/-- The island's trim words resolved as the core's are: an unresolved word takes its design default (Table 4.2). -/
def islTrims (s : State) : Tbl Nat :=
  ((s.isl.trims.map fun e => e.1 / 3).eraseDups).foldl (fun m i =>
    tset 0 m i (match trimValue s.isl.trims i with | some v => v | none => Config.islTrimDefault i)) []

/-- The island's debugging is off: its fuse is blown or marginal (Table 4.2). -/
def islDebugOff (s : State) : Bool := s.isl.debugOff.marginal || s.isl.debugOff.normal != 0

/-! ## Copies (R334, R335) -/

/-- The state with a legal firmware copy laid out as an area of its own. -/
def legalScratch (bs : List Byte) (s : State) : State :=
  { s with boot.flash := wrBytes 0xFF [] 0 bs, boot.flashMiB := 16, img.areas := tset (0, 0) [] 8 (0, 524288) }

/-- A legal firmware copy passes: container, CRCs, and the signature under the legal public key (R334, R335). -/
def legalFwGood (bs : List Byte) (s : State) : Bool :=
  let t := legalScratch bs s
  let w := copyWalk t 4 0
  !bs.isEmpty && containerOk t 4 0 0 w && match w.find 0xF0 with
    | none => false
    | some q =>
      let p := q.payload t
      let key := (p.drop 4).take 64
      fld p 0 1 == 2 && sha256 key == Config.legalKeyHash && ecdsaVerify key ((p.drop 68).take 64) (sha256 (bs.take q.off))

/-- A legal configuration copy passes: CRCs, island check-value units that keep R385 and only check (R393), and, on a sealed
island, a seal record of its identity whose tag verifies. -/
def legalCfgGood (c : LegalCfg) (s : State) : Bool :=
  let unitOk (bs : List Byte) : Bool :=
    bs.isEmpty || (fld bs 2 1 != 2 && (firstBad (cvChecks fun o n d => if o < bs.length then fld bs o n else d)).isNone)
  c.crcOk && (c.ics.all fun e => unitOk e.2) && (sealId s == 0 || (c.sealId == sealId s && c.tagOk))

/-- The FAULT causes found in threading, lowest first, cause 8 before all (Table 15.8). -/
def threadCause (selfTestFails fallback noFw noCfg : Bool) (s : State) : Nat :=
  if noFw then 8
  else if s.isl.sealWord.marginal then 1
  else if fallback && !s.isl.cal then 3
  else if noCfg then 4
  else if !auditIntact s s.isl.audit then 6
  else if selfTestFails then 7
  else 0

/-- The island threads: its RAM is new, copies are chosen, the state is decided (R335, R342, R351, R374). -/
def islThread (detail : Nat) (selfTestFails : Bool) (s : State) : State :=
  let i := s.isl
  let okA := legalFwGood i.fwA s
  let okB := legalFwGood i.fwB s
  let prefOk := if i.fwPref = 0 then okA else okB
  let otherOk := if i.fwPref = 0 then okB else okA
  let run := if prefOk then i.fwPref else if otherOk then 1 - i.fwPref else i.fwPref
  let selOk := legalCfgGood (legalCfg s) s
  let altOk := legalCfgGood (if i.cfgSel = 0 then i.cfgB else i.cfgA) s
  let s := modIsl (fun i =>
    { i with
      ms := 0, ident := true, fwRun := run, cfgSel := if selOk || !altOk then i.cfgSel else 1 - i.cfgSel,
      boot := i.boot + 1, recSeq := (i.recSeq + 65536) % 2 ^ 32, stParams := [], stSeal := none, stPair := none,
      stFw := false, stConfirm := false, upload := 0, upNext := 0, upTotal := 0, upData := [], lanes := [], raw := [],
      raws := [], chanFault := 0, lds := [], lastImport := none, imported := false, impOper := false, first := true,
      rejected := false, lastStatus := [], statusAt := 0, stateAt := 0, stateRec := [], lastTick := s.slu.tick,
      oper := s.slu.oper, reply := [], lastTrims := islTrims s, tap := !islDebugOff s, fuseMs := 0,
      fuseTemp := i.temp }) s
  let s := auditAdd 0x13 false 0 0xFF 0 0 detail s
  let s := noteMarginal s
  let cause := threadCause selfTestFails (!prefOk && otherOk) (!prefOk && !otherOk) (!selOk && !altOk) s
  let s := if cause ≠ 0 then islEnter .fault cause s
    else if s.isl.cal then islEnter .opened 0 s
    else if sealId s ≠ 0 then islEnter .sealed 0 s
    else islEnter .fault 2 s
  buildWdm (formState s)

/-- The downward mailbox emptied by a reset of the island, and what it held counted (R31). -/
def loseDown (s : State) : State :=
  { s with slu.down := [], slu.downLost := satAdd (2 ^ 32 - 1) s.slu.downLost s.slu.down.length }

/-- An island reset: the downward mailbox is emptied, what it held is counted, and the island threads (R31). -/
def islReset (detail : Nat) (selfTestFails : Bool) (s : State) : State :=
  islThread detail selfTestFails { loseDown s with isl.st := .fault, isl.cause := 0 }

/-- VM_POWER_GOOD (R332): the island threads from its legal flash, whatever the core die does. -/
def execVmPowerGood (selfTestFails : Bool) (s : State) : Out :=
  ok (if s.isl.st = .off then islSettle (islReset 1 selfTestFails s) else s)

/-- VM_BROWN_OUT (R509, R31): the island is reset and stays so until VM is good; the downward mailbox is emptied. -/
def execVmBrownOut (s : State) : Out :=
  ok (if s.isl.st = .off then s else
    { loseDown s with isl.st := .off, isl.cause := 0, isl.tap := false, isl.lds := [], isl.lanes := [] })

/-- IDENT_DISPLAY_END (R352): 3 s after threading. -/
def execIdentDisplayEnd (s : State) : Out :=
  ok (if s.isl.st ≠ .off ∧ s.isl.ident ∧ 3000 ≤ s.isl.ms then modIsl (fun i => { i with ident := false }) s else s)

/-- The island may meet a cause now: causes 1 and 6 are what its fuses and its log show; the others come from its tests. -/
def causeHolds (c : Nat) (s : State) : Bool :=
  if c = 1 then s.isl.sealWord.marginal else if c = 6 then !auditIntact s s.isl.audit else c != 0

/-- A cause arises in SEALED or OPEN (Table 15.6). -/
def faultCause (c : Nat) (s : State) : State :=
  if causeHolds c s ∧ (s.isl.st = .sealed ∨ s.isl.st = .opened) then islEnter .fault c s else s

/-- FAULT_CAUSE (R342). -/
def execFaultCause (cause : Fin 9) (s : State) : Out := ok (if s.isl.st = .off then s else islSettle (faultCause cause.val s))

/-- The island's own re-read of its fuses, on its clock and its sensor (R90, R91, R354): the words found marginal are recorded,
the log is checked, and FAULT follows the lowest cause found. -/
def islReread (s : State) : State :=
  if s.isl.ms < s.isl.fuseMs + 3600000 ∧ (s.isl.temp - s.isl.fuseTemp).natAbs ≤ 30 then s
  else
    let s := noteMarginal { s with isl.fuseMs := s.isl.ms, isl.fuseTemp := s.isl.temp }
    faultCause (if causeHolds 1 s then 1 else 6) s

/-! ## Leaving OPEN: the commit (R346, R347) -/

/-- A calibration parameter: class 1; the others are class 2. -/
def isCal (id : Nat) : Bool :=
  match laneParam id, chanParam id with
  | some (_, k), _ => decide (0x12 ≤ k ∧ k ≤ 0x14)
  | _, some (_, k) => decide (3 ≤ k ∧ k ≤ 5)
  | _, _ => false

/-- Classes changed, in the order of the commit. -/
def classesChanged (s : State) : List Nat :=
  (if s.isl.stFw || s.isl.stConfirm then [3] else [])
    ++ (if s.isl.stParams.any fun e => isCal e.1 then [1] else [])
    ++ (if (s.isl.stParams.any fun e => !isCal e.1) || s.isl.stSeal.isSome then [2] else [])
    ++ (if s.isl.stPair.isSome then [4] else [])

/-- The staged values of a class, the last staged of each identity: identity, old, new. -/
def stagedOf (s : State) (cls : Nat) : List (Nat × Int × Int) :=
  let ids := ((s.isl.stParams.filter fun e => isCal e.1 == (cls == 1)).map Prod.fst).eraseDups
  let ps := ids.map fun id => (id, param s id, stagedParam s id)
  if cls = 1 then ps
  else if cls = 2 then ps ++ (match s.isl.stSeal with | some v => [(1, 0, (v : Int))] | none => [])
  else if cls = 4 then (match s.isl.stPair with | some (v, _) => [(0, (s.isl.partner : Int), (v : Int))] | none => [])
  else []

/-- Lane or channel of a parameter, for its audit record. -/
def paramChan (id : Nat) : Nat :=
  match laneParam id, chanParam id with | some (n, _), _ => n | _, some (c, _) => c | _, _ => 0xFF

/-- One class committed: a record 0x20 for each staged value, the counter bit blown, the counted record. -/
def commitClass (s : State) (cls : Nat) : State :=
  let vs := stagedOf s cls
  let s := vs.foldl (fun s v => auditAdd 0x20 false v.1 (paramChan v.1) (ofSigned 32 v.2.1) (ofSigned 32 v.2.2) 0 s) s
  let s := { s with isl.count := s.isl.count + 1 }
  if cls = 3 then
    let other := if s.isl.fwRun = 0 then s.isl.fwB else s.isl.fwA
    auditAdd 3 true 0 0xFF (fwCrc s) (if s.isl.stFw then crc32 (other.take (fld other 36 4)) else fwCrc s) 0 s
  else match vs with
    | [v] => auditAdd cls true v.1 (paramChan v.1) (ofSigned 32 v.2.1) (ofSigned 32 v.2.2) 0 s
    | _ => auditAdd cls true 0 0xFF 0 0 0 s

/-- First sealing: identity and debug-off fuses, watermark key and pair key pair from the random source (R347). -/
def firstSeal (id : Nat) (s : State) : State :=
  let (k, s) := drawNat (2 ^ 256) s
  let (p, s) := drawNat (p256N - 1) s
  let p := p + 1
  modIsl (fun i =>
    { i with
      sealWord := { normal := id, tight := id }, debugOff := { normal := 1, tight := 1 }, wmKey := k, pairPriv := p,
      pairPub := publicKey p }) s

/-- The pair key with a partner (R349). -/
def derivePairKey (s : State) (partner : Nat) (pub : List Byte) : Nat :=
  let lo := min (sealId s) partner
  let hi := max (sealId s) partner
  let z := match ecdh s.isl.pairPriv pub with | some z => z | none => List.replicate 32 0
  beNat (hkdf 32 z (beBytes 4 lo ++ beBytes 4 hi) [0x4B, 0x57, 0x50, 0x41, 0x49, 0x52, 0x31])

/-- Every staged change dropped; an upload in progress is aborted. -/
def dropStaged (s : State) : State :=
  modIsl (fun i =>
    { i with
      stParams := [], stSeal := none, stPair := none, stFw := false, stConfirm := false,
      upload := if i.upload = 1 then 3 else 0, upNext := 0, upTotal := 0, upData := [] }) s

/-- Steps 4 and 5: the configuration in the other copy, the pairing, the selector. -/
def writeLegal (s : State) : State :=
  let cur := legalCfg s
  let params := s.isl.stParams.foldl (fun m e => tset none m e.1 (some e.2)) cur.params
  let new : LegalCfg := { cur with crcOk := true, sealId := sealId s, tagOk := sealId s != 0, params := params }
  let s := match s.isl.stPair with
    | some (p, pub) => modIsl (fun i => { i with partner := p, partnerPub := pub, pairKey := derivePairKey s p pub }) s
    | none => s
  modIsl (fun i =>
    { i with
      cfgA := if i.cfgSel = 0 then i.cfgA else new, cfgB := if i.cfgSel = 0 then new else i.cfgB,
      cfgSel := 1 - i.cfgSel, gen := i.gen + 1,
      fwPref := if i.stFw then 1 - i.fwRun else if i.stConfirm then i.fwRun else i.fwPref }) s

/-- The commit on CAL_N release in OPEN (R346, Table 15.6). -/
def islCommit (flashFails : Bool) (s : State) : State :=
  let cls := classesChanged s
  if sealId s = 0 ∧ s.isl.stSeal.isNone then islEnter .fault 2 (dropStaged s)
  else if 255 - auditCount s < cls.length then
    islEnter .sealed 0 (auditAdd 0x16 false 0 0xFF 0 0 0 (dropStaged s))
  else
    let s := cls.foldl commitClass s
    let s := match s.isl.stSeal with | some id => firstSeal id s | none => s
    if cls ≠ [] ∧ flashFails then islEnter .fault 5 (dropStaged s)
    else
      let s := if cls = [] then s else writeLegal s
      formState (islEnter .sealed 0 (dropStaged s))

/-- CAL_N_ASSERTED (R342): SEALED opens, FAULT resets the island, which then tests itself anew. -/
def execCalNAsserted (s : State) : Out :=
  let s := modIsl (fun i => { i with cal := true }) s
  ok (match s.isl.st with
    | .sealed => islSettle (islEnter .opened 0 s)
    | .fault => islSettle (islReset 3 (Config.freeBool s.free) { s with free := s.free + 1 })
    | _ => islSettle s)

/-- CAL_N_RELEASED (R346): OPEN commits; under FAULT cause 8 the boot ROM commits an uploaded copy (R343). -/
def execCalNReleased (flashFails : Bool) (s : State) : Out :=
  let s := modIsl (fun i => { i with cal := false }) s
  ok (match s.isl.st with
    | .opened => islSettle (islCommit flashFails s)
    | .fault =>
      if s.isl.cause = 8 ∧ s.isl.stFw ∧ auditCount s < 255 ∧ !flashFails then
        islSettle (dropStaged (modIsl (fun i => { i with fwPref := 0, gen := i.gen + 1 }) (commitClass s 3)))
      else islSettle s
    | _ => islSettle s)

/-! ## Legal firmware and pairing over the sluice (R341, R349, R350) -/

/-- A chunk of legal firmware at the island. -/
def takeChunk (data : List Byte) (s : State) : State :=
  let off := fld data 0 4
  let total := fld data 4 4
  let body := data.drop 8
  let i := s.isl
  let rom := i.st == .fault && i.cause == 8 && i.cal
  if !(i.st == .opened || rom) ∨ body.length = 0 ∨ 112 < body.length ∨ total < 64 ∨ 524288 < total then s
  else if off = 0 ∧ auditCount s = 255 then modIsl (fun i => { i with upload := 3, upData := [], upNext := 0 }) s
  else if off ≠ 0 ∧ (i.upload ≠ 1 ∨ off ≠ i.upNext ∨ total ≠ i.upTotal) then
    modIsl (fun i => { i with upload := 3, upData := [], upNext := 0 }) s
  else
    let got := (if off = 0 then [] else i.upData) ++ body
    let toB := !rom && i.fwRun == 0
    if total < got.length then modIsl (fun i => { i with upload := 3, upData := [], upNext := 0 }) s
    else
      let s := modIsl (fun i =>
        { i with
          upload := 1, upData := got, upNext := got.length, upTotal := total, stFw := false,
          fwA := if toB then i.fwA else got, fwB := if toB then got else i.fwB }) s
      if got.length < total then s
      else if legalFwGood got s then modIsl (fun i => { i with upload := 2, stFw := true }) s
      else modIsl (fun i => { i with upload := 3 }) s

/-- A pair offer at the island (R349). -/
def takeOffer (data : List Byte) (s : State) : State :=
  let id := fld data 4 4
  if (s.isl.st = .opened ∨ s.isl.st = .fault) ∧ data.length = 72 ∧ id ≠ 0 ∧ id ≠ sealId s ∧ auditCount s < 255 then
    modIsl (fun i => { i with stPair := some (id, data.drop 8) }) s
  else modIsl (fun i => { i with rejected := true }) s

/-- A pair state at the island (R350). -/
def takePairState (data : List Byte) (s : State) : State :=
  let t := fld data 8 6
  let head := data.take 80
  let fresh := match s.isl.lastImport with | some l => decide (l < t) | none => true
  if s.isl.st = .sealed && islPaired s && data.length == 96 && fld data 4 4 == s.isl.partner
      && beNat (data.drop 80) == first16 (mac s.isl.pairKey head) && fresh then
    let v (o : Nat) : Int := toSigned 32 (fld data o 4)
    (List.range 8).foldl (fun s n => modIslLane n (fun x => { x with z := v (16 + 4 * n), t := v (48 + 4 * n) }) s)
      (modIsl (fun i => { i with lastImport := some t, imported := true, impOper := true }) s)
  else modIsl (fun i => { i with rejected := true }) s

/-- The head of the downward mailbox, when its code is `code`. -/
def headIs (s : State) (code : Nat) : Option SluMsg :=
  match s.slu.down with | m :: _ => if m.code = code then some m else none | [] => none

/-- The head taken from the downward mailbox. -/
def popDown (s : State) : State := { s with slu.down := s.slu.down.drop 1 }

/-- Malformed messages at the head of the downward mailbox, discarded by the island and counted (R30). -/
def cleanDown : Nat → State → State
  | 0, s => s
  | n + 1, s =>
    match s.slu.down with
    | m :: _ => if sluBadForm 1 6 m then cleanDown n (popDown { s with slu.bad := satInc (2 ^ 32 - 1) s.slu.bad }) else s
    | [] => s

/-- PAIR_OFFER_IMPORT (R349): the island takes a kind-1 pair record. -/
def execPairOfferImport (s : State) : Out :=
  let s := if s.isl.st = .off then s else cleanDown 33 s
  ok (match headIs s 6 with
    | some m => if m.data.headD 0 = 1 ∧ s.isl.st ≠ .off then islSettle (takeOffer m.data (popDown s)) else s
    | none => s)

/-- PAIR_STATE_IMPORT (R350): the island takes a kind-2 pair record; any other kind is rejected likewise. -/
def execPairStateImport (s : State) : Out :=
  let s := if s.isl.st = .off then s else cleanDown 33 s
  ok (match headIs s 6 with
    | some m =>
      if m.data.headD 0 ≠ 1 ∧ s.isl.st ≠ .off then islSettle (formState (takePairState m.data (popDown s))) else s
    | none => s)

/-! ## Sending (R30, R339) -/

/-- LEGAL_STATUS_SEND (R339): on a change, and at least once per second. -/
def execLegalStatusSend (s : State) : Out :=
  ok (if s.isl.st = .off then s
    else
      let s := if s.isl.stateAt + 1000 ≤ s.isl.ms then formState s else s
      if s.isl.statusAt + 1000 ≤ s.isl.ms then sendExtracts 1025 (sendStatus s) else islSettle s)

/-- UPWARD_POST (R30): held messages are posted in sequence order as slots free. -/
def execUpwardPost (s : State) : Out := ok (if s.isl.st = .off then s else islSettle (postUp 97 s))

/-! ## The service port (R345) -/

/-- A service reply: the command's code, the status, the answer. -/
def svcReply (cmd status : Nat) (data : List Byte) (s : State) : State :=
  modIsl (fun i => { i with reply := [BitVec.ofNat 8 (cmd + 0x80), BitVec.ofNat 8 status] ++ data }) s

/-- A service command that stages: refused outside OPEN, or with the counter exhausted. -/
def svcStage (cmd : Nat) (f : State → Nat × State) (s : State) : State :=
  if s.isl.st = .off ∨ (s.isl.st = .fault ∧ s.isl.cause = 8) then s
  else if s.isl.st ≠ .opened then svcReply cmd 1 [] s
  else if auditCount s = 255 then svcReply cmd 3 [] s
  else
    let (st, s) := f s
    islSettle (svcReply cmd st [] s)

/-- A service command answered in any state but cause 8. -/
def svcRead (cmd : Nat) (f : State → Nat × List Byte) (s : State) : State :=
  if s.isl.st = .off ∨ (s.isl.st = .fault ∧ s.isl.cause = 8) then s
  else svcReply cmd (f s).1 (f s).2 s

/-- SVC_IDENT: the legal status fixed part, in any state. -/
def execSvcIdent (s : State) : Out :=
  ok (if s.isl.st = .off then s else svcReply 1 0 (statusFixed s s.isl.first) s)

/-- SVC_AUDIT_READ: up to two records from a seq onward. -/
def execSvcAuditRead (from' : BitVec 32) (s : State) : Out :=
  ok (svcRead 2 (fun s =>
    (0, ((s.isl.audit.filter fun r => decide (from'.toNat ≤ r.seq)).take 2).flatMap auditBytes)) s)

/-- What PARAM_READ answers for an identity. -/
def readParam (s : State) (id : Nat) : Option Int :=
  if id = 1 then some (sealId s)
  else match laneParam id with
    | some (n, 0x20) => some (islLane s n).acc
    | some (n, 0x21) => some (islLane s n).rej
    | _ => if (paramRange id).isSome then some (param s id) else none

/-- PARAM_READ (R360). -/
def execParamRead (id : BitVec 16) (s : State) : Out :=
  ok (svcRead 3 (fun s => match readParam s id.toNat with | some v => (0, s32 v) | none => (2, [])) s)

/-- PARAM_WRITE (R361): a value in range that leaves the staged set sound is staged. -/
def execParamWrite (id : BitVec 16) (v : BitVec 32) (s : State) : Out :=
  ok (svcStage 4 (fun s =>
    match paramRange id.toNat with
    | none => (2, s)
    | some (lo, hi, _) =>
      let x := v.toInt
      let s' := modIsl (fun i => { i with stParams := i.stParams ++ [(id.toNat, x)] }) s
      let src : Bool := match laneParam id.toNat with | some (_, 0) => sourceOk x | _ => true
      if lo ≤ x ∧ x ≤ hi ∧ src = true ∧ paramSetOk (stagedParam s') = true then (0, s') else (2, s)) s)

/-- The parameters cal_zero, cal_span_raw and cal_span_load of the instrument or non-legal channel that channel `c`
serves in the staged set. -/
def calIds (s : State) (c : Nat) : Option (Nat × Nat × Nat) :=
  match (List.range 8).find? fun n => stagedParam s (laneId n 0) == (c : Int) + 1 with
  | some n => some (laneId n 0x12, laneId n 0x13, laneId n 0x14)
  | none => if stagedParam s (chanId c 0) = 1 then some (chanId c 3, chanId c 4, chanId c 5) else none

/-- The mean of 100 raw values, rounded half away from zero, and their spread; none before 100 instants. -/
def rawMean (s : State) (c : Nat) : Option (Int × Int) :=
  let l := tget [] s.isl.raws c
  if l.length < 100 then none
  else some (roundAway ((l.sum : Rat) / 100), l.foldl max (l.headD 0) - l.foldl min (l.headD 0))

/-- CAL_ZERO (R362): the mean raw value of 100 instants; refused when they spread by more than 1 u. -/
def execCalZero (c : Fin 4) (s : State) : Out :=
  ok (svcStage 5 (fun s =>
    match calIds s c.val, rawMean s c.val with
    | some (zid, sid, lid), some (mean, spread) =>
      let load := stagedParam s lid
      let span := stagedParam s sid
      if load ≠ 0 ∧ (span.natAbs : Int) < spread * load.natAbs then (2, s)
      else (0, modIsl (fun i => { i with stParams := i.stParams ++ [(zid, mean)] }) s)
    | _, _ => (2, s)) s)

/-- CAL_SPAN (R362): the span from a test load in u. -/
def execCalSpan (c : Fin 4) (load : BitVec 32) (s : State) : Out :=
  ok (svcStage 6 (fun s =>
    match calIds s c.val, rawMean s c.val with
    | some (zid, sid, lid), some (mean, spread) =>
      let m := load.toInt
      let span := mean - stagedParam s zid
      if m ≤ 0 ∨ (span.natAbs : Int) < 10 * m ∨ (span.natAbs : Int) < spread * m then (2, s)
      else (0, modIsl (fun i => { i with stParams := i.stParams ++ [(sid, span), (lid, m)] }) s)
    | _, _ => (2, s)) s)

/-- SEAL (R347): stages a seal identity on an unsealed island. -/
def execSeal (id : BitVec 32) (s : State) : Out :=
  ok (svcStage 7 (fun s =>
    if sealId s ≠ 0 then (1, s)
    else if id = 0 ∨ id = 0xFFFFFFFF then (2, s)
    else (0, modIsl (fun i => { i with stSeal := some id.toNat }) s)) s)

/-- DISCARD (R345): every staged change and any upload is dropped. -/
def execDiscard (s : State) : Out :=
  ok (if s.isl.st = .opened then islSettle (svcReply 8 0 [] (modIsl (fun i => { i with upload := 0 }) (dropStaged s)))
    else svcRead 8 (fun _ => (1, [])) s)

/-- VERIFY_REC (R375): a presented record's watermark, pass 1 or fail 0. -/
def execVerifyRec (bs : List Byte) (s : State) : Out :=
  ok (svcRead 9 (fun s =>
    if sealId s = 0 then (1, [])
    else if bs.length ≠ 56 then (2, [])
    else (0, [if beNat (bs.drop 48) == first8 (mac s.isl.wmKey (bs.take 48)) && fld bs 44 4 == sealId s
              then 1 else 0])) s)

/-- FW_CONFIRM (R345): in OPEN on the fallback copy, the running copy is staged as preferred. -/
def execFwConfirm (s : State) : Out :=
  ok (svcStage 10 (fun s =>
    if s.isl.fwRun = s.isl.fwPref then (1, s) else (0, modIsl (fun i => { i with stConfirm := true }) s)) s)

end Sys2Proof.Machine
end

