-- ==== Sys2Proof/Machine/Weigh.lean ====
section
/-! DEFINITION. Weighing and price (16_weighing_and_price) inside the island, WD-M, and what the core side makes of the
island's upward messages (R355, R373, R384). -/

namespace Sys2Proof.Machine

/-! ## Readings (R363 to R369) -/

/-- Max_i of lane `n`, i from 1. -/
def maxOf (s : State) (n i : Nat) : Int := lp s n (4 + i)
/-- k_i of lane `n`. -/
def kOf (s : State) (n i : Nat) : Int := lp s n (7 + i)
/-- r_n of lane `n`. -/
def ranges (s : State) (n : Nat) : Nat := (lp s n 4).toNat
/-- Max of the greatest range. -/
def maxTop (s : State) (n : Nat) : Int := maxOf s n (ranges s n)

/-- A quotient in record units; where the divisor is 0 the manual states none: a free value. -/
def ratio (num : Int) (den : Int) (s : State) : Rat × State :=
  if den = 0 then ((Config.freeInt s.free : Rat), { s with free := s.free + 1 }) else ((num : Rat) / den, s)

/-- The value of a load-cell channel under its calibration, without zero adjustment. -/
def cellValue (c zid : Nat) (s : State) : Rat × State :=
  ratio ((tget 0 s.isl.raw c - param s zid) * param s (zid + 2)) (param s (zid + 1)) s

/-- Lane `n` has a certified scale as its source. -/
def lsSource (s : State) (n : Nat) : Bool := decide (0x11 ≤ lp s n 0)

/-- The reading of lane `n`'s source, before zero adjustment. -/
def sourceValue (n : Nat) (s : State) : Rat × State :=
  if lsSource s n then (((islLane s n).tel.getD 0 : Rat), s) else cellValue ((lp s n 0).toNat - 1) (laneId n 0x12) s

/-- The source of lane `n` is in fault, or its telegrams have stopped (R358, R369). -/
def sourceBad (s : State) (n : Nat) : Bool :=
  if lsSource s n then
    (match (islLane s n).tel with
     | none => true
     | some _ => decide (((islLane s n).telAt : Int) + lp s n 0x0E < s.isl.ms))
  else bitOf s.isl.chanFault ((lp s n 0).toNat - 1)

/-- Instants of the stability window. -/
def windowLen (s : State) (n : Nat) : Nat := ceilDiv (lp s n 0x0B).toNat 20

/-- Lane `n` is stable, its newest G first in its history (R364). -/
def stable (s : State) (n : Nat) : Bool :=
  if lsSource s n then (islLane s n).telStable && (islLane s n).tel.isSome
  else
    let h := (islLane s n).hist.take (windowLen s n)
    let hi := h.foldl max (h.headD 0)
    let lo := h.foldl min (h.headD 0)
    decide (windowLen s n ≤ h.length) && decide (hi - lo ≤ (lp s n 0x0C : Rat) / 10)

/-- Over (R363). -/
def isOver (s : State) (n : Nat) (g : Rat) : Bool := decide ((maxTop s n + 9 * kOf s n (ranges s n) : Int) < g)
/-- Under. -/
def isUnder (s : State) (n : Nat) (g : Rat) : Bool := decide (g < ((-20 * kOf s n 1 : Int) : Rat))
/-- Within the zero range (R365). -/
def inZeroRange (s : State) (n : Nat) (z : Rat) : Bool :=
  decide (50 * z ≤ (maxTop s n : Rat)) && decide (-(maxTop s n : Rat) ≤ 50 * z)
/-- The island temperature is outside t_lo to t_hi. -/
def tempOut (s : State) : Bool := decide (s.isl.temp < param s 5 ∨ param s 6 < s.isl.temp)
/-- Bit 8 of lane `n` (Table 16.6). -/
def laneInvalid (s : State) (n : Nat) : Bool := sourceBad s n || (islLane s n).zeroReq || tempOut s

/-! ## Requests (R365, R366, R370, R371) -/

/-- A display text that keeps Table 16.3. -/
def textOk (d : List Byte) : Bool :=
  decide (4 ≤ d.length) && decide (fld d 0 1 ≤ 1) && decide (fld d 1 1 ≤ 40) && fld d 2 2 == 0
    && d.length == 4 + fld d 1 1 && (d.drop 4).all fun b => decide (0x20 ≤ b.toNat ∧ b.toNat ≤ 0x7E)

/-- What becomes of lane `n`'s first request at an instant at which its reading is `x`: none while it waits for
stability, else its result and the lane as the request leaves it. -/
def requestResult (s : State) (n : Nat) (x : Rat) (r : LegalReq) : Option (Nat × State) :=
  let l := islLane s n
  let g := x - l.z
  let waits : Option (Nat × State) := if s.isl.ms ≤ r.arrival + 2000 then none else some (2, s)
  match r.code with
  | 1 =>
    if r.data.length = 8 then
      some (1, modIslLane n (fun l => { l with item := fld r.data 0 4, price := fld r.data 4 4 }) s)
    else some (5, s)
  | 2 =>
    if r.data.length ≠ 4 ∨ 1 < fld r.data 0 1 ∨ fld r.data 1 3 ≠ 0 then some (5, s)
    else if fld r.data 0 1 = 0 then some (1, modIslLane n (fun l => { l with t := 0 }) s)
    else if laneInvalid s n then some (4, s)
    else if g ≤ 0 || isOver s n g || isUnder s n g || decide ((maxOf s n 1 : Rat) < g) then some (3, s)
    else if !stable s n then waits
    else some (1, modIslLane n (fun l => { l with t := roundTo (kOf s n 1) g }) s)
  | 3 =>
    if r.data.length ≠ 0 then some (5, s)
    else if l.t ≠ 0 then some (4, s)
    else if isOver s n g || isUnder s n g || !inZeroRange s n x then some (3, s)
    else if !stable s n then waits
    else some (1, modIslLane n (fun l => { l with z := x, zeroReq := false }) s)
  | _ =>
    if !textOk r.data then some (5, s)
    else
      let t := r.data.drop 4
      some (1, match ldOf s n with
        | none => s
        | some p =>
          let s := modLd p (fun d => if fld r.data 0 1 = 0 then { d with text0 := t } else { d with text1 := t }) s
          let v : LdView := { dashView [] with text0 := (ldPort s p).text0, text1 := (ldPort s p).text1 }
          let (f, s) := ldFrame n 3 v s
          match f with | some f => modLd p (fun d => { d with sent := [f] }) s | none => s)

/-- Lane `n`'s requests in sequence, until one waits. -/
def serveRequests (n : Nat) (x : Rat) : Nat → State → State
  | 0, s => s
  | k + 1, s =>
    match (islLane s n).reqs with
    | [] => s
    | r :: rest =>
      if s.isl.ms < r.arrival then s
      else match requestResult s n x r with
        | none => s
        | some (res, s) =>
          serveRequests n x k (modIslLane n (fun l => { l with reqs := rest, res := r.code * 16 + res }) s)

/-- Zero tracking of lane `n` (R365). -/
def trackZero (n : Nat) (x : Rat) (s : State) : State :=
  let l := islLane s n
  let g := x - l.z
  let k : Rat := kOf s n 1
  if lp s n 0x0D = 1 ∧ stable s n ∧ l.t = 0 ∧ 2 * g ≤ k ∧ -k ≤ 2 * g then
    let step := max (-(k / 100)) (min (k / 100) g)
    let lim := (maxTop s n : Rat) / 50
    modIslLane n (fun l => { l with z := max (-lim) (min lim (l.z + step)) }) s
  else s

/-! ## Values and the weight record (R363, R373 to R376) -/

/-- What a lane shows at an instant. -/
structure Weight where
  range : Nat
  net : Int
  tare : Int
  price : Nat
  flags : Nat
  tooDear : Bool
deriving DecidableEq, Repr

/-- The partial range of a net value. -/
def rangeOf (s : State) (n : Nat) (net : Rat) : Nat :=
  match (List.range (ranges s n)).find? fun i => decide (net ≤ (maxOf s n (i + 1) : Rat) ∧ -(maxOf s n (i + 1) : Rat) ≤ net)
  with
  | some i => i + 1
  | none => ranges s n

/-- The values of lane `n` at reading `x`. -/
def weigh (s : State) (n : Nat) (x : Rat) : Weight :=
  let l := islLane s n
  let g := x - l.z
  let r := rangeOf s n (g - l.t)
  let net := roundTo (kOf s n r) (g - l.t)
  let st := stable s n
  let ov := isOver s n g
  let under := isUnder s n g
  let inv := laneInvalid s n
  let bad := ov || under || inv
  let p := roundTo (param s 2) ((net * (lp s n 3) * (l.price : Int) : Int) / (1000000 : Rat))
  let can := st && decide (0 < net) && !bad && l.price != 0
  let valid := can && decide (p ≤ param s 3)
  let k : Rat := kOf s n 1
  { range := r, net := if bad then 0 else net, tare := l.t, price := if valid then p.toNat else 0,
    tooDear := can && !valid,
    flags := b2n st + 2 * b2n (decide (4 * g ≤ k ∧ -k ≤ 4 * g)) + 4 * b2n (l.t != 0) + 8 * b2n ov + 16 * b2n under
      + 32 * b2n valid + 64 * b2n (lsSource s n) + 128 * b2n l.zeroReq + 256 * b2n inv + 1024 * b2n (tempOut s)
      + 2048 * b2n s.isl.impOper }

/-- A record's tag: none can be computed before first sealing, and the manual gives no value then. -/
def recordTag (bs : List Byte) (s : State) : List Byte × State :=
  if hasKeys s then (beBytes 8 (first8 (mac s.isl.wmKey bs)), s) else freeBytes 8 s

/-- A record issued into the upward hold; none while the hold is full (R336). -/
def issueRecord (hdrLane laneByte unit range req flags u : Nat) (gross net tare : Int) (price unitPrice item : Nat)
    (s : State) : State :=
  let q := (s.isl.recSeq + 1) % 2 ^ 32
  let bs := [BitVec.ofNat 8 laneByte, BitVec.ofNat 8 unit, BitVec.ofNat 8 range, BitVec.ofNat 8 req] ++ leBytes 4 q
    ++ leBytes 6 s.slu.tick ++ leBytes 2 flags ++ leBytes 4 u ++ s32 gross ++ s32 net ++ s32 tare
    ++ leBytes 4 unitPrice ++ leBytes 4 price ++ leBytes 4 item ++ leBytes 4 (sealId s)
  let (tag, s) := recordTag bs s
  holdMsg { code := 0x81, lane := hdrLane, seq := 0, data := bs ++ tag } (modIsl (fun i => { i with recSeq := q }) s)

/-- The weight record of lane `n`. -/
def laneRecord (n : Nat) (w : Weight) (s : State) : State :=
  if s.isl.st ≠ .sealed ∨ !s.slu.oper ∨ !holdRoom s then s
  else
    let l := islLane s n
    let gross := if bitOf w.flags 3 || bitOf w.flags 4 || bitOf w.flags 8 then 0 else w.net + w.tare
    modIslLane n (fun l => { l with res := 0 })
      (issueRecord n n (lp s n 2).toNat w.range l.res w.flags (lp s n 3).toNat gross w.net w.tare w.price l.price l.item s)

/-- The record of a non-legal channel (R380). -/
def chanRecord (c : Nat) (s : State) : State :=
  if param s (chanId c 0) ≠ 1 ∨ s.isl.st = .fault ∨ !s.slu.oper ∨ !holdRoom s then s
  else
    let (x, s) := cellValue c (chanId c 3) s
    let bad := bitOf s.isl.chanFault c
    let v := if bad then 0 else roundAway x
    issueRecord 0xFF (0x80 + c) (param s (chanId c 1)).toNat 1 0 (512 + 256 * b2n bad) (param s (chanId c 2)).toNat
      v v 0 0 0 0 s

/-! ## The display of a lane (R377, R378) -/

/-- What lane `n`'s display port shows now: a weight frame when the values differ or a second has passed, a message frame
when the message changes. Outside SEALED no value is valid. -/
def driveDisplay (n : Nat) (w : Option Weight) (s : State) : State :=
  match ldOf s n with
  | none => s
  | some p =>
    if !s.slu.oper then s
    else
      let l := islLane s n
      let d := ldPort s p
      let flags := match w with | some w => w.flags | none => 256
      let net := match w with | some w => w.net | none => 0
      let tare := match w with | some w => w.tare | none => 0
      let price := match w with | some w => w.price | none => 0
      let dear := match w with | some w => w.tooDear | none => false
      let msg := ldMessage s flags
      let vals := leBytes 2 flags ++ s32 net ++ s32 tare ++ leBytes 4 price ++ leBytes 4 l.price ++ [BitVec.ofNat 8 (b2n dear)]
      let send := d.weight != vals || decide (d.weightAt + 1000 ≤ s.isl.ms)
      let tell := d.message != msg
      let (inds, s) := if send then freeBytes 40 s else ([], s)
      let v : LdView := { flags := flags, net := net, tare := tare, unitPrice := l.price, price := price,
                          tooDear := dear, message := msg, text0 := d.text0, text1 := d.text1, inds := inds }
      let (f1, s) := if send then ldFrame n 1 v s else (none, s)
      let (f2, s) := if tell then ldFrame n 2 v s else (none, s)
      let out := f1.toList ++ f2.toList
      modLd p (fun d =>
        { d with
          weight := if send then vals else d.weight, weightAt := if send then s.isl.ms else d.weightAt,
          message := msg, sent := if out = [] then d.sent else out }) s

/-! ## The record instant (R359, R374) -/

/-- SLU_TICK and SLU_ROLE.oper as the island reads them: when the tick has decreased, the last imported tick is cleared (R350);
on a rise of oper prices are cleared, and zero and tare are kept only on a paired island that has imported a state (R351,
R372). -/
def readOper (s : State) : State :=
  let s := modIsl (fun i =>
    { i with lastImport := if s.slu.tick < i.lastTick then none else i.lastImport, lastTick := s.slu.tick }) s
  let rises := s.slu.oper && !s.isl.oper
  let keep := islPaired s && s.isl.imported
  let s := if rises then
      (List.range 8).foldl (fun s n => modIslLane n (fun l =>
        { l with
          price := 0, item := 0, t := if keep then l.t else 0, zeroReq := if keep then l.zeroReq else true }) s)
        (modIsl (fun i => { i with impOper := false }) s)
    else s
  modIsl (fun i => { i with oper := s.slu.oper }) s

/-- One lane at an instant; one without an instrument shows no more than the island's own messages. -/
def laneInstant (s : State) (n : Nat) : State :=
  if lp s n 0 = 0 then (if s.isl.ident ∨ s.isl.st ≠ .sealed then driveDisplay n none s else s)
  else if s.isl.st ≠ .sealed then driveDisplay n none (modIslLane n (fun l => { l with reqs := [] }) s)
  else
    let (x, s) := sourceValue n s
    let s := modIslLane n (fun l => { l with hist := ((x - l.z) :: l.hist).take 50 }) s
    let s := if s.slu.oper then serveRequests n x ((islLane s n).reqs.length + 1) s
      else modIslLane n (fun l => { l with reqs := [] }) s
    let s := trackZero n x s
    let w := weigh s n x
    let s := modIslLane n (fun l => { l with invalid := bitOf w.flags 8 }) s
    driveDisplay n (some w) (laneRecord n w s)

/-- RECORD_INSTANT (R359, R374): every 20 ms. -/
def execRecordInstant (x : Instant) (s : State) : Out :=
  ok (if s.isl.st = .off then s
    else
      let raws := [x.raw0.toInt, x.raw1.toInt, x.raw2.toInt, x.raw3.toInt]
      let s := modIsl (fun i =>
        { i with ms := i.ms + 20, chanFault := x.faults.toNat, temp := x.temp.toInt }) s
      let s := islReread s
      let s := raws.zipIdx.foldl (fun s r => modIsl (fun i =>
        { i with raw := tset 0 i.raw r.2 r.1, raws := tmod [] i.raws r.2 fun l => (r.1 :: l).take 100 }) s) s
      let s := readOper s
      let s := (List.range 8).foldl laneInstant s
      islSettle ((List.range 4).foldl (fun s c => chanRecord c s) s))

/-! ## Telegrams (R367 to R369) -/

/-- Extraction `i` of a legal scale dialect: its bytes in a frame whose check field starts at `cp`. -/
def telField (d : List Byte) (i cp : Nat) (fr : List Byte) : Option (List Byte) :=
  let o := 64 + 8 * i
  let off := fld d o 2
  let start := if bitOf off 15 then cp - off % 4096 else off % 4096
  let len := fld d (o + 2) 1
  let stop := if len = 0 then cp else start + len
  if fr.length < stop ∨ stop < start ∨ (bitOf off 15 ∧ cp < off % 4096) then none
  else some ((fr.drop start).take (stop - start))

/-- The frame between its delimiters with the escapes removed; none when it breaks R270 or R271. -/
def telPlain (d raw : List Byte) : Option (List Byte) :=
  let st := (d.drop 8).take (fld d 7 1 % 4)
  let delim := fld d 0 1 == 2
  let en := if delim then (d.drop 10).take (fld d 7 1 / 4 % 4) else []
  let tr := if delim then fld d 12 1 else 0
  let esc := BitVec.ofNat 8 (fld d 13 1)
  let mid := (raw.drop st.length).take (raw.length - st.length - en.length - tr)
  let r := if bitOf (fld d 1 1) 0 then unescape esc (BitVec.ofNat 8 (fld d 14 1)) mid else (mid, false)
  let fr := raw.take st.length ++ r.1 ++ raw.drop (st.length + mid.length)
  let endOk := (raw.drop (raw.length - tr - en.length)).take en.length == en
  let lenOk := match fld d 0 1 with
    | 0 => fr.length == fld d 2 2
    | 1 =>
      let lo := fld d 4 1
      let ls := fld d 5 1
      let v := (if bitOf (fld d 1 1) 3 then beNat ((fr.drop lo).take ls) else fld fr lo ls) + fld d 6 1
      decide (lo + ls ≤ fr.length) && fr.length == v
    | _ => decide (st.length + en.length + tr ≤ raw.length)
  if raw.take st.length == st && endOk && lenOk && !r.2 && decide (0 < raw.length ∧ raw.length ≤ 2048) then some fr
  else none

/-- The check value and the alive counter of IC unit `p` on a frame; the answer is the counter to keep, none when the
frame is rejected (R386, R387, R391, R393). -/
def telChecks (ic d : List Byte) (alive : Option Nat) (fr : List Byte) : Option (Option Nat) :=
  let w := fld ic 0 1
  let p : CvParam := { width := w, refin := bitOf (fld ic 1 1) 0, refout := bitOf (fld ic 1 1) 1, poly := fld ic 4 4,
                       init := fld ic 8 4, xorout := fld ic 12 4 }
  let n := ceilDiv w 8
  let pos := fr.length - fld d 22 1 - n
  let big := bitOf (fld d 1 1) 2
  let c := crcOf p ((fr.take pos).drop (fld d 20 2))
  let okField := decide (pos + n ≤ fr.length) && decide (fld d 20 2 ≤ pos)
    && (fr.drop pos).take n == (if big then beBytes n c else leBytes n c)
  if !okField then none
  else if fld ic 2 1 ≠ 1 then some alive
  else match aliveAt (fld ic 3 1) (fld ic 16 2) (fld ic 18 1) (bitOf (fld ic 1 1) 2) fr with
    | none => none
    | some a => match aliveTest (fld ic 3 1) (bitOf (fld ic 1 1) 3) alive a with
      | .repeated => none
      | _ => some (some a)

/-- The value that extraction 0 gives: ASCII digits, little-endian, or little-endian signed. -/
def telValue (d : List Byte) (bs : List Byte) : Option Int :=
  match convert (fld d (64 + 3) 1) bs with
  | some (.num x) => some (if fld d (64 + 3) 1 = 6 then toSigned 64 x else x)
  | _ => none

/-- Bytes of the byte pool of a legal scale dialect. -/
def lsPool (d : List Byte) (o n : Nat) : List Byte := (d.drop (576 + o)).take n

/-- Automatic ACK or NAK on the LS output, as on a lane port (R274, R367). -/
def lsReply (n : Nat) (d : List Byte) (good : Bool) (s : State) : State :=
  let bs := if good then lsPool d (fld d 36 2) (fld d 35 1) else lsPool d (fld d 40 2) (fld d 38 1)
  if bitOf (fld d 1 1) 4 && !bs.isEmpty then modIslLane n (fun l => { l with lsSent := bs }) s else s

/-- A rejected telegram changes nothing and is counted (R368). -/
def telReject (n : Nat) (s : State) : State := modIslLane n (fun l => { l with rej := (l.rej + 1) % 2 ^ 32 }) s

/-- The one map entry of a legal scale dialect matches the frame (R272, R367). -/
def telMatch (d fr : List Byte) : Bool :=
  let off := fld d 192 2
  let n := fld d 194 1
  n == 0 || (decide (off + n ≤ fr.length) && (fr.drop off).take n == lsPool d (fld d 196 2) n)

/-- The legal scale dialect of lane `n`. -/
def scaleDialect (s : State) (n : Nat) : List Byte := tget [] (legalCfg s).scales (lp s n 0x11).toNat

/-- Lane `n`'s scale polled in a tick of its phase rule, unless an answer is still pending; a poll whose deadline has passed
without an accepted telegram is a failure, and miss_limit of them in a row are a fault (R277, R367). -/
def lsPollTick (s : State) (n : Nat) : State :=
  if !lsSource s n then s
  else
    let d := scaleDialect s n
    let t := s.slu.tick
    let s := match (islLane s n).lsPoll with
      | some dl => if dl < t then modIslLane n (fun l =>
            let m := min 15 (l.lsMiss + 1)
            { l with lsPoll := none, lsMiss := m, lsFault := l.lsFault || m == fld d 15 1 }) s
          else s
      | none => s
    let per := max 1 (fld d 28 2)
    if bitOf (fld d 1 1) 5 && (t + per * 65536 - fld d 30 2) % per == 0 && (islLane s n).lsPoll.isNone then
      modIslLane n (fun l => { l with lsSent := lsPool d (fld d 32 2) (fld d 34 1), lsPoll := some (t + fld d 23 1) }) s
    else s

/-- TELEGRAM (R368): a telegram of LSp that ends `off` ms after the last record instant. The counter of one that passes the check
value and the alive test is kept even when a later step rejects it (R391). -/
def execTelegram (p : Fin 8) (raw : List Byte) (off : Fin 21) (s : State) : Out :=
  ok (match (List.range 8).find? fun n => lp s n 0 == 0x11 + (p.val : Int) with
    | none => s
    | some n =>
      if s.isl.st = .off then s
      else
        let d := scaleDialect s n
        let icRec := tget [] (legalCfg s).ics p.val
        match telPlain d raw with
        | none => telReject n s
        | some fr =>
          let reject (s : State) : State := lsReply n d false (telReject n s)
          match telChecks icRec d (islLane s n).alive fr with
          | none => reject s
          | some alive =>
            let cp := fr.length - fld d 22 1 - ceilDiv (fld icRec 0 1) 8
            let s := modIslLane n (fun l => { l with alive := alive }) s
            if !telMatch d fr then reject s else
            match (telField d 0 cp fr).bind (telValue d), telField d 1 cp fr with
            | some v, some (b :: _) =>
              if -maxTop s n ≤ v ∧ v ≤ 2 * maxTop s n then
                let mask := fld d (72 + 6) 1
                lsReply n d true (modIslLane n (fun l =>
                  { l with
                    lsPoll := none, lsMiss := 0, lsFault := false,
                    tel := some v, telAt := s.isl.ms + off.val, acc := (l.acc + 1) % 2 ^ 32,
                    telStable := (b.toNat &&& mask) == fld d (72 + 7) 1 }) s)
              else reject s
            | _, _ => reject s)

/-! ## Requests over the sluice (R370, R344, R343) -/

/-- The island takes the head of the downward mailbox, which arrived `off` ms after the last record instant. -/
def takeHead (off : Nat) (s : State) : State :=
  match s.slu.down with
  | [] => s
  | m :: _ =>
    let s := popDown s
    if m.code = 5 then islSettle (takeChunk m.data s)
    else if m.code = 6 then
      islSettle (if m.data.headD 0 = 1 then takeOffer m.data s else formState (takePairState m.data s))
    else match s.isl.st with
      | .opened => sendExtracts 1025 (sendStatus s)
      | .sealed =>
        if s.slu.oper ∧ m.lane < 8 then
          modIslLane m.lane (fun l =>
            { l with reqs := l.reqs ++ [{ code := m.code, data := m.data, arrival := s.isl.ms + off }] }) s
        else s
      | _ => s

/-- A request command takes the head when it is of its code. -/
def takeCode (code off : Nat) (s : State) : State :=
  if s.isl.st = .off then s
  else
    let s := cleanDown 33 s
    if (headIs s code).isSome then takeHead off s else s

/-- UNIT_PRICE (R370): sluice code 0x01. -/
def execUnitPrice (off : Fin 21) (s : State) : Out := ok (takeCode 1 off.val s)
/-- TARE_REQUEST (R366, R370): sluice code 0x02. -/
def execTareRequest (off : Fin 21) (s : State) : Out := ok (takeCode 2 off.val s)
/-- ZERO_REQUEST (R365, R370): sluice code 0x03. -/
def execZeroRequest (off : Fin 21) (s : State) : Out := ok (takeCode 3 off.val s)
/-- DISPLAY_CONTENT_REQUEST (R370): sluice code 0x04. -/
def execDisplayContentRequest (off : Fin 21) (s : State) : Out := ok (takeCode 4 off.val s)

/-- Everything in the mailbox taken in order. -/
def drainDown : Nat → State → State
  | 0, s => s
  | n + 1, s => if s.slu.down = [] then s else drainDown n (takeHead 0 (cleanDown 33 s))

/-- LEGAL_FIRMWARE_CHUNK (R341, R29): the management core posts a chunk, and the island takes what the mailbox holds, in
order. -/
def execLegalFirmwareChunk (offset total : BitVec 32) (data : List Byte) (s : State) : Out :=
  let s := (sluDown 5 0xFF (leBytes 4 offset.toNat ++ leBytes 4 total.toNat ++ data) s).2
  ok (if s.isl.st = .off then s else drainDown 33 s)

/-- STABILITY_WAIT_END (R371): the wait of lane `n`'s first request ends before the next instant: refused, no
stability. -/
def execStabilityWaitEnd (n : Fin 8) (s : State) : Out :=
  ok (match (islLane s n.val).reqs with
    | r :: rest =>
      if s.isl.st = .sealed ∧ s.slu.oper ∧ (r.code = 2 ∨ r.code = 3) ∧ r.arrival ≤ s.isl.ms
          ∧ r.arrival + 2000 < s.isl.ms + 20 then
        modIslLane n.val (fun l => { l with reqs := rest, res := r.code * 16 + 2 }) s
      else s
    | [] => s)

/-! ## WD-M (R453, R454) -/

/-- WD_M_EXPIRY (R454): the frames built at threading go out while oper is 1, and the island is reset. -/
def execWdMExpiry (s : State) : Out :=
  ok (if s.isl.st = .off then s
    else
      let built := s.isl.lds
      let oper := s.slu.oper
      let s := islReset 2 (Config.freeBool s.free) { s with free := s.free + 1 }
      islSettle (if oper then
        built.foldl (fun s e => if e.2.wdm = [] then s else modLd e.1 (fun d => { d with sent := e.2.wdm }) s) s
      else s))

/-! ## The core side (R355, R373, R382 to R384) -/

/-- The head of the upward mailbox, when its code is `code`. -/
def upIs (s : State) (code : Nat) : Option SluMsg :=
  match s.slu.up with | m :: _ => if m.code = code then some m else none | [] => none

/-- An island message offered to the switch on port L. -/
def offerIsland (q lane typ : Nat) (data : List Byte) (s : State) : State :=
  (offerPkt q 56 false { bytes := data.length, lane := lane, typ := typ, data := data } s).2

/-- WEIGHT_RECORD (R373): to q_legal of its lane, or to q_nl. -/
def execWeightRecord (s : State) : Out :=
  let s := cleanUp 33 s
  ok (match upIs s 0x81 with
    | some m =>
      if m.lane < 8 then offerIsland (cf s 0x1C 0 (64 + 2 * m.lane) 2 0) m.lane 0x12 m.data (popUp s)
      else offerIsland (cf s 0x21 0 0 2 0) 255 0 m.data (popUp s)
    | none => s)

/-- An event for each lane of a mask, lowest first. -/
def raiseLanes (code mask : Nat) (s : State) : State :=
  (List.range 8).foldl (fun s n => if bitOf mask n then raiseL code n n s else s) s

/-- LEGAL_STATUS (R355, R384): the core keeps the latest status, raises what it changes, and sends it to the store. -/
def execLegalStatus (s : State) : Out :=
  let s := cleanUp 33 s
  ok (match upIs s 0x82 with
    | none => s
    | some m =>
      let old := s.islView.status
      let new := m.data.take 24
      let s := popUp s
      let s := if fld old 0 1 ≠ fld new 0 1 then raise 0x1501 (fld new 0 1 * 256 + fld new 1 1) s else s
      let s := if bitOf (fld new 2 2) 0 then raise 0x1502 0 s else s
      let s := if bitOf (fld new 2 2) 3 && !bitOf (fld old 2 2) 3 then raise 0x1504 0 s else s
      let s := if fld old 19 1 ≠ fld new 19 1 then raise 0x1505 (fld new 19 1) s else s
      let s := if bitOf (fld new 2 2) 2 && !bitOf (fld old 2 2) 2 then raise 0x1506 0 s else s
      let s := raiseLanes 0x1601 (fld old 18 1 ^^^ fld new 18 1) s
      let s := raiseLanes 0x1602 (fld new 17 1 &&& (255 - fld old 17 1)) s
      let s := { s with islView.status := new }
      let pair := m.data.drop 24
      let s := if pair ≠ [] ∧ pair ≠ s.felt.pairRec then
          { s with felt.pairRec := pair, felt.pairStamp := 2 + s.exe.couchTick } else s
      offerIsland (cf s 0x1C 0 64 2 0) 255 0x13 m.data s)

/-- AUDIT_EXTRACT (R355, R454): the core keeps the records and raises the events for them. -/
def execAuditExtract (s : State) : Out :=
  let s := cleanUp 33 s
  ok (match upIs s 0x83 with
    | none => s
    | some m =>
      let recs := (List.range (min 2 (fld m.data 0 1))).map fun i => (m.data.drop (8 + 48 * i)).take 48
      recs.foldl (fun s r =>
        let known := s.islView.audits.any fun a => a == r
        let s := if known then s else { s with islView.audits := (s.islView.audits ++ [r]).drop (s.islView.audits.length - 1023) }
        let s := if fld r 5 1 = 1 ∧ !known then raise 0x1503 (fld r 0 4) s else s
        if fld r 4 1 = 0x13 ∧ fld r 28 4 = 2 ∧ !known then raise 0x2003 0 s else s) (popUp s))

/-! ## Bag-check (R381 to R383) -/

/-- A field of lane `n`'s bag-check entry (Table 16.9). -/
def bagF (s : State) (n o k d : Nat) : Nat := cf s 0x21 0 (8 + 8 * n + o) k d
/-- Bagging-area channel of lane `n`. -/
def bagChan (s : State) (n : Nat) : Nat := bagF s n 0 1 0xFF

/-- A lane's view of its bagging area. -/
def bagOf (s : State) (n : Nat) : Bag := tget {} s.bags n
/-- A lane's view changed. -/
def modBag (n : Nat) (f : Bag → Bag) (s : State) : State := { s with bags := tmod {} s.bags n f }

/-- W in ms. -/
def bagW (b : Bag) : Nat := (min 600 (max 40 (20 * b.n))).toNat
/-- b in 0.1 g. -/
def bagBand (b : Bag) : Int := max (3 * b.n) 10

/-- The settled value now, if the area is settled. -/
def bagSettled (b : Bag) : Option Rat :=
  let k := bagW b / 20
  let l := b.xs.take k
  let mean : Rat := (l.sum : Rat) / (k : Rat)
  if k ≤ l.length ∧ l.all fun x => decide ((x : Rat) ≤ mean + bagBand b ∧ mean - bagBand b ≤ x) then some mean else none

/-- A BAG answer to the host (Table 16.10), in the unit-to-host byte order of KLP. -/
def bagAnswer (n : Nat) (r : BagReq) (result : Nat) (change : Int) (s : State) : State :=
  let b := bagOf s n
  klpSend n 0x14 0 0
    (beBytes 4 r.id ++ [BitVec.ofNat 8 result, 0, 0, 0] ++ beBytes 4 (ofSigned 32 change) ++ beBytes 4 (ofSigned 32 r.expected)
      ++ beBytes 2 (bagW b) ++ beBytes 2 b.n.toNat) s

/-- The pending check of lane `n` ends with a comparison. -/
def bagEnd (n result : Nat) (change : Int) (s : State) : State :=
  match (bagOf s n).req with
  | some r => bagAnswer n r result change (modBag n (fun b => { b with req := none }) s)
  | none => s

/-- A signed free value. -/
def drawInt (s : State) : Int × State := (Config.freeInt s.free, { s with free := s.free + 1 })

/-- The pending check of lane `n` ends without one: what its answer names as the change no rule says. -/
def bagGiveUp (n result : Nat) (s : State) : State :=
  let (c, s) := drawInt s
  bagEnd n result c s

/-- Match or mismatch of a change against what is expected (R383). -/
def bagCompare (s : State) (n : Nat) (r : BagReq) (change : Rat) : Nat :=
  let tol : Int := max (bagF s n 2 2 100 : Int) ((r.expected * (bagF s n 1 1 2 : Int)).tdiv 100)
  let d := change - (r.expected : Rat)
  if d ≤ (tol : Rat) ∧ -(tol : Rat) ≤ d then 0 else 1

/-- belt_q lets the noise floor learn. -/
def bagLearns (s : State) (n : Nat) : Bool :=
  let q := bagF s n 6 2 0xFFFF
  if q = 0xFFFF then (bagOf s n).req.isNone else bitOf (tget 0 s.exe.couched (0x11000400 + q / 8)).toNat (q % 8)

/-- A record of lane `n`'s channel at the service: `x` in 0.1 g. -/
def bagTake (n : Nat) (x : Int) (s : State) : State :=
  let b := bagOf s n
  let mean50 : Rat := (b.xs.take 50).sum / (50 : Rat)
  let learn := bagLearns s n && decide (50 ≤ b.xs.length)
  let d := if (x : Rat) < mean50 then mean50 - x else x - mean50
  let q := (d - b.n) / 64
  let step : Int := if 0 ≤ q then q.floor else -((-q).floor)
  let s := modBag n (fun b =>
    { b with xs := (x :: b.xs).take 50, n := if learn then b.n + step else b.n }) s
  let b := bagOf s n
  match bagSettled b with
  | none => s
  | some v =>
    let s := match b.req with
      | some r =>
        let ch := v - r.base
        if (bagBand b : Rat) < ch ∨ ch < -(bagBand b : Rat) then bagEnd n (bagCompare s n r ch) (roundAway ch) s else s
      | none => s
    modBag n (fun b => { b with settled := some v }) s

/-- A non-legal record reaches the service on port 55 (R382). -/
def bagRecord (data : List Byte) (s : State) : State :=
  let c := fld data 0 1 - 0x80
  let lb := fld data 1 1 == 1
  let g : Int := toSigned 32 (fld data 20 4)
  let u : Int := fld data 16 4
  let x := roundAway (if lb then ((g * u : Int) : Rat) * 45359237 / 10000000000 else ((g * u : Int) : Rat) / 100)
  (List.range 8).foldl (fun s n => if bagChan s n = c then bagTake n x s else s) s

/-- A host BAG starts a check (R383); where the area has never settled the manual gives no baseline, so that is free. -/
def bagStart (n : Nat) (data : List Byte) (s : State) : State :=
  let r : BagReq := { id := beNat (data.take 4), expected := toSigned 32 (beNat ((data.drop 4).take 4)),
                      start := s.clk.tick, base := 0 }
  let s := bagGiveUp n 4 s
  let b := bagOf s n
  let (free, s) := drawInt s
  if bagChan s n = 0xFF ∨ b.xs = [] then bagAnswer n r 3 free s
  else
    let base := match bagSettled b with | some v => v | none => b.settled.getD (free : Rat)
    modBag n (fun b => { b with req := some { r with base := base } }) s

/-- BAG_TIMEOUT (R383): after timeout_ms, whose own millisecond still counts (R50). -/
def execBagTimeout (n : Fin 8) (s : State) : Out :=
  let n := n.val
  ok (match (bagOf s n).req with
    | none => s
    | some r =>
      let b := bagOf s n
      if (s.clk.tick - r.start) * tickUs s.clk.tickSel ≤ 1000 * bagF s n 4 2 3000 then s
      else match bagSettled b with
        | some v => bagEnd n (bagCompare s n r (v - r.base)) (roundAway (v - r.base)) s
        | none => bagGiveUp n 2 s)

end Sys2Proof.Machine
end

