-- ==== Sys2Proof/Machine/Commit.lean ====
section
/-! DEFINITION. The commit of a chosen packet and what its port does with it (01, 12, 13, 14): a frame leaves on a lane port, a
datagram on the uplink, a message enters the sluice or the bag-check service. -/

namespace Sys2Proof.Machine

/-- The dialect engine that sends a packet of port slot `p`. -/
def sendingEng (p : Nat) (k : Pkt) : Option Nat :=
  if p < 2 ∨ 53 < p then none else some (if k.eng < 56 then k.eng else p - 2)

/-- Port slot `p` can start this packet now: the unit's ports are not stopped (R56, R68), and a lane port's transmitter may
begin. -/
def canStart (s : State) (p : Nat) (k : Pkt) : Bool :=
  s.md.mode != .backup && s.md.mode != .thread && !s.wd.hold && !s.dbg.extest &&
    match sendingEng p k with
    | some e => s.md.mode != .dormant && mayTransmit s e
    | none => s.md.mode != .dormant || p == 0 || p == 1 || p == 55

/-- The sluice code of a host message for the island (Table 1.6, Table 14.5). -/
def sluCode (typ : Nat) : Nat := typ - 0x1F

/-- A message to the island: only a host's PRICE, TARE, ZERO or display request enters the mailbox from port L (R29); a full
mailbox refuses it, and the host is told (R30, R324). -/
def toIsland (k : Pkt) (s : State) : State :=
  if k.typ < 0x20 ∨ 0x23 < k.typ then s else
  let (taken, s) := sluDown (sluCode k.typ) k.lane k.data s
  if taken then s
  else match k.tag with
    | some t => refuseMsg k.lane t.2 1 s
    | none => s

/-- What leaves the switch for the bag-check service: a host's BAG, or a record of a non-legal channel. Everything else is the
management core's own traffic. -/
def toCore (k : Pkt) (s : State) : State :=
  if k.typ = 0x14 ∧ k.lane < 8 then bagStart k.lane k.data s
  else if k.src = 56 then bagRecord k.data s
  else s

/-- The packet at its port, from a queue of service `svc`. -/
def depart (p svc : Nat) (k : Pkt) (s : State) : State :=
  match sendingEng p k with
  | some e => sendFrame e k s
  | none =>
    if p < 2 then (if p = klpPort s ∧ (k.src = 54 ∨ k.typ ≠ 0 ∨ k.form ≠ 0) then klpDepart svc k s else s)
    else if p = 55 then toCore k s
    else if p = 56 then toIsland k s
    else s

/-- COMMIT (R283, R297): the chosen packet's cells move to egress and the saved copy is discarded. -/
def execCommit (p : Fin 57) (s : State) : Out :=
  ok (match chosenAt s p.val with
    | none => s
    | some c =>
      if canStart s p.val c.pkt then
        depart p.val (qSvc s c.q) c.pkt { s with
          sw.chosen := tset none s.sw.chosen p.val none, sw.egr := tset 0 s.sw.egr p.val (cellsOf c.pkt.bytes),
          sw.sent := tset {} s.sw.sent p.val c.pkt }
      else s)

end Sys2Proof.Machine
end

