-- ==== Sys2Proof/Machine/Couch.lean ====
section
/-! DEFINITION. The sample point, the couch and the dispatch of tasks (02_the_web_tick, 06, 08): what happens to the sheet in
the E-clocks in which it changes hands. -/

namespace Sys2Proof.Machine

/-! ## The sample point (R40, R165, R246, R463, R486) -/

/-- Lane-event bits and words of an image made zero. -/
def clearEvents (m : Memory) : Memory :=
  tclear (0x11010000 + 4 * 15360) 512 ((List.range 8).foldl (fun m n => tclear (0x11000000 + 128 * n + 124) 4 m) m)

/-- The input image as it is latched: the writes of HMP and the debug port to I, over them the lane events of the last exchange,
the field inputs and the attendant keys (R21, R486). -/
def sampleImage (s : State) : Memory :=
  let m := s.exe.iPut.foldl (fun m w =>
    tset 0 m w.1 (BitVec.ofNat 8 (maskWord (tget 0 m w.1).toNat w.2.1 w.2.2))) s.exe.latched
  let m := latchInputs s (tmerge 0 (clearEvents m) s.exe.evNext)
  if (cfgRec s 0x20 0).isSome then wrLe 0 m (bitAddr 0 (cf s 0x20 0 2 2 0)) 4 (keyStat s) else m

/-- SAMPLE_POINT (R165): in the first tick of the cycle. -/
def execSamplePoint (s : State) : Out :=
  ok (if engineRuns s && !s.exe.sampled && s.exe.first == s.clk.tick then
      { sampleCore (sampleImage s) s with exe.iPut := [] }
    else s)

/-! ## Tasks (R42, R124) -/

/-- TICK_TASK_DISPATCH (R42, R474): at T − 7 µs; a halted pipe 0 gets none. -/
def execTickTaskDispatch (s : State) : Out :=
  ok (if !engineRuns s || (running s).tickCount == 0 || (pipeHalted s 0 && !s.dbg.s0Only) then s
    else dispatchTop (addTrigger 16 (BitVec.ofNat 32 s.clk.tick) 0 s))

/-- EVENT_TASK_DISPATCH (R122, R124). -/
def execEventTaskDispatch (s : State) : Out := ok (dispatchTop s)

/-! ## The couch (R19, R23, R43, R169, R486) -/

/-- Bit `b` of lane `n`'s event bits in an image. -/
def evBit (m : Memory) (n b : Nat) : Bool := bitOf (rdLe 0 m (bitAddr 0 (1024 * n + 992)) 4) b

/-- The exchange window: commands are read from the couching sheet, events are written into the next image, and a rising
event bit triggers its tasks (R19, R124). -/
def exchange (old : Memory) (s : State) : State :=
  let was := s.exe.evNext
  let (ev, s) := exchangeEvents (exchangeCommands old s.exe.couched s)
  let s := { s with exe.evNext := ev }
  laneTriggers (fun n b => evBit ev n b && !evBit was n b) s

/-- The first couch after taking over: the sweeps stop carrying keep, and a hand-over is reported (R212, R255). -/
def firstCouch (s : State) : State :=
  if !s.felt.keep then s
  else
    let s := { s with felt.keep := false }
    if s.felt.lastCause = 3 ∨ s.felt.lastCause = 4 then raise 0x0905 s.felt.lastCause s else s

/-- The couch in E-clock `e` of the tick; the cycle that begins has this first tick (R170); `moved` says that the couch was
moved to this boundary (R47). A swap, the ring entries, the
image writes, the exchange, the retain store and the felt copy follow in this order. -/
def couch (first e : Nat) (moved : Bool) (s : State) : State :=
  let old := s.exe.couched
  let t := s.clk.tick
  let again := s.exe.everCouched && s.exe.couchTick == t
  let s := reportCycle { s with exe.couched := wetSheet s, exe.couchTick := t, exe.everCouched := true }
  let (swap, s) := trialAtCouch s.exe.couched (pairGuard s) s
  let s := landImage (sampleRing (if swap then commitSwap s else s))
  let s := exchange old s
  let s := rotateRow (nowE e s) s
  let s := if s.exe.rfl then flushRows s else s
  let asked := s.felt.returnAsked || s.md.heldReset != 0 || s.md.handOver
  let s := if s.md.mode == .active && asked && s.felt.rel.isNone && partnerReady s then
      beginRelease (s.md.heldReset == 0 && !s.md.handOver) s else s
  let s := stampPages old s.exe.couched (if again then t + 1 else t) s
  let s := if paired s then sendCopy moved s.felt.rel.isSome s else s
  if s.md.mode = .active ∧ s.felt.rel.isNone then beginCycle first (firstCouch (wdCouch (nowE e s) s)) else s

/-- The boundary of an entry to ACTIVE: nothing couches; image writes land and the exchange runs before the first cycle
(R60, R118). -/
def entryCouch (s : State) : State :=
  let s := landImage s
  beginCycle s.clk.tick (exchange s.exe.couched s)

/-! ## Couch on completion (R44, R45, R171) -/

/-- A couch on completion may take place now. -/
def mayCouch (s : State) : Bool :=
  couchOnCompletion s && s.md.mode == .active && cycleComplete s && decide (s.clk.tick < s.exe.due) && s.felt.rel.isNone
    && !(paired s && s.felt.copying)

/-- A couch on completion in E-clock `e`: in the boundary's own E-clock the tick that begins there is its first (R170). Its outputs leave in an urgent frame to each block, when that can end before the next sweep (R45). -/
def midCouch (e : Nat) (s : State) : State :=
  if !mayCouch s then s
  else
    let was := s
    let s := couch (if e = 0 then s.clk.tick else s.clk.tick + 1) e false { s with clk.lateRun := 0 }
    if was.clk.tickLen < e + 384 then s
    else (List.range s.fl.n).foldl (fun s fb => pendUrgent true fb 255 (outByte s false fb) s) (absorbQimm s)

/-- CYCLE_COMPLETE (R169), in E-clock `e` of the tick. -/
def execCycleComplete (e : Nat) (s : State) : Out := ok (midCouch e s)

/-- FELT_COPY_END (R171): a couch on completion that waited for it takes place. -/
def execFeltCopyEnd (e : Nat) (s : State) : Out := ok (midCouch e (feltCopyEnd s))

end Sys2Proof.Machine
end

