-- ==== Sys2Proof/Machine/Hmp.lean ====
section
/-! DEFINITION. The HMP server (18_management_plane): sessions, how a request is taken, and the ops of Table 18.5. A request
comes as its datagram: the header, what follows the arguments, and the tag or trailer. -/

namespace Sys2Proof

/-! ## A request as its bytes (Table 18.3, R400, R402) -/

/-- The header as its bytes. -/
def HHead.bytes (h : HHead) : List Byte :=
  beBytes 2 h.magic.toNat ++ [h.version, h.kind] ++ beBytes 4 h.session.toNat ++ beBytes 8 h.counter.toNat
    ++ beBytes 2 h.length.toNat ++ beBytes 2 h.zero.toNat

/-- A request's body (R402). -/
def HReq.body (r : HReq) (opn : Nat) (args : List Byte) : List Byte :=
  beBytes 2 opn ++ beBytes 4 r.reqId.toNat ++ beBytes 2 r.flags.toNat ++ args ++ r.more

/-- flags bit 0, force. -/
def HReq.force (r : HReq) : Bool := r.flags.getLsbD 0
/-- flags bit 1, effect. -/
def HReq.effect (r : HReq) : Bool := r.flags.getLsbD 1
/-- flags bit 2, irreversible. -/
def HReq.irrev (r : HReq) : Bool := r.flags.getLsbD 2
/-- A plain request (Table 18.3, kind 5). -/
def HReq.plain (r : HReq) : Bool := r.hd.kind == 5

/-- The kind is that of a request on its channel. -/
def HReq.kindOk (r : HReq) : Bool := if r.bulk then r.hd.kind == 8 else r.hd.kind == 3 || r.hd.kind == 5

/-- The tag holds under the session's key and the salt of the channel, with the header as additional data (R400). -/
def HReq.sealed (r : HReq) (x : Machine.HSess) (body : List Byte) : Bool :=
  let key := x.key.take 16
  let nonce := (x.key.drop (if r.bulk then 40 else 32)).take 4 ++ beBytes 8 r.hd.counter.toNat
  r.tail == Machine.gcmTag key nonce r.hd.bytes (Machine.gcmCtr key nonce body)

/-- The body is well formed: no other flag, nothing after the arguments. -/
def HReq.formed (r : HReq) : Bool := decide (r.flags.toNat < 8) && r.more.isEmpty

end Sys2Proof

namespace Sys2Proof.Machine

/-! ## Sessions (R399, R401, R418) -/

/-- HMP is served: the system firmware runs, or the recovery listener does (R88, R396). -/
def hmpServed (s : State) : Bool :=
  s.md.mode != .backup && s.md.powerGood && !s.wd.hold && (s.boot.recovery || s.md.mode != .thread || decide (6 ≤ s.md.thStat))

/-- Only E0 serves HMP: the recovery listener runs, or there is no configuration (R79, R88). -/
def e0Only (s : State) : Bool := s.boot.recovery || s.boot.cfgSel == 2

/-- HMP is served to this datagram: on an uplink of hmp_up, at an own address, on its port (R398). -/
def servesHmp (h : HHead) (bulk : Bool) (s : State) : Bool :=
  let e := b2n h.e1
  hmpServed s && uplinkUsed s e && !(e0Only s && h.e1) && bitOf (cf s 0x1D 0 0 1 3) e && isOwn s e h.v6 h.dst.toNat
    && h.port.toNat == (if bulk then cf s 0x1D 0 4 2 47642 else 47641)

/-- The header passes its checks beside a body of `n` bytes; a plain datagram's trailer holds as well (R398). -/
def hdrGood (h : HHead) (bulk plain : Bool) (body tail : List Byte) : Bool :=
  h.magic == 0x484D && h.version == 1 && h.zero == 0 && h.length.toNat == body.length
    && decide (body.length ≤ if bulk then 16400 else 1152)
    && (if plain then tail == beBytes 4 (crc32c (h.bytes ++ body)) else tail.length == 16)

/-- A datagram discarded for its header (R398). -/
def badHeader (s : State) : State := { s with hmp.hdrBad := satInc 255 s.hmp.hdrBad }

/-- An open session. -/
def hSess (s : State) (num : Nat) : Option HSess := s.hmp.sess.find? fun x => x.num == num

/-- The write in progress ends. -/
def endWrite (s : State) : State := { s with hmp.write := none }

/-- A write abandoned: no journal entry, EVT-0507 (R110, R408). -/
def abandonWrite (s : State) : State :=
  match s.hmp.write with
  | some w => raise 0x0507 w.area (endWrite s)
  | none => s

/-- A copy's erase begins its write; the answer follows the erase (R110 step 1, R408). An erase that fails ends the write at
once. -/
def beginWrite (who req : Nat) (w : SlotWrite) (s : State) : State :=
  let r := copyRange s w.area w.copy
  let s := { s with hmp.write := some w, hmp.held := if w.area = 3 then none else s.hmp.held }
  if w.eraseOk then hmpAnswer who req 0 [] (flErase r.1 r.2 s) else hmpAnswer who req 5 [] (abandonWrite s)

/-- With no write in progress the SLOT_BEGIN that has waited longest begins its own (R112). -/
def nextOf : List (Nat × Nat × SlotWrite) → State → State
  | [], s => { s with hmp.waits := [] }
  | (who, req, w) :: l, s =>
    if s.hmp.write.isSome then s else nextOf l (beginWrite who req w { s with hmp.waits := l })

/-- With no write in progress the next one that waits begins. -/
def nextWrite (s : State) : State := if s.hmp.write.isSome then s else nextOf s.hmp.waits s

/-- A session closes: EVT-1801; its write is abandoned, its bulk connection closes (R401, R408, R418). -/
def closeHSess (num : Nat) (s : State) : State :=
  if (hSess s num).isNone then s
  else
    let owns := match s.hmp.write with | some w => w.owner == num | none => false
    let mine (o : Option Nat) : Option Nat := if o = some num then none else o
    let s := { s with
      hmp.sess := s.hmp.sess.filter fun x => x.num != num,
      hmp.waits := s.hmp.waits.filter fun w => w.1 % 2 ^ 32 != num,
      hmp.bulk := mine s.hmp.bulk, hmp.bulkOk := mine s.hmp.bulkOk }
    let s := if owns then nextWrite (abandonWrite s) else s
    raise 0x1801 1 s

/-- The idle limit in ticks. -/
def hmpIdle (s : State) : Nat := cf s 0x1D 0 2 2 60 * ticksPerSec s

/-- A session number from a drawn one: the next that is not 0 and not in use. -/
def freshSession (s : State) : Nat → Nat → Nat
  | 0, n => n
  | k + 1, n => if n % 2 ^ 32 = 0 ∨ (hSess s (n % 2 ^ 32)).isSome then freshSession s k (n + 1) else n % 2 ^ 32

/-- `n` bytes drawn free. -/
def drawBytes (n : Nat) (s : State) : List Byte × State := freeBytes n s

/-- A plain error answered (Table 18.3, kind 7). -/
def plainError (status : Nat) (s : State) : State := { s with hmp.plain := status }

/-- A session opened for a HELLO: number and nonce drawn, keys derived, the reply with its confirmation (R399). -/
def openHSess (client : List Byte) (k : KeyRec) (s : State) : State :=
  let (d, s) := drawNat (2 ^ 32) s
  let num := freshSession s (s.hmp.sess.length + 2) d
  let (nonce, s) := drawBytes 16 s
  let info : List Byte := [0x48, 0x4D, 0x50, 0x31] ++ beBytes 4 num
  let key := hkdf 48 k.bytes (client ++ nonce) info
  let body := nonce ++ client ++ beBytes 4 k.id
  let head := hmpHead 2 num 0 52
  let confirm := gcmTag ((key.drop 16).take 16) ((key.drop 36).take 4 ++ List.replicate 8 0) (head ++ body) []
  let x : HSess := { num := num, keyId := k.id, inst := k.inst, idle := s.clk.tick, key := key }
  raise 0x1801 0 { s with hmp.sess := s.hmp.sess ++ [x], hmp.hello := head ++ body ++ confirm ++ beBytes 4 (crc32c (head ++ body ++ confirm)) }

/-- The session idle longest. -/
def idlest (s : State) : Option HSess :=
  s.hmp.sess.foldl (fun b x => match b with | some y => if x.idle < y.idle then some x else b | none => some x) none

/-- HELLO (R399, R401). -/
def execHello (h : HHead) (b : HelloBody) (tail : List Byte) (s : State) : Out :=
  ok (if !servesHmp h false s ∨ h.kind ≠ 1 then s
    else if !hdrGood h false true (beBytes 16 b.client.toNat ++ beBytes 4 b.keyId.toNat) tail then badHeader s
    else if cf s 0x1D 0 7 1 8 ≤ s.hmp.helloSec then { s with hmp.err := satField 8 8 s.hmp.err }
    else
      let s := { s with hmp.helloSec := s.hmp.helloSec + 1 }
      match s.img.keys.find? fun k => k.id == b.keyId.toNat with
      | none => plainError 9 s
      | some k =>
        let nonce := beBytes 16 b.client.toNat
        if s.hmp.sess.length < cf s 0x1D 0 1 1 4 then openHSess nonce k s
        else match idlest s with
          | some x =>
            if x.idle + hmpIdle s < s.clk.tick then openHSess nonce k (closeHSess x.num s) else plainError 3 s
          | none => plainError 3 s)

/-- HMP_SESSION_IDLE (R401). -/
def execHmpSessionIdle (session : Word) (s : State) : Out :=
  ok (match hSess s session.toNat with
    | some x => if x.idle + hmpIdle s < s.clk.tick then closeHSess x.num s else s
    | none => s)

/-! ## Taking a request (R398, R400, R402, R403) -/

/-- A counter taken into its window: the highest and those accepted below it; none where it is a replay. -/
def takeCounter (c top : Nat) (seen : List Nat) : Option (Nat × List Nat) :=
  if top < c then some (c, (top :: seen).filter fun x => decide (c ≤ x + 64))
  else if c < top ∧ top ≤ c + 64 ∧ !seen.contains c then some (top, c :: seen)
  else none

/-- The session with this counter accepted at this tick; none where it is a replay. -/
def takeSeq (bulk : Bool) (c tick : Nat) (x : HSess) : Option HSess :=
  if bulk then (takeCounter c x.bulkTop x.bulkSeen).map fun w => { x with bulkTop := w.1, bulkSeen := w.2, idle := tick }
  else (takeCounter c x.top x.seen).map fun w => { x with top := w.1, seen := w.2, idle := tick }

/-- The datagram comes on the bulk connection of this session, which its first frame opens after BULK_OPEN (R418). -/
def bulkTaken (num : Nat) (s : State) : Bool := s.hmp.bulk == some num || (s.hmp.bulk.isNone && s.hmp.bulkOk == some num)

/-- A tag that fails is counted, with EVT-1802 once in a second (R400). -/
def tagFails (s : State) : State :=
  let s := { s with hmp.err := satField 24 8 s.hmp.err }
  if s.hmp.authSec then s else raise 0x1802 0 { s with hmp.authSec := true }

/-- A request taken: discarded, answered from the kept responses, refused for its form, or its op executed. `opn` is its op,
`args` its arguments as bytes; `plainOp` and `inRecovery` say where the op is served (R403). The op answers to the session
`who`, 0 for a plain request and with 2^32 added on the bulk connection. -/
def hmpRequest (r : HReq) (opn : Nat) (args : List Byte) (plainOp inRecovery : Bool) (op : Nat → Nat → State → State)
    (s : State) : State :=
  let body := r.body opn args
  let req := opn * 2 ^ 32 + r.reqId.toNat
  if !servesHmp r.hd r.bulk s || !r.kindOk then s
  else if !hdrGood r.hd r.bulk r.plain body r.tail then badHeader s
  else if r.plain then
    (if !plainOp then plainError 8 s
     else if cf s 0x1D 0 6 1 1 = 0 ∧ !s.boot.recovery then s
     else if !r.formed then hmpAnswer 0 req 1 [] s
     else op 0 req s)
  else match hSess s r.hd.session.toNat with
    | none => s
    | some x =>
      if r.bulk ∧ (s.boot.recovery ∨ !bulkTaken x.num s) then s
      else if !r.sealed x body then tagFails s
      else match takeSeq r.bulk r.hd.counter.toNat s.clk.tick x with
        | none => { s with hmp.err := satField 16 8 s.hmp.err }
        | some y =>
          let who := x.num + (if r.bulk then 2 ^ 32 else 0)
          let s := modHSess x.num (fun _ => y) { s with hmp.bulk := if r.bulk then some x.num else s.hmp.bulk }
          match x.kept.find? fun k => k.req == r.reqId.toNat with
          | some k => sendResp who k s
          | none =>
            if !r.formed then hmpAnswer who req 1 [] s
            else if s.boot.recovery ∧ !inRecovery then hmpAnswer who req 7 [] s
            else op who req s

/-! ## Identification and sessions -/

/-- HMP_IDENT (Table 18.5). -/
def execHmpIdent (r : HReq) (s : State) : Out :=
  ok (hmpRequest r 0x0001 [] true true (fun who req s =>
    hmpAnswer who req 0 (words32 [Config.idcode, Config.serial / 2 ^ 32 % 2 ^ 32, Config.serial % 2 ^ 32, modeStat s, bootStat s,
      fuseStat s, cf s 0x10 0 0 4 0, s.img.fwBuild, s.img.progBuild] ++ cfBytes s 0x10 0 8 16) s) s)

/-- The 32 bytes of a report, whose layout the manual does not give. -/
def reportBytes (x : Report) : List Byte := (List.range 32).map (Config.reportByte (x.kind :: x.tick :: x.data))

/-- BOOT_REPORT: the 16 newest reports. -/
def execBootReport (r : HReq) (s : State) : Out :=
  ok (hmpRequest r 0x0002 [] true true (fun who req s =>
    hmpAnswer who req 0 ((s.ret.reports.take 16).flatMap reportBytes) s) s)

/-- HMP_CLOSE (R401). -/
def execHmpClose (r : HReq) (s : State) : Out :=
  ok (hmpRequest r 0x0003 [] false false (fun who req s => closeHSess (who % 2 ^ 32) (hmpAnswer who req 0 [] s)) s)

/-- BULK_OPEN (R418): one connection at a time. -/
def execBulkOpen (r : HReq) (s : State) : Out :=
  ok (hmpRequest r 0x0060 [] false false (fun who req s =>
    if s.hmp.bulk.isSome ∧ s.hmp.bulk ≠ some (who % 2 ^ 32) then hmpAnswer who req 3 [] s
    else hmpAnswer who req 0 (beBytes 2 (cf s 0x1D 0 4 2 47642)) { s with hmp.bulkOk := some (who % 2 ^ 32) }) s)

/-! ## Peek, poke and counters (R404, R405) -/

/-- HMP_PEEK, in E-clock `e` of the tick. -/
def execHmpPeek (r : HReq) (a : Word) (count : BitVec 16) (e : Nat) (s : State) : Out :=
  ok (hmpRequest r 0x0010 (beBytes 4 a.toNat ++ beBytes 2 count.toNat) false false (fun who req s =>
    if count = 0 ∨ 256 < count.toNat then hmpAnswer who req 1 [] s else readWords 2 who req e count.toNat a.toNat [] s) s)

/-- HMP_READ_EFFECT: status 1 when effect = 0, and on a ream window. -/
def execHmpReadEffect (r : HReq) (a : Word) (e : Nat) (s : State) : Out :=
  ok (hmpRequest r 0x0011 (beBytes 4 a.toNat) false false (fun who req s =>
    if !r.effect || inReam a.toNat then hmpAnswer who req 1 [] s else readOnce 2 who req e a.toNat s) s)

/-- HMP_POKE. -/
def execHmpPoke (r : HReq) (a mask v : Word) (e : Nat) (s : State) : Out :=
  ok (hmpRequest r 0x0012 (beBytes 4 a.toNat ++ beBytes 4 mask.toNat ++ beBytes 4 v.toNat) false false (fun who req s =>
    writeWord { addr := a.toNat, mask := mask, val := v, who := 2, sess := who, req := req } e s) s)

/-! ## Control through the edit ring (R406) -/

/-- An entry with the authenticated flag waits in the ring for the next couch or boundary that samples it and is answered
when it has been applied; one that finds the ring full is tried again at the following couches. -/
def postEntry (who req : Nat) (x : RingEntry) (s : State) : State :=
  match ringPut x s with
  | (none, s) => { s with hmp.retries := s.hmp.retries ++ [(who, req, x, 0)] }
  | (some i, s) => { s with hmp.posts := s.hmp.posts ++ [(who, req, i)] }

/-- HMP_MODE: in DORMANT targets 2 and 3 are a wake toward that mode. -/
def execHmpMode (r : HReq) (target clear : Byte) (s : State) : Out :=
  ok (hmpRequest r 0x0020 [target, clear] false false (fun who req s =>
    if 2 ≤ clear.toNat then hmpAnswer who req 1 [] s
    else if s.md.mode = .dormant then
      (if target = 2 ∨ target = 3 then hmpAnswer who req 0 [] (wake 4 { s with md.wakeTarget := some target.toNat })
       else hmpAnswer who req 2 [] s)
    else postEntry who req { kind := 1, flags := 1, arg := target.toNat + b2n r.force * 256 + clear.toNat * 512 } s) s)

/-- HMP_EDIT_RING. -/
def execHmpEditRing (r : HReq) (kind : Byte) (arg stageOff : Word) (s : State) : Out :=
  ok (hmpRequest r 0x0022 ([kind] ++ beBytes 3 r.zeros.toNat ++ beBytes 4 arg.toNat ++ beBytes 4 stageOff.toNat) false false (fun who req s =>
    if r.zeros ≠ 0 then hmpAnswer who req 1 [] s
    else if s.md.mode = .dormant then hmpAnswer who req 2 [] s
    else postEntry who req { kind := kind.toNat, flags := 1, arg := arg.toNat, stageOff := stageOff.toNat } s) s)

/-- Bytes written to the shadow slot. -/
def shadowBytes (off : Nat) (data : List Byte) (s : State) : State :=
  data.zipIdx.foldl (fun s b =>
    let o := off + b.2
    shadowWrite (o / 4) (BitVec.ofNat 32 (b.1.toNat * 256 ^ (o % 4))) (BitVec.ofNat 32 (255 * 256 ^ (o % 4))) s) s

/-- SHADOW_WRITE. -/
def execShadowWrite (r : HReq) (off : Word) (data : List Byte) (s : State) : Out :=
  ok (hmpRequest r 0x0023 (beBytes 4 off.toNat ++ data) false false (fun who req s =>
    if 0x100000 < off.toNat + data.length then hmpAnswer who req 1 [] s
    else if s.trial.st ≠ .idle then hmpAnswer who req 2 [] { s with trial.writeIgn := true }
    else hmpAnswer who req 0 [] (shadowBytes off.toNat data s)) s)

/-- A reset by HMP or the debug port (R407, R482): refused, held for a hand-over, or taken now. The answer says whether it
was accepted. -/
def resetRequest (cause : Nat) (force : Bool) (t : Thr) (s : State) : Bool × State :=
  if s.md.mode = .active ∧ paired s ∧ partnerReady s then
    (true, { s with md.heldReset := cause, md.heldThr := some t })
  else if s.md.mode = .active ∧ paired s ∧ !force then (false, s)
  else (true, resetThread false cause t (abandonWrite s))

/-- HMP_RESET: the response is sent before the reset. -/
def execHmpReset (r : HReq) (t : Thr) (s : State) : Out :=
  ok (hmpRequest r 0x0021 [] false true (fun who req s =>
    if s.hmp.write.isSome ∧ !r.force then hmpAnswer who req 3 [] s
    else if (resetRequest 16 r.force t s).1 then (resetRequest 16 r.force t (hmpAnswer who req 0 [] s)).2
    else hmpAnswer who req 2 [] s) s)

/-! ## Writing slots (R110 to R113, R408, R409) -/

/-- Slot ops are served: update placement does not run in DORMANT (R396), and the recovery listener takes area 1 alone. -/
def slotServed (area : Nat) (s : State) : Bool := s.md.mode != .dormant && (!s.boot.recovery || area == 1)

/-- SLOT_BEGIN. -/
def execSlotBegin (r : HReq) (area : Byte) (len hold : Word) (s : State) : Out :=
  ok (hmpRequest r 0x0030 ([area] ++ beBytes 3 r.zeros.toNat ++ beBytes 4 len.toNat ++ beBytes 4 hold.toNat) false true (fun who req s =>
    let a := area.toNat
    let c := freeCopy s a
    if a = 0 ∨ 3 < a ∨ r.zeros ≠ 0 then hmpAnswer who req 1 [] s
    else if !slotServed a s then hmpAnswer who req 2 [] s
    else if len.toNat < 64 ∨ (copyRange s a c).2 < len.toNat then hmpAnswer who req 1 [] s
    else
      let w : SlotWrite := { area := a, copy := c, len := len.toNat, hold := if a = 3 then hold.toNat else 0, eraseOk := r.flashOk,
                             owner := who % 2 ^ 32 }
      let inWork := match s.hmp.write with | some x => x.area == a | none => false
      let owner := match s.hmp.write with | some x => x.owner | none => 0
      if inWork then hmpAnswer who req (if owner = who % 2 ^ 32 then 3 else 6) [] (raise 0x0508 a s)
      else nextWrite { s with hmp.waits := s.hmp.waits ++ [(who, req, w)] }) s)

/-- The write in progress of an area, for its owner; otherwise the status that answers: 6 for another session's write, 2 for
none. -/
def ownWrite (area who : Nat) (s : State) : SlotWrite ⊕ Nat :=
  match s.hmp.write with
  | some w => if w.area ≠ area then .inr 2 else if w.owner = who % 2 ^ 32 then .inl w else .inr 6
  | none => .inr 2

/-- SLOT_CHUNK. -/
def execSlotChunk (r : HReq) (area : Byte) (off : Word) (data : List Byte) (s : State) : Out :=
  ok (hmpRequest r 0x0031 ([area] ++ beBytes 3 r.zeros.toNat ++ beBytes 4 off.toNat ++ data) false true (fun who req s =>
    if r.zeros ≠ 0 then hmpAnswer who req 1 [] s
    else if !slotServed area.toNat s then hmpAnswer who req 2 [] s
    else match ownWrite area.toNat who s with
      | .inr st => hmpAnswer who req st [] s
      | .inl w =>
        if off.toNat ≠ w.next ∨ w.len < w.next + data.length ∨ (if r.bulk then 16384 else 1024) < data.length then
          hmpAnswer who req 1 [] s
        else if !r.flashOk then nextWrite (hmpAnswer who req 5 [] (abandonWrite s))
        else hmpAnswer who req 0 [] (flProgram ((copyRange s w.area w.copy).1 + w.next) data
          { s with hmp.write := some { w with next := w.next + data.length } })) s)

/-- The generation of the newest selector. -/
def curGen (s : State) : Nat := match bootSel s with | some e => e.gen | none => 0

/-- SLOT_COMMIT: a held copy waits for its edit, and the generation that answers for it is free. -/
def execSlotCommit (r : HReq) (area : Byte) (s : State) : Out :=
  ok (hmpRequest r 0x0032 [area] false true (fun who req s =>
    if !slotServed area.toNat s then hmpAnswer who req 2 [] s
    else match ownWrite area.toNat who s with
      | .inr st => hmpAnswer who req st [] s
      | .inl w =>
        if w.next ≠ w.len then hmpAnswer who req 2 [] s
        else if !readBack s w.area w.copy then nextWrite (hmpAnswer who req 5 [] (abandonWrite s))
        else if w.hold ≠ 0 then
          let (g, s) := drawNat (2 ^ 32) s
          nextWrite (hmpAnswer who req 0 (beBytes 4 g) { endWrite s with hmp.held := some w })
        else
          let s := preferCopy w.area w.copy (endWrite s)
          nextWrite (hmpAnswer who req 0 (beBytes 4 (curGen s)) s)) s)

/-- SLOT_ABORT. -/
def execSlotAbort (r : HReq) (area : Byte) (s : State) : Out :=
  ok (hmpRequest r 0x0033 [area] false false (fun who req s =>
    match ownWrite area.toNat who s with
    | .inr st => hmpAnswer who req st [] s
    | .inl _ => nextWrite (hmpAnswer who req 0 [] (abandonWrite s))) s)

/-! ## The log (R403, R414) -/

/-- An entry as a response carries it (Table 18.6, R398). -/
def entryBytes (x : LogEntry) : List Byte :=
  beBytes 4 x.seq ++ beBytes 2 x.code ++ [BitVec.ofNat 8 x.cls, BitVec.ofNat 8 x.lane] ++ beBytes 6 x.tick ++ beBytes 2 x.flags
    ++ beBytes 4 x.arg ++ beBytes 4 x.utc

/-- The entries from this seq onward that are still in the ring, at most `n`. -/
def logFrom (s : State) (seq n : Nat) : List LogEntry :=
  let lo := max seq (s.ret.evtSeq - 4095)
  (((List.range (min 4096 (s.ret.evtSeq + 1 - lo))).map fun i => tget ({} : LogEntry) s.ret.log ((lo + i) % 4096)).filter
    fun x => x.seq != 0 && decide (seq ≤ x.seq)).take n

/-- EVLOG_READ. -/
def execEvlogRead (r : HReq) (from' : Word) (count : BitVec 16) (s : State) : Out :=
  ok (hmpRequest r 0x0040 (beBytes 4 from'.toNat ++ beBytes 2 count.toNat) false false (fun who req s =>
    if count = 0 ∨ (if r.bulk then 512 else 40) < count.toNat then hmpAnswer who req 1 [] s
    else hmpAnswer who req 0 ((logFrom s from'.toNat count.toNat).flatMap entryBytes) s) s)

/-- HMP_AUDIT_READ: up to 2 of the audit records that the core holds, as bytes. -/
def execHmpAuditRead (r : HReq) (from' : Word) (s : State) : Out :=
  ok (hmpRequest r 0x0041 (beBytes 4 from'.toNat) false false (fun who req s =>
    let l := (s.islView.audits.filter fun a => decide (from'.toNat ≤ fld a 0 4)).take 2
    hmpAnswer who req 0 l.flatten s) s)

/-! ## Keys and fuses (R410 to R413) -/

/-- A key record as it lies in the key area (R108, R410). -/
def keyBytes (typ sector id : Nat) (key : List Byte) : List Byte := recordBytes typ 1 0 sector (leBytes 4 id ++ key)

/-- KEY_WRITE: one that fails leaves the sector erased. -/
def execKeyWrite (r : HReq) (sector mask : Byte) (hmpId : Word) (hmpKey : BitVec 256) (klpId : Word) (klpKey : BitVec 256)
    (s : State) : Out :=
  ok (hmpRequest r 0x0050 ([sector, mask] ++ beBytes 2 r.zeros.toNat ++ beBytes 4 hmpId.toNat ++ beBytes 32 hmpKey.toNat
      ++ beBytes 4 klpId.toNat ++ beBytes 32 klpKey.toNat) false true (fun who req s =>
    let k := sector.toNat
    let mine := match hSess s (who % 2 ^ 32) with | some x => x.inst == k | none => false
    if s.boot.recovery then hmpAnswer who req 2 [] s
    else if 1 < k ∨ 3 < mask.toNat ∨ r.zeros.toNat % 65536 ≠ 0 then hmpAnswer who req 1 [] s
    else if decide (s.img.keyLen < 8192) || mine then hmpAnswer who req 2 [] s
    else
      let o := s.img.keyOff + 4096 * k
      let recs := (if bitOf mask.toNat 0 then keyBytes 0x30 k hmpId.toNat (beBytes 32 hmpKey.toNat) else [])
        ++ (if bitOf mask.toNat 1 then keyBytes 0x31 k klpId.toNat (beBytes 32 klpKey.toNat) else [])
      let s := readKeys (if r.flashOk then flProgram o recs (flErase o 4096 s) else flErase o 4096 s)
      let s := (s.hmp.sess.filter fun x => x.inst == k).foldl (fun s x => closeHSess x.num s) s
      if r.flashOk then hmpAnswer who req 0 [] (raise 0x1804 (k * 256 + mask.toNat) s) else hmpAnswer who req 5 [] s) s)

/-- The fuse ops are allowed: irreversible = 1, in HOLD. -/
def fuseOp (r : HReq) (s : State) : Bool := r.irrev && s.md.mode == .hold

/-- A 256-bit hash as eight fuse words, each with what it reads at the tight margin. -/
def hashWords (h tight : Nat) : List FuseWord :=
  (List.range 8).map fun i => { normal := h / 2 ^ (224 - 32 * i) % 2 ^ 32, tight := tight / 2 ^ (224 - 32 * i) % 2 ^ 32 }

/-- FUSE_CUSTKEY: the hash, and what it reads at the tight margin after blowing. -/
def execFuseCustkey (r : HReq) (hash tight : BitVec 256) (s : State) : Out :=
  ok (hmpRequest r 0x0051 (beBytes 32 hash.toNat) false false (fun who req s =>
    if !fuseOp r s || s.boot.custKey != 0 then hmpAnswer who req 2 [] s
    else
      let ws := hashWords hash.toNat tight.toNat
      let f := { s.boot.fuses with customer := ws }
      let s := raise 0x1805 1 { s with boot.fuses := f, boot.custKey := custState ws, boot.lastRead := fuseTable f }
      let s := ws.zipIdx.foldl (fun s w => if w.1.marginal then raise 0x0401 (3 * 2 ^ 24 + w.2) s else s) s
      hmpAnswer who req (if s.boot.custKey = 2 then 5 else 0) (beBytes 4 (fuseStat s)) s) s)

/-- FUSE_DEBUGLOCK: takes effect at once; `tight` is what the fuse reads at the tight margin. -/
def execFuseDebuglock (r : HReq) (tight : Bool) (s : State) : Out :=
  ok (hmpRequest r 0x0052 [] false false (fun who req s =>
    if !fuseOp r s then hmpAnswer who req 2 [] s
    else
      let f := { s.boot.fuses with debugLock := { normal := 1, tight := b2n tight } }
      let s := raise 0x1805 2 { s with boot.fuses := f, boot.debugLock := true, boot.lastRead := fuseTable f }
      hmpAnswer who req 0 (beBytes 4 (fuseStat s)) s) s)

end Sys2Proof.Machine
end

