-- ==== Sys2Proof/Machine/Dbg.lean ====
section
/-! DEFINITION. The debug port (22_debugging): the TAP, authentication, the DAP commands, halts, breakpoints and watchpoints. -/

namespace Sys2Proof.Machine

/-! ## The TAP (R466, R467) -/

/-- The core TAP has power. -/
def tapOn (s : State) : Bool := s.md.mode != .backup && s.md.powerGood

/-- Locked and not authenticated (R469). -/
def dbgLocked (s : State) : Bool := s.boot.debugLock && !s.dbg.auth

/-- The same scan at the island TAP, absent once debug-off has read blown or marginal: IDCODE, SAMPLE/PRELOAD and EXTEST over
its 96 cells, and BYPASS for every other code (R468). -/
def scanIsland (i : IslScan) (s : State) : State :=
  if !s.isl.tap then s
  else if i.ir = 2 then { s with dbg.islIr := 2, dbg.islTdo := Config.islIdcode }
  else if i.ir.toNat ≤ 1 then { s with dbg.islIr := i.ir.toNat, dbg.islBoundary := i.cells.toNat }
  else { s with dbg.islIr := 0x1F }

/-- A TAP instruction selected, and the island TAP's beside it; when the register leaves EXTEST the unit takes the debug reset
(R467). -/
def selectIr (code : Nat) (i : IslScan) (s : State) : State :=
  let s := if s.dbg.extest && code != 0 then resetThread false 32 (heldThread s) s else s
  scanIsland i { s with dbg.tapIr := code }

/-- EXTEST (R467): in HOLD the boundary drives the balls, with what threading will find when the instruction is left. -/
def execExtest (scan : CellScan) (t : Thr) (s : State) : Out :=
  ok (if !tapOn s then s
    else
      let s := selectIr 0 scan.isl s
      if s.dbg.extest then { s with dbg.boundary := scan.cells.toNat }
      else if dbgLocked s then s
      else if s.md.mode ≠ .hold then { s with dbg.extestRefused := true }
      else { s with dbg.extest := true, dbg.boundary := scan.cells.toNat, md.heldThr := some t })

/-- SAMPLE_PRELOAD (R466). -/
def execSamplePreload (scan : CellScan) (s : State) : Out :=
  ok (if tapOn s then { selectIr 1 scan.isl s with dbg.boundary := scan.cells.toNat } else s)

/-- A scan that shifts into the island TAP what it holds already. -/
def sameScan (s : State) : IslScan := { ir := BitVec.ofNat 5 s.dbg.islIr, cells := BitVec.ofNat 96 s.dbg.islBoundary }

/-- IDCODE (R5, R466); the island TAP is given its own instruction again (log entry 49). -/
def execIdcode (s : State) : Out :=
  ok (if tapOn s then { selectIr 2 (sameScan s) s with dbg.tdo := Config.idcode } else s)

/-- BYPASS (R466); an unlisted code acts the same. -/
def execBypass (scan : BypassScan) (s : State) : Out :=
  ok (if tapOn s ∧ !([0, 1, 2, 0x10, 0x11].contains scan.code.toNat) then selectIr scan.code.toNat scan.isl s else s)

/-- The response verifies under a fused key position (R469). -/
def responseOk (pos : Nat) (key sig : List Byte) (s : State) : Bool :=
  let fused := if pos = 0 then s.boot.fuses.seorfen else s.boot.fuses.customer
  let usable := if pos = 0 then s.boot.seorfenKey else pos == 1 && s.boot.custKey == 1
  usable && sha256 key == hashNat fused
    && ecdsaVerify key sig (sha256 (beBytes 32 s.dbg.nonce ++ beBytes 4 Config.idcode ++ beBytes 8 Config.serial))

/-- DBGAUTH (R469): the nonce is captured, and the response evaluated; a failed attempt draws a fresh nonce. -/
def execDbgauth (pos : Byte) (key sig : BitVec 512) (s : State) : Out :=
  ok (if !tapOn s then s
    else
      let s := selectIr 0x10 {} s
      let s := { s with dbg.tdo := s.dbg.nonce % 2 ^ 256 }
      if s.dbg.lockout then s
      else if responseOk pos.toNat (beBytes 64 key.toNat) (beBytes 64 sig.toNat) s then raise 0x2201 0 { s with dbg.auth := true }
      else
        let n := s.dbg.failures + 1
        raise 0x2202 n { s with
          dbg.failures := n, dbg.lockout := decide (3 ≤ n), dbg.nonce := Config.freeNat s.free, free := s.free + 1 })

/-! ## Commands (R470, R471) -/

/-- A DAP command: locked, discarded while the last one is busy, or begun. -/
def dapCommand (arg : Word) (op : State → State) (s : State) : State :=
  if !tapOn s then s
  else
    let s := selectIr 0x11 {} s
    if dbgLocked s then { s with dbg.status := 4, dbg.arg := arg.toNat, dbg.result := 0 }
    else if s.dbg.busy then { s with dbg.status := 1 }
    else op { s with dbg.busy := true, dbg.status := 1, dbg.arg := arg.toNat, dbg.result := 0 }

/-- The command ends at once with this status. -/
def dapDone (status : Nat) (s : State) : State := dapAnswer status 0 s

/-- PEEK. -/
def dapPeek (a : Word) (e : Nat) (s : State) : State := readWords 1 0 0 e 1 a.toNat [] s

/-- READ_EFFECT: a ream window has no read with effect. -/
def dapReadEffect (a data : Word) (e : Nat) (s : State) : State :=
  if !bitOf data.toNat 0 || inReam a.toNat then dapDone 5 s else readOnce 1 0 0 e a.toNat s

/-- SET_MASK. -/
def dapSetMask (data : Word) (s : State) : State := dapDone 0 { s with dbg.mask := data }

/-- POKE. -/
def dapPoke (a data : Word) (e : Nat) (s : State) : State :=
  writeWord { addr := a.toNat, mask := s.dbg.mask, val := data, who := 1 } e s

/-- A halt request of these pipes: it waits in DBG_STAT.pending (R473). -/
def requestHalt (pipes : Nat) (s0 : Bool) (s : State) : State :=
  let want (k : Nat) : Bool := bitOf pipes k && (!pipeHalted s k || (k == 0 && s.dbg.s0Only && !s0))
  { s with dbg.pending := maskOf 4 fun k => bitOf s.dbg.pending k || want k,
           dbg.pendS0 := if want 0 then s0 else s.dbg.pendS0 }

/-- HALT (R473, R476). -/
def dapHalt (arg : Word) (s : State) : State :=
  let force := bitOf arg.toNat 8
  if s.md.mode ≠ .active ∨ s.felt.rel.isSome then dapDone 2 s
  else if paired s && !force then
    (if partnerReady s then dapDone 2 { s with md.handOver := true, dbg.arg := setBit arg.toNat 9 } else dapDone 2 s)
  else
    let s := dapDone 0 (requestHalt (arg.toNat % 16) (bitOf arg.toNat 4) s)
    if paired s then raise 0x2204 0 s else s

/-- RESUME (R475, R477): the first cycle that begins after it is full. -/
def dapResume (arg : Word) (s : State) : State :=
  let m := maskOf 4 fun k => bitOf arg.toNat k && pipeHalted s k
  if m = 0 then dapDone 0 s
  else
    let s := { s with
      dbg.halted := maskOf 4 fun k => pipeHalted s k && !bitOf m k,
      dbg.s0Only := s.dbg.s0Only && !bitOf m 0,
      dbg.passBp := maskOf 4 fun k => bitOf s.dbg.passBp k || bitOf m k,
      clk.lateRun := 0, exe.nextFull := if s.exe.nextFull = 0 then 3 else s.exe.nextFull }
    dapDone 0 (dispatchTop (raise 0x2203 (256 + m) s))

/-- What pipe `k` stands before. -/
def standsAt (k : Nat) (s : State) : Nat :=
  pcOf (if k = 0 ∧ s.exe.tasks ≠ [] ∧ !s.dbg.s0Only then .task else .strand k) s

/-- STEP (R478): a halted pipe runs on; it halts again at the next NET word. -/
def dapStep (arg : Word) (s : State) : State :=
  let k := arg.toNat % 4
  if !pipeHalted s k then dapDone 2 s
  else dapDone 0 { s with
    dbg.halted := clrBit s.dbg.halted k, dbg.passBp := setBit s.dbg.passBp k,
    dbg.stepping := tset 0 s.dbg.stepping k (1 + standsAt k s) }

/-- The LOCK word of the interlock block that holds word `w`, by the words below it. -/
def lockBelow (p : Prog) : Nat → Option Nat
  | 0 => none
  | w + 1 =>
    let op := wOp (pw p w)
    if op = 0x31 then some w else if op = 0x32 ∨ op = 0x30 then none else lockBelow p w

/-- The word on which a breakpoint is armed (R479). -/
def armedAt (p : Prog) (w : Nat) : Nat :=
  let op (i : Nat) : Nat := wOp (pw p i)
  let w :=
    if opForm (op w) == .pre then (if 2 ≤ w ∧ op (w - 1) = 0x33 then w - 2 else w - 1)
    else if op w = 0x33 ∧ opForm (op (w + 1)) == .pre then w - 1
    else if 1 ≤ w ∧ op (w - 1) = 0x33 then w - 1
    else w
  match lockBelow p w with | some l => if op w = 0x31 then w else l | none => w

/-- BP_SET (R479). -/
def dapBpSet (arg data : Word) (s : State) : State :=
  let w := data.toNat % 2 ^ 18
  let a := armedAt (running s) w
  let en := bitOf arg.toNat 8
  dapDone 0 { s with dbg.bps := tset {} s.dbg.bps (arg.toNat % 16) { en := en, word := if en then a else 0, moved := en && a != w } }

/-- WP_SET (R480): an access of 0 and a region above 3 are bad arguments. -/
def dapWpSet (arg data : Word) (s : State) : State :=
  let a := arg.toNat
  let en := bitOf a 8
  if en && a / 512 % 4 == 0 || decide (3 < data.toNat / 2 ^ 28) then dapDone 5 s
  else dapDone 0 { s with dbg.wps := tmod {} s.dbg.wps (a % 8) fun x =>
    { x with
      en := en, access := a / 512 % 4, compare := bitOf a 11, region := data.toNat / 2 ^ 28, index := data.toNat % 65536 } }

/-- WP_VALUE. -/
def dapWpValue (arg data : Word) (s : State) : State :=
  dapDone 0 { s with dbg.wps := tmod {} s.dbg.wps (arg.toNat % 8) fun x => { x with value := data } }

/-- WD_SVC (R443, R444), in E-clock `e` of the tick. -/
def dapWdSvc (arg : Word) (e : Nat) (s : State) : State :=
  if 1 < arg.toNat then dapDone 5 s
  else
    let c := arg == 1
    dapDone 0 (if wdRuns c s then wdService c (nowE e s) s else s)

/-- DBG_RESET (R407, R482). -/
def dapReset (arg : Word) (t : Thr) (s : State) : State :=
  let (taken, s) := resetRequest 32 (bitOf arg.toNat 8) t s
  { dapDone (if taken then 0 else 2) s with dbg.arg := arg.toNat }

/-- The command of a code (Table 22.3). -/
def dapOp (cmd : Nat) (arg data : Word) (e : Nat) (t : Thr) (s : State) : State :=
  match cmd with
  | 0x01 => dapPeek arg e s
  | 0x02 => dapReadEffect arg data e s
  | 0x03 => dapSetMask data s
  | 0x04 => dapPoke arg data e s
  | 0x10 => dapHalt arg s
  | 0x11 => dapResume arg s
  | 0x12 => dapStep arg s
  | 0x20 => dapBpSet arg data s
  | 0x21 => dapWpSet arg data s
  | 0x22 => dapWpValue arg data s
  | 0x30 => dapWdSvc arg e s
  | 0x31 => dapReset arg t s
  | _ => dapDone 5 s

/-- DBGACC (R470): the command shifted in is issued. -/
def execDbgacc (cmd : Byte) (arg data : Word) (e : Nat) (t : Thr) (s : State) : Out :=
  ok (dapCommand arg (dapOp cmd.toNat arg data e t) s)

/-- DAP_PEEK (R404, R471). -/
def execDapPeek (a : Word) (e : Nat) (s : State) : Out := ok (dapCommand a (dapPeek a e) s)
/-- DAP_READ_EFFECT (R404, R471). -/
def execDapReadEffect (a data : Word) (e : Nat) (s : State) : Out := ok (dapCommand a (dapReadEffect a data e) s)
/-- SET_MASK (R471). -/
def execSetMask (data : Word) (s : State) : Out := ok (dapCommand 0 (dapSetMask data) s)
/-- DAP_POKE (R472). -/
def execDapPoke (a data : Word) (e : Nat) (s : State) : Out := ok (dapCommand a (dapPoke a data e) s)
/-- HALT (R473 to R476). -/
def execHalt (arg : Word) (s : State) : Out := ok (dapCommand arg (dapHalt arg) s)
/-- RESUME (R477). -/
def execResume (arg : Word) (s : State) : Out := ok (dapCommand arg (dapResume arg) s)
/-- STEP (R478). -/
def execStep (arg : Word) (s : State) : Out := ok (dapCommand arg (dapStep arg) s)
/-- BP_SET (R479). -/
def execBpSet (arg data : Word) (s : State) : Out := ok (dapCommand arg (dapBpSet arg data) s)
/-- WP_SET (R480). -/
def execWpSet (arg data : Word) (s : State) : Out := ok (dapCommand arg (dapWpSet arg data) s)
/-- WP_VALUE (R471). -/
def execWpValue (arg data : Word) (s : State) : Out := ok (dapCommand arg (dapWpValue arg data) s)
/-- WD_SVC (R443, R444, R471). -/
def execWdSvc (arg : Word) (e : Nat) (s : State) : Out := ok (dapCommand arg (dapWdSvc arg e) s)
/-- DBG_RESET (R482). -/
def execDbgReset (arg : Word) (t : Thr) (s : State) : Out := ok (dapCommand arg (dapReset arg t) s)

/-- HALT_EFFECT (R473): a requested halt takes effect at the pipe's instruction boundary outside an interlock block, from
the sample point on. -/
def execHaltEffect (k : Fin 4) (s : State) : Out :=
  let c : Cx := if k.val = 0 ∧ s.exe.tasks ≠ [] then .task else .strand k.val
  let held := k.val == 0 && s.dbg.pendS0 && s.exe.tasks != []
  ok (if engineRuns s && bitOf s.dbg.pending k.val && s.exe.sampled && !(runOf c s).regs.lock && !held then
      haltPipe k.val 0 0 s
    else s)

end Sys2Proof.Machine
end

