-- ==== Sys2Proof/Machine/InsBit.lean ====
section
/-! DEFINITION. Bit logic, outputs, edges, timers and counters (R143 to R145, Tables 7.5 and 7.6): one meaning per
opcode. -/

namespace Sys2Proof.Machine

/-! ## Shared operand forms -/

/-- The bit b′ of a bit-read operand: the value, its inverse or an edge against the last couched sheet (R139,
Table 7.3). -/
def bitOperand (c : Cx) (md x : Nat) (s : State) : Bool × State :=
  let k := kindOf (xReg x)
  let i := resolveIdx (xReg x) (xOff x) (regsOf c s).l
  let (v, s') := getBit c k i s
  let old := if k = 0 ∧ s.exe.noEdge then v else couchedBit c s k i
  (match md with
   | 0 => v
   | 1 => !v
   | 2 => v && !old
   | _ => !v && old, s')

/-- LA′ of a condition or output modifier (Table 7.3). -/
def laMod (md : Nat) (la : Bool) : Bool := if md = 1 then !la else la

/-- One bit-read instruction: LA and the stack become what `f` makes of LA, the stack and b′. -/
def bitRead (op : Nat) (w : Who) (md : BitVec 2) (x : BitVec 24)
    (f : Bool → List Bool → Bool → Bool × List Bool) (s : State) : State :=
  takeWord w op md.toNat x.toNat (fun c s =>
    let (b, s) := bitOperand c md.toNat x.toNat s
    let g := regsOf c s
    let (la, st) := f g.la g.stack b
    (setRegs c { g with la := la, stack := st } s, 1)) s

/-- One instruction that works on the registers alone. -/
def regOnly (op : Nat) (w : Who) (f : Regs → Regs) (s : State) : State :=
  takeWord w op 0 0 (fun c s => (setRegs c (f (regsOf c s)) s, 1)) s

/-- One bit-write instruction: the bit is written with `v LA′ ` when there is one; its block is recorded either way
(R160). -/
def bitWrite (op : Nat) (w : Who) (md : BitVec 2) (x : BitVec 24) (v : Bool → Option Bool) (s : State) : State :=
  takeWord w op md.toNat x.toNat (fun c s =>
    let k := kindOf (xReg x.toNat)
    let i := resolveIdx (xReg x.toNat) (xOff x.toNat) (regsOf c s).l
    match v (laMod md.toNat (regsOf c s).la) with
    | some b => (putBit c k i b s, 1)
    | none => (noteWrite c k i s, 1)) s

/-! ## Table 7.5 -/

/-- LD: LA := b′ (R143). -/
def execLd (w : Who) (md : BitVec 2) (x : BitVec 24) (s : State) : Out :=
  ok (bitRead 0x01 w md x (fun _ st b => (b, st)) s)
/-- LDP: push LA, LA := b′. -/
def execLdp (w : Who) (md : BitVec 2) (x : BitVec 24) (s : State) : Out :=
  ok (bitRead 0x02 w md x (fun la st b => (b, la :: st)) s)
/-- AND: LA := LA and b′. -/
def execAnd (w : Who) (md : BitVec 2) (x : BitVec 24) (s : State) : Out :=
  ok (bitRead 0x03 w md x (fun la st b => (la && b, st)) s)
/-- OR: LA := LA or b′. -/
def execOr (w : Who) (md : BitVec 2) (x : BitVec 24) (s : State) : Out :=
  ok (bitRead 0x04 w md x (fun la st b => (la || b, st)) s)
/-- XOR: LA := LA xor b′. -/
def execXor (w : Who) (md : BitVec 2) (x : BitVec 24) (s : State) : Out :=
  ok (bitRead 0x05 w md x (fun la st b => (Bool.xor la b, st)) s)
/-- ANDP: LA := pop and LA. -/
def execAndp (w : Who) (s : State) : Out :=
  ok (regOnly 0x06 w (fun g => { g with la := g.stack.headD false && g.la, stack := g.stack.tail }) s)
/-- ORP: LA := pop or LA. -/
def execOrp (w : Who) (s : State) : Out :=
  ok (regOnly 0x07 w (fun g => { g with la := g.stack.headD false || g.la, stack := g.stack.tail }) s)
/-- NOTL: LA := not LA. -/
def execNotl (w : Who) (s : State) : Out := ok (regOnly 0x08 w (fun g => { g with la := !g.la }) s)
/-- OUT: b := LA′. -/
def execOut (w : Who) (md : BitVec 2) (x : BitVec 24) (s : State) : Out :=
  ok (bitWrite 0x09 w md x (fun la => some la) s)
/-- SET: when LA′ = 1, b := 1. -/
def execSet (w : Who) (md : BitVec 2) (x : BitVec 24) (s : State) : Out :=
  ok (bitWrite 0x0A w md x (fun la => if la then some true else none) s)
/-- RST: when LA′ = 1, b := 0. -/
def execRst (w : Who) (md : BitVec 2) (x : BitVec 24) (s : State) : Out :=
  ok (bitWrite 0x0B w md x (fun la => if la then some false else none) s)

/-- PEDG and NEDG: an edge of LA against the marker, which takes LA. -/
def markerEdge (op : Nat) (w : Who) (x : BitVec 24) (f : Bool → Bool → Bool) (s : State) : State :=
  takeWord w op 0 x.toNat (fun c s =>
    let i := resolveIdx (xReg x.toNat) (xOff x.toNat) (regsOf c s).l
    let (m, s) := getBit c 2 i s
    let g := regsOf c s
    (putBit c 2 i g.la (setRegs c { g with la := f g.la m } s), 1)) s

/-- PEDG: t := LA; LA := LA and not m; m := t. -/
def execPedg (w : Who) (x : BitVec 24) (s : State) : Out := ok (markerEdge 0x0C w x (fun la m => la && !m) s)
/-- NEDG: t := LA; LA := (not LA) and m; m := t. -/
def execNedg (w : Who) (x : BitVec 24) (s : State) : Out := ok (markerEdge 0x0D w x (fun la m => !la && m) s)

/-! ## Timers and counters -/

/-- The preset value and the state after its read (R140, R141). -/
def presetVal (c : Cx) (p : Preset) (s : State) : Word × State :=
  if p.imm then
    (match p.lit with
     | some h => BitVec.ofNat 32 (h.toNat * 16777216 + p.x.toNat)
     | none => BitVec.ofInt 32 (toSigned 24 p.x.toNat), s)
  else getWord c 3 (resolveIdx (xReg p.x.toNat) (xOff p.x.toNat) (regsOf c s).l) s

/-- The fields of a timer instance (Table 6.8). -/
structure Timer where
  preset : Nat
  start : Nat
  inLast : Bool
  running : Bool
  q : Bool
  elapsed : Nat
deriving DecidableEq, Repr

/-- Sixteen bytes read as a timer instance. -/
def Timer.ofBytes (bs : List Byte) : Timer :=
  let f := fld bs 10 2
  { preset := fld bs 0 4, start := fld bs 4 6, inLast := bitOf f 2, running := bitOf f 3, q := bitOf f 4,
    elapsed := fld bs 12 4 }

/-- The sixteen bytes of a timer instance of this type (1 TON, 2 TOF, 3 TP). -/
def Timer.bytes (t : Timer) (typ : Nat) : List Byte :=
  leBytes 4 t.preset ++ leBytes 6 t.start
    ++ leBytes 2 (typ + 4 * b2n t.inLast + 8 * b2n t.running + 16 * b2n t.q) ++ leBytes 4 t.elapsed

/-- Elapsed ticks, held at the preset. -/
def Timer.lapse (t : Timer) (s p : Nat) : Nat := min (s - t.start) p

/-- One evaluation of TON (R144). -/
def tonEval (t : Timer) (x : Bool) (p s : Nat) : Timer :=
  if x then
    let t := if t.running then t else { t with start := s, running := true }
    let e := t.lapse s p
    { t with elapsed := e, q := e == p }
  else { t with running := false, elapsed := 0, q := false }

/-- One evaluation of TOF (R144). -/
def tofEval (t : Timer) (x : Bool) (p s : Nat) : Timer :=
  if x then { t with running := false, elapsed := 0, q := true }
  else
    let t := if t.inLast then { t with start := s, running := true } else t
    if t.running then
      let e := t.lapse s p
      if e = p then { t with elapsed := e, q := false, running := false } else { t with elapsed := e }
    else t

/-- One evaluation of TP (R144). -/
def tpEval (t : Timer) (x : Bool) (p s : Nat) : Timer :=
  let t := if x && !t.inLast && !t.running then { t with start := s, running := true, q := true } else t
  if t.running then
    let e := t.lapse s p
    if e = p then { t with elapsed := e, q := false, running := false } else { t with elapsed := e }
  else t

/-- Sixteen bytes of an instance as a context sees them. -/
def seeInst (c : Cx) (s : State) (kind i : Nat) : List Byte :=
  (List.range 16).map fun j => seeByte c s (byteAddr kind i + j)

/-- A timer instruction: type and preset set, then the evaluation, in_last := x and LA := q (R144). A preset below 1
counts as 1. -/
def timerOp (op typ : Nat) (w : Who) (md : BitVec 2) (x : BitVec 24) (p : Preset)
    (eval : Timer → Bool → Nat → Nat → Timer) (s : State) : State :=
  takeWord w op md.toNat x.toNat (fun c s =>
    let i := resolveIdx (xReg x.toNat) (xOff x.toNat) (regsOf c s).l
    let (pv, s) := presetVal c p s
    let pn := if toSigned 32 pv.toNat < 1 then 1 else pv.toNat
    let s := noteWrite c 4 i (noteRd c 4 i s)
    let g := regsOf c s
    let inp := laMod md.toNat g.la
    let t := eval { Timer.ofBytes (seeInst c s 4 i) with preset := pn } inp pn (timerTick c s)
    let t := { t with inLast := inp }
    (setRegs c { g with la := t.q } (putBytes c (byteAddr 4 i) (t.bytes typ) s), 1)) s

/-- TON (R144). -/
def execTon (w : Who) (md : BitVec 2) (x : BitVec 24) (p : Preset) (s : State) : Out :=
  ok (timerOp 0x10 1 w md x p tonEval s)
/-- TOF (R144). -/
def execTof (w : Who) (md : BitVec 2) (x : BitVec 24) (p : Preset) (s : State) : Out :=
  ok (timerOp 0x11 2 w md x p tofEval s)
/-- TP (R144). -/
def execTp (w : Who) (md : BitVec 2) (x : BitVec 24) (p : Preset) (s : State) : Out :=
  ok (timerOp 0x12 3 w md x p tpEval s)

/-- The fields of a counter instance (R128). -/
structure Counter where
  preset : Int
  value : Int
  upLast : Bool
  dnLast : Bool
  qUp : Bool
  qDn : Bool
deriving DecidableEq, Repr

/-- Sixteen bytes read as a counter instance. -/
def Counter.ofBytes (bs : List Byte) : Counter :=
  let f := fld bs 8 2
  { preset := toSigned 32 (fld bs 0 4), value := toSigned 32 (fld bs 4 4),
    upLast := bitOf f 0, dnLast := bitOf f 1, qUp := bitOf f 2, qDn := bitOf f 3 }

/-- The sixteen bytes of a counter instance. -/
def Counter.bytes (k : Counter) : List Byte :=
  leBytes 4 (ofSigned 32 k.preset) ++ leBytes 4 (ofSigned 32 k.value)
    ++ leBytes 2 (b2n k.upLast + 2 * b2n k.dnLast + 4 * b2n k.qUp + 8 * b2n k.qDn) ++ leBytes 6 0

/-- A count held within the signed 32-bit range (R145). -/
def sat32 (v : Int) : Int := if v < -2147483648 then -2147483648 else if 2147483647 < v then 2147483647 else v

/-- One evaluation of CTU, before q_up and q_dn (R145). -/
def ctuEval (k : Counter) (x : Bool) : Counter :=
  { k with value := if x && !k.upLast then sat32 (k.value + 1) else k.value, upLast := x }
/-- One evaluation of CTD, before q_up and q_dn (R145). -/
def ctdEval (k : Counter) (x : Bool) : Counter :=
  { k with value := if x && !k.dnLast then sat32 (k.value - 1) else k.value, dnLast := x }

/-- A counting instruction: preset, count, q_up and q_dn, LA (R145). -/
def counterOp (op : Nat) (w : Who) (md : BitVec 2) (x : BitVec 24) (p : Preset)
    (eval : Counter → Bool → Counter) (out : Counter → Bool) (s : State) : State :=
  takeWord w op md.toNat x.toNat (fun c s =>
    let i := resolveIdx (xReg x.toNat) (xOff x.toNat) (regsOf c s).l
    let (pv, s) := presetVal c p s
    let s := noteWrite c 5 i (noteRd c 5 i s)
    let g := regsOf c s
    let k := eval { Counter.ofBytes (seeInst c s 5 i) with preset := toSigned 32 pv.toNat } (laMod md.toNat g.la)
    let k := { k with qUp := decide (k.preset ≤ k.value), qDn := decide (k.value ≤ 0) }
    (setRegs c { g with la := out k } (putBytes c (byteAddr 5 i) k.bytes s), 1)) s

/-- CTU (R145). -/
def execCtu (w : Who) (md : BitVec 2) (x : BitVec 24) (p : Preset) (s : State) : Out :=
  ok (counterOp 0x13 w md x p ctuEval Counter.qUp s)
/-- CTD (R145). -/
def execCtd (w : Who) (md : BitVec 2) (x : BitVec 24) (p : Preset) (s : State) : Out :=
  ok (counterOp 0x14 w md x p ctdEval Counter.qDn s)
/-- CRST: when the input is 1, value := 0, q_up := (0 ≥ preset), q_dn := 1; LA stays (R145). -/
def execCrst (w : Who) (md : BitVec 2) (x : BitVec 24) (s : State) : Out :=
  ok (takeWord w 0x15 md.toNat x.toNat (fun c s =>
    let i := resolveIdx (xReg x.toNat) (xOff x.toNat) (regsOf c s).l
    let s := noteWrite c 5 i (noteRd c 5 i s)
    let k := Counter.ofBytes (seeInst c s 5 i)
    if laMod md.toNat (regsOf c s).la then
      (putBytes c (byteAddr 5 i) { k with value := 0, qUp := decide (k.preset ≤ 0), qDn := true }.bytes s, 1)
    else (s, 1)) s)
/-- PRE: the preset operand of the instruction before it; no effect of its own (R141). -/
def execPre (w : Who) (md : BitVec 2) (x : BitVec 24) (s : State) : Out :=
  ok (takeWord w 0x16 md.toNat x.toNat (fun _ s => (s, 1)) s)

end Sys2Proof.Machine
end

