-- ==== Sys2Proof/Machine/InsWord.lean ====
section
/-! DEFINITION. Word instructions, jumps, lanes, structure, reams and the fences that need no other plane
(R140, R146 to R152, Tables 7.7 and 7.9). -/

namespace Sys2Proof.Machine

/-- The value v of a value operand: memory, or the immediate with the literal byte before it (R140, Table 7.3). -/
def valueOperand (c : Cx) (md x : Nat) (s : State) : Word × State :=
  if 2 ≤ md then
    (match (regsOf c s).lit with
     | some h => BitVec.ofNat 32 (h.toNat * 16777216 + x % 16777216)
     | none => BitVec.ofInt 32 (toSigned 24 x), s)
  else getWord c (kindOf (xReg x)) (resolveIdx (xReg x) (xOff x) (regsOf c s).l) s

/-- One word instruction with a value operand: the registers become what `f` makes of them and v (R146). -/
def wordOp (op : Nat) (w : Who) (md : BitVec 2) (x : BitVec 24) (f : Regs → Word → Regs) (s : State) : State :=
  takeWord w op md.toNat x.toNat (fun c s =>
    let (v, s) := valueOperand c md.toNat x.toNat s
    (setRegs c (f (regsOf c s) v) s, 1)) s

/-- A compare: LA := LA and r, r negated by modifier 0b01 or 0b11 (R146). -/
def cmpOp (op : Nat) (w : Who) (md : BitVec 2) (x : BitVec 24) (r : Word → Word → Bool) (s : State) : State :=
  wordOp op w md x (fun g v => { g with la := g.la && (if md.toNat % 2 = 1 then !(r g.a v) else r g.a v) }) s

/-- LDA: A := v. -/
def execLda (w : Who) (md : BitVec 2) (x : BitVec 24) (s : State) : Out :=
  ok (wordOp 0x18 w md x (fun g v => { g with a := v }) s)
/-- LDB: B := v. -/
def execLdb (w : Who) (md : BitVec 2) (x : BitVec 24) (s : State) : Out :=
  ok (wordOp 0x19 w md x (fun g v => { g with b := v }) s)

/-- STA and MOVC: the word takes A, when `cond LA`; its block is recorded either way. -/
def storeOp (op : Nat) (w : Who) (x : BitVec 24) (cond : Bool → Bool) (s : State) : State :=
  takeWord w op 0 x.toNat (fun c s =>
    let k := kindOf (xReg x.toNat)
    let i := resolveIdx (xReg x.toNat) (xOff x.toNat) (regsOf c s).l
    let g := regsOf c s
    if cond g.la then (putWord c k i g.a s, 1) else (noteWrite c k i s, 1)) s

/-- STA: w := A. -/
def execSta (w : Who) (x : BitVec 24) (s : State) : Out := ok (storeOp 0x1A w x (fun _ => true) s)
/-- MOVC: when LA = 1, w := A. -/
def execMovc (w : Who) (x : BitVec 24) (s : State) : Out := ok (storeOp 0x1B w x (fun la => la) s)
/-- XAB: A and B change places. -/
def execXab (w : Who) (s : State) : Out := ok (regOnly 0x1C w (fun g => { g with a := g.b, b := g.a }) s)
/-- ADD: A := A + v modulo 2^32. -/
def execAdd (w : Who) (md : BitVec 2) (x : BitVec 24) (s : State) : Out :=
  ok (wordOp 0x1D w md x (fun g v => { g with a := g.a + v }) s)
/-- SUB: A := A − v modulo 2^32. -/
def execSub (w : Who) (md : BitVec 2) (x : BitVec 24) (s : State) : Out :=
  ok (wordOp 0x1E w md x (fun g v => { g with a := g.a - v }) s)

/-- The signed 64-bit product of two words. -/
def mulS (a v : Word) : BitVec 64 := BitVec.ofInt 64 (a.toInt * v.toInt)

/-- MUL: B:A := the signed 64-bit product of A and v. -/
def execMul (w : Who) (md : BitVec 2) (x : BitVec 24) (s : State) : Out :=
  ok (wordOp 0x1F w md x (fun g v =>
    { g with a := (mulS g.a v).extractLsb' 0 32, b := (mulS g.a v).extractLsb' 32 32 }) s)

/-- Quotient and remainder of DIV: truncated toward zero, remainder with the dividend's sign; the two special
pairs (R147). -/
def divS (a v : Word) : Word × Word :=
  if v = 0 then (0, a)
  else if a = 0x80000000 ∧ v = 0xFFFFFFFF then (0x80000000, 0)
  else (BitVec.ofInt 32 (a.toInt.tdiv v.toInt), BitVec.ofInt 32 (a.toInt.tmod v.toInt))

/-- A division by zero counted, EVT-0701 once per cycle per pipe (R147); a trial counts none (R178). -/
def noteDiv0 (c : Cx) (s : State) : State :=
  if !isLive c then s else
  let k := pipeOf c
  let s := { s with exe.div0 := satInc 65535 s.exe.div0 }
  if s.exe.divPipes.contains k then s else raise 0x0701 k { s with exe.divPipes := k :: s.exe.divPipes }

/-- DIV: A := quotient, B := remainder (R147). -/
def execDiv (w : Who) (md : BitVec 2) (x : BitVec 24) (s : State) : Out :=
  ok (takeWord w 0x20 md.toNat x.toNat (fun c s =>
    let (v, s) := valueOperand c md.toNat x.toNat s
    let g := regsOf c s
    let s := if v = 0 then noteDiv0 c s else s
    (setRegs c { g with a := (divS g.a v).1, b := (divS g.a v).2 } s, 1)) s)
/-- ANDW: A := A and v. -/
def execAndw (w : Who) (md : BitVec 2) (x : BitVec 24) (s : State) : Out :=
  ok (wordOp 0x21 w md x (fun g v => { g with a := g.a &&& v }) s)
/-- ORW: A := A or v. -/
def execOrw (w : Who) (md : BitVec 2) (x : BitVec 24) (s : State) : Out :=
  ok (wordOp 0x22 w md x (fun g v => { g with a := g.a ||| v }) s)
/-- XORW: A := A xor v. -/
def execXorw (w : Who) (md : BitVec 2) (x : BitVec 24) (s : State) : Out :=
  ok (wordOp 0x23 w md x (fun g v => { g with a := g.a ^^^ v }) s)

/-- A shift by an unsigned word: 32 or more gives 0 (R146). -/
def shiftW (f : Word → Nat → Word) (a v : Word) : Word := if 32 ≤ v.toNat then 0 else f a v.toNat

/-- SHL: A := A << v. -/
def execShl (w : Who) (md : BitVec 2) (x : BitVec 24) (s : State) : Out :=
  ok (wordOp 0x24 w md x (fun g v => { g with a := shiftW (fun a n => a <<< n) g.a v }) s)
/-- SHR: A := A >> v, zero fill. -/
def execShr (w : Who) (md : BitVec 2) (x : BitVec 24) (s : State) : Out :=
  ok (wordOp 0x25 w md x (fun g v => { g with a := shiftW (fun a n => a >>> n) g.a v }) s)
/-- CEQ: r := (A = v). -/
def execCeq (w : Who) (md : BitVec 2) (x : BitVec 24) (s : State) : Out :=
  ok (cmpOp 0x27 w md x (fun a v => a == v) s)
/-- CGT: r := (A > v), signed. -/
def execCgt (w : Who) (md : BitVec 2) (x : BitVec 24) (s : State) : Out :=
  ok (cmpOp 0x28 w md x (fun a v => decide (v.toInt < a.toInt)) s)
/-- CLT: r := (A < v), signed. -/
def execClt (w : Who) (md : BitVec 2) (x : BitVec 24) (s : State) : Out :=
  ok (cmpOp 0x29 w md x (fun a v => decide (a.toInt < v.toInt)) s)
/-- CGTU: r := (A > v), unsigned. -/
def execCgtu (w : Who) (md : BitVec 2) (x : BitVec 24) (s : State) : Out :=
  ok (cmpOp 0x2A w md x (fun a v => decide (v.toNat < a.toNat)) s)
/-- CLTU: r := (A < v), unsigned. -/
def execCltu (w : Who) (md : BitVec 2) (x : BitVec 24) (s : State) : Out :=
  ok (cmpOp 0x2B w md x (fun a v => decide (a.toNat < v.toNat)) s)

/-! ## Jumps, lanes and structure (R148 to R150) -/

/-- Displacement field of a jump operand. -/
def dispOf (x : Nat) : Int := toSigned 16 (x % 65536)

/-- JMP: jump forward. -/
def execJmp (w : Who) (x : BitVec 24) (s : State) : Out :=
  ok (takeWord w 0x2C 0 x.toNat (fun _ s => (s, dispOf x.toNat)) s)
/-- JC: when LA′ = 1, jump forward. -/
def execJc (w : Who) (md : BitVec 2) (x : BitVec 24) (s : State) : Out :=
  ok (takeWord w 0x2D md.toNat x.toNat (fun c s =>
    (s, if laMod md.toNat (regsOf c s).la then dispOf x.toNat else 1)) s)
/-- LNXT: when L < last, L := L + 1 and jump back; otherwise fall through. -/
def execLnxt (w : Who) (x : BitVec 24) (s : State) : Out :=
  ok (takeWord w 0x2E 0 x.toNat (fun c s =>
    let g := regsOf c s
    if g.l.toNat < x.toNat / 2097152 then (setRegs c { g with l := g.l + 1 } s, dispOf x.toNat) else (s, 1)) s)
/-- SETL: L := the immediate lane, or A[2:0]. -/
def execSetl (w : Who) (x : BitVec 24) (s : State) : Out :=
  ok (takeWord w 0x2F 0 x.toNat (fun c s =>
    let g := regsOf c s
    (setRegs c { g with l := if bitOf x.toNat 3 then g.a.extractLsb' 0 3 else BitVec.ofNat 3 x.toNat } s, 1)) s)
/-- NET: opens a network (R142, R150); a speculating pipe passes over a fenced one (R163). -/
def execNet (w : Who) (x : BitVec 24) (s : State) : Out :=
  ok (takeWord w 0x30 0 x.toNat (fun _ s => (s, 1)) s)
/-- LOCK: opens an interlock block (R131). -/
def execLock (w : Who) (s : State) : Out := ok (regOnly 0x31 w (fun g => { g with lock := true }) s)
/-- ULK: closes it. -/
def execUlk (w : Who) (s : State) : Out := ok (regOnly 0x32 w (fun g => { g with lock := false }) s)
/-- LIT: the literal high byte of the next immediate (R140). -/
def execLit (w : Who) (x : BitVec 24) (s : State) : Out :=
  ok (takeWord w 0x33 0 x.toNat (fun c s =>
    (setRegs c { regsOf c s with lit := some (BitVec.ofNat 8 x.toNat) } s, 1)) s)

/-! ## Immediate output, lane words, reams and fences -/

/-- QIMM: b := LA′ in the wet sheet; outside a trial the bit's value goes to the field-link controller (R151, R178). -/
def execQimm (w : Who) (md : BitVec 2) (x : BitVec 24) (s : State) : Out :=
  ok (takeWord w 0x35 md.toNat x.toNat (fun c s =>
    let i := resolveIdx (xReg x.toNat) (xOff x.toNat) (regsOf c s).l
    let v := laMod md.toNat (regsOf c s).la
    let s := putBit c 1 i v s
    (if isLive c then { s with exe.qimm := s.exe.qimm ++ [(i, v)] } else s, 1)) s)

/-- Lane-event word k of lane L (R114). -/
def evWord (l : BitVec 3) (k : Nat) : Nat := 15360 + 16 * l.toNat + k % 16
/-- Lane-command word k of lane L (R18). -/
def cmdWord (l : BitVec 3) (k : Nat) : Nat := 15488 + 16 * l.toNat + k % 16

/-- LEV: A := lane-event word k of lane L. -/
def execLev (w : Who) (x : BitVec 24) (s : State) : Out :=
  ok (takeWord w 0x36 0 x.toNat (fun c s =>
    let (v, s) := getWord c 3 (evWord (regsOf c s).l x.toNat) s
    (setRegs c { regsOf c s with a := v } s, 1)) s)
/-- LEVC: as LEV, and marks the entry taken (R130); a trial takes nothing (R178). -/
def execLevc (w : Who) (x : BitVec 24) (s : State) : Out :=
  ok (takeWord w 0x37 0 x.toNat (fun c s =>
    let l := (regsOf c s).l
    let (v, s) := getWord c 3 (evWord l x.toNat) s
    let s := setRegs c { regsOf c s with a := v } s
    let e := (l.toNat, x.toNat % 16)
    (if isLive c && !s.exe.taken.contains e then { s with exe.taken := s.exe.taken ++ [e] } else s, 1)) s)
/-- LCW: lane-command word k of lane L := A. -/
def execLcw (w : Who) (x : BitVec 24) (s : State) : Out :=
  ok (takeWord w 0x38 0 x.toNat (fun c s =>
    (putWord c 3 (cmdWord (regsOf c s).l x.toNat) (regsOf c s).a s, 1)) s)
/-- LCB: lane-command bit j of lane L := LA′. -/
def execLcb (w : Who) (md : BitVec 2) (x : BitVec 24) (s : State) : Out :=
  ok (takeWord w 0x39 md.toNat x.toNat (fun c s =>
    let g := regsOf c s
    (putBit c 1 (1024 * g.l.toNat + 992 + x.toNat % 32) (laMod md.toNat g.la) s, 1)) s)

/-- The lane-relative index of a ream operand in lane `l` (R152). -/
def reamIdx (x l : Nat) : Nat := resolveIdx (xReg x) (x % 4096) (BitVec.ofNat 3 l)

/-- OUTR: the bit of every member lane := LA′ (R133, R152). -/
def execOutr (w : Who) (md : BitVec 2) (x : BitVec 24) (s : State) : Out :=
  ok (takeWord w 0x3A md.toNat x.toNat (fun c s =>
    let v := laMod md.toNat (regsOf c s).la
    ((reamLanes s (x.toNat / 65536 % 16)).foldl
      (fun s l => putBit c (kindOf (xReg x.toNat)) (reamIdx x.toNat l) v s) s, 1)) s)
/-- MOVR: the word of every member lane := A. -/
def execMovr (w : Who) (x : BitVec 24) (s : State) : Out :=
  ok (takeWord w 0x3B 0 x.toNat (fun c s =>
    let a := (regsOf c s).a
    ((reamLanes s (x.toNat / 65536 % 16)).foldl (fun s l => putWord c 3 (reamIdx x.toNat l) a s) s, 1)) s)
/-- FEN: no effect beyond fencing. -/
def execFen (w : Who) (s : State) : Out := ok (regOnly 0x3D w (fun g => g) s)
/-- RFL: when LA = 1, request the retained-store flush (R129, R436); a trial requests nothing (R178). -/
def execRfl (w : Who) (s : State) : Out :=
  ok (takeWord w 0x3E 0 0 (fun c s =>
    (if isLive c && (regsOf c s).la then { s with exe.rfl := true } else s, 1)) s)

end Sys2Proof.Machine
end

