-- ==== Sys2Proof/Machine/InsMsg.lean ====
section
/-! DEFINITION. MSG (R153, R178): a message from D memory offered to port K. -/

namespace Sys2Proof.Machine

/-- The descriptor and the extent of the payload pass MSG's own checks. -/
def msgShapeOk (d : Word) (i : Nat) : Bool :=
  let len := d.toNat % 65536
  let w := ceilDiv len 4
  d.toNat / 2 ^ 27 == 0 && decide (1 ≤ len ∧ len ≤ 256) && decide (i + w ≤ 16383)
    && decide (i + w < 15360 ∨ 15615 < i + 1)

/-- The payload words that follow a descriptor, read in order with their records. -/
def readPayload (c : Cx) : Nat → Nat → State → List Byte × State
  | _, 0, s => ([], s)
  | i, n + 1, s =>
    let (v, s) := getWord c 3 i s
    let (bs, s) := readPayload c (i + 1) n s
    (leBytes 4 v.toNat ++ bs, s)

/-- The packet that port K makes of a message; for the KLP uplink byte 0 is the lane and byte 1 the type (R325). -/
def kPacket (s : State) (q : Nat) (bs : List Byte) : Pkt :=
  if qPort s q = klpPort s then
    { bytes := bs.length, lane := (nth 0 bs 0).toNat, typ := (nth 0 bs 1).toNat, data := bs.drop 2 }
  else { bytes := bs.length, data := bs }

/-- MSG refused: LA := 0, msg_rej. -/
def msgRefused (c : Cx) (s : State) : State :=
  setRegs c { regsOf c s with la := false } { s with exe.msgRej := satInc 65535 s.exe.msgRej }

/-- MSG with LA = 1: the descriptor is read and checked, then the payload is read and offered for its queue. -/
def msgOffer (c : Cx) (i : Nat) (s : State) : State :=
  let (d, s) := getWord c 3 i s
  if !msgShapeOk d i then msgRefused c s
  else
    let len := d.toNat % 65536
    let (bs, s) := readPayload c (i + 1) (ceilDiv len 4) s
    let q := d.toNat / 65536 % 2048
    match offerPkt q 54 false (kPacket s q (bs.take len)) s with
    | (.accepted, s) => s
    | (_, s) => msgRefused c s

/-- MSG: when LA = 1 the message is offered, and LA says whether the lane switch accepted it; in a trial
it sends nothing and sets LA := 1 (R178). -/
def execMsg (w : Who) (x : BitVec 24) (s : State) : Out :=
  ok (takeWord w 0x3C 0 x.toNat (fun c s =>
    if !isLive c then (setRegs c { regsOf c s with la := true } s, 1)
    else if (regsOf c s).la then (msgOffer c (resolveIdx (xReg x.toNat) (xOff x.toNat) (regsOf c s).l) s, 1)
    else (s, 1)) s)

end Sys2Proof.Machine
end

