-- ==== Sys2Proof/Machine/Tick.lean ====
section
/-! DEFINITION. The tick boundary (02_the_web_tick, 03_six_modes, R43): in order the tick number, the faults, the roles, the
couch, the lane domains, the data plane, the triggers and the sweep; and the return of a sweep. -/

namespace Sys2Proof.Machine

/-! ## The new tick (R34 to R38) -/

/-- The corrections that the slaving loop may choose for the new tick, E-clocks by which it is lengthened (R36): at most 64
either way. From the phase error last measured, the drift of the two crystals over the tick before and the correction that
acts already, the error at this boundary and after the new tick is told; in the loop's first 16 ticks it may not grow, then
it falls by at least 24 E-clocks until it is within 50 ns, and then it stays there. Where no correction does that, any may
be chosen. -/
def corrections (s : State) : List Int :=
  let e := s.clk.phaseErr
  let drift := if s.clk.loopN < 3 then 0 else e - s.clk.phasePrev + s.clk.corrPrev
  let now := e + drift - s.clk.corr
  let after (v : Int) : Nat := (now + drift - v).natAbs
  let good (v : Int) : Bool :=
    if s.clk.loopN < 16 then decide (after v ≤ now.natAbs)
    else if 20 < now.natAbs then decide (after v ≤ 20 ∨ after v + 24 ≤ now.natAbs)
    else decide (after v ≤ 20)
  let all : List Int := (List.range 129).map fun k => (k : Int) - 64
  let some' := all.filter good
  if some'.isEmpty then all else some'

/-- The new tick's length in E-clocks: the period's, but a unit that slaves its phase lengthens or shortens it (R36); which of
the loop's corrections it takes is free. -/
def drawTick (s : State) : State :=
  let sel := if s.md.mode = .thread then s.clk.nextSel else s.clk.tickSel
  if s.clk.loopOn && slaved s then
    let l := corrections s
    let (v, s) := drawNat l.length s
    let c := nth 0 l v
    { s with clk.tickSel := sel, clk.tickLen := ((tickE sel : Int) + c).toNat, clk.loopN := s.clk.loopN + 1,
             clk.corrPrev := s.clk.corr, clk.corr := c }
  else { s with clk.tickSel := sel, clk.tickLen := tickE sel }

/-- The tick number increments (R38), and what is kept for one tick begins anew. -/
def newTick (s : State) : State :=
  drawTick { s with
    clk.boundaryE := s.clk.boundaryE + s.clk.tickLen, clk.tick := s.clk.tick + 1, evt.once := [], klp.closeTold := [],
    fl.fresh := 0, fl.busyTill := 0, felt.wakeOut := 0, felt.editOut := false, felt.sent := [], felt.ann := [], felt.partnerNow := s.felt.partnerNow + 1,
    md.faultNow := false }

/-- PARTNER_OK and LPOWN_IN as sampled; a low that lasts from boundary to boundary counts as one of 1.0 µs (R207, R450). -/
def samplePins (partnerOk lpownIn : Bool) (s : State) : State :=
  { s with felt.okLow := s.felt.okLow || (!s.felt.partnerOk && !partnerOk), felt.partnerOk := partnerOk,
           felt.lpownIn := lpownIn }

/-! ## Late cycles (R42, R47, R48, R475) -/

/-- A pipe is halted or stepping. -/
def anyHalted (s : State) : Bool :=
  s.dbg.halted != 0 || s.dbg.stepWait != 0 || s.dbg.stepping.any fun e => e.2 != 0

/-- A tick task that has not ended: EVT-0203 with the word at which it stands (R42), but not under a halt of pipe 0
(R474). -/
def tickOverrun (s : State) : State :=
  let held := (pipeHalted s 0 && !s.dbg.s0Only) || tget 0 s.dbg.stepping 0 != 0
  if !engineRuns s || held then s
  else match s.exe.tasks.find? fun t => t.task == 16 with
    | some t =>
      raise 0x0203 (if t.run.opened then t.run.regs.pc else netStart (running s) t.pos) s
    | none =>
      if s.exe.pend.any fun t => t.task == 16 then raise 0x0203 (netStart (running s) (running s).tickFirst) s else s

/-- The couch is due at this boundary. -/
def couchDue (s : State) : Bool := engineRuns s && decide (s.exe.due ≤ s.clk.tick)

/-- A boundary missed by a cycle: LATE_CNT, late_run, EVT-0201, and at the limit EVT-0202. -/
def lateCycle (s : State) : State :=
  if !couchDue s || cycleComplete s then s
  else
    let run := if anyHalted s then s.clk.lateRun else satInc 255 s.clk.lateRun
    let s := raise 0x0201 run { s with clk.lateCnt := satInc (2 ^ 32 - 1) s.clk.lateCnt, clk.lateRun := run }
    if run = s.clk.lateLimit ∧ !anyHalted s then raise 0x0202 s.clk.lateCnt { s with clk.lateHold := true } else s

/-! ## Roles (Table 3.4, R71, R207, R212) -/

/-- Entry to STANDBY is to follow at the first acknowledged copy (R38, R203). -/
def seekStandby (s : State) : State :=
  { s with felt.wantStandby := true, felt.fullPending := true, felt.consistent := none, felt.goodRun := 0 }

/-- The boundary of an entry to ACTIVE. -/
def goActive (s : State) : State := entryCouch (enterActive false s)

/-- The transition at the end of threading (Table 3.4, R85). -/
def endThread (s : State) : State :=
  let s := { s with md.thDone := false }
  let active := if s.fl.foreign then setMode .hold s else goActive s
  if startMode s = 1 then active
  else if startMode s = 2 then
    match s.nego.result with
    | some .active => active
    | some .standby => seekStandby s
    | _ => setMode .hold s
  else setMode .hold s

/-- Every requested domain is on. -/
def lanesUp (s : State) : Bool := (List.range 8).all fun n => !bitOf s.md.lanePwr n || (lane s n).dom == .on

/-- A step of the wake sequence (R71, R72), and whether the unit enters ACTIVE. -/
def wakeBoundary (s : State) : Bool × State :=
  match s.md.wakeStep with
  | 1 =>
    (false, wdDormant false { s with
      md.mSlow := false, md.wakeStep := 2, md.laneReq := maskOf 8 fun l => laneUsed s l && bitOf (laneOn s) l })
  | 2 =>
    if !lanesUp s then (false, s)
    else if s.md.mode = .dormant ∧ s.md.fault then (false, enterHoldF s.md.faultEvt { s with md.wakeStep := 0 })
    else
      let follow := paired s && (s.felt.trained || s.felt.partnerOk)
        && (s.md.mode == .standby || (s.md.mode == .dormant && s.md.prev == .standby))
      let s := setMode .hold s
      (false, if follow then seekStandby { s with md.wakeStep := 0 } else { s with md.wakeStep := 3 })
  | 3 =>
    let target := match s.md.wakeTarget with | some m => m | none => if wakeTo s = 1 then 3 else 2
    let s := { s with md.wakeStep := 0, md.wakeTarget := none }
    if target ≠ 3 ∨ s.md.mode ≠ .hold then (false, s)
    else if (running s).valid ∧ !s.md.fault ∧ !(paired s && s.felt.partnerMode == some 3) then (true, goActive s)
    else (false, raise 0x0304 8 s)
  | _ => (false, s)

/-- A mode that an earlier step gave this boundary (Table 3.4). -/
def stepDown (s : State) : Bool × State :=
  match s.md.stepDown with
  | some .active => (true, goActive { s with md.stepDown := none })
  | some m =>
    (false, setMode m { s with md.stepDown := none, felt.ready := false, felt.wantStandby := false,
                               felt.fullPending := false, felt.claimIn := 0, felt.returnPending := false })
  | none => (false, s)

/-- The partner's claim falls due (R212); a release that it does not follow ends. -/
def releaseTick (s : State) : Bool × State :=
  if s.felt.rel.isNone ∨ (s.md.heldReset ≠ 0 ∧ s.felt.partnerMode = some 3) then (false, s)
  else
    let s := releaseBoundary s
    if s.felt.rel.isNone && s.md.mode == .active then (true, entryCouch s) else (false, s)

/-- The roles of a boundary. The answer says that the cycle of an ACTIVE unit begins here, so that no couch and no ring entry
falls here. -/
def roles (s : State) : Bool × State :=
  let cause := takeoverCause s
  let s := { s with felt.okLow := false, felt.claimIn := if cause.isSome then s.felt.claimIn else s.felt.claimIn - 1 }
  match cause with
  | some c => (true, entryCouch (takeOver c { s with md.stepDown := none }))
  | none =>
    if s.md.mode = .thread then
      if s.md.thDone then
        let s := endThread s
        (s.md.mode == .active, s)
      else (false, reportTimeout (negotiate s))
    else if s.md.stepDown.isSome then stepDown s
    else if s.md.wakeStep ≠ 0 then wakeBoundary s
    else releaseTick s

/-! ## The couch, the ring and image writes of a boundary -/

/-- The couch of a complete cycle (R44, R47). -/
def boundaryCouch (s : State) : Bool × State :=
  if !couchDue s || !cycleComplete s then (false, s)
  else
    let moved := decide (s.exe.due < s.clk.tick)
    (true, couch s.clk.tick 0 moved { s with clk.lateRun := if moved then s.clk.lateRun else 0 })

/-- The edit ring and the image writes of a boundary without a couch (R25, R486). -/
def boundaryRing (s : State) : State :=
  let s := if s.md.mode = .hold ∨ s.md.mode = .standby then sampleRing s else s
  if s.md.mode = .hold then landImage s
  else if s.md.mode = .active then s
  else refuseImage s

/-! ## Lane domains (R66, R67, R296, R300) -/

/-- A flushed domain goes off; a domain that is off and asked on powers. -/
def laneSupply (pwr : Nat) (s : State) (n : Nat) : State :=
  match (lane s n).dom with
  | .off => if bitOf pwr n && laneUsed s n then modLane n (fun x => { x with dom := .powering }) s else s
  | .closing =>
    if (lane s n).flushed then modLane n (fun x => { x with dom := .off, closeN := 0, flushed := false }) s else s
  | _ => s

/-- The engines of lane `n` discard their partial packets. -/
def dropIngress (n : Nat) (s : State) : State :=
  (enginesOf s n).foldl (fun s e => modEng e (fun x => { x with raw := [], inFrame := false, trail := 0 }) s) s

/-- A domain no longer asked on is marked closing; a closing one is flushed when it is empty or at the drain limit. -/
def laneClosing (pwr : Nat) (s : State) (n : Nat) : State :=
  let x := lane s n
  match x.dom with
  | .off => s
  | .closing =>
    if x.flushed then s
    else
      let s := modLane n (fun x => { x with closeN := x.closeN + 1 }) s
      if drainTicks s ≤ x.closeN + 1 ∨ !laneHolds s n then closeFlush n s else s
  | _ =>
    if bitOf pwr n then s
    else dropIngress n (modLane n (fun x => { x with dom := .closing, closeN := 0, flushed := false }) s)

/-- Cells that egress engines have returned since the last boundary (R283): how many is free, for the manual ties them to the
bytes that leave the port. -/
def egressDrain (s : State) : State :=
  s.sw.egr.foldl (fun s e =>
    let (v, s) := drawNat (e.2 + 1) s
    { s with sw.egr := tset 0 s.sw.egr e.1 v }) s

/-- The boundary in the data plane (R296); before it flushed domains have gone off. -/
def dataPlane (pwr : Nat) (s : State) : State :=
  let s := (List.range 8).foldl (laneSupply pwr) { s with md.lanePwr := pwr }
  let s := takeSnapshot (egressDrain (addIdle ((policers s).foldl refill (landStaged s))))
  syncEngs ((List.range 8).foldl (laneClosing pwr) s)

/-- LANE_DOMAIN_ON (R66): a powering domain reaches on, and its ports start from reset. -/
def execLaneDomainOn (n : Fin 8) (s : State) : Out :=
  ok (if (lane s n.val).dom = .powering ∧ ticking s then
      syncEngs ((enginesOf s n.val).foldl (fun s e => resetEng e s) (modLane n.val (fun x => { x with dom := .on }) s))
    else s)

/-! ## DORMANT (R68, R69) -/

/-- The entry to DORMANT when every domain is off and the flush is complete; a wake held meanwhile begins its sequence
instead. -/
def dormantEntry (s : State) : State :=
  if s.md.mode ≠ .hold ∨ !s.md.dormReq ∨ s.exe.rfl ∨ (List.range 8).any (fun n => (lane s n).dom != .off) then s
  else if s.md.heldWake then startWake (signalWake { s with md.dormReq := false, md.heldWake := false })
  else enterDormant s

/-- DORMANT_ENTRY (R68): at a tick boundary only. -/
def execDormantEntry (s : State) : Out := atBoundary (fun s => if ticking s then dormantEntry s else s) s

/-- WAKE (R71): a wake source of R70, or a management decision. -/
def execWake (k : Fin 5) (s : State) : Out := ok (if ticking s then wake k.val s else s)

/-! ## The felt link, the sluice, the keys and the management core at a boundary -/

/-- Training lost for more than 3 ticks ends readiness (Table 9.5). -/
def trainingLost (s : State) : State :=
  let s := if s.felt.trained ∨ !s.felt.wasTrained then s else { s with felt.lostTicks := s.felt.lostTicks + 1 }
  if s.felt.lostTicks = 4 then notReady 4 s else s

/-- A boundary's heartbeat (R194). -/
def sendHeartbeat (s : State) : State :=
  let flags := b2n (isHome s) + b2n s.felt.ready * 2 + b2n s.md.fault * 4 + b2n s.felt.returnPending * 8
  let t := match s.felt.consistent with | some t => t | none => 0
  sendShort 0x01 (heartbeatData s.md.mode.code flags (if receiving s then t else 0) s.felt.gapRun)
    { s with felt.hbFlags := flags }

/-- The probe of a unit that is not ACTIVE: while the link trains, then every 4 096 ticks of a standby (R191). In DORMANT the
link carries heartbeats only (R72). -/
def probeBoundary (s : State) : State :=
  if s.md.mode = .active ∨ s.md.mode = .dormant then s
  else if !s.felt.trained then sendProbe s
  else
    let s := { s with felt.probeN := s.felt.probeN + 1 }
    if (receiving s ∨ s.md.mode = .thread) ∧ s.felt.probeN % 4096 = 0 then sendProbe s else s

/-- The full request of a standby at each boundary until a full copy has been applied (R203). -/
def fullRequest (s : State) : State := if receiving s ∧ s.felt.fullPending then sendShort 0x03 [] s else s

/-- The felt link at a boundary: heartbeat, probe, full request, and in step 10 this unit's half of the exchange. -/
def feltBoundary (s : State) : State :=
  if !feltOn s then s
  else
    let s := fullRequest (probeBoundary (sendHeartbeat (trainingLost s)))
    if s.md.mode = .thread ∧ s.md.thStat = 10 then sendNego s else s

/-- SLU_TICK and SLU_ROLE (R14, R337), the island's reading of them (R350, R351), and the polls of its scales (R367). -/
def sluiceBoundary (s : State) : State :=
  let oper := if paired s then s.felt.lpown else s.md.mode == .hold || s.md.mode == .active
  let s := { s with slu.tick := s.clk.tick, slu.oper := oper, slu.paired := paired s }
  if s.isl.st = .off then s else (List.range 8).foldl lsPollTick (readOper s)

/-- The keys are measured once in every tick (R457, R458) from step 8 of threading on. -/
def keysBoundary (raws : List (BitVec 16)) (s : State) : State :=
  if 9 ≤ s.md.thStat then measureKeys (raws.map BitVec.toNat) s else s

/-- The retained store's flush outside ACTIVE (R129, R436). -/
def flushBoundary (s : State) : State :=
  if s.exe.rfl ∧ (s.md.mode = .hold ∨ s.md.mode = .dormant) then flushRows s else s

/-! ## The boundary -/

/-- The reset that waited for a hand-over: the partner's claims have been accepted, or the unit has left ACTIVE (R407,
R482). -/
def heldResetDue (s : State) : Bool :=
  s.md.heldReset != 0 && (s.md.mode != .active ||
    ((match s.felt.rel with | some r => r.swept | none => false) && s.felt.partnerMode == some 3
      && (List.range s.fl.n).all fun b => bitOf s.fl.seenForeign b))

/-- The control plane at a boundary: faults, roles, couch, ring (R43, R61). -/
def controlPlane (s : State) : State :=
  let s := takeFaults (lateCycle (tickOverrun s))
  let (begun, s) := roles s
  let (couched, s) := if begun then (true, s) else boundaryCouch s
  let s := if couched then s else boundaryRing s
  announce (lpownNow (flushBoundary s))

/-- Everything of a boundary after its new tick number. -/
def boundary (raws : List (BitVec 16)) (s : State) : State :=
  let s := portRestarts (landFirst (settleReams s))
  if heldResetDue s then resetThread false s.md.heldReset (heldThread s) s
  else
    let wakes := s.md.wakeStep == 1
    let asked := s.md.laneReq
    let s := dispatchTop (together (fun s =>
      let s := controlPlane s
      timerTriggers (dormantEntry (dataPlane (if wakes then s.md.laneReq else asked) s))) s)
    let s := sluiceBoundary (feltBoundary (askReturn s))
    let s := fbTimeouts (keysBoundary raws s)
    let s := if s.md.mode = .dormant then s else persistEdit s
    sweepLeaves s

/-- TICK_BOUNDARY (R43): the raw counts of the key channels and the guard, and PARTNER_OK and LPOWN_IN as sampled. -/
def execTickBoundary (raws : List (BitVec 16)) (partnerOk lpownIn : Bool) (s : State) : Out :=
  if ticking s then okBoundary (boundary raws (samplePins partnerOk lpownIn (newTick s))) else ok s

/-! ## The sweep's return (R84, R246, R257) -/

/-- One of the 64 measurement sweeps is over; after the last one step 9 ends. -/
def measured (s : State) : State :=
  let s := { s with md.sweptBack := s.md.sweptBack + 1 }
  if s.md.sweptBack = 64 ∧ s.md.mode = .thread ∧ s.md.thStat = 9 then endStep9 s else s

/-- SWEEP_RETURN (R246): a bad one counts as lost, and so does one later than rtt_ns + 2.0 µs (R257). A measurement sweep
gives the return time, rounded up to 10 ns. -/
def execSweepReturn (f : FieldFrame) (rttNs : BitVec 16) (s : State) : Out :=
  ok (match s.fl.sweep with
    | none => s
    | some w =>
      if !knownFt f.ft.toNat then countFt s
      else
        let good := f.good && !w.bad && f.ft == 0x10
        if w.measure then
          measured (if good then
              takeSweep w rttNs.toNat { s with fl.rtt := max s.fl.rtt (ceilDiv rttNs.toNat 10 * 10) }
            else sweepFails s)
        else if good && decide (rttNs.toNat ≤ s.fl.rtt + 2000) then dispatchTop (lpownReturn (takeSweep w rttNs.toNat s))
        else sweepFails s)

/-- SWEEP_LOST (R257). -/
def execSweepLost (s : State) : Out :=
  ok (match s.fl.sweep with
    | none => s
    | some w => if w.measure then measured (sweepFails s) else sweepFails s)

end Sys2Proof.Machine
end

