-- ==== Sys2Proof/Machine/Dispatch.lean ====
section
/-! DEFINITION. What each command does: one meaning for each. -/

namespace Sys2Proof.Machine

/-- A command carried out on everything but the queue. -/
def exec (i : Instr) (s : State) : Host.Outcome State Fault Refusal :=
  match i with
  | .powerOnReset pins banks t => Sys2Proof.Machine.execPowerOnReset pins banks t s
  | .threadingComplete => Sys2Proof.Machine.execThreadingComplete s
  | .resetN ns t => Sys2Proof.Machine.execResetN ns t s
  | .vddIoFail => Sys2Proof.Machine.execVddIoFail s
  | .powerfailNFall low => Sys2Proof.Machine.execPowerfailNFall low s
  | .tickBoundary raws partnerOk lpownIn => Sys2Proof.Machine.execTickBoundary raws partnerOk lpownIn s
  | .cycleComplete e => Sys2Proof.Machine.execCycleComplete e s
  | .samplePoint => Sys2Proof.Machine.execSamplePoint s
  | .tickTaskDispatch => Sys2Proof.Machine.execTickTaskDispatch s
  | .eventTaskDispatch => Sys2Proof.Machine.execEventTaskDispatch s
  | .ld w md x => Sys2Proof.Machine.execLd w md x s
  | .ldp w md x => Sys2Proof.Machine.execLdp w md x s
  | .and w md x => Sys2Proof.Machine.execAnd w md x s
  | .or w md x => Sys2Proof.Machine.execOr w md x s
  | .xor w md x => Sys2Proof.Machine.execXor w md x s
  | .andp w => Sys2Proof.Machine.execAndp w s
  | .orp w => Sys2Proof.Machine.execOrp w s
  | .notl w => Sys2Proof.Machine.execNotl w s
  | .out w md x => Sys2Proof.Machine.execOut w md x s
  | .set w md x => Sys2Proof.Machine.execSet w md x s
  | .rst w md x => Sys2Proof.Machine.execRst w md x s
  | .pedg w x => Sys2Proof.Machine.execPedg w x s
  | .nedg w x => Sys2Proof.Machine.execNedg w x s
  | .ton w md x p => Sys2Proof.Machine.execTon w md x p s
  | .tof w md x p => Sys2Proof.Machine.execTof w md x p s
  | .tp w md x p => Sys2Proof.Machine.execTp w md x p s
  | .ctu w md x p => Sys2Proof.Machine.execCtu w md x p s
  | .ctd w md x p => Sys2Proof.Machine.execCtd w md x p s
  | .crst w md x => Sys2Proof.Machine.execCrst w md x s
  | .pre w md x => Sys2Proof.Machine.execPre w md x s
  | .lda w md x => Sys2Proof.Machine.execLda w md x s
  | .ldb w md x => Sys2Proof.Machine.execLdb w md x s
  | .sta w x => Sys2Proof.Machine.execSta w x s
  | .movc w x => Sys2Proof.Machine.execMovc w x s
  | .xab w => Sys2Proof.Machine.execXab w s
  | .add w md x => Sys2Proof.Machine.execAdd w md x s
  | .sub w md x => Sys2Proof.Machine.execSub w md x s
  | .mul w md x => Sys2Proof.Machine.execMul w md x s
  | .div w md x => Sys2Proof.Machine.execDiv w md x s
  | .andw w md x => Sys2Proof.Machine.execAndw w md x s
  | .orw w md x => Sys2Proof.Machine.execOrw w md x s
  | .xorw w md x => Sys2Proof.Machine.execXorw w md x s
  | .shl w md x => Sys2Proof.Machine.execShl w md x s
  | .shr w md x => Sys2Proof.Machine.execShr w md x s
  | .ceq w md x => Sys2Proof.Machine.execCeq w md x s
  | .cgt w md x => Sys2Proof.Machine.execCgt w md x s
  | .clt w md x => Sys2Proof.Machine.execClt w md x s
  | .cgtu w md x => Sys2Proof.Machine.execCgtu w md x s
  | .cltu w md x => Sys2Proof.Machine.execCltu w md x s
  | .jmp w x => Sys2Proof.Machine.execJmp w x s
  | .jc w md x => Sys2Proof.Machine.execJc w md x s
  | .lnxt w x => Sys2Proof.Machine.execLnxt w x s
  | .setl w x => Sys2Proof.Machine.execSetl w x s
  | .net w x => Sys2Proof.Machine.execNet w x s
  | .lock w => Sys2Proof.Machine.execLock w s
  | .ulk w => Sys2Proof.Machine.execUlk w s
  | .lit w x => Sys2Proof.Machine.execLit w x s
  | .qimm w md x => Sys2Proof.Machine.execQimm w md x s
  | .lev w x => Sys2Proof.Machine.execLev w x s
  | .levc w x => Sys2Proof.Machine.execLevc w x s
  | .lcw w x => Sys2Proof.Machine.execLcw w x s
  | .lcb w md x => Sys2Proof.Machine.execLcb w md x s
  | .outr w md x => Sys2Proof.Machine.execOutr w md x s
  | .movr w x => Sys2Proof.Machine.execMovr w x s
  | .msg w x => Sys2Proof.Machine.execMsg w x s
  | .fen w => Sys2Proof.Machine.execFen w s
  | .rfl w => Sys2Proof.Machine.execRfl w s
  | .modeRequest auth arg => Sys2Proof.Machine.execModeRequest auth arg s
  | .editStaged auth arg stageOff => Sys2Proof.Machine.execEditStaged auth arg stageOff s
  | .trialStart auth arg => Sys2Proof.Machine.execTrialStart auth arg s
  | .trialCommit auth arg => Sys2Proof.Machine.execTrialCommit auth arg s
  | .trialDiscard auth arg => Sys2Proof.Machine.execTrialDiscard auth arg s
  | .acceptAnyway auth arg => Sys2Proof.Machine.execAcceptAnyway auth arg s
  | .retainedStoreFlush => Sys2Proof.Machine.execRetainedStoreFlush s
  | .lanePwrWrite v => Sys2Proof.Machine.execLanePwrWrite v s
  | .laneDomainOn n => Sys2Proof.Machine.execLaneDomainOn n s
  | .closeFlush n => Sys2Proof.Machine.execCloseFlush n s
  | .dormantEntry => Sys2Proof.Machine.execDormantEntry s
  | .wake k => Sys2Proof.Machine.execWake k s
  | .wdSExpiry e => Sys2Proof.Machine.execWdSExpiry e s
  | .wdCExpiry e => Sys2Proof.Machine.execWdCExpiry e s
  | .wdxPulseEnd t => Sys2Proof.Machine.execWdxPulseEnd t s
  | .wakePoint decides e => Sys2Proof.Machine.execWakePoint decides e s
  | .wdMExpiry => Sys2Proof.Machine.execWdMExpiry s
  | .wdsSvcWrite v e => Sys2Proof.Machine.execWdsSvcWrite v e s
  | .wdPeriodWrite c v outside e => Sys2Proof.Machine.execWdPeriodWrite c v outside e s
  | .wdKeyWrite c v e => Sys2Proof.Machine.execWdKeyWrite c v e s
  | .wdLockWrite c v e => Sys2Proof.Machine.execWdLockWrite c v e s
  | .wdEnableWrite c v e => Sys2Proof.Machine.execWdEnableWrite c v e s
  | .partnerOkLow ns => Sys2Proof.Machine.execPartnerOkLow ns s
  | .fuseReread temp => Sys2Proof.Machine.execFuseReread temp s
  | .sweepAtBlock fb src => Sys2Proof.Machine.execSweepAtBlock fb src s
  | .carrierAtBlock fb own good => Sys2Proof.Machine.execCarrierAtBlock fb own good s
  | .urgentFrameAtBlock fb src => Sys2Proof.Machine.execUrgentFrameAtBlock fb src s
  | .enumerationFrame fb port hop good => Sys2Proof.Machine.execEnumerationFrame fb port hop good s
  | .probeFrame fb port good roundNs => Sys2Proof.Machine.execProbeFrame fb port good roundNs s
  | .registerReadFrame fb port off f => Sys2Proof.Machine.execRegisterReadFrame fb port off f s
  | .registerWriteFrame fb port off data f => Sys2Proof.Machine.execRegisterWriteFrame fb port off data f s
  | .setupFrame fb port align sel hold set good => Sys2Proof.Machine.execSetupFrame fb port align sel hold set good s
  | .reamWriteFrame fb port mask off data f => Sys2Proof.Machine.execReamWriteFrame fb port mask off data f s
  | .localBoundary fb => Sys2Proof.Machine.execLocalBoundary fb s
  | .safeValuesApplied fb => Sys2Proof.Machine.execSafeValuesApplied fb s
  | .bridgedSample fb levels stamp => Sys2Proof.Machine.execBridgedSample fb levels stamp s
  | .inputAccepted fb ch level heldNs stamp => Sys2Proof.Machine.execInputAccepted fb ch level heldNs stamp s
  | .directSupplyFail fb ch fails level => Sys2Proof.Machine.execDirectSupplyFail fb ch fails level s
  | .vfLow fb => Sys2Proof.Machine.execVfLow fb s
  | .vfGood fb => Sys2Proof.Machine.execVfGood fb s
  | .commandTimeout fb => Sys2Proof.Machine.execCommandTimeout fb s
  | .vlFail fb => Sys2Proof.Machine.execVlFail fb s
  | .blockPowerUp fb serial id vf => Sys2Proof.Machine.execBlockPowerUp fb serial id vf s
  | .thermalShutdown fb j => Sys2Proof.Machine.execThermalShutdown fb j s
  | .thermalRecovery fb j => Sys2Proof.Machine.execThermalRecovery fb j s
  | .openLoadOn fb j => Sys2Proof.Machine.execOpenLoadOn fb j s
  | .openLoadOff fb j => Sys2Proof.Machine.execOpenLoadOff fb j s
  | .turnRound fb port => Sys2Proof.Machine.execTurnRound fb port s
  | .sweepReturn f rttNs => Sys2Proof.Machine.execSweepReturn f rttNs s
  | .sweepLost => Sys2Proof.Machine.execSweepLost s
  | .carrierDeparture k => Sys2Proof.Machine.execCarrierDeparture k s
  | .carrierReturn f => Sys2Proof.Machine.execCarrierReturn f s
  | .urgentFrameSend e => Sys2Proof.Machine.execUrgentFrameSend e s
  | .urgentFrameReturn f => Sys2Proof.Machine.execUrgentFrameReturn f s
  | .feltLinkTrained => Sys2Proof.Machine.execFeltLinkTrained s
  | .feltSyncLoss lane => Sys2Proof.Machine.execFeltSyncLoss lane s
  | .heartbeat mode flags consistent gapRun arrive w => Sys2Proof.Machine.execHeartbeat mode flags consistent gapRun arrive w s
  | .heartbeatMissed => Sys2Proof.Machine.execHeartbeatMissed s
  | .acknowledge couch w => Sys2Proof.Machine.execAcknowledge couch w s
  | .fullRequest w => Sys2Proof.Machine.execFullRequest w s
  | .releaseReport count w => Sys2Proof.Machine.execReleaseReport count w s
  | .editReport id digest w => Sys2Proof.Machine.execEditReport id digest w s
  | .wakeFrame causes w => Sys2Proof.Machine.execWakeFrame causes w s
  | .negotiationFrame p w => Sys2Proof.Machine.execNegotiationFrame p w s
  | .probe id w => Sys2Proof.Machine.execProbe id w s
  | .echo id turn roundE w => Sys2Proof.Machine.execEcho id turn roundE w s
  | .copyReceived a b bubble => Sys2Proof.Machine.execCopyReceived a b bubble s
  | .frameReceived e raw => Sys2Proof.Machine.execFrameReceived e raw s
  | .gapExpiry g => Sys2Proof.Machine.execGapExpiry g s
  | .ibtoExpiry e => Sys2Proof.Machine.execIbtoExpiry e s
  | .ackReceived e => Sys2Proof.Machine.execAckReceived e s
  | .nakReceived e => Sys2Proof.Machine.execNakReceived e s
  | .replyDeadline e => Sys2Proof.Machine.execReplyDeadline e s
  | .poll e status => Sys2Proof.Machine.execPoll e status s
  | .usbAttach h cls vidpid addr speed secondTier => Sys2Proof.Machine.execUsbAttach h cls vidpid addr speed secondTier s
  | .usbDetach e => Sys2Proof.Machine.execUsbDetach e s
  | .usbOvercurrent h => Sys2Proof.Machine.execUsbOvercurrent h s
  | .canBusOff c => Sys2Proof.Machine.execCanBusOff c s
  | .packetAccepted slot q bytes dei data => Sys2Proof.Machine.execPacketAccepted slot q bytes dei data s
  | .ingressNoBuffer slot => Sys2Proof.Machine.execIngressNoBuffer slot s
  | .selectionComplete p => Sys2Proof.Machine.execSelectionComplete p s
  | .commit p => Sys2Proof.Machine.execCommit p s
  | .packetCancel q session seq => Sys2Proof.Machine.execPacketCancel q session seq s
  | .mirrorWrite a mask v => Sys2Proof.Machine.execMirrorWrite a mask v s
  | .ethFrame f => Sys2Proof.Machine.execEthFrame f s
  | .reassemblyTimeout key => Sys2Proof.Machine.execReassemblyTimeout key s
  | .klpOpen d => Sys2Proof.Machine.execOpen d s
  | .klpClose d => Sys2Proof.Machine.execKlpClose d s
  | .ackOnly d => Sys2Proof.Machine.execAckOnly d s
  | .cancel d => Sys2Proof.Machine.execCancel d s
  | .klpWake d => Sys2Proof.Machine.execKlpWake d s
  | .bag d => Sys2Proof.Machine.execBag d s
  | .price d => Sys2Proof.Machine.execPrice d s
  | .tare d => Sys2Proof.Machine.execTare d s
  | .zero d => Sys2Proof.Machine.execZero d s
  | .ldisp d => Sys2Proof.Machine.execLdisp d s
  | .display d => Sys2Proof.Machine.execDisplay d s
  | .print d => Sys2Proof.Machine.execPrint d s
  | .drawer d => Sys2Proof.Machine.execDrawer d s
  | .light d => Sys2Proof.Machine.execLight d s
  | .belt d => Sys2Proof.Machine.execBelt d s
  | .retransmit k => Sys2Proof.Machine.execRetransmit k s
  | .ackDelayExpiry k => Sys2Proof.Machine.execAckDelayExpiry k s
  | .sessionIdle k => Sys2Proof.Machine.execSessionIdle k s
  | .hello h b tail => Sys2Proof.Machine.execHello h b tail s
  | .hmpSessionIdle session => Sys2Proof.Machine.execHmpSessionIdle session s
  | .hmpIdent r => Sys2Proof.Machine.execHmpIdent r s
  | .bootReport r => Sys2Proof.Machine.execBootReport r s
  | .hmpClose r => Sys2Proof.Machine.execHmpClose r s
  | .hmpPeek r a count e => Sys2Proof.Machine.execHmpPeek r a count e s
  | .hmpReadEffect r a e => Sys2Proof.Machine.execHmpReadEffect r a e s
  | .hmpPoke r a mask v e => Sys2Proof.Machine.execHmpPoke r a mask v e s
  | .hmpMode r target clear => Sys2Proof.Machine.execHmpMode r target clear s
  | .hmpReset r t => Sys2Proof.Machine.execHmpReset r t s
  | .hmpEditRing r kind arg stageOff => Sys2Proof.Machine.execHmpEditRing r kind arg stageOff s
  | .shadowWrite r off data => Sys2Proof.Machine.execShadowWrite r off data s
  | .slotBegin r area len hold => Sys2Proof.Machine.execSlotBegin r area len hold s
  | .slotChunk r area off data => Sys2Proof.Machine.execSlotChunk r area off data s
  | .slotCommit r area => Sys2Proof.Machine.execSlotCommit r area s
  | .slotAbort r area => Sys2Proof.Machine.execSlotAbort r area s
  | .evlogRead r from' count => Sys2Proof.Machine.execEvlogRead r from' count s
  | .hmpAuditRead r from' => Sys2Proof.Machine.execHmpAuditRead r from' s
  | .keyWrite r sector mask hmpId hmpKey klpId klpKey => Sys2Proof.Machine.execKeyWrite r sector mask hmpId hmpKey klpId klpKey s
  | .fuseCustkey r hash tight => Sys2Proof.Machine.execFuseCustkey r hash tight s
  | .fuseDebuglock r tight => Sys2Proof.Machine.execFuseDebuglock r tight s
  | .bulkOpen r => Sys2Proof.Machine.execBulkOpen r s
  | .extest scan t => Sys2Proof.Machine.execExtest scan t s
  | .samplePreload scan => Sys2Proof.Machine.execSamplePreload scan s
  | .idcode => Sys2Proof.Machine.execIdcode s
  | .bypass scan => Sys2Proof.Machine.execBypass scan s
  | .dbgauth pos key sig => Sys2Proof.Machine.execDbgauth pos key sig s
  | .dbgacc cmd arg data e t => Sys2Proof.Machine.execDbgacc cmd arg data e t s
  | .dapPeek a e => Sys2Proof.Machine.execDapPeek a e s
  | .dapReadEffect a data e => Sys2Proof.Machine.execDapReadEffect a data e s
  | .setMask data => Sys2Proof.Machine.execSetMask data s
  | .dapPoke a data e => Sys2Proof.Machine.execDapPoke a data e s
  | .halt arg => Sys2Proof.Machine.execHalt arg s
  | .haltEffect k => Sys2Proof.Machine.execHaltEffect k s
  | .resume arg => Sys2Proof.Machine.execResume arg s
  | .step arg => Sys2Proof.Machine.execStep arg s
  | .bpSet arg data => Sys2Proof.Machine.execBpSet arg data s
  | .wpSet arg data => Sys2Proof.Machine.execWpSet arg data s
  | .wpValue arg data => Sys2Proof.Machine.execWpValue arg data s
  | .wdSvc arg e => Sys2Proof.Machine.execWdSvc arg e s
  | .dbgReset arg t => Sys2Proof.Machine.execDbgReset arg t s
  | .tickNowLoRead => Sys2Proof.Machine.execTickNowLoRead s
  | .rtcSecRead => Sys2Proof.Machine.execRtcSecRead s
  | .rtcLoad => Sys2Proof.Machine.execRtcLoad s
  | .alarmFire n => Sys2Proof.Machine.execAlarmFire n s
  | .almStatClear v => Sys2Proof.Machine.execAlmStatClear v s
  | .bkCtlClear v => Sys2Proof.Machine.execBkCtlClear v s
  | .compensationPeriod => Sys2Proof.Machine.execCompensationPeriod s
  | .sensorRead theta => Sys2Proof.Machine.execSensorRead theta s
  | .sntpPoll option42 => Sys2Proof.Machine.execSntpPoll option42 s
  | .sntpReply r => Sys2Proof.Machine.execSntpReply r s
  | .vbakCheck low => Sys2Proof.Machine.execVbakCheck low s
  | .logRateSecond => Sys2Proof.Machine.execLogRateSecond s
  | .rstCauseClear v => Sys2Proof.Machine.execRstCauseClear v s
  | .wakeCauseClear v => Sys2Proof.Machine.execWakeCauseClear v s
  | .portCtlRestart e => Sys2Proof.Machine.execPortCtlRestart e s
  | .laneCtlWrite n on => Sys2Proof.Machine.execLaneCtlWrite n on s
  | .cvForget u => Sys2Proof.Machine.execCvForget u s
  | .reamStatClear r w v => Sys2Proof.Machine.execReamStatClear r w v s
  | .imageWrite a mask v => Sys2Proof.Machine.execImageWrite a mask v s
  | .reamWindowWrite r off mask v => Sys2Proof.Machine.execReamWindowWrite r off mask v s
  | .reamWindowRead r off silent => Sys2Proof.Machine.execReamWindowRead r off silent s
  | .fieldBlockViewAccess fb off write v good => Sys2Proof.Machine.execFieldBlockViewAccess fb off write v good s
  | .registerWrite a mask v e => Sys2Proof.Machine.execRegisterWrite a mask v e s
  | .vmPowerGood selfTestFails => Sys2Proof.Machine.execVmPowerGood selfTestFails s
  | .identDisplayEnd => Sys2Proof.Machine.execIdentDisplayEnd s
  | .calNAsserted => Sys2Proof.Machine.execCalNAsserted s
  | .calNReleased flashFails => Sys2Proof.Machine.execCalNReleased flashFails s
  | .faultCause cause => Sys2Proof.Machine.execFaultCause cause s
  | .recordInstant x => Sys2Proof.Machine.execRecordInstant x s
  | .telegram p raw off => Sys2Proof.Machine.execTelegram p raw off s
  | .unitPrice off => Sys2Proof.Machine.execUnitPrice off s
  | .tareRequest off => Sys2Proof.Machine.execTareRequest off s
  | .zeroRequest off => Sys2Proof.Machine.execZeroRequest off s
  | .displayContentRequest off => Sys2Proof.Machine.execDisplayContentRequest off s
  | .stabilityWaitEnd n => Sys2Proof.Machine.execStabilityWaitEnd n s
  | .legalFirmwareChunk offset total data => Sys2Proof.Machine.execLegalFirmwareChunk offset total data s
  | .pairOfferImport => Sys2Proof.Machine.execPairOfferImport s
  | .pairStateImport => Sys2Proof.Machine.execPairStateImport s
  | .legalStatusSend => Sys2Proof.Machine.execLegalStatusSend s
  | .upwardPost => Sys2Proof.Machine.execUpwardPost s
  | .weightRecord => Sys2Proof.Machine.execWeightRecord s
  | .legalStatus => Sys2Proof.Machine.execLegalStatus s
  | .auditExtract => Sys2Proof.Machine.execAuditExtract s
  | .svcIdent => Sys2Proof.Machine.execSvcIdent s
  | .svcAuditRead from' => Sys2Proof.Machine.execSvcAuditRead from' s
  | .paramRead id => Sys2Proof.Machine.execParamRead id s
  | .paramWrite id v => Sys2Proof.Machine.execParamWrite id v s
  | .calZero c => Sys2Proof.Machine.execCalZero c s
  | .calSpan c load => Sys2Proof.Machine.execCalSpan c load s
  | .svcSeal id => Sys2Proof.Machine.execSeal id s
  | .discard => Sys2Proof.Machine.execDiscard s
  | .verifyRec bs => Sys2Proof.Machine.execVerifyRec bs s
  | .fwConfirm => Sys2Proof.Machine.execFwConfirm s
  | .bagTimeout n => Sys2Proof.Machine.execBagTimeout n s
  | .keyStuck k => Sys2Proof.Machine.execKeyStuck k s
  | .baselineStep k => Sys2Proof.Machine.execBaselineStep k s
  | .powerGoodLoss => Sys2Proof.Machine.execPowerGoodLoss s
  | .vmBrownOut => Sys2Proof.Machine.execVmBrownOut s
  | .backupDomainReset => Sys2Proof.Machine.execBackupDomainReset s
  | .calendarWrap => Sys2Proof.Machine.execCalendarWrap s
  | .canBusOffRecovery c => Sys2Proof.Machine.execCanBusOffRecovery c s
  | .byteReceived e data bad => Sys2Proof.Machine.execByteReceived e data bad s
  | .ctsChange e active => Sys2Proof.Machine.execCtsChange e active s
  | .feltCopyEnd e => Sys2Proof.Machine.execFeltCopyEnd e s
  | .awaySideCodeGroups fb port => Sys2Proof.Machine.execAwaySideCodeGroups fb port s
  | .firstValidCodeGroup fb => Sys2Proof.Machine.execFirstValidCodeGroup fb s

end Sys2Proof.Machine
end

