-- ==== Sys2Proof/WellFormed.lean ====
section
/-! DEFINITION. Which operands a command can carry: the lengths and ranges that the manual's own tables give to the
values which `Instr` holds as lists and numbers. `exec` is defined on every operand; outside these ranges its answer
says nothing of the part. -/

namespace Sys2Proof

/-- What tail threading finds: 17 mean counts and at most 16 probe times (R84, R462). -/
def thrOk (t : Thr) : Bool := t.means.length == 17 && decide (t.probes.length ≤ 16)

/-- A negotiation part carries eight serial numbers (Table 9.3). -/
def negoOk : NegoPart → Bool
  | .identity _ _ _ _ _ => true
  | .cfg _ => true
  | .prog _ => true
  | .low serials => serials.length == 8
  | .high serials => serials.length == 8

/-- A burst is at most a header, a body and a CRC-32 (Table 9.4). -/
def burstOk (b : Option (List Byte)) : Bool :=
  match b with | some bs => decide (bs.length ≤ 64 + 65536 + 644 + 4) | none => true

/-- A KLP datagram fits the UDP datagram that carries it (R312). -/
def dgramOk (d : KlpDgram) : Bool := decide (d.udp.length ≤ 65507)

/-- A KLP datagram of this message type (Table 14.3). -/
def dgramIs (typ : Byte) (d : KlpDgram) : Bool := dgramOk d && d.udp[3]? == some typ

/-- A frame received on an uplink. -/
def frameOk (f : EthFrame) : Bool :=
  decide (f.len < 2 ^ 16) && (match f.klp with | some d => dgramOk d | none => true)

/-- A command's operands lie in the ranges of the manual's tables. -/
def wellFormed (i : Instr) : Bool :=
  match i with
  | .powerOnReset _ banks t => thrOk t && banks.length == 5 && banks.all fun v => decide (1620 ≤ v.toNat)
  | .resetN _ t => thrOk t
  | .tickBoundary raws _ _ => raws.length == 17
  | .wdxPulseEnd t => thrOk t
  | .enumerationFrame _ _ hop _ => decide (hop < 256)
  | .probeFrame _ _ _ roundNs => decide (roundNs < 2 ^ 32)
  | .setupFrame _ _ _ _ _ set _ => set.length == 80
  | .negotiationFrame p _ => negoOk p
  | .copyReceived a b _ => burstOk a && burstOk b
  | .packetAccepted _ _ bytes _ data => decide (1 ≤ bytes ∧ bytes ≤ 2048 ∧ data.length ≤ bytes)
  | .ethFrame f => frameOk f
  | .klpOpen d => dgramIs 0x01 d
  | .klpClose d => dgramIs 0x02 d
  | .ackOnly d => dgramOk d && (d.udp[5]?.getD 0).getLsbD 1
  | .cancel d => dgramIs 0x05 d
  | .klpWake d => dgramIs 0x06 d
  | .bag d => dgramIs 0x14 d
  | .price d => dgramIs 0x20 d
  | .tare d => dgramIs 0x21 d
  | .zero d => dgramIs 0x22 d
  | .ldisp d => dgramIs 0x23 d
  | .display d => dgramIs 0x24 d
  | .print d => dgramIs 0x25 d
  | .drawer d => dgramIs 0x26 d
  | .light d => dgramIs 0x27 d
  | .belt d => dgramIs 0x28 d
  | .hmpReset _ t => thrOk t
  | .extest _ t => thrOk t
  | .dbgacc _ _ _ _ t => thrOk t
  | .dbgReset _ t => thrOk t
  | .reamWindowWrite _ off _ _ => decide (off < 2 ^ 23)
  | .reamWindowRead _ off _ => decide (off < 2 ^ 23)
  | .threadingComplete .. | .vddIoFail .. | .powerfailNFall .. | .cycleComplete .. | .samplePoint ..
  | .tickTaskDispatch .. | .eventTaskDispatch .. | .ld .. | .ldp .. | .and .. | .or .. | .xor .. | .andp ..
  | .orp .. | .notl .. | .out .. | .set .. | .rst .. | .pedg .. | .nedg .. | .ton .. | .tof .. | .tp ..
  | .ctu .. | .ctd .. | .crst .. | .pre .. | .lda .. | .ldb .. | .sta .. | .movc .. | .xab .. | .add ..
  | .sub .. | .mul .. | .div .. | .andw .. | .orw .. | .xorw .. | .shl .. | .shr .. | .ceq .. | .cgt ..
  | .clt .. | .cgtu .. | .cltu .. | .jmp .. | .jc .. | .lnxt .. | .setl .. | .net .. | .lock .. | .ulk ..
  | .lit .. | .qimm .. | .lev .. | .levc .. | .lcw .. | .lcb .. | .outr .. | .movr .. | .msg .. | .fen ..
  | .rfl .. | .modeRequest .. | .editStaged .. | .trialStart .. | .trialCommit .. | .trialDiscard ..
  | .acceptAnyway .. | .retainedStoreFlush .. | .lanePwrWrite .. | .laneDomainOn .. | .closeFlush ..
  | .dormantEntry .. | .wake .. | .wdSExpiry .. | .wdCExpiry .. | .wakePoint .. | .wdMExpiry ..
  | .wdsSvcWrite .. | .wdPeriodWrite .. | .wdKeyWrite .. | .wdLockWrite .. | .wdEnableWrite ..
  | .partnerOkLow .. | .fuseReread .. | .sweepAtBlock .. | .carrierAtBlock .. | .urgentFrameAtBlock ..
  | .registerReadFrame .. | .registerWriteFrame .. | .reamWriteFrame .. | .localBoundary ..
  | .safeValuesApplied .. | .bridgedSample .. | .inputAccepted .. | .directSupplyFail .. | .vfLow ..
  | .vfGood .. | .commandTimeout .. | .vlFail .. | .blockPowerUp .. | .thermalShutdown .. | .thermalRecovery ..
  | .openLoadOn .. | .openLoadOff .. | .turnRound .. | .sweepReturn .. | .sweepLost .. | .carrierDeparture ..
  | .carrierReturn .. | .urgentFrameSend .. | .urgentFrameReturn .. | .feltLinkTrained .. | .feltSyncLoss ..
  | .heartbeat .. | .heartbeatMissed .. | .acknowledge .. | .fullRequest .. | .releaseReport ..
  | .editReport .. | .wakeFrame .. | .probe .. | .echo .. | .gapExpiry .. | .ibtoExpiry .. | .ackReceived ..
  | .nakReceived .. | .replyDeadline .. | .poll .. | .usbAttach .. | .usbDetach .. | .usbOvercurrent ..
  | .canBusOff .. | .ingressNoBuffer .. | .selectionComplete .. | .commit .. | .packetCancel ..
  | .mirrorWrite .. | .reassemblyTimeout .. | .retransmit .. | .ackDelayExpiry .. | .sessionIdle .. | .hello ..
  | .hmpSessionIdle .. | .hmpIdent .. | .bootReport .. | .hmpClose .. | .hmpPeek .. | .hmpReadEffect ..
  | .hmpPoke .. | .hmpMode .. | .hmpEditRing .. | .shadowWrite .. | .slotBegin .. | .slotChunk ..
  | .slotCommit .. | .slotAbort .. | .evlogRead .. | .hmpAuditRead .. | .keyWrite .. | .fuseCustkey ..
  | .fuseDebuglock .. | .bulkOpen .. | .samplePreload .. | .idcode .. | .bypass .. | .dbgauth .. | .dapPeek ..
  | .dapReadEffect .. | .setMask .. | .dapPoke .. | .halt .. | .haltEffect .. | .resume .. | .step ..
  | .bpSet .. | .wpSet .. | .wpValue .. | .wdSvc .. | .tickNowLoRead .. | .rtcSecRead .. | .rtcLoad ..
  | .alarmFire .. | .almStatClear .. | .bkCtlClear .. | .compensationPeriod .. | .sensorRead .. | .sntpPoll ..
  | .sntpReply .. | .vbakCheck .. | .logRateSecond .. | .rstCauseClear .. | .wakeCauseClear ..
  | .portCtlRestart .. | .laneCtlWrite .. | .cvForget .. | .reamStatClear .. | .imageWrite ..
  | .fieldBlockViewAccess .. | .registerWrite .. | .vmPowerGood .. | .identDisplayEnd .. | .calNAsserted ..
  | .calNReleased .. | .faultCause .. | .recordInstant .. | .unitPrice .. | .tareRequest .. | .zeroRequest ..
  | .displayContentRequest .. | .stabilityWaitEnd .. | .legalFirmwareChunk .. | .pairOfferImport ..
  | .pairStateImport .. | .legalStatusSend .. | .upwardPost .. | .weightRecord .. | .legalStatus ..
  | .auditExtract .. | .svcIdent .. | .svcAuditRead .. | .paramRead .. | .paramWrite .. | .calZero ..
  | .calSpan .. | .svcSeal .. | .discard .. | .verifyRec .. | .fwConfirm .. | .bagTimeout .. | .keyStuck ..
  | .baselineStep .. | .powerGoodLoss .. | .vmBrownOut .. | .backupDomainReset .. | .calendarWrap ..
  | .canBusOffRecovery .. | .byteReceived .. | .ctsChange .. | .feltCopyEnd .. | .awaySideCodeGroups ..
  | .firstValidCodeGroup .. | .frameReceived .. | .telegram .. => true

end Sys2Proof
end

