-- ==== Sys2Proof/Safety.lean ====
section
/-! DEFINITION. What the statements speak of: a state between commands, and a program word that a pipe takes. -/

namespace Sys2Proof.Machine

/-- Nothing raised is left undelivered, and at most 16 EVENTs wait for KLP (R528, R529). -/
def Settled (s : State) : Prop := s.evt.batch = [] ∧ s.evt.sysOut = [] ∧ s.evt.klpHeld.length ≤ 16

/-- Nothing raised is left undelivered, and no EVENT waits for KLP. -/
def Calm (s : State) : Prop := s.evt.batch = [] ∧ s.evt.sysOut = [] ∧ s.evt.klpHeld = []

/-- Context `c` takes this word now: it is the one that pipe `w` executes, nothing halts it, the word passes its parity
and is one that the checks let pass (R156), and a network is open. -/
def Takes (w : Who) (op md x : Nat) (c : Cx) (s : State) : Prop :=
  pickCx w s = some c ∧ haltBefore c s (pcOf c s) = none ∧ corrupt c (pcOf c s) (mkWord op md x) s = false ∧
    (runOf c s).opened = true

/-- Context `c` goes on from state `t` after a word at `pc`: the next word lies `d` further, the literal byte of LIT is
used up, and at its end the network ends. -/
def wordDone (c : Cx) (pc : Nat) (d : Int) (t : State) : State :=
  let r := runOf c t
  afterWord c (setRun c { r with regs := { r.regs with pc := ((pc : Int) + d).toNat, lit := none } } t)

/-- A frame of `port` reaches block `fb`, which is powered and has a position on that port (R241, R252). -/
def Meets (fb port : Nat) (s : State) : Prop :=
  (block fb s).powered = true ∧ reached port fb s = true ∧ ((block fb s).pos port).isSome = true

/-- The commands that are program words (07_instruction_set). -/
def isWord : Instr → Bool
  | .ld .. | .ldp .. | .and .. | .or .. | .xor .. | .andp .. | .orp .. | .notl .. | .out .. | .set .. | .rst ..
  | .pedg .. | .nedg .. | .ton .. | .tof .. | .tp .. | .ctu .. | .ctd .. | .crst .. | .pre .. | .lda .. | .ldb ..
  | .sta .. | .movc .. | .xab .. | .add .. | .sub .. | .mul .. | .div .. | .andw .. | .orw .. | .xorw .. | .shl ..
  | .shr .. | .ceq .. | .cgt .. | .clt .. | .cgtu .. | .cltu .. | .jmp .. | .jc .. | .lnxt .. | .setl .. | .net ..
  | .lock .. | .ulk .. | .lit .. | .qimm .. | .lev .. | .levc .. | .lcw .. | .lcb .. | .outr .. | .movr .. | .msg ..
  | .fen .. | .rfl .. => true
  | _ => false

/-- A short frame of the felt link that its command is for, whole and on a link in use (R192, R193). -/
def Arrives (typ : Nat) (w : FeltWire) (payload : List Byte) (s : State) : Prop :=
  feltOn s = true ∧ frameGood w payload = true ∧ w.ftype.toNat = typ

/-- The partner is no longer silent, and its tick is known. -/
def feltHeard (w : FeltWire) (s : State) : State := { s with felt.silence := 0, felt.partnerNow := w.tick.toNat }

/-- Session `i` after the tick and the ack of a datagram that names it. -/
def heard (i : Nat) (d : KlpDgram) (s : State) : State :=
  takeAck i d.ack (modSess i (fun x => { x with lastRx := s.clk.tick }) s)

/-- A host's datagram that passes R313 for the open session `i`, of message type `typ`. -/
def Passes (typ : Nat) (d : KlpDgram) (i : Nat) (s : State) : Prop :=
  d.typ = typ ∧ d.uplink.val = klpPort s ∧ servesAddr s d.v6 d.dst.toNat = true ∧ headerCheck d = 0 ∧ d.crcOk = true ∧
    sessionFor s d = some i ∧ tagFits s d (some (tget {} s.klp.sess i)) = true

/-- Such a datagram that is the session's next message, nothing else being held and the KLP store having room (R316). -/
def NextMessage (typ : Nat) (d : KlpDgram) (i : Nat) (s : State) : Prop :=
  Passes typ d i s ∧ d.ackOnly = false ∧ d.seq = (tget {} s.klp.sess i).rxNext ∧
    (tget {} s.klp.sess i).held = [] ∧ storeUsed (heard i d s) + d.payload.length ≤ 524288

/-- The state in which such a message is delivered: the session expects the one after it. -/
def delivered (i : Nat) (d : KlpDgram) (s : State) : State :=
  modSess i (fun x => { x with rxNext := (x.rxNext + 1) % 2 ^ 32 }) (heard i d s)

/-- A host's message as the unit holds it. -/
def msgOf (typ : Nat) (d : KlpDgram) : HostMsg := { seq := d.seq, typ := typ, sub := d.sub, data := d.payload }

/-- The packet of a host's message, with its cancel tag. -/
def hostPkt (typ lane : Nat) (d : KlpDgram) (num : Nat) : Pkt :=
  { bytes := max 1 d.payload.length, lane := lane, typ := typ, tag := some (num, d.seq), data := d.payload }

/-- A request over UDP with this op and these arguments that passes every check of R398, R400 and R402, and is new. -/
def Asks (r : HReq) (opn : Nat) (args : List Byte) (x : HSess) (s : State) : Prop :=
  servesHmp r.hd false s = true ∧ s.boot.recovery = false ∧ r.bulk = false ∧ r.hd.kind = 3 ∧
    hdrGood r.hd false false (r.body opn args) r.tail = true ∧ r.sealed x (r.body opn args) = true ∧ r.formed = true ∧
    hSess s r.hd.session.toNat = some x ∧ x.top < r.hd.counter.toNat ∧ ∀ k ∈ x.kept, k.req ≠ r.reqId.toNat

/-- The state in which its op runs: the session has the counter as its highest and this tick as its last. -/
def asked (r : HReq) (x : HSess) (s : State) : State :=
  modHSess x.num (fun _ => { x with
    top := r.hd.counter.toNat, seen := (x.top :: x.seen).filter fun y => decide (r.hd.counter.toNat ≤ y + 64),
    idle := s.clk.tick }) s

/-- The debug port takes a command now (R466, R469, R470). -/
def DapFree (s : State) : Prop :=
  tapOn s = true ∧ s.dbg.extest = false ∧ dbgLocked s = false ∧ s.dbg.busy = false

/-- The state in which the command runs. -/
def dapBegun (arg : Word) (s : State) : State :=
  { scanIsland {} { s with dbg.tapIr := 0x11 } with
    dbg.busy := true, dbg.status := 1, dbg.arg := arg.toNat, dbg.result := 0 }

end Sys2Proof.Machine
end

