-- ==== Sys2Proof/Certificates/Slice0/Obligations.lean ====
section
/-! DEFINITION. The statements about the block: one definition for each, with the rules of the manual that it follows. -/

open Sys2Proof Sys2Proof.Machine

/-- A step takes the command at the front of the queue and carries it out on the state with the queue's rest. -/
def Obligations.StepRunsFront : Prop :=
  ∀ (c : Instr) (rest : List Instr) (s : State), s.pending = c :: rest → step s = exec c { s with pending := rest }

/-- With no command waiting a step is one cycle of the crystal (DESIGN CHOICE, log entry 2): nothing but the backup
domain, its registers' events and what the events' delivery changes is touched. -/
def Obligations.IdleStep : Prop :=
  ∀ s : State, s.pending = [] → ∃ t, step s = .next t ∧ t.pending = [] ∧ t.clk = s.clk ∧ t.ring = s.ring ∧
    t.exe = s.exe ∧ t.trial = s.trial ∧ t.boot = s.boot ∧ t.img = s.img ∧ t.fl = s.fl ∧ t.engs = s.engs ∧
    t.isl = s.isl ∧ t.keys = s.keys ∧ t.wd = s.wd

/-- Every command, with whatever operands and in whatever state, completes, and leaves no event undelivered.
That a command which cannot occur changes nothing is log entry 4. -/
def Obligations.EveryCommandSettles : Prop :=
  ∀ (c : Instr) (s : State), ∃ t, exec c s = .next t ∧ Settled t

/-- Every step keeps the events settled: none raised and undelivered, at most 16 EVENTs held for KLP (R528). -/
def Obligations.StepKeepsSettled : Prop :=
  ∀ s t : State, Settled s → step s = .next t → Settled t

/-- The events are settled at reset. -/
def Obligations.ResetSettled : Prop := Settled State.reset

/-- The events of one moment are delivered in ascending code order, those of one code in the order raised, and none is
lost or doubled. -/
def Obligations.DeliveryOrder : Prop :=
  ∀ l : List LogEntry, (sortByCode l).Pairwise (fun a b => a.code ≤ b.code) ∧ (sortByCode l).Perm l ∧
    ∀ n, (sortByCode l).filter (fun e => e.code == n) = l.filter fun e => e.code == n

/-- The log takes an entry at the next sequence number, in the place that number modulo 4 096 gives, and keeps every
other place; past 100 entries in a log second it counts the entry as lost and writes nothing.
The place in the ring is the model's reading: log entry 32. -/
def Obligations.LogAppends : Prop :=
  ∀ (e : LogEntry) (s : State),
    let q := (s.ret.evtSeq + 1) % 2 ^ 32
    (s.evt.secCount < 100 → (appendLog e s).ret.evtSeq = q ∧
      tget {} (appendLog e s).ret.log (q % 4096) = { e with seq := q } ∧
      (∀ k, k ≠ q % 4096 → tget {} (appendLog e s).ret.log k = tget {} s.ret.log k) ∧
      (appendLog e s).evt.secCount = s.evt.secCount + 1) ∧
    (100 ≤ s.evt.secCount → (appendLog e s).ret = s.ret ∧ (appendLog e s).evt.secLost = s.evt.secLost + 1)

/-- A class F event ends threading at once in HOLD/F; in any other mode it is a fault of the next boundary, which keeps
the mode until then. Events of the other classes change no mode.
That fault_evt keeps the first code is log entry 41. -/
def Obligations.FaultEvents : Prop :=
  ∀ (code arg : Nat) (s : State),
    (classOf code = 0x46 → s.md.mode = .thread → (raise code arg s).md.mode = .hold ∧ (raise code arg s).md.fault = true ∧
      (s.md.fault = false → (raise code arg s).md.faultEvt = code) ∧ (raise code arg s).exe.inCycle = false) ∧
    (classOf code = 0x46 → s.md.mode ≠ .thread → (raise code arg s).md = { s.md with pendF := s.md.pendF ++ [code] }) ∧
    (classOf code ≠ 0x46 → (raise code arg s).md = s.md)

/-- Bit logic (R143): where a pipe takes the word, LA and the stack become what Table 7.5 gives for b′, and the bit
written is the one named. -/
def Obligations.BitInstructions : Prop :=
  ∀ (w : Who) (md : BitVec 2) (x : BitVec 24) (c : Cx) (s : State),
    let pc := pcOf c s
    let b := (bitOperand c md.toNat x.toNat s).1
    let u := (bitOperand c md.toNat x.toNat s).2
    let g := regsOf c u
    let h := regsOf c s
    let k := kindOf (xReg x.toNat)
    let i := resolveIdx (xReg x.toNat) (xOff x.toNat) h.l
    let la := if md = 1 then !h.la else h.la
    let m := (getBit c 2 i s).1
    let v := (getBit c 2 i s).2
    (Takes w 0x01 md.toNat x.toNat c s →
      exec (.ld w md x) s = .next (settle (wordDone c pc 1 (setRegs c { g with la := b } u)))) ∧
    (Takes w 0x02 md.toNat x.toNat c s →
      exec (.ldp w md x) s = .next (settle (wordDone c pc 1 (setRegs c { g with la := b, stack := g.la :: g.stack } u)))) ∧
    (Takes w 0x03 md.toNat x.toNat c s →
      exec (.and w md x) s = .next (settle (wordDone c pc 1 (setRegs c { g with la := g.la && b } u)))) ∧
    (Takes w 0x04 md.toNat x.toNat c s →
      exec (.or w md x) s = .next (settle (wordDone c pc 1 (setRegs c { g with la := g.la || b } u)))) ∧
    (Takes w 0x05 md.toNat x.toNat c s →
      exec (.xor w md x) s = .next (settle (wordDone c pc 1 (setRegs c { g with la := g.la != b } u)))) ∧
    (Takes w 0x06 0 0 c s → ∀ p ps, h.stack = p :: ps →
      exec (.andp w) s = .next (settle (wordDone c pc 1 (setRegs c { h with la := p && h.la, stack := ps } s)))) ∧
    (Takes w 0x07 0 0 c s → ∀ p ps, h.stack = p :: ps →
      exec (.orp w) s = .next (settle (wordDone c pc 1 (setRegs c { h with la := p || h.la, stack := ps } s)))) ∧
    (Takes w 0x08 0 0 c s →
      exec (.notl w) s = .next (settle (wordDone c pc 1 (setRegs c { h with la := !h.la } s)))) ∧
    (Takes w 0x09 md.toNat x.toNat c s →
      exec (.out w md x) s = .next (settle (wordDone c pc 1 (putBit c k i la s)))) ∧
    (Takes w 0x0A md.toNat x.toNat c s →
      exec (.set w md x) s = .next (settle (wordDone c pc 1 (if la then putBit c k i true s else noteWrite c k i s)))) ∧
    (Takes w 0x0B md.toNat x.toNat c s →
      exec (.rst w md x) s = .next (settle (wordDone c pc 1 (if la then putBit c k i false s else noteWrite c k i s)))) ∧
    (Takes w 0x0C 0 x.toNat c s →
      exec (.pedg w x) s = .next (settle (wordDone c pc 1
        (putBit c 2 i (regsOf c v).la (setRegs c { regsOf c v with la := (regsOf c v).la && !m } v))))) ∧
    (Takes w 0x0D 0 x.toNat c s →
      exec (.nedg w x) s = .next (settle (wordDone c pc 1
        (putBit c 2 i (regsOf c v).la (setRegs c { regsOf c v with la := !(regsOf c v).la && m } v)))))

/-- b′ under the four modifiers (Table 7.3, R139): the bit, its inverse, and its edges against the last couched sheet,
which an I bit has none of in a cycle without I edges. -/
def Obligations.BitOperandForms : Prop :=
  ∀ (c : Cx) (x : Nat) (s : State),
    let k := kindOf (xReg x)
    let i := resolveIdx (xReg x) (xOff x) (regsOf c s).l
    let v := seeBit c s k i
    (bitOperand c 0 x s).1 = v ∧ (bitOperand c 1 x s).1 = !v ∧
    (¬ (k = 0 ∧ s.exe.noEdge = true) →
      (bitOperand c 2 x s).1 = (v && !couchedBit c s k i) ∧ (bitOperand c 3 x s).1 = (!v && couchedBit c s k i)) ∧
    (k = 0 → s.exe.noEdge = true → (bitOperand c 2 x s).1 = false ∧ (bitOperand c 3 x s).1 = false)

/-- A bit that a context writes is the bit that it sees there from then on, and no other byte that it sees changes
(R117, R162). A fenced network writes where its strand's verified writes stand, so it is read as verification reads. -/
def Obligations.BitWriteReads : Prop :=
  ∀ (c : Cx) (k i : Nat) (v : Bool) (s : State), k ≤ 2 →
    (match c with | .strand j => (strand j s).run.fence | _ => false) = false →
    seeBit c (putBit c k i v s) k i = v ∧
      ∀ a, a ≠ bitAddr k i → seeByte c (putBit c k i v s) a = seeByte c s a

/-- A word that a context writes to Q, M or D is the word that it reads back (R136, R137). -/
def Obligations.WordWriteReads : Prop :=
  ∀ (c : Cx) (k i : Nat) (v : Word) (s : State), k ≤ 3 →
    (match c with | .strand j => (strand j s).run.fence | _ => false) = false →
    seeWord c (putWord c k i v s) k i = v

/-- Timers (R144): each evaluation first sets type and preset, a preset below 1 counting as 1, and then runs as the rule
gives for its opcode; in_last takes the input and LA takes q. The three evaluations follow by cases. -/
def Obligations.TimerInstructions : Prop :=
  (∀ (w : Who) (md : BitVec 2) (x : BitVec 24) (p : Preset) (c : Cx) (s : State),
    let i := resolveIdx (xReg x.toNat) (xOff x.toNat) (regsOf c s).l
    let u := noteWrite c 4 i (noteRd c 4 i (presetVal c p s).2)
    let pv := (presetVal c p s).1
    let pn := if pv.toInt < 1 then 1 else pv.toNat
    let g := regsOf c u
    let inp := if md = 1 then !g.la else g.la
    let t := { Timer.ofBytes (seeInst c u 4 i) with preset := pn }
    let e := timerTick c u
    (Takes w 0x10 md.toNat x.toNat c s → exec (.ton w md x p) s = .next (settle (wordDone c (pcOf c s) 1
      (setRegs c { g with la := (tonEval t inp pn e).q }
        (putBytes c (byteAddr 4 i) (Timer.bytes { tonEval t inp pn e with inLast := inp } 1) u))))) ∧
    (Takes w 0x11 md.toNat x.toNat c s → exec (.tof w md x p) s = .next (settle (wordDone c (pcOf c s) 1
      (setRegs c { g with la := (tofEval t inp pn e).q }
        (putBytes c (byteAddr 4 i) (Timer.bytes { tofEval t inp pn e with inLast := inp } 2) u))))) ∧
    (Takes w 0x12 md.toNat x.toNat c s → exec (.tp w md x p) s = .next (settle (wordDone c (pcOf c s) 1
      (setRegs c { g with la := (tpEval t inp pn e).q }
        (putBytes c (byteAddr 4 i) (Timer.bytes { tpEval t inp pn e with inLast := inp } 3) u)))))) ∧
  (∀ (t : Timer) (p e : Nat), 0 < p →
    (tonEval t false p e = { t with running := false, elapsed := 0, q := false }) ∧
    (t.running = false → tonEval t true p e = { t with start := e, running := true, elapsed := 0, q := false }) ∧
    (t.running = true → e - t.start < p → tonEval t true p e = { t with elapsed := e - t.start, q := false }) ∧
    (t.running = true → p ≤ e - t.start → tonEval t true p e = { t with elapsed := p, q := true }) ∧
    (tofEval t true p e = { t with running := false, elapsed := 0, q := true }) ∧
    (t.inLast = true → tofEval t false p e = { t with start := e, running := true, elapsed := 0 }) ∧
    (t.inLast = false → t.running = false → tofEval t false p e = t) ∧
    (t.inLast = false → t.running = true → e - t.start < p → tofEval t false p e = { t with elapsed := e - t.start }) ∧
    (t.inLast = false → t.running = true → p ≤ e - t.start →
      tofEval t false p e = { t with elapsed := p, q := false, running := false }) ∧
    (t.inLast = false → t.running = false → tpEval t true p e = { t with start := e, running := true, q := true, elapsed := 0 }) ∧
    (t.running = false → (∀ b, (b = false ∨ t.inLast = true) → tpEval t b p e = t)) ∧
    (t.running = true → e - t.start < p → ∀ b, tpEval t b p e = { t with elapsed := e - t.start }) ∧
    (t.running = true → p ≤ e - t.start → ∀ b, tpEval t b p e = { t with elapsed := p, q := false, running := false }))

/-- Counters (R145): a rising input counts one up or down within the signed 32-bit range; q_up says value ≥ preset, q_dn
value ≤ 0; LA takes q_up of CTU and q_dn of CTD. CRST with input 1 sets value 0 and both flags by the rule, and LA
stays. PRE has no effect of its own (R141). -/
def Obligations.CounterInstructions : Prop :=
  ∀ (w : Who) (md : BitVec 2) (x : BitVec 24) (p : Preset) (c : Cx) (s : State),
    let i := resolveIdx (xReg x.toNat) (xOff x.toNat) (regsOf c s).l
    let u := noteWrite c 5 i (noteRd c 5 i (presetVal c p s).2)
    let g := regsOf c u
    let inp := if md = 1 then !g.la else g.la
    let n := Counter.ofBytes (seeInst c u 5 i)
    let pv := (presetVal c p s).1.toInt
    let up := if inp && !n.upLast then min (n.value + 1) 2147483647 else n.value
    let dn := if inp && !n.dnLast then max (n.value - 1) (-2147483648) else n.value
    let z := noteWrite c 5 i (noteRd c 5 i s)
    let m := Counter.ofBytes (seeInst c z 5 i)
    (Takes w 0x13 md.toNat x.toNat c s → exec (.ctu w md x p) s = .next (settle (wordDone c (pcOf c s) 1
      (setRegs c { g with la := decide (pv ≤ up) } (putBytes c (byteAddr 5 i)
        (Counter.bytes ⟨pv, up, inp, n.dnLast, decide (pv ≤ up), decide (up ≤ 0)⟩) u))))) ∧
    (Takes w 0x14 md.toNat x.toNat c s → exec (.ctd w md x p) s = .next (settle (wordDone c (pcOf c s) 1
      (setRegs c { g with la := decide (dn ≤ 0) } (putBytes c (byteAddr 5 i)
        (Counter.bytes ⟨pv, dn, n.upLast, inp, decide (pv ≤ dn), decide (dn ≤ 0)⟩) u))))) ∧
    (Takes w 0x15 md.toNat x.toNat c s → exec (.crst w md x) s = .next (settle (wordDone c (pcOf c s) 1
      (if (if md = 1 then !(regsOf c z).la else (regsOf c z).la) then
        putBytes c (byteAddr 5 i) (Counter.bytes ⟨m.preset, 0, m.upLast, m.dnLast, decide (m.preset ≤ 0), true⟩) z
       else z)))) ∧
    (Takes w 0x16 md.toNat x.toNat c s → exec (.pre w md x) s = .next (settle (wordDone c (pcOf c s) 1 s)))

/-- Words (R146, R147): A, B and LA become what Table 7.7 gives for v; a division by zero is counted as well. -/
def Obligations.WordInstructions : Prop :=
  ∀ (w : Who) (md : BitVec 2) (x : BitVec 24) (c : Cx) (s : State),
    let pc := pcOf c s
    let v := (valueOperand c md.toNat x.toNat s).1
    let u := (valueOperand c md.toNat x.toNat s).2
    let g := regsOf c u
    let h := regsOf c s
    let neg := md = 1 ∨ md = 3
    let k := kindOf (xReg x.toNat)
    let i := resolveIdx (xReg x.toNat) (xOff x.toNat) h.l
    let product := g.a.toInt * v.toInt
    let d := if v = 0 then noteDiv0 c u else u
    (Takes w 0x18 md.toNat x.toNat c s →
      exec (.lda w md x) s = .next (settle (wordDone c pc 1 (setRegs c { g with a := v } u)))) ∧
    (Takes w 0x19 md.toNat x.toNat c s →
      exec (.ldb w md x) s = .next (settle (wordDone c pc 1 (setRegs c { g with b := v } u)))) ∧
    (Takes w 0x1A 0 x.toNat c s →
      exec (.sta w x) s = .next (settle (wordDone c pc 1 (putWord c k i h.a s)))) ∧
    (Takes w 0x1B 0 x.toNat c s →
      exec (.movc w x) s = .next (settle (wordDone c pc 1 (if h.la then putWord c k i h.a s else noteWrite c k i s)))) ∧
    (Takes w 0x1C 0 0 c s →
      exec (.xab w) s = .next (settle (wordDone c pc 1 (setRegs c { h with a := h.b, b := h.a } s)))) ∧
    (Takes w 0x1D md.toNat x.toNat c s →
      exec (.add w md x) s = .next (settle (wordDone c pc 1 (setRegs c { g with a := g.a + v } u)))) ∧
    (Takes w 0x1E md.toNat x.toNat c s →
      exec (.sub w md x) s = .next (settle (wordDone c pc 1 (setRegs c { g with a := g.a - v } u)))) ∧
    (Takes w 0x1F md.toNat x.toNat c s →
      exec (.mul w md x) s = .next (settle (wordDone c pc 1
        (setRegs c { g with a := BitVec.ofInt 32 product, b := BitVec.ofInt 32 (product / 2 ^ 32) } u)))) ∧
    (Takes w 0x20 md.toNat x.toNat c s →
      exec (.div w md x) s = .next (settle (wordDone c pc 1
        (setRegs c { g with a := (divS g.a v).1, b := (divS g.a v).2 } d)))) ∧
    (Takes w 0x21 md.toNat x.toNat c s →
      exec (.andw w md x) s = .next (settle (wordDone c pc 1 (setRegs c { g with a := g.a &&& v } u)))) ∧
    (Takes w 0x22 md.toNat x.toNat c s →
      exec (.orw w md x) s = .next (settle (wordDone c pc 1 (setRegs c { g with a := g.a ||| v } u)))) ∧
    (Takes w 0x23 md.toNat x.toNat c s →
      exec (.xorw w md x) s = .next (settle (wordDone c pc 1 (setRegs c { g with a := g.a ^^^ v } u)))) ∧
    (Takes w 0x24 md.toNat x.toNat c s →
      exec (.shl w md x) s = .next (settle (wordDone c pc 1 (setRegs c { g with a := g.a <<< v.toNat } u)))) ∧
    (Takes w 0x25 md.toNat x.toNat c s →
      exec (.shr w md x) s = .next (settle (wordDone c pc 1 (setRegs c { g with a := g.a >>> v.toNat } u)))) ∧
    (Takes w 0x27 md.toNat x.toNat c s →
      exec (.ceq w md x) s = .next (settle (wordDone c pc 1
        (setRegs c { g with la := g.la && (decide (g.a = v) != decide neg) } u)))) ∧
    (Takes w 0x28 md.toNat x.toNat c s →
      exec (.cgt w md x) s = .next (settle (wordDone c pc 1
        (setRegs c { g with la := g.la && (v.slt g.a != decide neg) } u)))) ∧
    (Takes w 0x29 md.toNat x.toNat c s →
      exec (.clt w md x) s = .next (settle (wordDone c pc 1
        (setRegs c { g with la := g.la && (g.a.slt v != decide neg) } u)))) ∧
    (Takes w 0x2A md.toNat x.toNat c s →
      exec (.cgtu w md x) s = .next (settle (wordDone c pc 1
        (setRegs c { g with la := g.la && (v.ult g.a != decide neg) } u)))) ∧
    (Takes w 0x2B md.toNat x.toNat c s →
      exec (.cltu w md x) s = .next (settle (wordDone c pc 1
        (setRegs c { g with la := g.la && (g.a.ult v != decide neg) } u))))

/-- DIV and immediate operands (R147, R140): A takes the quotient, truncated toward zero, and B the remainder, which has the
dividend's sign; division by zero gives A = 0 and B = the old A, counts in div0 and raises EVT-0701 once in a cycle on a pipe
(not in a trial); −2^31 divided by −1 gives −2^31 and 0. The immediate form sign-extends 24 bits; after LIT it is the literal
byte above the 24 bits, not extended. -/
def Obligations.DivisionAndImmediates : Prop :=
  (∀ a : Word, divS a 0 = (0, a)) ∧ divS 0x80000000 0xFFFFFFFF = (0x80000000, 0) ∧
  (∀ a v : Word, v ≠ 0 → ¬ (a = 0x80000000 ∧ v = 0xFFFFFFFF) →
    (divS a v).1.toInt * v.toInt + (divS a v).2.toInt = a.toInt ∧
    (divS a v).2.toInt.natAbs < v.toInt.natAbs ∧
    (0 ≤ a.toInt → 0 ≤ (divS a v).2.toInt) ∧ (a.toInt ≤ 0 → (divS a v).2.toInt ≤ 0)) ∧
  (∀ (w : Who) (md : BitVec 2) (x : BitVec 24) (c : Cx) (s : State), Takes w 0x20 md.toNat x.toNat c s →
    let v := (valueOperand c md.toNat x.toNat s).1
    let u := (valueOperand c md.toNat x.toNat s).2
    let g := regsOf c u
    exec (.div w md x) s = .next (settle (wordDone c (pcOf c s) 1
      (setRegs c { g with a := (divS g.a v).1, b := (divS g.a v).2 } (if v = 0 then noteDiv0 c u else u))))) ∧
  (∀ (c : Cx) (s : State), isLive c = true →
    let counted := { s with exe.div0 := satInc 65535 s.exe.div0 }
    (pipeOf c ∈ s.exe.divPipes → noteDiv0 c s = counted) ∧
    (pipeOf c ∉ s.exe.divPipes → noteDiv0 c s =
      raise 0x0701 (pipeOf c) { counted with exe.divPipes := pipeOf c :: s.exe.divPipes })) ∧
  (∀ (first : Nat) (s : State), (beginCycle first s).exe.divPipes = []) ∧
  ∀ (c : Cx) (x : BitVec 24) (s : State) (md : Nat), 2 ≤ md →
    ((regsOf c s).lit = none → valueOperand c md x.toNat s = (x.signExtend 32, s)) ∧
    (∀ h : Byte, (regsOf c s).lit = some h → valueOperand c md x.toNat s = (h ++ x, s))

/-- Jumps, lanes and structure (R148, R131, R140): displacements count from the jump's own word; LNXT advances L and
jumps back below its last lane; SETL takes L from the operand or from A; LOCK and ULK open and close a block; LIT keeps
its byte for the next word; FEN has no effect beyond fencing. -/
def Obligations.JumpAndLaneInstructions : Prop :=
  ∀ (w : Who) (md : BitVec 2) (x : BitVec 24) (c : Cx) (s : State),
    let pc := pcOf c s
    let h := regsOf c s
    let d := (x.setWidth 16).toInt
    (Takes w 0x2C 0 x.toNat c s → exec (.jmp w x) s = .next (settle (wordDone c pc d s))) ∧
    (Takes w 0x2D md.toNat x.toNat c s → exec (.jc w md x) s =
      .next (settle (wordDone c pc (if (if md = 1 then !h.la else h.la) then d else 1) s))) ∧
    (Takes w 0x2E 0 x.toNat c s → exec (.lnxt w x) s =
      .next (settle (if h.l.toNat < (x.extractLsb' 21 3).toNat then wordDone c pc d (setRegs c { h with l := h.l + 1 } s)
        else wordDone c pc 1 s))) ∧
    (Takes w 0x2F 0 x.toNat c s → exec (.setl w x) s =
      .next (settle (wordDone c pc 1
        (setRegs c { h with l := if x.getLsbD 3 then h.a.setWidth 3 else x.setWidth 3 } s)))) ∧
    (Takes w 0x31 0 0 c s → exec (.lock w) s = .next (settle (wordDone c pc 1 (setRegs c { h with lock := true } s)))) ∧
    (Takes w 0x32 0 0 c s → exec (.ulk w) s = .next (settle (wordDone c pc 1 (setRegs c { h with lock := false } s)))) ∧
    (Takes w 0x33 0 x.toNat c s → exec (.lit w x) s =
      .next (settle (afterWord c (setRegs c { h with pc := pc + 1, lit := some (x.setWidth 8) } s)))) ∧
    (Takes w 0x3D 0 0 c s → exec (.fen w) s = .next (settle (wordDone c pc 1 s)))

/-- NET (R142): where a pipe reaches it, the network opens with LA 0, an empty stack and no block; A and B are 0 in a
strand's network and stay in a task's. A strand that speculates passes over a fenced network (R163). The NET word of a
network already open, reached by that network's own LNXT, clears LA, the stack, A and B in the same way. -/
def Obligations.NetOpens : Prop :=
  ∀ (w : Who) (x : BitVec 24) (c : Cx) (s : State), pickCx w s = some c → haltBefore c s (pcOf c s) = none →
    corrupt c (pcOf c s) (mkWord 0x30 0 x.toNat) s = false →
    let task := c = .task ∨ c = .ttask
    ((runOf c s).opened = false → ∀ k, c = .strand k → x.getLsbD 20 = true → (strand k s).phase = .spec →
      exec (.net w x) s = .next (settle (setStrand k { strand k s with pos := (strand k s).pos + 1 } s))) ∧
    ((runOf c s).opened = false →
      (match c with | .strand k => x.getLsbD 20 && (strand k s).phase == .spec | _ => false) = false →
      ∃ u, exec (.net w x) s = .next (settle (afterWord c u)) ∧ (runOf c u).opened = true ∧
        (runOf c u).net = nextNet c s ∧ (runOf c u).wr = {} ∧ (runOf c u).rd = {} ∧ (runOf c u).lIn = (regsOf c s).l ∧
        (regsOf c u).la = false ∧ (regsOf c u).stack = [] ∧ (regsOf c u).lock = false ∧ (regsOf c u).l = (regsOf c s).l ∧
        (regsOf c u).pc = netStart (progOf c s) (nextNet c s) + 1 ∧
        (¬ task → (regsOf c u).a = 0 ∧ (regsOf c u).b = 0) ∧
        (task → (regsOf c u).a = (regsOf c s).a ∧ (regsOf c u).b = (regsOf c s).b)) ∧
    ((runOf c s).opened = true → pcOf c s = netStart (progOf c s) (runOf c s).net →
      ∃ g : Regs, exec (.net w x) s = .next (settle (afterWord c (setRegs c g s))) ∧
        (¬ task → g = { regsOf c s with la := false, stack := [], a := 0, b := 0, pc := pcOf c s + 1, lit := none }) ∧
        (task → g = { regsOf c s with la := false, stack := [], pc := pcOf c s + 1, lit := none }))

/-- Immediate output, lane words, reams and the flush request (R129, R130, R151, R152, R178): a trial hands nothing to the
field-link controller, takes no entry and requests no flush. -/
def Obligations.OutputAndLaneWords : Prop :=
  ∀ (w : Who) (md : BitVec 2) (x : BitVec 24) (c : Cx) (s : State),
    let pc := pcOf c s
    let h := regsOf c s
    let la := if md = 1 then !h.la else h.la
    let i := resolveIdx (xReg x.toNat) (xOff x.toNat) h.l
    let live := isLive c = true
    let b := putBit c 1 i la s
    let ev := 15360 + 16 * h.l.toNat + x.toNat % 16
    let e := seeWord c s 3 ev
    let u := (getWord c 3 ev s).2
    let a := setRegs c { regsOf c u with a := e } u
    let members := reamLanes s (x.toNat / 65536 % 16)
    (Takes w 0x35 md.toNat x.toNat c s →
      (live → exec (.qimm w md x) s = .next (settle (wordDone c pc 1 { b with exe.qimm := b.exe.qimm ++ [(i, la)] }))) ∧
      (¬ live → exec (.qimm w md x) s = .next (settle (wordDone c pc 1 b)))) ∧
    (Takes w 0x36 0 x.toNat c s → exec (.lev w x) s = .next (settle (wordDone c pc 1 a))) ∧
    (Takes w 0x37 0 x.toNat c s →
      (live → (h.l.toNat, x.toNat % 16) ∉ a.exe.taken → exec (.levc w x) s =
        .next (settle (wordDone c pc 1 { a with exe.taken := a.exe.taken ++ [(h.l.toNat, x.toNat % 16)] }))) ∧
      (¬ live ∨ (h.l.toNat, x.toNat % 16) ∈ a.exe.taken →
        exec (.levc w x) s = .next (settle (wordDone c pc 1 a)))) ∧
    (Takes w 0x38 0 x.toNat c s → exec (.lcw w x) s =
      .next (settle (wordDone c pc 1 (putWord c 3 (15488 + 16 * h.l.toNat + x.toNat % 16) h.a s)))) ∧
    (Takes w 0x39 md.toNat x.toNat c s → exec (.lcb w md x) s =
      .next (settle (wordDone c pc 1 (putBit c 1 (1024 * h.l.toNat + 992 + x.toNat % 32) la s)))) ∧
    (Takes w 0x3A md.toNat x.toNat c s → exec (.outr w md x) s =
      .next (settle (wordDone c pc 1 (members.foldl (fun s n =>
        putBit c (kindOf (xReg x.toNat)) (resolveIdx (xReg x.toNat) (x.toNat % 4096) (BitVec.ofNat 3 n)) la s) s)))) ∧
    (Takes w 0x3B 0 x.toNat c s → exec (.movr w x) s =
      .next (settle (wordDone c pc 1 (members.foldl (fun s n =>
        putWord c 3 (resolveIdx (xReg x.toNat) (x.toNat % 4096) (BitVec.ofNat 3 n)) h.a s) s)))) ∧
    (Takes w 0x3E 0 0 c s →
      (live → h.la = true → exec (.rfl w) s = .next (settle (wordDone c pc 1 { s with exe.rfl := true }))) ∧
      (¬ live ∨ h.la = false → exec (.rfl w) s = .next (settle (wordDone c pc 1 s))))

/-- MSG (R153, R178): in a trial it sends nothing and sets LA to 1. A live network with LA = 0 offers nothing; with
LA = 1 a descriptor that fails its checks gets LA = 0 and is counted; otherwise the payload is offered, and LA stays 1 only
where the lane switch accepted it.
That a trial sets LA also where it was 0 is log entry 11. -/
def Obligations.MessageInstruction : Prop :=
  ∀ (w : Who) (x : BitVec 24) (c : Cx) (s : State), Takes w 0x3C 0 x.toNat c s →
    let pc := pcOf c s
    let i := resolveIdx (xReg x.toNat) (xOff x.toNat) (regsOf c s).l
    let d := seeWord c s 3 i
    let u := (getWord c 3 i s).2
    let len := d.toNat % 65536
    let q := d.toNat / 65536 % 2048
    let body := readPayload c (i + 1) (ceilDiv len 4) u
    let offer := offerPkt q 54 false (kPacket body.2 q (body.1.take len)) body.2
    let live := isLive c = true
    (¬ live → exec (.msg w x) s = .next (settle (wordDone c pc 1 (setRegs c { regsOf c s with la := true } s)))) ∧
    (live → (regsOf c s).la = false → exec (.msg w x) s = .next (settle (wordDone c pc 1 s))) ∧
    (live → (regsOf c s).la = true →
      (msgShapeOk d i = false → exec (.msg w x) s = .next (settle (wordDone c pc 1 (msgRefused c u)))) ∧
      (msgShapeOk d i = true → offer.1 = .accepted → exec (.msg w x) s = .next (settle (wordDone c pc 1 offer.2))) ∧
      (msgShapeOk d i = true → offer.1 ≠ .accepted →
        exec (.msg w x) s = .next (settle (wordDone c pc 1 (msgRefused c offer.2)))))

/-- A word that is not its network's last leaves the network open, moves the program counter by the displacement, uses
up the literal byte, and changes no other pipe register of the state it is given (R140, R142). -/
def Obligations.MidNetworkWord : Prop :=
  ∀ (c : Cx) (pc : Nat) (d : Int) (t : State), (c = .task → t.exe.tasks ≠ []) → (c = .ttask → t.trial.tasks ≠ []) →
    ((pc : Int) + d).toNat < netEnd (progOf c t) (runOf c t).net →
    regsOf c (wordDone c pc d t) = { regsOf c t with pc := ((pc : Int) + d).toNat, lit := none } ∧
      (runOf c (wordDone c pc d t)).opened = (runOf c t).opened ∧ (runOf c (wordDone c pc d t)).ov = (runOf c t).ov

/-- Where the word is not taken (R156, R178, R475): a halt stops the pipe before it with nothing executed; bad parity or a
word that the checks would have refused is EVT-0702, the fault of the next boundary. On a live pipe the cycle then does not
couch; in a trial only the trial's own cycle ends, and the live strand goes on.
The word taken and the slot's word are both examined, log entry 9. -/
def Obligations.WordStops : Prop :=
  ∀ (w : Who) (md : BitVec 2) (x : BitVec 24) (c : Cx) (s : State), pickCx w s = some c →
    (∀ cause i, haltBefore c s (pcOf c s) = some (cause, i) →
      ∃ t, exec (.ld w md x) s = .next t ∧ t.exe = s.exe ∧ bitOf t.dbg.halted (pipeOf c) = true ∧
        t.dbg.lastPipe = pipeOf c ∧ t.dbg.lastCause = cause ∧ t.dbg.lastIndex = i) ∧
    (haltBefore c s (pcOf c s) = none → corrupt c (pcOf c s) (mkWord 0x01 md.toNat x.toNat) s = true →
      (isLive c = true → ∃ t, exec (.ld w md x) s = .next t ∧ t.exe.spoiled = true ∧
        pickCx w t = none ∧ t.exe.couched = s.exe.couched ∧ t.exe.strands = s.exe.strands ∧
        t.md.pendF = s.md.pendF ++ [0x0702]) ∧
      (isLive c = false → ∃ t, exec (.ld w md x) s = .next t ∧ t.exe = s.exe ∧
        pickCx w t = none ∧ t.trial.sheet = s.trial.sheet ∧ t.md.pendF = s.md.pendF ++ [0x0702]))

/-- What a program word leaves alone, in every form and in every state: the tick, the edit ring, the boot data, the image,
the clock, the field blocks and their controller, the lane ports, the check values, the KLP sessions, the pair, the
island, the keys, the watchdogs, the retained rows, the couched sheet and the waiting commands. -/
def Obligations.WordFrame : Prop :=
  ∀ (i : Instr) (s t : State), isWord i = true → exec i s = .next t →
    t.clk = s.clk ∧ t.ring = s.ring ∧ t.boot = s.boot ∧ t.img = s.img ∧ t.rtc = s.rtc ∧ t.bus = s.bus ∧ t.fl = s.fl ∧
    t.engs = s.engs ∧ t.cv = s.cv ∧ t.klp = s.klp ∧ t.felt = s.felt ∧ t.nego = s.nego ∧ t.slu = s.slu ∧ t.isl = s.isl ∧
    t.islView = s.islView ∧ t.bags = s.bags ∧ t.keys = s.keys ∧ t.wd = s.wd ∧ t.hmp.sess = s.hmp.sess ∧
    t.ret.rows = s.ret.rows ∧ t.exe.couched = s.exe.couched ∧ t.exe.latched = s.exe.latched ∧
    t.trial.sheet = s.trial.sheet ∧ t.pending = s.pending

/-- A field block's outputs and diagnostics (R227, R229, R231, R232, R233, R241, R520). Each command changes its block
as said, and nothing else but what the delivery of events changes; where a supply or the commands fail, every output is
off, and a channel in thermal shutdown is off. -/
def Obligations.BlockOutputs : Prop :=
  ∀ (fb : Fin 16) (j : Fin 8) (s : State),
    let b := block fb s
    let only := fun (c : Block) => settle (setBlock fb c s)
    (exec (.vfLow fb) s = .next (only { b with vfOk := false }) ∧ { b with vfOk := false }.sensed = 0) ∧
    exec (.vfGood fb) s = .next (only { b with vfOk := b.powered && b.islandOk }) ∧
    (exec (.commandTimeout fb) s = .next (only { b with cmdLost := true }) ∧ { b with cmdLost := true }.sensed = 0) ∧
    (∃ c, exec (.vlFail fb) s = .next (only c) ∧ c.powered = false ∧ c.sensed = 0 ∧ c.st = .unowned ∧ c.settingsOk = false ∧
      c.serial = b.serial ∧ c.part = b.part ∧ c.stepping = b.stepping ∧ c.olOff = b.olOff) ∧
    (∀ (serial : BitVec 32) (part : BitVec 16) (stepping : Byte) (vf : Bool), ∃ c,
      exec (.blockPowerUp fb serial ⟨part, stepping⟩ vf) s = .next (only c) ∧
      c.powered = true ∧ c.st = .unowned ∧ c.owner = 0 ∧ c.sensed = 0 ∧ c.settingsOk = false ∧ c.lineTimed = false ∧
      c.serial = serial.toNat ∧ c.part = part.toNat ∧ c.stepping = stepping.toNat ∧ c.vfOk = vf) ∧
    (b.powered = true → exec (.firstValidCodeGroup fb) s = .next (only { b with lineTimed := true })) ∧
    (∃ c, exec (.thermalShutdown fb j) s = .next (only c) ∧ c = { b with hot := c.hot, therm := c.therm } ∧
      bitOf c.therm j = true ∧ bitOf c.hot j = true ∧ bitOf c.sensed j = false ∧
      ∀ k, k ≠ j.val → bitOf c.therm k = bitOf b.therm k ∧ bitOf c.hot k = bitOf b.hot k) ∧
    (∃ c, exec (.thermalRecovery fb j) s = .next (only c) ∧ c = { b with hot := c.hot } ∧ bitOf c.hot j = false ∧
      ∀ k, k ≠ j.val → bitOf c.hot k = bitOf b.hot k) ∧
    (∃ c, exec (.openLoadOn fb j) s = .next (only c) ∧ c = { b with olOn := c.olOn } ∧
      (bitOf c.olOn j = (bitOf b.olOn j || (bitOf (b.outMode j) 2 && bitOf b.sensed j))) ∧
      ∀ k, k ≠ j.val → bitOf c.olOn k = bitOf b.olOn k) ∧
    (∃ c, exec (.openLoadOff fb j) s = .next (only c) ∧ c = { b with olOff := c.olOff } ∧
      (bitOf c.olOff j = (bitOf b.olOff j || (bitOf (b.outMode j) 3 && !bitOf b.sensed j && b.vfOk))) ∧
      ∀ k, k ≠ j.val → bitOf c.olOff k = bitOf b.olOff k) ∧
    exec (.turnRound fb 0) s = .next (only { b with turnA := true }) ∧
    exec (.turnRound fb 1) s = .next (only { b with turnB := true }) ∧
    exec (.awaySideCodeGroups fb 0) s = .next (only { b with turnA := false }) ∧
    exec (.awaySideCodeGroups fb 1) s = .next (only { b with turnB := false })

/-- A field block's inputs (R217, R218, R220). A failed micro-supply makes its channel read 0 whatever inv holds; on
recovery the coupler's level is accepted at once, without an entry. A sample of a bridged input counts its consecutive
samples at a level not yet accepted. A level that has held for the filter time is accepted with inv applied; one that has
not changes no accepted level and queues nothing. Before settings are held a level is only recorded.
How the field times a level is log entry 39. -/
def Obligations.BlockInputs : Prop :=
  ∀ (fb ch : Fin 16) (s : State),
    let b := block fb s
    let wanted := fun (level : Bool) => level != bitOf (b.inMode ch) 3
    (∀ (k : Fin 8) (level : Bool), ∃ c, exec (.directSupplyFail fb k true level) s = .next (settle (setBlock fb c s)) ∧
      bitOf c.dsup k = true ∧ bitOf c.inputs k = false ∧ c = { b with dsup := c.dsup }) ∧
    (∀ (k : Fin 8) (level : Bool), ∃ c, exec (.directSupplyFail fb k false level) s = .next (settle (setBlock fb c s)) ∧
      bitOf c.dsup k = false ∧ bitOf c.acc k = (level != bitOf (b.inMode k) 3) ∧ c.queue = b.queue) ∧
    (b.powered = true → b.islandOk = true → ∀ (levels : Byte) (stamp : BitVec 17),
      ∃ c, exec (.bridgedSample fb levels stamp) s = .next (settle (setBlock fb c s)) ∧ c.acc = b.acc ∧
        c.queue = b.queue ∧ ∀ i : Fin 8, bitOf c.raw (8 + i.val) = levels.getLsbD i ∧
          tget 0 c.runs (8 + i.val) =
            (if levels.getLsbD i = (bitOf b.acc (8 + i.val) != bitOf (b.inMode (8 + i.val)) 3) then 0
             else if bitOf b.raw (8 + i.val) = levels.getLsbD i then tget 0 b.runs (8 + i.val) + 1 else 1)) ∧
    (b.powered = true → ch.val < 8 → ∀ (level : Bool) (heldNs : Nat) (stamp : BitVec 17),
      (b.settingsOk = true → 1000 ≤ heldNs → 1000 * b.filter ch ≤ heldNs →
        ∃ c, exec (.inputAccepted fb ch level heldNs stamp) s = .next (settle (setBlock fb c s)) ∧
          bitOf c.raw ch = level ∧ bitOf c.acc ch = wanted level) ∧
      (b.settingsOk = true → heldNs < 1000 * b.filter ch →
        ∃ c, exec (.inputAccepted fb ch level heldNs stamp) s = .next (settle (setBlock fb c s)) ∧
          bitOf c.raw ch = level ∧ c.acc = b.acc ∧ c.queue = b.queue) ∧
      (b.settingsOk = false → 1000 ≤ heldNs →
        ∃ c, exec (.inputAccepted fb ch level heldNs stamp) s = .next (settle (setBlock fb c s)) ∧
          bitOf c.raw ch = level ∧ c = { b with raw := c.raw })) ∧
    (b.powered = true → b.settingsOk = true → 8 ≤ ch.val → ∀ (level : Bool) (heldNs : Nat) (stamp : BitVec 17),
      bitOf b.raw ch = level → max 1 ((b.filter ch + 4) / 5) ≤ tget 0 b.runs ch →
        ∃ c, exec (.inputAccepted fb ch level heldNs stamp) s = .next (settle (setBlock fb c s)) ∧
          bitOf c.acc ch = wanted level ∧ tget 0 c.runs ch = 0)

/-- The event queue (R222): it never holds more than 16 entries; with room an entry is kept; when it is full exactly one
entry is lost and counted, the new one only where every queued entry has pri; an entry with pri already queued stays; and
entries with pri stay ahead of those without. -/
def Obligations.EventQueue : Prop :=
  ∀ (b : Block) (e : EvEntry), b.queue.length ≤ 16 →
    (b.enqueue e).queue.length ≤ 16 ∧
    (b.queue.length < 16 → (b.enqueue e).queue.Perm (e :: b.queue) ∧ (b.enqueue e).evLost = b.evLost) ∧
    (b.queue.length = 16 → (b.enqueue e).evLost = satInc 65535 b.evLost ∧ (b.enqueue e).ovf = true ∧
      (b.enqueue e).queue.length = 16 ∧ ((∃ f ∈ b.queue, f.pri = false) → e ∈ (b.enqueue e).queue) ∧
      ((∀ f ∈ b.queue, f.pri = true) → (b.enqueue e).queue = b.queue)) ∧
    (∀ f ∈ b.queue, f.pri = true → f ∈ (b.enqueue e).queue) ∧
    (b.queue.Pairwise (fun f g => g.pri = true → f.pri = true) →
      (b.enqueue e).queue.Pairwise fun f g => g.pri = true → f.pri = true)

/-- Ownership at a block (R233, R234, R245, R247, R253, R254). A local boundary closes its tick: it counts a missed sweep of
the owner or clears the count, ages the queued entries and applies held ream writes; when missed reaches H the block is in
SAFE and its safe values are due, and they apply unless a claim is accepted before. A sweep that the block receives well is
answered by the rules of ownership; one received bad changes nothing that it commands. -/
def Obligations.BlockOwnership : Prop :=
  (∀ (fb : Fin 16) (s : State),
    let b := block fb s
    let drawn := { s with free := s.free + 1 }
    (b.counterOn = false → exec (.localBoundary fb) s = .next (settle (setBlock fb b drawn))) ∧
    (b.counterOn = true → ∃ c, exec (.localBoundary fb) s = .next (settle (setBlock fb c drawn)) ∧ c.counter = 0 ∧
      c.ream = [] ∧ c.ownerSeen = false ∧ c.relTick = false ∧ c.queue = b.queue.map (fun e => { e with age := e.age + 1 }) ∧
      (b.st = .owned → b.relTick = false → b.ownerSeen = true → c.st = .owned ∧ c.missed = 0 ∧ c.owner = b.owner) ∧
      (b.st = .owned ∨ b.st = .holding → b.relTick = false → b.ownerSeen = false → c.missed = satInc 255 b.missed) ∧
      (b.st = .owned ∨ b.st = .holding → b.relTick = true → c.missed = b.missed) ∧
      ((b.st = .owned ∨ b.st = .holding) ∧ b.relTick = false ∧ b.ownerSeen = false ∨ b.st = .holding ∧ b.relTick = true →
        (c.missed < b.holdM1 + 1 → c.st = .holding ∧ c.owner = b.owner ∧ c.safeDue = b.safeDue) ∧
        (b.holdM1 + 1 ≤ c.missed → c.st = .safe ∧ c.owner = 0 ∧ c.safeDue = true ∧ c.safeSeen = true))) ∧
    (b.safeDue = false → exec (.safeValuesApplied fb) s = .next (settle (setBlock fb b s))) ∧
    (b.safeDue = true → ∃ c, exec (.safeValuesApplied fb) s = .next (settle (setBlock fb c s)) ∧
      c = { b with safeDue := false, safeHeld := 255, isl := c.isl } ∧
      ∀ j : Fin 8, bitOf c.isl j =
        (if b.outMode j % 4 = 0 then false else if b.outMode j % 4 = 1 then true else bitOf b.cmd j)) ∧
    (∀ (w : Sweep) (p : Nat) (hdr good : Bool),
      let u := feelLimit fb s
      let x : SweepIn := { port := myPort u, tickLo := w.tick % 65536, slot := tget 0 w.out p, hdr := hdr,
                           good := hdr && good && !w.bad, free := w.urgentPos == 255 }
      let r := (block fb u).sweep x
      s.fl.sweep = some w → (block fb u).powered = true → reached (myPort u) fb u = true → bitOf w.reached fb = false →
      (block fb u).pos (myPort u) = some p →
      exec (.sweepAtBlock fb (.own hdr good)) s = .next (settle (setBlock fb r.after
        { u with fl.sweep := some (w.pass (myPort u) fb p (block fb u).slot x.good r) }))) ∧
    (∀ (p : Nat) (hdr good free : Bool) (tickLo slot : BitVec 16),
      let u := feelLimit fb s
      let port := 3 - myPort u
      (block fb u).powered = true → reached port fb u = true → (block fb u).pos port = some p →
      exec (.sweepAtBlock fb (.other hdr good free tickLo slot)) s = .next (settle (setBlock fb ((block fb u).sweep
        { port := port, tickLo := tickLo.toNat, slot := slot.toNat, hdr := hdr, good := hdr && good,
          free := free }).after u)))) ∧
  ∀ (b : Block) (w : SweepIn), w.port = 1 ∨ w.port = 2 →
    let c := (b.sweep w).after
    let refused := b.st ≠ .unowned ∧ b.released = false ∧ b.missed + (if b.ownerTick = some w.tickLo then 0 else 1) < 2
    (w.good = false → c.st = b.st ∧ c.owner = b.owner ∧ c.isl = b.isl ∧ c.cmd = b.cmd ∧ c.queue = b.queue ∧
      c.missed = b.missed) ∧
    (w.good = true → b.owner = w.port → bitOf w.slot 10 = false →
      c.st = .owned ∧ c.owner = w.port ∧ c.missed = b.missed ∧ c.safeDue = b.safeDue ∧ c.cmdLost = false ∧
      c.ownerTick = some w.tickLo ∧ c.keep = bitOf w.slot 9 ∧
      (bitOf w.slot 9 = false → c.isl = w.slot % 256 ∧ c.cmd = w.slot % 256) ∧ (bitOf w.slot 9 = true → c.isl = b.isl)) ∧
    (w.good = true → b.owner = w.port → bitOf w.slot 10 = true →
      c.st = .holding ∧ c.owner = 0 ∧ c.released = true ∧ c.missed = 1) ∧
    (w.good = true → b.owner ≠ w.port → bitOf w.slot 8 = false →
      c.st = b.st ∧ c.owner = b.owner ∧ c.isl = b.isl ∧ c.missed = b.missed) ∧
    (w.good = true → b.owner ≠ w.port → bitOf w.slot 8 = true → refused →
      (b.sweep w).acc = false ∧ c.st = b.st ∧ c.owner = b.owner ∧ c.isl = b.isl) ∧
    (w.good = true → b.owner ≠ w.port → bitOf w.slot 8 = true → ¬ refused → bitOf w.slot 10 = false →
      (b.sweep w).acc = true ∧ c.st = .owned ∧ c.owner = w.port ∧ c.missed = 0 ∧ c.released = false ∧ c.safeDue = false ∧
      (bitOf w.slot 9 = false → c.isl = w.slot % 256) ∧ (bitOf w.slot 9 = true → c.isl = b.isl))

/-- Carriers, urgent frames and management frames at a block that they reach (R222, R230, R236, R248, R250, R252, R256),
received well: what the block takes over, and the reply that comes back to this unit on its own port. -/
def Obligations.BlockFrames : Prop :=
  ∀ (fb : Fin 16) (port : Fin 2) (e : Nat) (s : State),
    let b := block fb s
    let pt := port.val + 1
    let own := pt == myPort s
    let busy := if pt = myPort s then { s with fl.busyTill := e + 768 } else s
    (∀ x q p car, Meets fb (myPort s) s → b.pos (myPort s) = some p → b.queue = x :: q → b.st = .owned →
      b.owner = myPort s → s.fl.carrier = some car → bitOf car.passed fb = false → car.bad = false →
      exec (.carrierAtBlock fb true true) s = .next (settle (setBlock fb { b with queue := q }
        { s with
          fl.carrier := some { car with
            places := tset 0 car.places p x.word, passed := setBit car.passed fb, bad := false } }))) ∧
    (∀ x q, Meets fb (3 - myPort s) s → b.queue = x :: q → b.st = .owned → b.owner = 3 - myPort s →
      exec (.carrierAtBlock fb false true) s = .next (settle (setBlock fb { b with queue := q } s))) ∧
    (∀ u us, Meets fb (myPort s) s → s.fl.fly = u :: us → u.fb = fb → u.applied = false → u.bad = false →
      b.owner = myPort s →
      ∃ c, exec (.urgentFrameAtBlock fb (.own true)) s =
        .next (settle (setBlock fb c { s with fl.fly := { u with applied := true } :: us })) ∧ c.cmdLost = false ∧
        c.st = b.st ∧ c.keep = b.keep ∧ ∀ j : Fin 8,
          bitOf c.isl j = (if bitOf u.mask j then bitOf u.val j else bitOf b.isl j) ∧
          bitOf c.cmd j = (if bitOf u.mask j then bitOf u.val j else bitOf b.cmd j) ∧
          bitOf c.safeHeld j = (!bitOf u.mask j && bitOf b.safeHeld j)) ∧
    (∀ mask val : Byte, Meets fb (3 - myPort s) s → b.owner = 3 - myPort s →
      ∃ c, exec (.urgentFrameAtBlock fb (.other true mask val)) s = .next (settle (setBlock fb c s)) ∧
        ∀ j : Fin 8, bitOf c.isl j = if mask.getLsbD j then val.getLsbD j else bitOf b.isl j) ∧
    (∀ hop, (own = true → setupTime s = true) → b.powered = true → reached pt fb s = true →
      (hop < 16 → ∃ c, exec (.enumerationFrame fb port hop true) s =
        .next (settle (setBlock fb c (reply own [hop + 1, b.part, b.stepping, b.owner, b.serial] s))) ∧
        c.pos pt = some hop ∧ c.evLost = 0 ∧ c.pos (3 - pt) = b.pos (3 - pt)) ∧
      (16 ≤ hop → exec (.enumerationFrame fb port hop true) s = .next (settle (reply own [16 + 128] s)))) ∧
    (∀ p roundNs, own = true → setupTime s = true → Meets fb pt s → b.pos pt = some p →
      exec (.probeFrame fb port true roundNs) s = .next (settle { s with
        fl.align := tset 0 s.fl.align fb (200 + 320 * p + (roundNs - (500 + 400 * (p + 1))) / 2) })) ∧
    (∀ off : Byte, (own = true → mgmtStart s e 768 = true) → Meets fb pt (feelLimit fb busy) →
      exec (.registerReadFrame fb port off ⟨true, e⟩) s = .next (settle (reply own
        (match (block fb (feelLimit fb busy)).reg off.toNat with | some v => [v, 1] | none => [0, 3])
        (feelLimit fb busy)))) ∧
    (∀ (off : Byte) (data : Word), (own = true → mgmtStart s e 768 = true) → Meets fb pt s →
      (off = 0x10 → b.owner = pt → ∃ load, exec (.registerWriteFrame fb port off data ⟨true, e⟩) s = .next (settle
        (reply own [data.toNat, 1] (setBlock fb (b.clearDiag load data.toNat) { busy with free := s.free + 1 })))) ∧
      (off ≠ 0x10 ∨ b.owner ≠ pt → exec (.registerWriteFrame fb port off data ⟨true, e⟩) s = .next (settle
        (reply own [data.toNat, if (b.reg off.toNat).isSome then 2 else 3] { busy with free := s.free + 1 })))) ∧
    (∀ (align : BitVec 16) (sel hold : Byte) (set : List Byte), (own = true → setupTime s = true) → Meets fb pt s →
      b.owner = 0 ∨ b.owner = pt → sel.toNat ≤ 3 → hold.toNat ≤ 63 → settingsValid set = true →
      ∃ c, exec (.setupFrame fb port align sel hold set true) s = .next (settle (setBlock fb c (reply own [1] s))) ∧
        c.settings = set ∧ c.holdM1 = hold.toNat ∧ c.tickSel = sel.toNat ∧ c.counterOn = true ∧
        c.align pt = align.toNat ∧ c.queue = b.queue ∧
        ∀ k : Fin 16, bitOf c.acc k = (bitOf c.raw k != bitOf (c.inMode k) 3)) ∧
    (∀ (align : BitVec 16) (sel hold : Byte) (set : List Byte), (own = true → setupTime s = true) → Meets fb pt s →
      (b.owner ≠ 0 ∧ b.owner ≠ pt) ∨ 3 < sel.toNat ∨ 63 < hold.toNat ∨ settingsValid set = false →
      ∃ c, exec (.setupFrame fb port align sel hold set true) s = .next (settle (setBlock fb c (reply own [2] s))) ∧
        c.settings = b.settings ∧ c.align pt = align.toNat) ∧
    (∀ (mask : BitVec 16) (data : Word) p, own = false → Meets fb pt s → b.pos pt = some p → mask.getLsbD p = true →
      b.owner = pt → exec (.reamWriteFrame fb port mask 0x10 data ⟨true, e⟩) s = .next (settle (setBlock fb
        { b with ream := b.ream ++ [(0x10, data)] } s))) ∧
    (∀ (mask : BitVec 16) (data : Word) p x, own = true → Meets fb pt s → b.pos pt = some p → bitOf mask.toNat p = true →
      b.owner = pt → s.fl.reams = [x] → x.mask = mask.toNat → x.data = data → x.start = none → x.bad = false →
      mgmtStart s e 896 = true → ∃ t, exec (.reamWriteFrame fb port mask 0x10 data ⟨true, e⟩) s = .next t ∧
        (block fb t).ream = b.ream ++ [(0x10, data)] ∧
        t.fl.reams = [{ x with start := some e, done := setBit x.done p }] ∧ t.exe = s.exe)

/-- The field-link controller (R40, R245, R249, R250, R251, R257): carriers leave with every place empty; a good carrier's
entries trigger tasks in the order of their positions; a bad carrier, an urgent frame that returns unmarked and a lost, late
or bad sweep are counted with their events, and so is a frame of an unlisted type; an urgent frame leaves when it can end
before the next departure, and waits otherwise.
When a sweep is lost is log entry 39. -/
def Obligations.LinkController : Prop :=
  ∀ (ft : Byte) (s : State),
    let unlisted := { s with fl.unknownFt := satInc 15 s.fl.unknownFt }
    (∀ k : Fin 38, s.fl.n ≠ 0 → k.val < carrierCount s.clk.tickSel → carriersRun s = true →
      exec (.carrierDeparture k) s = .next (settle { s with
        fl.carrier := some { k := k, places := [], passed := 0, bad := false }, fl.left := carrierFrame k s.fl.n })) ∧
    (∀ c good, s.fl.carrier = some c → knownFt ft.toNat = false →
      exec (.carrierReturn ⟨ft, good⟩) s = .next (settle unlisted)) ∧
    (∀ c good, s.fl.carrier = some c → knownFt ft.toNat = true → good = false ∨ c.bad = true ∨ ft.toNat ≠ 0xC0 + c.k →
      exec (.carrierReturn ⟨ft, good⟩) s =
        .next (settle (raise 0x1102 0 { s with fl.carrier := none, fl.carrierBad := satInc 255 s.fl.carrierBad }))) ∧
    (∀ c, s.fl.carrier = some c → knownFt ft.toNat = true → c.bad = false → ft.toNat = 0xC0 + c.k →
      exec (.carrierReturn ⟨ft, true⟩) s = .next (settle (dispatchTop ((List.range s.fl.n).foldl
        (fun s p => dispatchEntry (fbAt s p) (tget 0 c.places p) s) { s with fl.carrier := none })))) ∧
    (∀ e u us, (absorbQimm s).fl.urg = u :: us → s.md.mode = .active → mayStart (absorbQimm s) e 384 = true →
      exec (.urgentFrameSend e) s = .next (settle { absorbQimm s with
        fl.urg := us, fl.fly := (absorbQimm s).fl.fly ++ [u], fl.busyTill := e + 384,
        fl.left := urgentFrame (posOf (absorbQimm s) u.fb) u.mask u.val })) ∧
    (∀ e, mayStart (absorbQimm s) e 384 = false → exec (.urgentFrameSend e) s = .next (settle (absorbQimm s))) ∧
    (∀ u us good, s.fl.fly = u :: us → knownFt ft.toNat = false →
      exec (.urgentFrameReturn ⟨ft, good⟩) s = .next (settle unlisted)) ∧
    (∀ u us, s.fl.fly = u :: us → u.applied = true → u.bad = false → ft.toNat = 0x60 + posOf s u.fb →
      knownFt ft.toNat = true → exec (.urgentFrameReturn ⟨ft, true⟩) s = .next (settle { s with fl.fly := us })) ∧
    (∀ u us good, s.fl.fly = u :: us → knownFt ft.toNat = true → u.applied = false ∨ u.bad = true ∨ good = false →
      exec (.urgentFrameReturn ⟨ft, good⟩) s =
        .next (settle (raise 0x1103 0 { s with fl.fly := us, fl.urgentBad := satInc 255 s.fl.urgentBad }))) ∧
    (∀ (w : Sweep) (rttNs : BitVec 16) good, s.fl.sweep = some w → knownFt ft.toNat = false →
      exec (.sweepReturn ⟨ft, good⟩ rttNs) s = .next (settle unlisted)) ∧
    (∀ (w : Sweep) (rttNs : BitVec 16), s.fl.sweep = some w → w.measure = false → w.bad = false → s.md.mode ≠ .thread →
      rttNs.toNat ≤ s.fl.rtt + 2000 →
      ∃ t, exec (.sweepReturn ⟨0x10, true⟩ rttNs) s = .next t ∧ t.fl.sweep = none ∧ t.fl.lostRun = 0 ∧
        t.fl.blocks = s.fl.blocks ∧ ∀ fb, fb < s.fl.n →
          (bitOf w.own (posOf s fb) || bitOf w.foreign (posOf s fb) || bitOf w.absent (posOf s fb)) = true →
          tget 0 t.fl.slots fb = tget 0 w.ins (posOf s fb) ∧ bitOf t.fl.fresh fb = true ∧
          bitOf t.fl.owned fb = bitOf w.own (posOf s fb)) ∧
    (∀ (w : Sweep) (rttNs : BitVec 16) good, s.fl.sweep = some w → w.measure = false →
      knownFt ft.toNat = true → good = false ∨ w.bad = true ∨ ft ≠ 0x10 ∨ s.fl.rtt + 2000 < rttNs.toNat →
      exec (.sweepReturn ⟨ft, good⟩ rttNs) s = .next (settle (sweepFails s))) ∧
    (∀ w : Sweep, s.fl.sweep = some w → w.measure = false → exec .sweepLost s = .next (settle (sweepFails s))) ∧
    (s.md.mode ≠ .thread → s.fl.lostRun < 15 →
      let t := sweepFails s
      t.fl.sweep = none ∧ t.fl.lostRun = s.fl.lostRun + 1 ∧ t.fl.sweepBad = satInc 255 s.fl.sweepBad ∧
        t.fl.slots = s.fl.slots ∧ (s.fl.lostRun + 1 = lossLimit s → t.md.pendF = s.md.pendF ++ [0x1101]) ∧
        (s.fl.lostRun + 1 ≠ lossLimit s → t.md = s.md))

/-- Time registers (R39, R64, R70, R420, R426, R427): a read of the low half answers it and latches the rest of the same
moment; TICK_NOW_HI answers what was latched and the peek alias of TICK_NOW_LO latches nothing; a write of ones clears
exactly the bits it names.
Which commands advance the clock is log entry 2. -/
def Obligations.TimeRegisters : Prop :=
  ∀ s : State,
    exec .tickNowLoRead s = .next (settle { s with
      clk.tickHi := s.clk.tick / 2 ^ 32 % 65536, bus.ans := BitVec.ofNat 32 s.clk.tick, bus.status := 0 }) ∧
    (∀ who sess req e,
      readOnce who sess req e 0x50000100 s = answerAccess who sess req 0 [s.clk.tick % 2 ^ 32]
        { s with clk.tickHi := s.clk.tick / 2 ^ 32 % 65536 } ∧
      readOnce who sess req e 0x50000104 s = answerAccess who sess req 0 [s.clk.tickHi] s ∧
      readOnce who sess req e 0x50000180 s = answerAccess who sess req 0 [s.clk.tick % 2 ^ 32] s) ∧
    exec .rtcSecRead s = .next (settle { s with
      rtc.latSub := s.rtc.sub, rtc.latDate := rtcDate s.rtc.cal, rtc.latTime := rtcTime s.rtc.cal,
      bus.ans := BitVec.ofNat 32 s.rtc.sec, bus.status := 0 }) ∧
    (∀ v : Word, ∃ f, exec (.almStatClear v) s =
        .next (settle { s with rtc.fired := f, rtc.pin := s.rtc.pin && !v.getLsbD 3 }) ∧
      ∀ n, n < 2 → bitOf f n = (bitOf s.rtc.fired n && !v.getLsbD n)) ∧
    (∀ v : Word, exec (.bkCtlClear v) s = .next (settle { s with
      rtc.swFirst := if v.getLsbD 0 then 0 else s.rtc.swFirst, rtc.swCnt := if v.getLsbD 0 then 0 else s.rtc.swCnt,
      rtc.bkLow := s.rtc.bkLow && !v.getLsbD 1 })) ∧
    (∀ v : Word, ∃ f, exec (.rstCauseClear v) s = .next (settle { s with md.rstCause := f }) ∧
      ∀ n, n < 6 → bitOf f n = (bitOf s.md.rstCause n && !v.getLsbD n)) ∧
    (∀ v : Word, ∃ f, exec (.wakeCauseClear v) s = .next (settle { s with md.wakeCause := f }) ∧
      ∀ n, n < 5 → bitOf f n = (bitOf s.md.wakeCause n && !v.getLsbD n))

/-- The clock (R419 to R426, R429 to R431): a load sets seconds, calendar, sub-second and valid; an alarm that matches fires
once for its second, into ALM_STAT with EVT-1901 or, on VBAK, onto ALARM_N; after its last second the calendar starts
again with valid clear; a period's correction is k_temp and the slew's share within ±4 096 and ±2 048. -/
def Obligations.ClockCommands : Prop :=
  ∀ s : State,
    (∃ t, exec .rtcLoad s = .next t ∧ t.rtc.sec = s.rtc.setSec % 2 ^ 32 ∧ t.rtc.cal = s.rtc.setSec % 2 ^ 32 ∧
      t.rtc.sub = s.rtc.setSub % 32768 ∧ t.rtc.valid = true ∧ t.rtc.alm0 = s.rtc.alm0 ∧ t.rtc.alm1 = s.rtc.alm1 ∧
      t.exe = s.exe) ∧
    (∀ n : Fin 2, almMatches (almWord s n) s.rtc.cal = true → bitOf s.rtc.now n = false →
      (s.rtc.onVbak = true → ∃ t, exec (.alarmFire n) s = .next t ∧ t.rtc.pin = true ∧ t.rtc.fired = s.rtc.fired ∧
        t.rtc.almBk = satInc 255 s.rtc.almBk ∧ (s.rtc.almBk = 0 → t.rtc.almFirst = n.val + 1 ∧ t.rtc.almBkSec = s.rtc.sec)) ∧
      (s.rtc.onVbak = false → s.md.mode = .active → s.md.dormReq = false → bitOf s.rtc.fired n = false →
        exec (.alarmFire n) s = .next (settle (raise 0x1901 n
          { s with rtc.now := s.rtc.now + 2 ^ n.val, rtc.fired := s.rtc.fired + 2 ^ n.val })))) ∧
    (∀ n : Fin 2, almMatches (almWord s n) s.rtc.cal = false ∨ bitOf s.rtc.now n = true →
      exec (.alarmFire n) s = .next (settle s)) ∧
    (s.rtc.cal + 1 = calEnd → ∃ t, exec .calendarWrap s = .next t ∧ t.rtc.cal = 0 ∧ t.rtc.sec = 0 ∧ t.rtc.sub = 0 ∧
      t.rtc.valid = false) ∧
    (∃ t, exec .compensationPeriod s = .next t ∧ t.rtc.cyc = 0 ∧ -4096 ≤ t.rtc.k ∧ t.rtc.k ≤ 4096 ∧
      t.rtc.kTemp = s.rtc.kTemp ∧
      (-4096 ≤ s.rtc.kTemp → s.rtc.kTemp ≤ 4096 → (s.rtc.slew - t.rtc.slew).natAbs ≤ 2048) ∧
      (-2048 ≤ s.rtc.slew → s.rtc.slew ≤ 2048 → -4096 ≤ s.rtc.kTemp + s.rtc.slew → s.rtc.kTemp + s.rtc.slew ≤ 4096 →
        t.rtc.slew = 0 ∧ t.rtc.k = s.rtc.kTemp + s.rtc.slew)) ∧
    (∀ (theta : BitVec 24) (i : Nat), i ≤ 31 → theta.toInt = -40000 + 5000 * (i : Int) →
      exec (.sensorRead theta) s = .next (settle { s with
        rtc.kTemp := curveWord s i + (BitVec.ofNat 16 (cf s 0x1F 0 2 2 0)).toInt })) ∧
    (∀ option42, sntpRuns s option42 = true → s.rtc.polling = false →
      exec (.sntpPoll option42) s = .next (settle { s with rtc.polling := true })) ∧
    (∀ r : Sntp, s.rtc.polling = true → sntpUsable r = true → s.rtc.valid = false →
      ∃ t, exec (.sntpReply r) s = .next t ∧ t.rtc.valid = true ∧ t.rtc.polling = false ∧ t.rtc.fails = 0) ∧
    (∀ r : Sntp, s.rtc.polling = true → sntpUsable r = false → exec (.sntpReply r) s = .next (settle s)) ∧
    (s.md.mode ≠ .backup → exec (.vbakCheck true) s = .next (settle (raise 0x190A 0 { s with rtc.bkLow := true })) ∧
      exec (.vbakCheck false) s = .next (settle s)) ∧
    (s.clk.tick % ticksPerSec s = 0 → s.evt.secLost ≠ 0 → exec .logRateSecond s = .next (settle (raise 0x1904 s.evt.secLost
      { s with evt.secCount := 0, evt.secLost := 0, evt.sysSent := [], hmp.sysSec := 0, hmp.helloSec := 0,
               hmp.authSec := false }))) ∧
    (∃ t, exec .backupDomainReset s = .next t ∧ t.rtc.valid = false ∧ t.rtc.alm0 = 0 ∧ t.rtc.alm1 = 0 ∧ t.rtc.fired = 0 ∧
      t.rtc.pin = false ∧ t.rtc.bkp = [] ∧ t.rtc.swCnt = 0 ∧ t.exe = s.exe ∧ t.isl = s.isl ∧ t.ret.rows = s.ret.rows)

/-- The watchdogs (R443, R444, R446, R447, R448, R451): a good service counts from now, unless the expiry is due already; any
other value is counted with EVT-2004. A period written inside the open window takes effect and services; outside it is
refused; one that comes through HMP or the debug port waits for the next window. The two keys in order and in time disable an
unlocked watchdog; lock and enable take only a 1, lock enables, and a disable of the same E-clock as the lock is refused. At
the wake point the management core services WD-S, and wakes the unit only when it decides to.
What WDS_LEFT reads is log entry 46 and not stated. -/
def Obligations.WatchdogRegisters : Prop :=
  ∀ (c : Bool) (v : Word) (e : Nat) (s : State),
    let now := s.clk.boundaryE + e
    let w := wdOf c s
    let put := fun (x : Wd) => settle (modWd c (fun _ => x) s)
    (wdRuns false s = true → wdExpired false now s = false → s.wd.s.held = [] →
      exec (.wdsSvcWrite 0xA55A e) s = .next (settle { s with wd.s := { s.wd.s with since := now } })) ∧
    (wdExpired false now s = true → exec (.wdsSvcWrite 0xA55A e) s = .next (settle s)) ∧
    (v ≠ 0xA55A → exec (.wdsSvcWrite v e) s = .next (settle (raise 0x2004 0 { s with wd.err := satField 24 8 s.wd.err }))) ∧
    (wdWindow c now s = true → wdExpired c now s = false → w.held = [] → exec (.wdPeriodWrite c v false e) s =
      .next (put { w with per := v.toNat, since := now })) ∧
    (wdWindow c now s = false → exec (.wdPeriodWrite c v false e) s =
      .next (settle (raise 0x2002 (if c then 1 else 0) { s with wd.err := satField 16 8 s.wd.err }))) ∧
    exec (.wdPeriodWrite c v true e) s =
      .next (put { w with held := w.held ++ [{ addr := 0, mask := 0xFFFFFFFF, val := v }] }) ∧
    exec (.wdKeyWrite c 0x5EA1 e) s = .next (put { w with key := some now }) ∧
    (∀ k, w.key = some k → now ≤ k + 256 → w.lock = false → w.en = true → exec (.wdKeyWrite c 0x0FF0 e) s =
      .next (put { w with key := none, en := false, since := now, cut := some (now, w.since) })) ∧
    (∀ k, w.key = some k → now ≤ k + 256 → w.lock = true → exec (.wdKeyWrite c 0x0FF0 e) s = .next (settle
      (raise 0x2002 (256 + if c then 1 else 0) { modWd c (fun _ => { w with key := none }) s with
        wd.err := satField 8 8 (modWd c (fun _ => { w with key := none }) s).wd.err }))) ∧
    (∀ k, w.key = some k → k + 256 < now → exec (.wdKeyWrite c 0x0FF0 e) s = .next (put { w with key := none })) ∧
    (v ≠ 0x5EA1 → w.key = none ∨ v ≠ 0x0FF0 → exec (.wdKeyWrite c v e) s = .next (put { w with key := none })) ∧
    (w.en = false → wdRuns c s = false) ∧
    exec (.wdLockWrite c false e) s = .next (settle s) ∧
    (w.en = true → exec (.wdLockWrite c true e) s = .next (put { w with lock := true })) ∧
    (w.en = false → w.held = [] → (∀ t, w.cut = some t → t.1 ≠ now) →
      exec (.wdLockWrite c true e) s = .next (put { w with en := true, since := now, lock := true })) ∧
    (∀ old, w.en = false → w.cut = some (now, old) → ∃ t, exec (.wdLockWrite c true e) s = .next t ∧
      wdOf c t = { w with en := true, since := old, cut := none, lock := true }) ∧
    exec (.wdEnableWrite c false e) s = .next (settle s) ∧
    (w.held = [] → wdExpired c now s = false → exec (.wdEnableWrite c true e) s =
      .next (put { w with en := true, since := now })) ∧
    (s.md.mode = .dormant → wdRuns false s = true → wdExpired false now s = false → s.wd.s.held = [] →
      s.wd.s.since + wdPeriod false s * 7 / 8 ≤ now →
      exec (.wakePoint false e) s = .next (settle { s with wd.s := { s.wd.s with since := now } }) ∧
      exec (.wakePoint true e) s = .next (settle (wake 4 { s with wd.s := { s.wd.s with since := now } })))

/-- An expiry (R449): the cause bit and the count are kept, the core is held in THREAD with WDX_N low, and the pulse's end
releases it; a watchdog whose period has not passed expires nothing. -/
def Obligations.WatchdogExpiry : Prop :=
  ∀ (e : Nat) (s : State), s.boot.recovery = false → s.md.mode ≠ .backup → s.wd.hold = false →
    (s.wd.s.en = true → s.wd.s.run = true → s.wd.s.since + s.wd.s.per * 400000 ≤ s.clk.boundaryE + e →
      ∃ t, exec (.wdSExpiry e) s = .next t ∧ t.md.rstCause = s.md.rstCause ||| 4 ∧ t.ret.wdS = satInc 65535 s.ret.wdS ∧
        t.ret.wdC = s.ret.wdC ∧ t.wd.hold = true ∧ t.wd.pulse = true ∧ t.md.mode = .thread ∧ t.exe.inCycle = false ∧
        t.felt.lpown = false ∧ t.isl = s.isl ∧ t.rtc = s.rtc ∧ t.fl.blocks = s.fl.blocks) ∧
    (s.wd.c.en = true → s.wd.c.run = true → s.wd.c.since + s.wd.c.per * tickE s.clk.tickSel ≤ s.clk.boundaryE + e →
      ∃ t, exec (.wdCExpiry e) s = .next t ∧ t.md.rstCause = s.md.rstCause ||| 8 ∧ t.ret.wdC = satInc 65535 s.ret.wdC ∧
        t.ret.wdS = s.ret.wdS ∧ t.wd.hold = true ∧ t.wd.pulse = true ∧ t.md.mode = .thread ∧ t.isl = s.isl) ∧
    (s.clk.boundaryE + e < s.wd.s.since + s.wd.s.per * 400000 → exec (.wdSExpiry e) s = .next (settle s)) ∧
    (s.clk.boundaryE + e < s.wd.c.since + s.wd.c.per * tickE s.clk.tickSel → exec (.wdCExpiry e) s = .next (settle s))

/-- The attendant keys (R461, R462): a key still pressed at max_on_s becomes STUCK and reads released; a due baseline moves one
count toward the raw count. -/
def Obligations.KeyCommands : Prop :=
  ∀ (k : Fin 16) (s : State),
    let x := keyOf s k
    (x.pressed = true → x.stuck = false → s.guard = false → maxOnTicks s ≠ 0 → maxOnTicks s ≤ x.on →
      ∃ t, exec (.keyStuck k) s = .next t ∧ keyOf t k = { x with stuck := true, pressed := false, step := 0 } ∧
        keyPressed t k = false ∧ (keyOn s k = true → keyStuck t k = true) ∧
        ∀ j, j ≠ k.val → keyOf t j = keyOf s j) ∧
    (x.on < maxOnTicks s → exec (.keyStuck k) s = .next (settle s)) ∧
    (x.stuck = true → x.fault = false → s.guard = false → keyOn s k = true → cf s 0x20 0 8 2 256 ≤ x.step →
      ∃ t, exec (.baselineStep k) s = .next t ∧ (keyOf t k).step = 0 ∧
        (x.base < x.raw → (keyOf t k).base = x.base + 1) ∧ (x.raw < x.base → (keyOf t k).base + 1 = x.base) ∧
        (x.raw = x.base → (keyOf t k).base = x.base) ∧ ∀ j, j ≠ k.val → keyOf t j = keyOf s j) ∧
    (x.pressed = true → x.stuck = false → exec (.baselineStep k) s = .next (settle s))

/-- Resets (R64, R65, R498, R505, R518): the cause is added to RST_CAUSE, which keeps the others; the tick starts again, the
engine stops and LPOWN is low; the boot is counted; the island, the backup domain's time and the sluice's messages are kept.
At power-good the straps are sampled and each bank's level is sensed; TEST_EN high holds the core die in reset. A RESET_N
low of 0.5 µs or less is no reset.
That threading runs in the reset command is log entry 35. -/
def Obligations.Resets : Prop :=
  ∀ (thr : Thr) (s : State),
    let kept := fun (cause : Nat) (t : State) => t.md.rstCause = s.md.rstCause ||| cause ∧ t.clk.tick = 0 ∧
      t.exe.inCycle = false ∧ t.felt.lpown = false ∧ t.wd.hold = false ∧ t.wd.pulse = false ∧
      t.ret.bootCnt = s.ret.bootCnt + 1 ∧ t.isl = s.isl ∧ t.rtc.sec = s.rtc.sec ∧ t.slu.down = s.slu.down ∧
      t.slu.up = s.slu.up ∧ t.pending = s.pending
    (∀ (unitId testEn : Bool) (e0 : BitVec 2) (banks : List (BitVec 12)), s.md.mode = .backup →
      ∃ t, exec (.powerOnReset ⟨unitId, e0, testEn⟩ banks thr) s = .next t ∧ kept 1 t ∧ t.md.wakeCause = 0 ∧
        t.boot.unitId = b2n unitId ∧ t.boot.e0Strap = e0.toNat ∧
        (testEn = true → t.md.mode = .thread ∧ t.md.testHold = true ∧ ticking t = false) ∧
        ∀ i, i < 5 → (3000 < nth 0 (banks.map BitVec.toNat) i → nth false t.boot.banks i = true) ∧
          (nth 0 (banks.map BitVec.toNat) i < 2000 → nth false t.boot.banks i = false)) ∧
    (∀ ns, 1000 ≤ ns → s.md.mode ≠ .backup → s.md.testHold = false → ∃ t, exec (.resetN ns thr) s = .next t ∧ kept 2 t ∧
      t.md.wakeCause = s.md.wakeCause ∧ t.boot.unitId = s.boot.unitId) ∧
    (∀ ns, 1000 ≤ ns → s.md.testHold = true → exec (.resetN ns thr) s = .next (settle s)) ∧
    (∀ ns, ns ≤ 500 → exec (.resetN ns thr) s = .next (settle s)) ∧
    (s.wd.pulse = true → s.md.testHold = false → ∃ t, exec (.wdxPulseEnd thr) s = .next t ∧ kept 0 t) ∧
    (s.wd.pulse = false → exec (.wdxPulseEnd thr) s = .next (settle s))

/-- Threading's end, the supplies and the fuses (R73, R90, R91, R427, R450, R507): step 11 completes THREAD_STAT and asks for
the lane domains of lane_on; a failing VDD_IO puts the backup domain on VBAK, counted, and the unit in BACKUP; a loss of
power-good stops the core; a re-read of the fuses falls due after 3 600 s or a change of more than 30 K, never unlocks, never
makes an unusable key usable and moves no trim; a PARTNER_OK low of 1.0 µs is captured.
That a loss of power-good is BACKUP is log entry 36. -/
def Obligations.SuppliesAndFuses : Prop :=
  ∀ s : State,
    (s.md.mode = .thread → s.md.thStat = 11 → s.wd.hold = false → ∃ t, exec .threadingComplete s = .next t ∧
      t.md = { s.md with thStat := 15, thDone := true, laneReq := t.md.laneReq } ∧
      (∀ l, l < 8 → bitOf t.md.laneReq l = (laneUsed s l && bitOf (laneOn s) l)) ∧ t.exe = s.exe ∧ t.fl = s.fl) ∧
    (s.md.mode ≠ .backup → s.rtc.onVbak = false → ∃ t, exec .vddIoFail s = .next t ∧ t.md.mode = .backup ∧
      t.rtc.onVbak = true ∧ t.rtc.swCnt = satInc 65535 s.rtc.swCnt ∧ t.rtc.sec = s.rtc.sec ∧ t.exe.inCycle = false ∧
      t.felt.lpown = false ∧ (s.rtc.swCnt = 0 → t.rtc.swFirst = s.rtc.sec) ∧ t.rtc.charger = 0 ∧ t.isl = s.isl ∧
      t.ret.rows = s.ret.rows) ∧
    (∃ t, exec .powerGoodLoss s = .next t ∧ t.md.powerGood = false ∧ t.md.mode = .backup ∧ t.exe.inCycle = false ∧
      t.felt.lpown = false ∧ t.isl = s.isl ∧ t.rtc = s.rtc ∧ t.fl.blocks = s.fl.blocks) ∧
    (∀ temp : BitVec 16, s.md.mode ≠ .backup → s.md.mode ≠ .thread → s.boot.recovery = false →
      s.boot.fuseE + 3600 * 400000000 ≤ s.clk.boundaryE ∨ 30 < (temp.toInt - s.boot.fuseTemp).natAbs →
      ∃ t, exec (.fuseReread temp) s = .next t ∧
        t.boot.debugLock = (s.boot.debugLock || lockState s.boot.fuses.debugLock) ∧
        (s.boot.custKey = 2 → t.boot.custKey = 2) ∧ (s.boot.seorfenKey = false → t.boot.seorfenKey = false) ∧
        t.boot.lastTrims = s.boot.lastTrims ∧ t.boot.fuseE = s.clk.boundaryE ∧ t.boot.fuseTemp = temp.toInt ∧
        t.md = s.md ∧ t.exe = s.exe) ∧
    (∀ temp : BitVec 16, s.clk.boundaryE < s.boot.fuseE + 3600 * 400000000 →
      (temp.toInt - s.boot.fuseTemp).natAbs ≤ 30 → exec (.fuseReread temp) s = .next (settle s)) ∧
    (∀ ns, 1000 ≤ ns → s.md.mode ≠ .backup →
      exec (.partnerOkLow ns) s = .next (settle { s with felt.okLow := true })) ∧
    (∀ ns, ns < 1000 → exec (.partnerOkLow ns) s = .next (settle s))

/-- The retain store (R434, R436, R437, R449, R508): after a final save that is not cut short, and after a flush in HOLD or
DORMANT, no row set is dirty against the last couched sheet; the save changes no mode, and counts itself. A low of POWERFAIL_N
shorter than 5 µs starts none, and a core held in reset by an expiry starts none.
What a cut save writes is log entry 32. -/
def Obligations.RetainedSaves : Prop :=
  ∀ s : State, (∀ r t, (rowSlot s r t).gen + 1 < 2 ^ 32) →
    (∀ ns, 10000 ≤ ns → s.md.mode ≠ .backup → s.exe.everCouched = true → s.wd.hold = false →
      ∃ t, exec (.powerfailNFall ⟨ns, none⟩) s = .next t ∧
        (∀ r, r < 64 → rowDirty t t.exe.couched r = false) ∧ t.ret.pfDone = true ∧
        t.ret.pfCnt = satInc (2 ^ 32 - 1) s.ret.pfCnt ∧ t.md = s.md ∧ t.exe = s.exe) ∧
    (∀ ns rows, s.md.mode = .backup ∨ s.exe.everCouched = false ∨ s.wd.hold = true ∨ ns < 5000 →
      exec (.powerfailNFall ⟨ns, rows⟩) s = .next (settle s)) ∧
    (s.evt.atBnd = true → s.exe.rfl = true → s.md.mode = .hold ∨ s.md.mode = .dormant →
      ∃ t, exec .retainedStoreFlush s = .next t ∧ (∀ r, r < 64 → rowDirty t t.exe.couched r = false) ∧
        t.exe = { s.exe with rfl := false } ∧ t.md = s.md ∧ t.ret.p = s.ret.p) ∧
    (s.evt.atBnd = false → exec .retainedStoreFlush s = .next (settle s))

/-- The tick boundary (R34, R36, R38, R43, R47, R48): where ticks run, the number goes up by one, the new tick has its
period's length, within 64 E-clocks of it while the unit slaves its phase, and the rest of the boundary follows in order. A
cycle that misses its boundary is counted late; at late_limit it is a fault.
The order beyond R43 is log entry 16. -/
def Obligations.TickBoundary : Prop :=
  ∀ (raws : List (BitVec 16)) (partnerOk lpownIn : Bool) (s : State),
    (ticking s = false → exec (.tickBoundary raws partnerOk lpownIn) s = .next (settle s)) ∧
    (ticking s = true → ∃ u, exec (.tickBoundary raws partnerOk lpownIn) s =
        .next { settle (boundary raws u) with evt.atBnd := true } ∧
      u.clk.tick = s.clk.tick + 1 ∧ u.clk.boundaryE = s.clk.boundaryE + s.clk.tickLen ∧ u.felt.partnerOk = partnerOk ∧
      u.felt.lpownIn = lpownIn ∧ tickE u.clk.tickSel ≤ u.clk.tickLen + 64 ∧ u.clk.tickLen ≤ tickE u.clk.tickSel + 64 ∧
      (s.clk.loopOn = false → u.clk.tickLen = tickE u.clk.tickSel) ∧
      (s.md.mode ≠ .thread → u.clk.tickSel = s.clk.tickSel) ∧ (s.md.mode = .thread → u.clk.tickSel = s.clk.nextSel) ∧
      u.exe = s.exe ∧ u.md = { s.md with faultNow := false } ∧ u.fl.fresh = 0 ∧ u.fl.blocks = s.fl.blocks) ∧
    (couchDue s = true → cycleComplete s = false → anyHalted s = false →
      (lateCycle s).clk.lateCnt = satInc (2 ^ 32 - 1) s.clk.lateCnt ∧ (lateCycle s).clk.lateRun = satInc 255 s.clk.lateRun ∧
      (satInc 255 s.clk.lateRun = s.clk.lateLimit →
        (lateCycle s).clk.lateHold = true ∧ (lateCycle s).md.pendF = s.md.pendF ++ [0x0202]) ∧
      (satInc 255 s.clk.lateRun ≠ s.clk.lateLimit → (lateCycle s).md = s.md))

/-- The faults of a boundary (R60, R61, R527): the unit enters HOLD/F with the lowest code, the engine stops and LPOWN falls;
in DORMANT the latch is set and the mode stays; an earlier fault keeps its code. -/
def Obligations.BoundaryFaults : Prop :=
  ∀ s : State, s.md.pendF ≠ [] →
    (s.md.mode ≠ .dormant → ¬ (s.md.mode = .hold ∧ s.md.fault = true) →
      (takeFaults s).md.mode = .hold ∧ (takeFaults s).md.fault = true ∧ (takeFaults s).md.pendF = [] ∧
      (takeFaults s).md.faultEvt = (if s.md.fault then s.md.faultEvt else lowest s.md.pendF) ∧
      (takeFaults s).exe.inCycle = false ∧ (takeFaults s).md.faultNow = true ∧ (s.md.mode = .active → (takeFaults s).felt.lpown = false)) ∧
    (s.md.mode = .dormant → (takeFaults s).md.mode = .dormant ∧ (takeFaults s).md.fault = true ∧
      (takeFaults s).md.faultEvt = (if s.md.fault then s.md.faultEvt else lowest s.md.pendF)) ∧
    (lowest s.md.pendF ∈ s.md.pendF ∧ ∀ c ∈ s.md.pendF, lowest s.md.pendF ≤ c)

/-- The sample point and the dispatch of tasks (R42, R122, R124, R165): the image latched is the one that the sample point
forms, once in a cycle and in its first tick; the tick task starts with the tick number in A; a pending event task starts
with the registers of its trigger; neither leaves where pipe 0 is halted. -/
def Obligations.SampleAndDispatch : Prop :=
  ∀ s : State,
    (engineRuns s = true → s.exe.sampled = false → s.exe.first = s.clk.tick → ∃ t, exec .samplePoint s = .next t ∧
      t.exe.latched = sampleImage s ∧ t.exe.sampled = true ∧ t.exe.iPut = [] ∧ t.exe.couched = s.exe.couched ∧
      t.clk = s.clk ∧ t.md = s.md) ∧
    (s.exe.sampled = true ∨ s.exe.first ≠ s.clk.tick → exec .samplePoint s = .next (settle s)) ∧
    (engineRuns s = true → (running s).tickCount ≠ 0 → pipeHalted s 0 = false → pipe0Locked s = false →
      s.exe.dead.contains 0 = false → s.exe.tasks = [] → s.exe.pend = [] →
      ∃ t r, exec .tickTaskDispatch s = .next t ∧ t.exe.tasks = [r] ∧ r.task = 16 ∧ r.pos = (running s).tickFirst ∧
        r.tick = s.clk.tick ∧ r.run.regs.a = BitVec.ofNat 32 s.clk.tick ∧ r.run.regs.l = 0 ∧ r.run.opened = false ∧
        t.exe.pend = []) ∧
    (∀ g : Trigger, engineRuns s = true → pipeHalted s 0 = false → pipe0Locked s = false →
      s.exe.dead.contains 0 = false → s.exe.tasks = [] → s.exe.pend = [g] → (taskRange (running s) g.task).2 ≠ 0 →
      ∃ t r, exec .eventTaskDispatch s = .next t ∧ t.exe.tasks = [r] ∧ r.task = g.task ∧
        r.pos = (taskRange (running s) g.task).1 ∧ r.run.regs.a = g.a ∧ r.run.regs.l = g.l ∧ r.tick = s.clk.tick ∧
        t.exe.pend = []) ∧
    (pipeHalted s 0 = true → s.dbg.s0Only = false →
      exec .tickTaskDispatch s = .next (settle s) ∧ exec .eventTaskDispatch s = .next (settle s))

/-- Couch on completion (R44, R45, R171): where it may take place, the sheet couches in this E-clock and the next cycle's
first tick is the next one, or this one in the boundary's own E-clock; where an urgent frame could still end before the next sweep, each block gets one with the
sheet's outputs. Otherwise nothing happens. The end of a felt copy lets a waiting couch take place. The tick of a couch is log
entry 17. -/
def Obligations.CouchOnCompletion : Prop :=
  ∀ (e : Nat) (s : State),
    let c := { s with felt.copying := false }
    let sheet := fun (u : State) => couch (if e = 0 then s.clk.tick else s.clk.tick + 1) e false { u with clk.lateRun := 0 }
    let couched := fun (u t : State) => t = { sheet u with fl.urg := t.fl.urg, exe.qimm := t.exe.qimm } ∧
      (s.clk.tickLen < e + 384 → t.fl.urg = (sheet u).fl.urg) ∧
      (e + 384 ≤ s.clk.tickLen → ∀ fb, fb < (sheet u).fl.n → ∃ x ∈ t.fl.urg, x.fb = fb ∧
        ∀ j, j < 8 → bitOf x.mask j = true ∧ bitOf x.val j = bitOf (outByte (sheet u) false fb) j)
    (mayCouch s = true → ∃ t, exec (.cycleComplete e) s = .next (settle t) ∧ couched s t) ∧
    (mayCouch s = false → exec (.cycleComplete e) s = .next (settle s)) ∧
    (mayCouch c = true → ∃ t, exec (.feltCopyEnd e) s = .next (settle t) ∧ couched c t) ∧
    (mayCouch c = false → exec (.feltCopyEnd e) s = .next (settle c))

/-- The sheet that couches (R43, R117, R162): its I image and lane-event words are the latched ones; every other byte is the
last couched sheet's with the writes of the strands' verified networks over it. -/
def Obligations.SheetThatCouches : Prop :=
  ∀ (s : State) (a : Nat), Memory.wf 0 s.exe.latched = true →
    (∀ e ∈ s.exe.latched, (inI e.1 || inEv e.1) = true) →
    ((inI a || inEv a) = true → tget 0 (wetSheet s) a = tget 0 s.exe.latched a) ∧
    ((inI a || inEv a) = false → (∀ k, k < 4 → tget 0 (strand k s).com.mask a = 0) →
      tget 0 (wetSheet s) a = tget 0 s.exe.couched a)

/-- The edit ring (R23, R24, R25): a new entry waits in its place with its sequence number and status 0 until a couch or a
boundary takes it; while 64 entries are pending none is written, and the management core tries again. -/
def Obligations.RingEntriesWait : Prop :=
  ∀ (auth : Bool) (arg off : Word) (s : State),
    let entry := fun (kind stageOff : Nat) =>
      ({ kind := kind, flags := b2n auth, seq := 0, arg := arg.toNat, stageOff := stageOff, status := 0 } : RingEntry)
    let put := fun (kind stageOff : Nat) => settle { s with
      ring.slots := tset {} s.ring.slots (s.ring.put % 64) { entry kind stageOff with seq := s.ring.put % 65536 },
      ring.put := s.ring.put + 1 }
    let retried := fun (kind stageOff : Nat) => settle { s with
      hmp.retries := s.hmp.retries ++ [(0, 0, entry kind stageOff, 0)] }
    (s.ring.put < s.ring.take + 64 →
      exec (.modeRequest auth arg) s = .next (put 1 0) ∧ exec (.editStaged auth arg off) s = .next (put 2 off.toNat) ∧
      exec (.trialStart auth arg) s = .next (put 3 0) ∧ exec (.trialCommit auth arg) s = .next (put 4 0) ∧
      exec (.trialDiscard auth arg) s = .next (put 5 0) ∧ exec (.acceptAnyway auth arg) s = .next (put 6 0)) ∧
    (s.ring.take + 64 ≤ s.ring.put →
      exec (.modeRequest auth arg) s = .next (retried 1 0) ∧
      exec (.editStaged auth arg off) s = .next (retried 2 off.toNat) ∧
      exec (.trialStart auth arg) s = .next (retried 3 0) ∧ exec (.trialCommit auth arg) s = .next (retried 4 0) ∧
      exec (.trialDiscard auth arg) s = .next (retried 5 0) ∧ exec (.acceptAnyway auth arg) s = .next (retried 6 0))

/-- Edit ring entries taken in HOLD, where none waits before them (R59 to R63, R174, R181, R182): the command completes, and at
the boundary that takes its entry a mode request has its effect or is refused with status 2, an edit is staged, committed,
discarded or accepted by its rules.
The order of a swap is log entry 42. -/
def Obligations.RingEntriesInHold : Prop :=
  ∀ (id off : Word) (s : State), s.md.mode = .hold → s.ring.put = s.ring.take →
    let status := fun (t : State) => (ringEntry t s.ring.take).status
    let taken := fun (t : State) => t.ring.take = s.ring.take + 1 ∧ t.ring.put = s.ring.put + 1
    let staged := stagedProg (shadow s) off.toNat
    let free := s.md.faultNow = false ∧ s.md.fault = false ∧ s.felt.rel = none
    (s.md.fault = true → s.md.faultNow = false → ∃ u, exec (.modeRequest true 0x202) s = .next u ∧
      let t := takeEntries u
      status t = 1 ∧ taken t ∧ t.md = { s.md with fault := false, faultEvt := 0, prev := .hold } ∧ t.exe = s.exe) ∧
    (s.md.fault = true → ∃ u, exec (.modeRequest false 0x202) s = .next u ∧
      let t := takeEntries u
      status t = 2 ∧ taken t ∧ t.md = s.md) ∧
    (s.md.faultNow = true → ∃ u, exec (.modeRequest true 0x202) s = .next u ∧
      let t := takeEntries u
      status t = 2 ∧ taken t ∧ t.md = s.md) ∧
    (free → paired s = false → (running s).valid = true → ∃ u, exec (.modeRequest false 3) s = .next u ∧
      let t := takeEntries u
      status t = 1 ∧ taken t ∧ t.md = { s.md with stepDown := some .active, dormReq := false, heldWake := false }) ∧
    (free → (running s).valid = false → ∃ u, exec (.modeRequest false 3) s = .next u ∧
      let t := takeEntries u
      status t = 2 ∧ taken t ∧ t.md = s.md) ∧
    (free → ∃ u, exec (.modeRequest false 5) s = .next u ∧
      let t := takeEntries u
      status t = 1 ∧ taken t ∧ t.md.dormReq = true ∧ t.md.laneReq = 0 ∧ t.exe.rfl = true ∧ t.md.mode = .hold) ∧
    (s.trial.st = .idle → editLayoutOk (shadow s) id.toNat off.toNat = true →
      failedChecks (checkCtx s) staged.1 staged.2 = [] → ∃ u, exec (.editStaged false id off) s = .next u ∧
      let t := takeEntries u
      status t = 1 ∧ taken t ∧ t.trial.st = .staged ∧ t.trial.editId = id.toNat ∧ t.trial.cycles = 0 ∧
        t.exe.runSlot = s.exe.runSlot ∧ t.exe.couched = s.exe.couched) ∧
    (s.trial.st = .idle → editLayoutOk (shadow s) id.toNat off.toNat = false →
      ∃ u, exec (.editStaged false id off) s = .next u ∧
      let t := takeEntries u
      status t = 2 ∧ taken t ∧ t.trial = s.trial ∧ t.exe = s.exe) ∧
    (s.trial.st = .staged → s.trial.editId = id.toNat → ∃ u, exec (.trialCommit true id) s = .next u ∧
      let t := takeEntries u
      status t = 1 ∧ taken t ∧ t.exe.runSlot = 1 - s.exe.runSlot ∧ t.trial.st = .idle ∧ t.trial.lastEdit = id.toNat ∧
        t.trial.persist = some id.toNat ∧ t.exe.nextFull = 2 ∧ t.exe.ledger = []) ∧
    (∃ u, exec (.trialCommit false id) s = .next u ∧
      let t := takeEntries u
      status t = 2 ∧ taken t ∧ t.trial = s.trial ∧ t.exe = s.exe) ∧
    (s.trial.st ≠ .idle → s.trial.editId = id.toNat → ∃ u, exec (.trialDiscard false id) s = .next u ∧
      let t := takeEntries u
      status t = 1 ∧ taken t ∧ t.trial.st = .idle ∧ t.exe = s.exe) ∧
    (s.trial.st = .failed → s.trial.editId = id.toNat → s.trial.k ≤ s.trial.compared → pairGuard s = true →
      ∃ u, exec (.acceptAnyway true id) s = .next u ∧
      let t := takeEntries u
      status t = 1 ∧ taken t ∧ t.exe.runSlot = 1 - s.exe.runSlot ∧ t.trial.st = .idle) ∧
    (s.trial.compared < s.trial.k → ∃ u, exec (.acceptAnyway true id) s = .next u ∧
      let t := takeEntries u
      status t = 2 ∧ taken t ∧ t.trial = s.trial ∧ t.exe = s.exe)

/-- A trial start taken in ACTIVE (R175, R178): the trial starts from a copy of the couched sheet, and live execution goes on
as it was. -/
def Obligations.TrialStarts : Prop :=
  ∀ (id : Word) (auth : Bool) (s : State), s.md.mode = .active → s.ring.put = s.ring.take → s.trial.st = .staged →
    s.trial.editId = id.toNat → onlineOk s (shadow s) = true → ∃ u, exec (.trialStart auth id) s = .next u ∧
      let t := takeEntries u
      (ringEntry t s.ring.take).status = 1 ∧ t.trial.st = .running ∧ t.trial.sheet = s.exe.couched ∧
        t.trial.compared = 0 ∧ t.trial.started = false ∧ t.exe = s.exe ∧ t.md = s.md

/-- The felt link (R36, R72, R86, R87, R185, R190, R191, R192, R194, R199, R203): a short frame with a bad CRC is counted and
does nothing else; a good one ends the partner's silence and has its effect; training and its loss, and a missed heartbeat.
The moments of takeover are log entries 20 to 22. -/
def Obligations.FeltFrames : Prop :=
  ∀ (w : FeltWire) (s : State), feltOn s = true →
    let bad := settle { s with felt.crcShort := satInc 65535 s.felt.crcShort }
    let u := feltHeard w s
    (s.felt.trained = false → ∃ t, exec .feltLinkTrained s = .next t ∧ t.felt.trained = true ∧ t.felt.lane0 = true ∧
      t.felt.lane1 = true ∧ t.felt.wasTrained = true ∧ t.felt.lostTicks = 0 ∧ t.md = s.md ∧
      (slaved s = true → t.clk.loopOn = true) ∧ (slaved s = false → t.clk = s.clk)) ∧
    (s.felt.trained = true →
      exec (.feltSyncLoss 0) s = .next (settle (raise 0x0907 0
        { s with felt.lane0 := false, felt.trained := false, felt.lostTicks := 0 })) ∧
      exec (.feltSyncLoss 1) s = .next (settle (raise 0x0907 0
        { s with felt.lane1 := false, felt.trained := false, felt.lostTicks := 0 }))) ∧
    (s.felt.trained = false → exec (.feltSyncLoss 0) s = .next (settle { s with felt.lane0 := false })) ∧
    (∀ (mode flags : Byte) (consistent : BitVec 48) (gapRun : Byte) (arrive : BitVec 20),
      let data := heartbeatData mode.toNat flags.toNat consistent.toNat gapRun.toNat
      (Arrives 1 w data s → s.clk.loopOn = false ∨ slaved s = false → inPhase s = true → s.md.dormMark = false →
        exec (.heartbeat mode flags consistent gapRun arrive w) s = .next (settle { u with
          felt.partnerMode := some mode.toNat, felt.partnerFlags := flags.toNat,
          felt.partnerTick := consistent.toNat, felt.partnerGap := gapRun.toNat,
          felt.returnAsked := decide (s.md.mode = .active) && bitOf flags.toNat 3 && decide (mode = 4) })) ∧
      (Arrives 1 w data s → s.clk.loopOn = true → slaved s = true → 0 < s.clk.tickLen →
        ∃ t, exec (.heartbeat mode flags consistent gapRun arrive w) s = .next t ∧ t.felt.silence = 0 ∧
          t.felt.partnerMode = some mode.toNat ∧ t.clk.phasePrev = s.clk.phaseErr ∧
          2 * t.clk.phaseErr.natAbs ≤ s.clk.tickLen) ∧
      (frameGood w data = false → exec (.heartbeat mode flags consistent gapRun arrive w) s = .next bad)) ∧
    (¬ (s.md.mode = .standby ∧ s.felt.silence = 2) →
      exec .heartbeatMissed s = .next (settle { s with felt.silence := min 15 (s.felt.silence + 1) })) ∧
    (s.md.mode = .standby → s.felt.silence = 2 → s.felt.witness = false → s.felt.ready = true →
      exec .heartbeatMissed s = .next (settle (raise 0x0909 3 { s with felt.silence := 3, felt.ready := false }))) ∧
    (∀ (couch : BitVec 48) c, Arrives 2 w (leBytes 6 couch.toNat) s → s.felt.lastCopy = some c → c.tick = couch.toNat →
      s.felt.swapMark = none → s.felt.dormMark = false →
      ∃ t, exec (.acknowledge couch w) s = .next t ∧ t.felt.base = some couch.toNat ∧ t.felt.silence = 0 ∧
        ∀ e ∈ s.felt.pages, (e ∈ t.felt.pages ↔ couch.toNat + 1 < e.2)) ∧
    (Arrives 3 w [] s → exec (.fullRequest w) s = .next (settle { u with felt.fullNext := true })) ∧
    (frameGood w [] = false → exec (.fullRequest w) s = .next bad) ∧
    (∀ count, Arrives 4 w [count] s → s.md.mode = .thread → s.nego.waitRelease = true →
      ∃ t, exec (.releaseReport count w) s = .next t ∧ t.nego.waitRelease = false ∧ t.md.thStat = 11 ∧
        bitOf t.nego.parts 5 = true ∧ t.fl.foreign = false) ∧
    (∀ (id : Word) (digest : BitVec 256), Arrives 5 w (editData id.toNat digest.toNat) s →
      exec (.editReport id digest w) s = .next (settle { u with
        felt.reportId := id.toNat, felt.reportDigest := digest.toNat })) ∧
    (∀ causes : Byte, Arrives 6 w [causes] s → s.md.mode = .dormant → s.md.wakeStep = 0 →
      ∃ t, exec (.wakeFrame causes w) s = .next t ∧ t.md.wakeStep = 1 ∧ t.md.mode = .dormant ∧
        ∀ k, k < 5 → bitOf t.md.wakeCause k = (bitOf s.md.wakeCause k || causes.getLsbD k)) ∧
    (∀ d : BitVec 256, Arrives 7 w (negoData (.cfg d)) s → s.md.mode = .thread → s.md.thStat ≠ 10 →
      ∃ t, exec (.negotiationFrame (.cfg d) w) s = .next t ∧ t.nego.cfg = d.toNat ∧ bitOf t.nego.parts 1 = true ∧
        t.md = s.md) ∧
    (∀ id : Word, Arrives 8 w (leBytes 4 id.toNat) s → receiving s = false →
      ∃ turn, exec (.probe id w) s = .next (settle (sendShort 0x09 (echoData id.toNat turn)
        { u with felt.turn := turn, free := s.free + 1 }))) ∧
    (∀ (id turn : Word) (roundE : BitVec 32) (n : Nat), Arrives 9 w (echoData id.toNat turn.toNat) s →
      s.md.mode = .thread → s.felt.probeId = id.toNat → (roundE.toNat : Int) - turn.toNat = 4 * (n : Int) →
      exec (.echo id turn roundE w) s = .next (settle { u with felt.delayNs := 5 * n }))

/-- Copies at the standby (R201, R202): a copy whose two bursts are whole and that follows on the last consistent one is
applied, acknowledged, and becomes the last consistent one; any other, and one that a bubble touched, is a gap that leaves
the sheet as it was. -/
def Obligations.CopyReceived : Prop :=
  ∀ (a b : Option (List Byte)) (s : State), receiving s = true → feltOn s = true → s.md.mode = .standby →
    (∀ c, goodCopy a b = some c →
      (s.felt.consistent = none ∧ c.full = true) ∨
        (∃ n, s.felt.consistent = some n ∧ n < c.tick ∧ (c.full = true ∨ c.base ≤ n)) →
      c.swap = none → c.klp = none → c.pair = none → s.felt.offerDue = false → c.dorm = false → c.handover = false →
      ∃ t, exec (.copyReceived a b false) s = .next t ∧ t.exe.couched = applyCopy c s.exe.couched ∧ t.exe.couchTick = c.tick ∧
        t.felt.consistent = some c.tick ∧ t.felt.gapRun = 0 ∧ t.felt.silence = 0 ∧ t.md = s.md ∧
        t.exe.prog0 = s.exe.prog0 ∧ shortFrame 0x02 s.clk.tick (leBytes 6 c.tick) ∈ t.felt.sent) ∧
    (∀ bubble, bubble = true ∨ goodCopy a b = none ∨
        (∃ c n, goodCopy a b = some c ∧ s.felt.consistent = some n ∧ c.tick ≤ n) →
      ∃ t, exec (.copyReceived a b bubble) s = .next t ∧ t.exe.couched = s.exe.couched ∧
        t.felt.consistent = s.felt.consistent ∧ t.felt.gaps = satInc (2 ^ 32 - 1) s.felt.gaps ∧ t.felt.goodRun = 0 ∧
        t.felt.gapRun = min 2 (s.felt.gapRun + 1))

/-- What a copy brings (R196 to R198): I and Q whole and the named pages, timer presets aside; every other byte of the
standby's sheet stays. -/
def Obligations.CopyContent : Prop :=
  ∀ (c : Copy) (m : Memory) (a : Nat), Memory.wf 0 c.mem = true →
    let named := if c.full then List.range 416 else c.pages
    let brought := (0x11000000 ≤ a ∧ a < 0x11000800) ∨ (∃ p, pageOf a = some p ∧ p ∈ named ∧ isPreset a = false)
    (brought → tget 0 (applyCopy c m) a = tget 0 c.mem a) ∧ (¬ brought → tget 0 (applyCopy c m) a = tget 0 m a)

/-- Lane domains, ports and check values (R66, R67, R68, R69, R71, R107, R260, R300, R389, R394, R488): a write of LANE_PWR asks
on the used lanes only; a powering domain reaches on; at a tick boundary a closing one that is empty or at its limit is
flushed, and DORMANT follows when every domain is off; a restart is asked of a running port; a unit forgets its alive counter;
a wake begins the sequence or is held.
What LANE_PWR reads and the moments of closing are log entries 14 and 15. -/
def Obligations.LaneDomains : Prop :=
  ∀ (n : Fin 8) (s : State),
    let x := lane s n
    (∀ v : Byte, s.md.mode ≠ .backup → ∃ t, exec (.lanePwrWrite v) s = .next t ∧ t.md.lanePwr = s.md.lanePwr ∧
      t.md.mode = s.md.mode ∧ t.exe = s.exe ∧ ∀ l : Fin 8, bitOf t.md.laneReq l = (v.getLsbD l && laneUsed s l)) ∧
    (∀ on, s.md.mode ≠ .backup → ∃ t, exec (.laneCtlWrite n on) s = .next t ∧ t.md.lanePwr = s.md.lanePwr ∧
      bitOf t.md.laneReq n = (on && laneUsed s n) ∧
      ∀ l : Fin 8, l ≠ n → bitOf t.md.laneReq l = (bitOf s.md.laneReq l && laneUsed s l)) ∧
    (x.dom = .powering → ticking s = true → ∃ t, exec (.laneDomainOn n) s = .next t ∧ (lane t n).dom = .on ∧
      (∀ l : Fin 8, l ≠ n → (lane t l).dom = (lane s l).dom) ∧ t.md = s.md ∧ t.exe = s.exe) ∧
    (s.evt.atBnd = true →
      (x.dom = .closing → x.flushed = false → drainTicks s ≤ x.closeN ∨ laneHolds s n = false →
        exec (.closeFlush n) s = .next { settle (closeFlush n s) with evt.atBnd := true } ∧
          (lane (closeFlush n s) n).flushed = true ∧
          (lane (closeFlush n s) n).closeDrop = satAdd (2 ^ 32 - 1) (lane (flushLane n s).2 n).closeDrop (flushLane n s).1) ∧
      (x.dom ≠ .closing ∨ x.flushed = true ∨ (x.closeN < drainTicks s ∧ laneHolds s n = true) →
        exec (.closeFlush n) s = .next { settle s with evt.atBnd := true }) ∧
      (ticking s = true → s.md.mode = .hold → s.md.dormReq = true → s.exe.rfl = false →
        (∀ l, l < 8 → (lane s l).dom = .off) →
        (s.md.heldWake = false → ∃ t, exec .dormantEntry s = .next t ∧ t.md.mode = .dormant ∧ t.md.prev = .hold ∧
          t.md.dormReq = false ∧ t.md.mSlow = true ∧ t.md.fault = s.md.fault ∧ t.wd.dorm = true ∧ t.exe = s.exe) ∧
        (s.md.heldWake = true → ∃ t, exec .dormantEntry s = .next t ∧ t.md.mode = .hold ∧ t.md.dormReq = false ∧
          t.md.heldWake = false ∧ t.md.wakeStep ≠ 0 ∧ t.md.wakeCause = s.md.wakeCause ∧ t.exe = s.exe ∧
          (paired s = true → t.felt.wakeOut = s.md.wakeCause))) ∧
      (s.md.mode ≠ .hold ∨ s.md.dormReq = false ∨ s.exe.rfl = true ∨ (∃ l, l < 8 ∧ (lane s l).dom ≠ .off) →
        exec .dormantEntry s = .next { settle s with evt.atBnd := true })) ∧
    (s.evt.atBnd = false → exec (.closeFlush n) s = .next (settle s) ∧ exec .dormantEntry s = .next (settle s)) ∧
    (∀ e : Fin 56, portState s e = 2 →
      exec (.portCtlRestart e) s = .next (settle (modEng e (fun x => { x with restart := true }) s))) ∧
    (∀ e : Fin 56, portState s e ≠ 2 → exec (.portCtlRestart e) s = .next (settle s)) ∧
    (∀ u : Fin 64, ∃ t, exec (.cvForget u) s = .next t ∧ cvUnit t u = { cvUnit s u with p := none } ∧
      ∀ w, w ≠ u.val → cvUnit t w = cvUnit s w) ∧
    (∀ k : Fin 5, ticking s = true → k.val = 4 ∨ bitOf (wakeSrc s) k = true →
      (s.md.mode = .dormant → paired s = false ∨ s.md.prev ≠ .standby ∨ s.felt.trained = false → s.md.wakeStep = 0 →
        ∃ t, exec (.wake k) s = .next t ∧ t.md.wakeStep = 1 ∧ bitOf t.md.wakeCause k = true ∧ t.md.mode = .dormant ∧
          (paired s = true → t.felt.wakeOut = t.md.wakeCause)) ∧
      (s.md.mode ≠ .dormant → s.md.dormReq = true → ∃ t, exec (.wake k) s = .next t ∧ t.md.heldWake = true ∧
        bitOf t.md.wakeCause k = true ∧ t.md.wakeStep = s.md.wakeStep ∧ t.md.mode = s.md.mode)) ∧
    (∀ k : Fin 5, k.val ≠ 4 → bitOf (wakeSrc s) k = false → exec (.wake k) s = .next (settle s))

/-- Frames at a lane port that operates and names a dialect (R262, R270, R271, R272, R274, R279, R288): a frame that matches and
whose extractions succeed is accepted, ends a poll and a fault, and pulses its lane-event bit; one that matches nothing, is
too long, or breaks off is discarded and counted, on its port and on its lane; a byte in a frame
joins it; where no cell may be taken the frame goes. -/
def Obligations.PortFrames : Prop :=
  ∀ (e : Fin 56) (raw : List Byte) (s : State), portState s e = 2 → (eng s e).up = true → dialectOf s e ≤ 31 →
    let x := eng s e
    let broken := fun (t : State) => (eng t e).err = satField 8 8 x.err ∧ (eng t e).raw = [] ∧ (eng t e).inFrame = false ∧
      (eng t e).rx = x.rx ∧ ∀ n, engLane s e = some n → (lane t n).disc = ((lane s n).disc + 1) % 2 ^ 32
    (2048 < raw.length → ∃ t, exec (.frameReceived e raw) s = .next t ∧ (eng t e).err = satField 24 8 x.err ∧
      (eng t e).resync = true ∧ (eng t e).rx = x.rx) ∧
    (∀ fr m vs, raw.length ≤ 2048 → noCells s (cellsOf raw.length) = false → plainFrame s e raw = (fr, false) →
      dlFlag s e 1 = false → mapMatch s e fr = some m → extractAll s e fr = some vs → laneShut s (mapLane s e m vs) = false →
      let n := mapLane s e m vs
      let evb := dl s e (192 + 16 * m + 8) 1 0xFF
      let bit := evb + port s e 28 1 0
      ∃ t, exec (.frameReceived e raw) s = .next t ∧ (eng t e).rx = (x.rx + 1) % 2 ^ 32 ∧ (eng t e).fault = false ∧
        (eng t e).missRun = 0 ∧ (eng t e).poll = none ∧ (eng t e).raw = [] ∧ (eng t e).inFrame = false ∧
        (eng t e).err = x.err ∧ (eng t e).wait = x.wait ∧
        (evb ≠ 0xFF → tget 0 (lane s n).pends bit < 15 →
          tget 0 (lane t n).pends bit = tget 0 (lane s n).pends bit + 1) ∧
        (evb = 0xFF → (lane t n).pends = (lane s n).pends) ∧ t.md = s.md) ∧
    (∀ fr, raw.length ≤ 2048 → noCells s (cellsOf raw.length) = false → plainFrame s e raw = (fr, false) →
      dlFlag s e 1 = false → mapMatch s e fr = none →
      ∃ t, exec (.frameReceived e raw) s = .next t ∧ (eng t e).err = satField 0 8 x.err ∧ (eng t e).rx = x.rx ∧
        (∀ n, engLane s e = some n → (lane t n).disc = ((lane s n).disc + 1) % 2 ^ 32) ∧
        (dlFlag s e 4 = true → nakString s e ≠ [] → ctsStops s e = false → (eng t e).sentTpl = nakString s e)) ∧
    (raw.length ≤ 2048 → noCells s (cellsOf raw.length) = true → e.val < 48 ∨ 51 < e.val →
      exec (.frameReceived e raw) s = .next (settle (noBuffer (engSlot s e) (dropFrame e s)))) ∧
    (∀ quiet : BitVec 17,
      let part := partOfFrame s e
      let need := if dl s e 18 2 0 = 0 then 35 else dl s e 18 2 0
      (dl s e 0 1 0 = 3 → part ≠ [] → dl s e 16 2 35 ≤ quiet.toNat →
        exec (.gapExpiry ⟨e, quiet⟩) s = .next (settle (processFrame e part s))) ∧
      (dl s e 0 1 0 = 3 → part ≠ [] → quiet.toNat < dl s e 16 2 35 → exec (.gapExpiry ⟨e, quiet⟩) s = .next (settle s)) ∧
      (dl s e 0 1 0 ≠ 3 ∨ part = [] → need ≤ quiet.toNat →
        exec (.gapExpiry ⟨e, quiet⟩) s = .next (settle (modEng e (fun x => { x with resync := false }) s))) ∧
      (dl s e 0 1 0 ≠ 3 ∨ part = [] → quiet.toNat < need → exec (.gapExpiry ⟨e, quiet⟩) s = .next (settle s)) ∧
      (dl s e 18 2 0 ≠ 0 → part ≠ [] → ∃ t, exec (.ibtoExpiry e) s = .next t ∧ broken t)) ∧
    (dl s e 18 2 0 = 0 → exec (.ibtoExpiry e) s = .next (settle s)) ∧
    (∀ data, ∃ t, exec (.byteReceived e data true) s = .next t ∧ broken t) ∧
    (∀ data : BitVec 9, data.getLsbD 8 = false → x.inFrame = true →
      let b : Byte := data.extractLsb' 0 8
      let full := x.raw.length % 128 = 0 ∧ noCells s 1 = true
      (full → exec (.byteReceived e data false) s = .next (settle (noBuffer (engSlot s e) (dropFrame e s)))) ∧
      (¬ full → frameFate s e (x.raw ++ [b]) x.trail = .more → ∃ t, exec (.byteReceived e data false) s = .next t ∧
        (eng t e).raw = x.raw ++ [b] ∧ (eng t e).inFrame = true ∧ (eng t e).err = x.err ∧ (eng t e).rx = x.rx) ∧
      (¬ full → frameFate s e (x.raw ++ [b]) x.trail = .whole →
        exec (.byteReceived e data false) s = .next (settle (processFrame e (x.raw ++ [b]) s))) ∧
      (¬ full → frameFate s e (x.raw ++ [b]) x.trail = .impossible → ∃ t, exec (.byteReceived e data false) s = .next t ∧
        (eng t e).err = satField 24 8 x.err ∧ (eng t e).resync = true ∧ (eng t e).inFrame = false))

/-- Replies, polls and USB and CAN ports (R262, R263, R264, R265, R276, R277, R516): an ACK in time completes the awaited frame;
a NAK or a deadline that has passed resends it, or drops it when its resends are used up; miss_limit failures in a row set
fault; a poll goes out in its tick; a function is bound, lost and cut off; bus-off sets fault and its recovery clears it. -/
def Obligations.PortReplies : Prop :=
  (∀ (e : Fin 56) (s : State), (eng s e).up = (portState s e == 2) →
    let x := eng s e
    let missed := fun (t : State) => (eng t e).missRun = min 15 (x.missRun + 1) ∧ (eng t e).tx = x.tx ∧
      (min 15 (x.missRun + 1) = dl s e 15 1 3 → (eng t e).fault = true) ∧
      (min 15 (x.missRun + 1) ≠ dl s e 15 1 3 → (eng t e).fault = x.fault)
    let resent := fun (w : Wait) (t : State) => (eng t e).sentTpl = w.pkt.data ∧ (eng t e).tx = (x.tx + 1) % 2 ^ 32 ∧
      (eng t e).missRun = x.missRun ∧
      (eng t e).wait = some { w with tries := w.tries + 1, deadline := s.clk.tick + dl s e 23 1 4 }
    (∀ w, x.wait = some w →
      (s.clk.tick ≤ w.deadline → exec (.ackReceived e) s = .next (settle
        (modEng e (fun x => { x with wait := none, missRun := if x.fault then x.missRun else 0 }) s))) ∧
      (w.deadline < s.clk.tick → exec (.ackReceived e) s = .next (settle s)) ∧
      (ctsStops s e = false → w.tries < dl s e 27 1 2 → ∃ t, exec (.nakReceived e) s = .next t ∧ resent w t) ∧
      (dl s e 27 1 2 ≤ w.tries → ∃ t, exec (.nakReceived e) s = .next t ∧ (eng t e).wait = none ∧ missed t) ∧
      (ctsStops s e = false → x.poll = none → w.tries < dl s e 27 1 2 → w.deadline < s.clk.tick →
        ∃ t, exec (.replyDeadline e) s = .next t ∧ resent w t) ∧
      (x.poll = none → s.clk.tick ≤ w.deadline → exec (.replyDeadline e) s = .next (settle s))) ∧
    (∀ d, x.wait = none → x.poll = some d → d < s.clk.tick →
      ∃ t, exec (.replyDeadline e) s = .next t ∧ (eng t e).poll = none ∧ missed t) ∧
    (∀ status : Byte, x.up = true → ctsStops s e = false → dialectOf s e ≤ 31 → dlFlag s e 5 = true → x.poll = none →
      (s.clk.tick + max 1 (dl s e 28 2 1) * 65536 - dl s e 30 2 0) % max 1 (dl s e 28 2 1) = 0 →
      ∃ t, exec (.poll e status) s = .next t ∧ (eng t e).poll = some (s.clk.tick + dl s e 23 1 4) ∧
        (eng t e).sentTpl = pool s e (dl s e 32 2 0) (dl s e 34 1 0) ∧ (eng t e).tx = (x.tx + 1) % 2 ^ 32 ∧
        (eng t e).prnStatus = (if port s e 16 2 0 = 7 then status.toNat else x.prnStatus)) ∧
    (x.usbAddr = 0 → exec (.usbDetach e) s = .next (settle s)) ∧
    (x.usbAddr ≠ 0 → exec (.usbDetach e) s = .next (settle (raise 0x1206 (0x100 + e.val)
      (modEng e (fun x => { x with
        usbAddr := 0, speed := 0, usbPort := 255, raw := [], inFrame := false, wait := none, poll := none }) s))))) ∧
  (∀ (e : Fin 16) (active : Bool) (s : State),
    let x := eng s e
    let changed := modEng e (fun x => { x with cts := active }) s
    (bitOf (port s e 12 1 1) 6 = false ∨ x.cts = active →
      exec (.ctsChange e active) s = .next (settle changed)) ∧
    (bitOf (port s e 12 1 1) 6 = true → x.cts = true → ∃ n, n ≤ x.going.length ∧
      exec (.ctsChange e false) s = .next (settle { modEng e (fun x => { x with
        cts := false, going := x.going.drop n }) s with free := s.free + 1 })) ∧
    (bitOf (port s e 12 1 1) 6 = true → x.cts = false → x.waiting = [] →
      ∃ t, exec (.ctsChange e true) s = .next t ∧ eng t e = { x with cts := true } ∧
        ∀ d, d ≠ e.val → eng t d = eng s d) ∧
    (bitOf (port s e 12 1 1) 6 = true → x.cts = false → ∀ l n bs, x.waiting = l ++ [(n, bs)] →
      ∃ t, exec (.ctsChange e true) s = .next t ∧ (eng t e).waiting = [] ∧ (eng t e).sentTpl = bs ∧
        (eng t e).going = x.going ++ x.waiting.flatMap Prod.snd ∧ (eng t e).cts = true ∧
        (eng t e).tx = (x.tx + (x.waiting.map Prod.fst).sum) % 2 ^ 32)) ∧
  (∀ (h : Fin 8) (s : State),
    let es := [40 + h.val, 52, 53, 54, 55]
    (∀ e ∈ es, (eng s e).up = (portState s e == 2)) →
    (∀ cls vidpid addr speed, exec (.usbAttach h cls vidpid addr speed true) s =
      .next (settle (raise 0x1206 (0x200 + 40 + h.val) s))) ∧
    (∀ (cls : BitVec 16) (vidpid : BitVec 32) (addr : BitVec 8) (speed : BitVec 2),
      (∀ e, (es.find? fun e => bindable s e h cls.toNat vidpid.toNat) = some e →
        exec (.usbAttach h cls vidpid addr speed false) s = .next (settle (raise 0x1206 e (modEng e (fun x => { x with
          usbAddr := max 1 addr.toNat, speed := speed.toNat, usbPort := h.val }) s)))) ∧
      ((∀ e ∈ es, bindable s e h cls.toNat vidpid.toNat = false) →
        exec (.usbAttach h cls vidpid addr speed false) s = .next (settle (raise 0x1206 (40 + h.val) s)))) ∧
    ∃ t, exec (.usbOvercurrent h) s = .next t ∧ (eng t (40 + h.val)).oc = true ∧
      ∀ e ∈ es, (eng s e).usbAddr ≠ 0 → engLane s e = some h.val → (eng t e).fault = true) ∧
  ∀ (c : Fin 4) (s : State),
    let e := 48 + c.val
    (portState s e = 2 → (eng s e).up = true → ∃ t, exec (.canBusOff c) s = .next t ∧ (eng t e).busOff = true ∧
      (eng t e).fault = true ∧ (eng t e).rx = (eng s e).rx ∧ t.free = s.free + 2) ∧
    ((eng s e).busOff = true → ∃ t, exec (.canBusOffRecovery c) s = .next t ∧ (eng t e).busOff = false ∧
      (eng t e).fault = false ∧ (eng t e).tec = 0 ∧ (eng t e).recv = 0) ∧
    ((eng s e).busOff = false → exec (.canBusOffRecovery c) s = .next (settle s))

/-- The lane switch (R27, R28, R282, R283, R287, R288, R297, R299, R304, R323): a packet that passes the checks joins its queue's
tail; source, space and ingress buffers refuse one and count it; a choice takes the head of the queue that the scheduler
picks; a commit moves it to egress and its port; a cancel withdraws a waiting packet or comes late; a parameter write is
checked and staged.
What lies open in the egress is log entry 38 and not stated. -/
def Obligations.LaneSwitch : Prop :=
  (∀ (slot : Fin 57) (q : BitVec 11) (bytes : Nat) (dei : Bool) (data : List Byte) (s : State),
    let n := q.toNat
    let source := qPort s n ≠ 0xFF ∧ (qSrc s n = 0xFF ∨ qSrc s n = slot.val) ∧ ¬ (slot.val = 55 ∧ qSvc s n < 2)
    let room := queueCells s n + cellsOf bytes ≤ qMax s n ∧ cellsOf bytes ≤ freeCells s ∧
      (qSvc s n ≠ 0 → reserveLegal s + cellsOf bytes ≤ freeCells s)
    1 ≤ bytes → bytes ≤ 2048 →
    (source → qPol s n = 0xFFFF → slotShut s (qPort s n) = false → room →
      (∀ c, chosenAt s (qPort s n) = some c → qSvc s c.q ≤ qSvc s n) →
      ∃ u, exec (.packetAccepted slot q bytes dei data) s = .next (settle u) ∧
        queue u n = queue s n ++ [{ bytes := bytes, data := data, src := slot.val }] ∧
        (∀ m, m ≠ n → queue u m = queue s m) ∧ u.sw.chosen = s.sw.chosen ∧ u.sw.drop = s.sw.drop) ∧
    (source → qPol s n = 0xFFFF → slotShut s (qPort s n) = false → ¬ room →
      exec (.packetAccepted slot q bytes dei data) s = .next (settle (countDrop n 0 s))) ∧
    (¬ source → exec (.packetAccepted slot q bytes dei data) s = .next (settle (countDrop n 24 s)))) ∧
  (∀ (slot : Fin 57) (s : State),
    (slot.val ≠ 56 → noCells s 1 = true → ∃ u, exec (.ingressNoBuffer slot) s = .next (settle u) ∧
      u.sw = { s.sw with nobuf := satInc 65535 s.sw.nobuf } ∧
      (2 ≤ slot.val → slot.val ≤ 53 → (eng u (slot.val - 2)).raw = [] ∧ (eng u (slot.val - 2)).inFrame = false)) ∧
    (slot.val = 56 ∨ noCells s 1 = false → exec (.ingressNoBuffer slot) s = .next (settle s))) ∧
  (∀ (p : Fin 57) (s : State),
    (∀ v u q k rest, chosenAt s p = none → pickSvc s p = some v → pickSub s p v = some u → pickQueue s p v u = some q →
      queue s q = k :: rest → ∃ t c, exec (.selectionComplete p) s = .next (settle t) ∧ chosenAt t p = some c ∧ c.q = q ∧
        c.pkt = k ∧ queue t q = rest ∧ (∀ m, m ≠ q → queue t m = queue s m) ∧ t.sw.egr = s.sw.egr) ∧
    ((chosenAt s p).isSome = true ∨ pickSvc s p = none → exec (.selectionComplete p) s = .next (settle s)) ∧
    (chosenAt s p = none → exec (.commit p) s = .next (settle s)) ∧
    (∀ c e, chosenAt s p = some c → canStart s p c.pkt = true → sendingEng p c.pkt = some e →
      e < 48 ∨ 51 < e →
      ∃ u, exec (.commit p) s = .next (settle u) ∧ chosenAt u p = none ∧ tget 0 u.sw.egr p = cellsOf c.pkt.bytes ∧
        u.sw.queues = s.sw.queues ∧ (eng u e).sentTpl = c.pkt.data ∧ (eng u e).tx = ((eng s e).tx + 1) % 2 ^ 32 ∧
        (c.pkt.ack = true → (eng u e).wait = some { pkt := c.pkt, deadline := s.clk.tick + dl s e 23 1 4 })) ∧
    (∀ c, chosenAt s p = some c → canStart s p c.pkt = true → p.val < 2 → p.val = klpPort s → klpServed s = true → c.pkt.src ≠ 54 →
      c.pkt.typ ≠ 0 → c.pkt.form = 0 → (tget {} s.klp.sess (sessIdx c.pkt.lane)).isOpen = true →
      ∃ u, exec (.commit p) s = .next (settle u) ∧ chosenAt u p = none ∧ tget 0 u.sw.egr p = cellsOf c.pkt.bytes ∧
        let x := tget {} s.klp.sess (sessIdx c.pkt.lane)
        tget {} u.klp.sess (sessIdx c.pkt.lane) = { x with
          txNext := (x.txNext + 1) % 2 ^ 32, ackDue := none,
          unack := x.unack ++ [{ seq := x.txNext, typ := c.pkt.typ, tick := s.clk.tick, tries := 0, data := c.pkt.data }] }) ∧
    (∀ c, chosenAt s p = some c → canStart s p c.pkt = true → p.val = 56 → 0x20 ≤ c.pkt.typ → c.pkt.typ ≤ 0x23 →
      s.slu.down.length < 32 →
      ∃ u, exec (.commit p) s = .next (settle u) ∧ chosenAt u p = none ∧ u.slu.down = s.slu.down ++
        [{ code := c.pkt.typ - 0x1F, lane := c.pkt.lane, seq := s.slu.downSeq, data := c.pkt.data }]) ∧
    (∀ c, chosenAt s p = some c → canStart s p c.pkt = false → exec (.commit p) s = .next (settle s))) ∧
  (∀ (q : BitVec 11) (session : BitVec 16) (seq : BitVec 32) (s : State),
    let n := q.toNat
    let tag := (session.toNat, seq.toNat)
    (chosenAt s (qPort s n) = none → (queue s n).any (hasTag tag) = true →
      ∃ u, exec (.packetCancel q session seq) s = .next (settle u) ∧ queue u n = (queue s n).eraseP (hasTag tag) ∧
        (∀ m, m ≠ n → queue u m = queue s m) ∧ u.sw.answer = 0 ∧ u.sw.cancelLate = s.sw.cancelLate) ∧
    (chosenAt s (qPort s n) = none → (queue s n).any (hasTag tag) = false →
      (s.sw.sent.any fun e => hasTag tag e.2) = false →
      exec (.packetCancel q session seq) s = .next (settle { s with sw.answer := 1 })) ∧
    (chosenAt s (qPort s n) = none → (queue s n).any (hasTag tag) = false →
      (s.sw.sent.any fun e => hasTag tag e.2) = true →
      exec (.packetCancel q session seq) s = .next (settle (raise 0x1302 n { s with
        sw.cancelLate := satInc 65535 s.sw.cancelLate, sw.answer := 1 })))) ∧
  ∀ (a mask v : Word) (s : State), inSched a.toNat = true ∨ inPolicer a.toNat = true → a.toNat % 4 = 0 →
    let w : Staged := { addr := a.toNat, mask := mask, val := v }
    (unusedPort a.toNat = true → ∃ t, exec (.mirrorWrite a mask v) s = .next t ∧ t.bus.staged = s.bus.staged ∧
      t.sw.sched = s.sw.sched ∧ t.sw.polm = s.sw.polm ∧ t.exe = s.exe) ∧
    (unusedPort a.toNat = false → (mirrorTry a.toNat mask v (withStaged s)).isSome = true →
      exec (.mirrorWrite a mask v) s = .next (settle { s with bus.staged := s.bus.staged ++ [w] })) ∧
    (unusedPort a.toNat = false → mirrorTry a.toNat mask v (withStaged s) = none →
      ∃ t, exec (.mirrorWrite a mask v) s = .next t ∧ t.bus = { s.bus with status := 2, ans := 0 } ∧ t.exe = s.exe)


/-- Messages of a host (R316, R321, R322, R323, R324, R50): the next message of a session is delivered at once and
acknowledged. BAG, PRICE, TARE, ZERO and LDISP join their queue; DISPLAY, PRINT and DRAWER fill a template; DRAWER without
one, LIGHT and BELT enter the lane's program group; CANCEL withdraws a waiting packet; CLOSE closes.
That CLOSE gets no ack is log entry 23. -/
def Obligations.KlpMessages : Prop :=
  ∀ (d : KlpDgram) (i : Nat) (s : State),
    let ln := if i = 8 then 255 else i
    let v := delivered i d s
    let num := (tget {} s.klp.sess i).num
    let done := fun (t : State) => Host.Outcome.next (settle (scheduleAck i t))
    (∀ w, NextMessage 0x14 d i s → i < 8 → d.payload.length ≤ 12 →
      offerPkt (cf s 0x1C 0 62 2 0) (klpPort s) false (hostPkt 0x14 i d num) v = (.accepted, w) → exec (.bag d) s = done w) ∧
    (∀ typ c, (typ, c) ∈ [(0x20, Instr.price d), (0x21, .tare d), (0x22, .zero d), (0x23, .ldisp d)] → NextMessage typ d i s →
      (∀ w, i < 8 → laneLegal s i = true → d.payload.length ≤ 120 →
        offerPkt (cf s 0x1C 0 60 2 0) (klpPort s) false (hostPkt typ i d num) v = (.accepted, w) → exec c s = done w) ∧
      (i < 8 → laneLegal s i = false → exec c s = done (refuseMsg i d.seq 6 v))) ∧
    (∀ typ c e k w, (typ, c) ∈ [(0x24, Instr.display d), (0x25, .print d), (0x26, .drawer d)] → NextMessage typ d i s →
      routeTemplate s ln d.sub typ = some (e, k) →
      offerFrame e k d.payload (some (num, d.seq)) v = (some .accepted, w) → exec c s = done w) ∧
    (∀ typ c, (typ, c) ∈ [(0x26, Instr.drawer d), (0x27, .light d), (0x28, .belt d)] → NextMessage typ d i s →
      (typ = 0x26 → routeTemplate s ln d.sub typ = none) →
      let pw := cf s 0x1C 0 56 1 0xFF + (match (enginesOf s i).find? fun e => port s e 0 1 0 == 1 with
        | some e => port s e 29 1 0 | none => 0)
      let old := (lane s i).groups.find? fun g => g.first == pw
      cf s 0x1C 0 56 1 0xFF ≠ 0xFF → i < 8 → laneShut s i = false → d.payload.length ≤ 8 →
      (∀ g, old = some g → g.latest = false ∧ g.ents.length < 8) →
      ∃ t g, exec c s = .next t ∧ (lane t i).groups.head? = some g ∧ g.first = pw ∧
        g.ents = (match old with | some g => g.ents | none => []) ++
          [[BitVec.ofNat 32 (typ + 256 * d.sub + 65536 * d.payload.length), BitVec.ofNat 32 d.seq,
            BitVec.ofNat 32 (fld d.payload 0 4), BitVec.ofNat 32 (fld d.payload 4 4)]]) ∧
    (∀ q w, NextMessage 5 d i s →
      let target := beNat (d.payload.take 4)
      seqEarlier target d.seq = true → queueOfTag v (num, target) = some q →
      (queue v q ++ ((chosenList v).filter fun c => c.2.q == q).map fun c => c.2.pkt).any (fun k => hasTag (num, target) k &&
        (k.typ == 0x14 || (decide (0x20 ≤ k.typ) && decide (k.typ ≤ 0x23)))) = false →
      withdraw q (num, target) v = (true, w) →
      exec (.cancel d) s = done (klpSend ln 5 0 0 (beBytes 4 target ++ [0, 0, 0, 0]) w)) ∧
    (NextMessage 2 d i s → ∃ t, exec (.klpClose d) s = .next t ∧ tget {} t.klp.sess i = {} ∧
      ∀ j, j ≠ i → tget {} t.klp.sess j = tget {} s.klp.sess j)

/-- KLP sessions, their time-outs and the uplinks (R307, R314, R315, R317, R318, R326): OPEN opens a session with a number
from 1 to 65535 that expects the seq after its own; an ack removes what it acknowledges; a WAKE wakes a DORMANT unit; ack
delay, idling, resends; a frame with a bad FCS is counted; a whole datagram reaches the engine, a lone fragment waits.
That an ack equal to the next seq is taken is log entry 23. -/
def Obligations.KlpSessions : Prop :=
  ∀ s : State,
    (∀ d : KlpDgram, d.typ = 1 → d.uplink.val = klpPort s → servesAddr s d.v6 d.dst.toNat = true → headerCheck d = 0 →
      d.crcOk = true → d.session = 0 → (∀ x, tagFits s d x = true) → klpAuth s ≠ 2 ∨ d.tagged = true →
      d.lane = 255 ∨ (d.lane < 8 ∧ laneUsed s d.lane = true) →
      let i := sessIdx d.lane
      let x := tget {} s.klp.sess i
      x.isOpen = false ∨ (x.addr = d.addr.toNat ∧ x.port = d.sport.toNat ∧ x.v6 = d.v6) ∨ x.lastRx + idleTicks s < s.clk.tick →
      ∃ t, exec (.klpOpen d) s = .next t ∧
        let y := tget {} t.klp.sess i
        y.isOpen = true ∧ 1 ≤ y.num ∧ y.num ≤ 65535 ∧ y.rxNext = (d.seq + 1) % 2 ^ 32 ∧ y.addr = d.addr.toNat ∧
          y.port = d.sport.toNat ∧ y.own = d.dst.toNat ∧ y.held = [] ∧ y.unack = [] ∧ y.lastRx = s.clk.tick ∧
          ∀ j, j ≠ i → tget {} t.klp.sess j = tget {} s.klp.sess j) ∧
    (∀ (d : KlpDgram) i, Passes d.typ d i s → d.typ ≠ 1 → d.typ ≠ 6 → d.ackOnly = true →
      let x := tget {} s.klp.sess i
      exec (.ackOnly d) s = .next (settle (heard i d s)) ∧
        (d.ack = x.txNext ∨ seqEarlier d.ack x.txNext = true → seqEarlier d.ack x.lastAck = false →
          tget {} (heard i d s).klp.sess i = { x with
            lastRx := s.clk.tick, lastAck := d.ack, unack := x.unack.filter fun u => !seqEarlier u.seq d.ack }) ∧
        ((d.ack ≠ x.txNext ∧ seqEarlier d.ack x.txNext = false) ∨ seqEarlier d.ack x.lastAck = true →
          tget {} (heard i d s).klp.sess i = { x with lastRx := s.clk.tick })) ∧
    (∀ d : KlpDgram, d.typ = 6 → headerCheck d = 0 → d.crcOk = true → d.uplink.val = klpPort s →
      isOwn s (klpPort s) d.v6 d.dst.toNat = true ∨ (d.v6 = false ∧ d.dst.toNat = 0xFFFFFFFF) → d.session = 0 → d.lane = 255 →
      d.length = 24 → d.payload.take 16 = s.img.storeUuid ++ List.replicate (16 - s.img.storeUuid.length) 0 →
      let ctr := beNat ((d.payload.drop 16).take 8)
      klpAuth s = 0 ∨ (d.tagged = true ∧ klpTag s d none = true ∧ s.ret.wakeCtr < ctr) →
      (s.md.mode = .dormant → s.md.wakeStep = 0 → paired s = false → bitOf (wakeSrc s) 0 = true →
        ∃ t, exec (.klpWake d) s = .next t ∧ t.md.wakeStep = 1 ∧ t.md.mode = .dormant ∧ bitOf t.md.wakeCause 0 = true ∧
          t.ret.wakeCtr = (if klpAuth s = 0 then s.ret.wakeCtr else ctr)) ∧
      (s.md.mode ≠ .dormant → exec (.klpWake d) s = .next (settle (klpErr2 0 s)))) ∧
    (∀ k : Fin 9,
      let ln := if k.val = 8 then 255 else k.val
      let x := tget {} s.klp.sess k
      let closed := fun (t : State) => tget {} t.klp.sess k = {} ∧ ∀ j, j ≠ k.val → tget {} t.klp.sess j = tget {} s.klp.sess j
      let dueAt := fun (u : Unack) => u.tick + (u.tries + 1) * rtoTicks s
      let again := fun (u : Unack) => decide (u.tries < maxRetx s ∧ dueAt u ≤ s.clk.tick)
      (∀ t, x.ackDue = some t → t ≤ s.clk.tick → exec (.ackDelayExpiry k) s =
        .next (settle (klpSend ln 0xFF 1 0 [] (modSess k (fun x => { x with ackDue := none }) s)))) ∧
      (x.isOpen = true → x.lastRx + idleTicks s < s.clk.tick → ∃ t, exec (.sessionIdle k) s = .next t ∧ closed t) ∧
      (s.clk.tick ≤ x.lastRx + idleTicks s → exec (.sessionIdle k) s = .next (settle s)) ∧
      (x.isOpen = true → (∃ u ∈ x.unack, maxRetx s ≤ u.tries ∧ dueAt u < s.clk.tick) →
        ∃ t, exec (.retransmit k) s = .next t ∧ closed t) ∧
      ((∀ u ∈ x.unack, maxRetx s ≤ u.tries → s.clk.tick ≤ dueAt u) → x.unack.Pairwise (fun u w => u.seq ≠ w.seq) →
        ∃ t, exec (.retransmit k) s = .next t ∧ (tget {} t.klp.sess k).isOpen = x.isOpen ∧
          (tget {} t.klp.sess k).unack = x.unack.map fun u => if again u then { u with tries := u.tries + 1 } else u)) ∧
    (∀ f : EthFrame, uplinkUsed s f.uplink = false → exec (.ethFrame f) s = .next (settle s)) ∧
    (∀ f : EthFrame, uplinkUsed s f.uplink = true → f.fcsOk = false →
      exec (.ethFrame f) s = .next (settle (ethErr f.uplink 24 s))) ∧
    (∀ (f : EthFrame) d, uplinkUsed s f.uplink = true → f.fcsOk = true → 64 ≤ f.len → f.len ≤ 1522 →
      f.vid.toNat = cf s 0x1C 0 (8 + 2 * f.uplink.val) 2 0 → takesMac s f.uplink f.dmac.toNat = true → f.supported = true →
      f.uplink.val = klpPort s → f.klp = some d →
      (f.frag = none → exec (.ethFrame f) s = .next (settle (klpReceive d s))) ∧
      (∀ key, f.frag = some key → (∀ g ∈ s.klp.frags, g.1 ≠ key) → s.klp.frags.length < 16 →
        exec (.ethFrame f) s = .next (settle { s with klp.frags := s.klp.frags ++ [(key, s.clk.tick)] })) ∧
      (∀ key g, f.frag = some key → g ∈ s.klp.frags → g.1 = key → exec (.ethFrame f) s =
        .next (settle (klpReceive d { s with klp.frags := s.klp.frags.filter fun h => h.1 != key })))) ∧
    (∀ key, ∃ t, exec (.reassemblyTimeout key) s = .next t ∧
      ∀ g, g ∈ t.klp.frags ↔ g ∈ s.klp.frags ∧ ¬ (g.1 = key ∧ g.2 + 4 < s.clk.tick))

/-- HMP sessions and the ops that read and write (R396, R398, R399, R400, R401, R402, R403, R404, R405, R414, R418): a HELLO
opens a session; one that idles, or closes, goes; a bad header or tag and a replay are counted and do nothing else; a request
identifier seen before is answered as before and has no second effect; each op answers with its bytes.
The statuses and bytes that the tables leave open are log entries 25, 27 and 28. -/
def Obligations.HmpRequests : Prop :=
  (∀ (h : HHead) (client : BitVec 128) (id : Word) (tail : List Byte) (s : State),
    let good := hdrGood h false true (beBytes 16 client.toNat ++ beBytes 4 id.toNat) tail
    (servesHmp h false s = true → h.kind = 1 → good = false →
      exec (.hello h ⟨client, id⟩ tail) s = .next (settle (badHeader s))) ∧
    (servesHmp h false s = true → h.kind = 1 → good = true → s.hmp.helloSec < cf s 0x1D 0 7 1 8 →
      (∀ k, (s.img.keys.find? fun k => k.id == id.toNat) = some k → s.hmp.sess.length < cf s 0x1D 0 1 1 4 →
        ∃ t x, exec (.hello h ⟨client, id⟩ tail) s = .next t ∧ t.hmp.sess = s.hmp.sess ++ [x] ∧ x.keyId = k.id ∧
          x.inst = k.inst ∧ x.top = 0 ∧ x.kept = [] ∧ x.idle = s.clk.tick ∧ t.hmp.helloSec = s.hmp.helloSec + 1) ∧
      ((∀ k ∈ s.img.keys, k.id ≠ id.toNat) → ∃ t, exec (.hello h ⟨client, id⟩ tail) s = .next t ∧ t.hmp.sess = s.hmp.sess ∧
        t.hmp.plain = 9)) ∧
    (servesHmp h false s = false → exec (.hello h ⟨client, id⟩ tail) s = .next (settle s))) ∧
  (∀ (num : Word) x s, hSess s num.toNat = some x → (∀ w, s.hmp.write = some w → w.owner ≠ x.num) →
    (x.idle + hmpIdle s < s.clk.tick → ∃ t, exec (.hmpSessionIdle num) s = .next t ∧
      t.hmp.sess = s.hmp.sess.filter fun y => y.num != x.num) ∧
    (s.clk.tick ≤ x.idle + hmpIdle s → exec (.hmpSessionIdle num) s = .next (settle s))) ∧
  (∀ (r : HReq) (a mask v : Word) (e : Nat) (x : HSess) (s : State),
    let body := r.body 0x0012 (beBytes 4 a.toNat ++ beBytes 4 mask.toNat ++ beBytes 4 v.toNat)
    let good := hdrGood r.hd r.bulk r.plain body r.tail
    let c := r.hd.counter.toNat
    (servesHmp r.hd r.bulk s = false → exec (.hmpPoke r a mask v e) s = .next (settle s)) ∧
    (servesHmp r.hd r.bulk s = true → r.kindOk = true →
      (good = false → exec (.hmpPoke r a mask v e) s = .next (settle (badHeader s))) ∧
      (good = true → r.plain = true → exec (.hmpPoke r a mask v e) s = .next (settle (plainError 8 s))) ∧
      (good = true → r.plain = false → r.bulk = false → hSess s r.hd.session.toNat = some x →
        (r.sealed x body = false → s.hmp.authSec = true →
          exec (.hmpPoke r a mask v e) s = .next (settle { s with hmp.err := satField 24 8 s.hmp.err })) ∧
        (r.sealed x body = true → c ≤ x.top → c = x.top ∨ c + 64 < x.top ∨ c ∈ x.seen →
          exec (.hmpPoke r a mask v e) s = .next (settle { s with hmp.err := satField 16 8 s.hmp.err })) ∧
        (∀ k, r.sealed x body = true → x.top < c → (x.kept.find? fun k => k.req == r.reqId.toNat) = some k →
          ∃ t, exec (.hmpPoke r a mask v e) s = .next t ∧ t.hmp.answer = some k ∧ t.bus = s.bus ∧ t.exe = s.exe ∧
            t.md = s.md)))) ∧
  ∀ (r : HReq) (x : HSess) (s : State),
    let u := asked r x s
    let say := fun (opn status : Nat) (result : List Byte) (t : State) =>
      Host.Outcome.next (settle (hmpAnswer x.num (opn * 2 ^ 32 + r.reqId.toNat) status result t))
    (Asks r 0x0001 [] x s → exec (.hmpIdent r) s = say 0x0001 0 (words32 [Config.idcode, Config.serial / 2 ^ 32 % 2 ^ 32,
      Config.serial % 2 ^ 32, modeStat u, bootStat u, fuseStat u, cf u 0x10 0 0 4 0, u.img.fwBuild, u.img.progBuild] ++
        cfBytes u 0x10 0 8 16) u) ∧
    (Asks r 0x0002 [] x s →
      exec (.bootReport r) s = say 0x0002 0 ((s.ret.reports.take 16).flatMap reportBytes) u) ∧
    (Asks r 0x0060 [] x s →
      (s.hmp.bulk = none → exec (.bulkOpen r) s =
        say 0x0060 0 (beBytes 2 (cf u 0x1D 0 4 2 47642)) { u with hmp.bulkOk := some x.num }) ∧
      (∀ n, s.hmp.bulk = some n → n ≠ x.num → exec (.bulkOpen r) s = say 0x0060 3 [] u)) ∧
    (Asks r 0x0003 [] x s → (∀ w, s.hmp.write = some w → w.owner ≠ x.num) → ∃ t, exec (.hmpClose r) s = .next t ∧
      hSess t x.num = none ∧ t.hmp.answer = some { op := 0x0003, req := r.reqId.toNat, status := 0, result := [] }) ∧
    (∀ (seq : Word) (n : BitVec 16), Asks r 0x0040 (beBytes 4 seq.toNat ++ beBytes 2 n.toNat) x s → 1 ≤ n.toNat →
      n.toNat ≤ 40 → exec (.evlogRead r seq n) s = say 0x0040 0 ((logFrom u seq.toNat n.toNat).flatMap entryBytes) u) ∧
    (∀ seq : Word, Asks r 0x0041 (beBytes 4 seq.toNat) x s → exec (.hmpAuditRead r seq) s =
      say 0x0041 0 ((s.islView.audits.filter fun a => decide (seq.toNat ≤ fld a 0 4)).take 2).flatten u) ∧
    (∀ (a : Word) (n : BitVec 16) (e : Nat), Asks r 0x0010 (beBytes 4 a.toNat ++ beBytes 2 n.toNat) x s →
      (∀ f : Nat → Nat, 1 ≤ n.toNat → n.toNat ≤ 256 →
        (∀ i, i < n.toNat → inFbView (a.toNat + 4 * i) = false ∧ inReam (a.toNat + 4 * i) = false ∧
          drawsFree (a.toNat + 4 * i) = false ∧ peekWord e (a.toNat + 4 * i) u = some (f i)) →
        exec (.hmpPeek r a n e) s = say 0x0010 0 (words32 ((List.range n.toNat).map f))
          { u with bus.status := 0, bus.ans := BitVec.ofNat 32 (f 0) }) ∧
      (n.toNat = 0 ∨ 256 < n.toNat → exec (.hmpPeek r a n e) s = say 0x0010 1 [] u)) ∧
    (∀ (a : Word) (e : Nat), Asks r 0x0011 (beBytes 4 a.toNat) x s →
      (∀ v, r.effect = true → inFbView a.toNat = false → inReam a.toNat = false → drawsFree a.toNat = false →
        peekWord e a.toNat u = some v → exec (.hmpReadEffect r a e) s =
          say 0x0011 0 (words32 [v]) { readEffect a.toNat u with bus.status := 0, bus.ans := BitVec.ofNat 32 v }) ∧
      (r.effect = false → exec (.hmpReadEffect r a e) s = say 0x0011 1 [] u)) ∧
    (∀ (a mask v : Word) (e : Nat), Asks r 0x0012 (beBytes 4 a.toNat ++ beBytes 4 mask.toNat ++ beBytes 4 v.toNat) x s →
      (a.toNat % 4 = 0 → inSlot a.toNat = some (1 - s.exe.runSlot) → s.exe.runSlot ≤ 1 →
        exec (.hmpPoke r a mask v e) s = say 0x0012 0 [] { shadowWrite (a.toNat % 0x100000 / 4) v mask u with
          bus.status := 0, bus.ans := 0 }) ∧
      (inSlot a.toNat = some s.exe.runSlot → ∃ t, exec (.hmpPoke r a mask v e) s = .next t ∧ t.exe = s.exe ∧
        t.bus.errCount = satInc 65535 s.bus.errCount ∧
        t.hmp.answer = some { op := 0x0012, req := r.reqId.toNat, status := 4, result := [] }))

/-- HMP ops that control the unit (R60, R110, R112, R406, R407, R408, R409, R410, R411, R412, R413): mode and edits go through
the edit ring; a reset threads again; a slot is erased, written in order, read back and preferred, or abandoned; a key sector
is rewritten and its sessions close; the customer key and the debug lock are fused in HOLD.
The statuses that the tables leave open are log entries 25 and 26. -/
def Obligations.HmpControl : Prop :=
  ∀ (r : HReq) (x : HSess) (s : State),
    let u := asked r x s
    let id := fun (opn : Nat) => opn * 2 ^ 32 + r.reqId.toNat
    let said := fun (opn status : Nat) (result : List Byte) (t : State) =>
      t.hmp.answer = some { op := opn, req := r.reqId.toNat, status := status, result := result }
    let posted := fun (opn kind arg off : Nat) => settle { u with
      ring.slots := tset {} s.ring.slots (s.ring.put % 64)
        { kind := kind, flags := 1, seq := s.ring.put % 65536, arg := arg, stageOff := off, status := 0 },
      ring.put := s.ring.put + 1, hmp.posts := s.hmp.posts ++ [(x.num, id opn, s.ring.put)] }
    (∀ target clear : Byte, Asks r 0x0020 [target, clear] x s →
      (clear.toNat < 2 → s.md.mode ≠ .dormant → s.ring.put < s.ring.take + 64 → exec (.hmpMode r target clear) s =
        .next (posted 0x0020 1 (target.toNat + b2n r.force * 256 + clear.toNat * 512) 0)) ∧
      (s.md.mode = .dormant → target = 3 → clear.toNat < 2 → s.md.wakeStep = 0 → paired s = false →
        ∃ t, exec (.hmpMode r target clear) s = .next t ∧ said 0x0020 0 [] t ∧ t.md.wakeStep = 1 ∧
          t.md.wakeTarget = some 3 ∧ bitOf t.md.wakeCause 4 = true)) ∧
    (∀ (kind : Byte) (arg off : Word),
      Asks r 0x0022 ([kind] ++ beBytes 3 r.zeros.toNat ++ beBytes 4 arg.toNat ++ beBytes 4 off.toNat) x s → r.zeros = 0 →
      s.md.mode ≠ .dormant → s.ring.put < s.ring.take + 64 →
      exec (.hmpEditRing r kind arg off) s = .next (posted 0x0022 kind.toNat arg.toNat off.toNat)) ∧
    (∀ thr, Asks r 0x0021 [] x s → s.hmp.write = none → s.md.mode ≠ .active → s.md.testHold = false →
      ∃ t, exec (.hmpReset r thr) s = .next t ∧ t.md.rstCause = s.md.rstCause ||| 16 ∧ t.clk.tick = 0 ∧
        t.ret.bootCnt = s.ret.bootCnt + 1 ∧ t.exe.inCycle = false ∧ t.isl = s.isl) ∧
    (∀ (off : Word) (data : List Byte), Asks r 0x0023 (beBytes 4 off.toNat ++ data) x s →
      off.toNat + data.length ≤ 0x100000 →
      (∀ v : Word, s.trial.st = .idle → off.toNat % 4 = 0 → data = leBytes 4 v.toNat →
        ∃ t, exec (.shadowWrite r off data) s = .next t ∧ said 0x0023 0 [] t ∧ pw (shadow t) (off.toNat / 4) = v ∧
          (shadow t).valid = false ∧ running t = running s ∧
          ∀ i, i ≠ off.toNat / 4 → pw (shadow t) i = pw (shadow s) i) ∧
      (s.trial.st ≠ .idle → ∃ t, exec (.shadowWrite r off data) s = .next t ∧ said 0x0023 2 [] t ∧ t.exe = s.exe ∧
        t.trial = { s.trial with writeIgn := true })) ∧
    (∀ (area : Byte) (len hold : Word),
      Asks r 0x0030 ([area] ++ beBytes 3 r.zeros.toNat ++ beBytes 4 len.toNat ++ beBytes 4 hold.toNat) x s → r.zeros = 0 →
      1 ≤ area.toNat → area.toNat ≤ 3 → s.md.mode ≠ .dormant → 64 ≤ len.toNat →
      len.toNat ≤ (copyRange s area.toNat (freeCopy s area.toNat)).2 → s.hmp.write = none → s.hmp.waits = [] →
      (r.flashOk = true → ∃ t, exec (.slotBegin r area len hold) s = .next t ∧ said 0x0030 0 [] t ∧ t.hmp.write = some
          { area := area.toNat, copy := freeCopy s area.toNat, len := len.toNat, next := 0,
            hold := if area.toNat = 3 then hold.toNat else 0, owner := x.num } ∧
        ∀ a, (copyRange s area.toNat (freeCopy s area.toNat)).1 ≤ a →
          a < (copyRange s area.toNat (freeCopy s area.toNat)).1 + (copyRange s area.toNat (freeCopy s area.toNat)).2 →
          tget 0xFF t.boot.flash a = 0xFF) ∧
      (r.flashOk = false → ∃ t, exec (.slotBegin r area len hold) s = .next t ∧ said 0x0030 5 [] t ∧ t.hmp.write = none)) ∧
    (∀ w, s.hmp.write = some w → w.owner = x.num → s.md.mode ≠ .dormant → ∀ area : Byte, area.toNat = w.area →
      (∀ (off : Word) (data : List Byte),
        Asks r 0x0031 ([area] ++ beBytes 3 r.zeros.toNat ++ beBytes 4 off.toNat ++ data) x s → r.zeros = 0 →
        (off.toNat = w.next → w.next + data.length ≤ w.len → data.length ≤ 1024 → r.flashOk = true →
          ∃ t, exec (.slotChunk r area off data) s = .next t ∧ said 0x0031 0 [] t ∧
            t.hmp.write = some { w with next := w.next + data.length } ∧
            ∀ i, i < data.length → let a := (copyRange s w.area w.copy).1 + w.next + i
              tget 0xFF t.boot.flash a = tget 0xFF s.boot.flash a &&& nth 0xFF data i) ∧
        (off.toNat ≠ w.next → ∃ t, exec (.slotChunk r area off data) s = .next t ∧ said 0x0031 1 [] t ∧
          t.hmp.write = s.hmp.write ∧ t.boot.flash = s.boot.flash)) ∧
      (Asks r 0x0032 [area] x s → w.next = w.len → s.hmp.waits = [] →
        (readBack u w.area w.copy = true → w.hold = 0 →
          let v := preferCopy w.area w.copy (endWrite u)
          exec (.slotCommit r area) s =
            .next (settle (nextWrite (hmpAnswer x.num (id 0x0032) 0 (beBytes 4 (curGen v)) v)))) ∧
        (readBack u w.area w.copy = true → w.hold ≠ 0 → ∃ t g, exec (.slotCommit r area) s = .next t ∧
          t.hmp.write = none ∧ t.hmp.held = some w ∧ said 0x0032 0 (beBytes 4 g) t ∧ t.boot.flash = s.boot.flash) ∧
        (readBack u w.area w.copy = false → ∃ t, exec (.slotCommit r area) s = .next t ∧ t.hmp.write = none ∧
          said 0x0032 5 [] t ∧ t.boot.flash = s.boot.flash)) ∧
      (Asks r 0x0033 [area] x s → s.hmp.waits = [] → ∃ t, exec (.slotAbort r area) s = .next t ∧ t.hmp.write = none ∧
        said 0x0033 0 [] t ∧ t.boot.flash = s.boot.flash)) ∧
    (∀ (sector mask : Byte) (hmpId klpId : Word) (hmpKey klpKey : BitVec 256),
      Asks r 0x0050 ([sector, mask] ++ beBytes 2 r.zeros.toNat ++ beBytes 4 hmpId.toNat ++ beBytes 32 hmpKey.toNat ++
        beBytes 4 klpId.toNat ++ beBytes 32 klpKey.toNat) x s → r.zeros = 0 → r.flashOk = true → sector.toNat ≤ 1 →
      mask.toNat ≤ 3 → 8192 ≤ s.img.keyLen → x.inst ≠ sector.toNat → ∃ t,
        exec (.keyWrite r sector mask hmpId hmpKey klpId klpKey) s = .next t ∧ said 0x0050 0 [] t ∧
        (∀ y ∈ t.hmp.sess, y.inst ≠ sector.toNat) ∧
        ∀ y ∈ s.hmp.sess, y.inst ≠ sector.toNat → y.num ≠ x.num →
          (∀ z ∈ s.hmp.sess, z.inst = sector.toNat → z.num ≠ y.num) → s.hmp.waits = [] → y ∈ t.hmp.sess) ∧
    (∀ hash tight : BitVec 256, Asks r 0x0051 (beBytes 32 hash.toNat) x s →
      (r.irrev = true → s.md.mode = .hold → s.boot.custKey = 0 → ∃ t, exec (.fuseCustkey r hash tight) s = .next t ∧
        t.boot.fuses.customer = hashWords hash.toNat tight.toNat ∧
        t.boot.custKey = custState (hashWords hash.toNat tight.toNat) ∧ t.boot.fuses.seorfen = s.boot.fuses.seorfen ∧
        said 0x0051 (if t.boot.custKey = 2 then 5 else 0) (beBytes 4 (fuseStat t)) t) ∧
      (s.md.mode ≠ .hold ∨ r.irrev = false → ∃ t, exec (.fuseCustkey r hash tight) s = .next t ∧ said 0x0051 2 [] t ∧
        t.boot = s.boot)) ∧
    (∀ tight : Bool, Asks r 0x0052 [] x s → r.irrev = true → s.md.mode = .hold →
      ∃ t, exec (.fuseDebuglock r tight) s = .next t ∧ t.boot.debugLock = true ∧
        t.boot.fuses.debugLock = { normal := 1, tight := b2n tight } ∧ said 0x0052 0 (beBytes 4 (fuseStat t)) t)

/-- The debug port (R404, R466, R467, R468, R469, R470, R471, R473, R475, R477, R478, R479, R480, R482): the TAP's instructions,
authentication, and each DAP command where the port takes one; locked or busy it takes none.
What BYPASS leaves, and the statuses that the tables leave open, are log entries 19 and 37. -/
def Obligations.DebugPort : Prop :=
  ∀ s : State, tapOn s = true → s.dbg.extest = false →
    (∀ isl : IslScan,
      let at' := fun (code : Nat) => scanIsland isl { s with dbg.tapIr := code }
      (∀ (cells : BitVec 712) (thr : Thr), dbgLocked s = false →
        (s.md.mode = .hold → exec (.extest ⟨cells, isl⟩ thr) s = .next (settle { at' 0 with
          dbg.extest := true, dbg.boundary := cells.toNat, md.heldThr := some thr })) ∧
        (s.md.mode ≠ .hold →
          exec (.extest ⟨cells, isl⟩ thr) s = .next (settle { at' 0 with dbg.extestRefused := true }))) ∧
      (∀ cells : BitVec 712, exec (.samplePreload ⟨cells, isl⟩) s =
        .next (settle { at' 1 with dbg.boundary := cells.toNat })) ∧
      (∀ cells : BitVec 712, s.md.testHold = false →
        ∃ t, exec (.samplePreload ⟨cells, isl⟩) { s with dbg.extest := true } = .next t ∧ t.md.rstCause = s.md.rstCause ||| 32 ∧
          t.clk.tick = 0 ∧ t.dbg.extest = false ∧ t.dbg.boundary = cells.toNat) ∧
      (∀ code : BitVec 5, code ≠ 0 → code ≠ 1 → code ≠ 2 → code ≠ 0x10 → code ≠ 0x11 →
        exec (.bypass ⟨code, isl⟩) s = .next (settle (at' code.toNat))) ∧
      (s.isl.tap = true → ∃ t, exec (.bypass ⟨0x1F, isl⟩) s = .next t ∧
        t.dbg.islIr = (if isl.ir.toNat ≤ 2 then isl.ir.toNat else 0x1F) ∧
        (isl.ir = 2 → t.dbg.islTdo = Config.islIdcode) ∧ (isl.ir.toNat ≤ 1 → t.dbg.islBoundary = isl.cells.toNat)) ∧
      (s.isl.tap = false → ∃ t, exec (.bypass ⟨0x1F, isl⟩) s = .next t ∧ t.dbg = { s.dbg with tapIr := 0x1F })) ∧
    exec .idcode s = .next (settle { scanIsland (sameScan s) { s with dbg.tapIr := 2 } with dbg.tdo := Config.idcode }) ∧
    (s.isl.tap = true → s.dbg.islIr = 2 → ∃ t, exec .idcode s = .next t ∧ t.dbg.tdo = Config.idcode ∧
      t.dbg.islTdo = Config.islIdcode) ∧
    (∀ (pos : Byte) (key sig : BitVec 512), s.dbg.lockout = false →
      let shown := { scanIsland {} { s with dbg.tapIr := 0x10 } with dbg.tdo := s.dbg.nonce % 2 ^ 256 }
      let good := responseOk pos.toNat (beBytes 64 key.toNat) (beBytes 64 sig.toNat) s
      exec (.dbgauth pos key sig) s = .next (settle (if good then raise 0x2201 0 { shown with dbg.auth := true }
        else raise 0x2202 (s.dbg.failures + 1) { shown with
          dbg.failures := s.dbg.failures + 1, dbg.lockout := decide (3 ≤ s.dbg.failures + 1),
          dbg.nonce := Config.freeNat s.free, free := s.free + 1 }))) ∧
    (∀ (cmd : Byte) (arg data : Word) e thr,
      let v := scanIsland {} { s with dbg.tapIr := 0x11 }
      (dbgLocked s = true → exec (.dbgacc cmd arg data e thr) s = .next (settle { v with
        dbg.status := 4, dbg.arg := arg.toNat, dbg.result := 0 })) ∧
      (dbgLocked s = false → s.dbg.busy = true → exec (.dbgacc cmd arg data e thr) s =
        .next (settle { v with dbg.status := 1 }))) ∧
    (dbgLocked s = false → s.dbg.busy = false → ∀ (a data : Word) (e : Nat) (thr : Thr),
      let u := dapBegun a s
      let word := data.toNat % 2 ^ 18
      let armed := armedAt (running s) word
      let bp : Bp := if bitOf a.toNat 8 then { en := true, word := armed, moved := armed != word } else {}
      let done := fun (status : Nat) (t : State) =>
        Host.Outcome.next (settle { t with dbg.busy := false, dbg.status := status, dbg.result := 0 })
      (∀ cmd c, (cmd, c) ∈ [((1 : Byte), Instr.dapPeek a e), (2, .dapReadEffect a data e), (4, .dapPoke a data e), (0x10, .halt a),
          (0x11, .resume a), (0x12, .step a), (0x20, .bpSet a data), (0x21, .wpSet a data), (0x22, .wpValue a data),
          (0x30, .wdSvc a e), (0x31, .dbgReset a thr)] →
        ∃ t, exec (.dbgacc cmd a data e thr) s = .next t ∧ exec c s = .next t) ∧
      exec (.dbgacc 0x40 a data e thr) s = done 5 u ∧
      (∀ v, inFbView a.toNat = false → inReam a.toNat = false → drawsFree a.toNat = false → peekWord e a.toNat u = some v →
        let got := fun (t : State) => Host.Outcome.next (settle { t with
          bus.status := 0, bus.ans := BitVec.ofNat 32 v, dbg.busy := false, dbg.status := 0, dbg.result := BitVec.ofNat 32 v })
        exec (.dapPeek a e) s = got u ∧
        (bitOf data.toNat 0 = true → exec (.dapReadEffect a data e) s = got (readEffect a.toNat u))) ∧
      exec (.setMask data) s = done 0 { dapBegun 0 s with dbg.mask := data } ∧
      (a.toNat % 4 = 0 → inSlot a.toNat = some (1 - s.exe.runSlot) → s.exe.runSlot ≤ 1 → exec (.dapPoke a data e) s =
        done 0 { shadowWrite (a.toNat % 0x100000 / 4) data s.dbg.mask u with bus.status := 0, bus.ans := 0 }) ∧
      (s.md.mode = .active → s.felt.rel = none → paired s = false → ∃ t, exec (.halt a) s = .next t ∧ t.dbg.status = 0 ∧
        t.dbg.busy = false ∧ t.dbg.halted = s.dbg.halted ∧
        ∀ k, k < 4 → bitOf t.dbg.pending k = (bitOf s.dbg.pending k || (bitOf a.toNat k &&
          (!pipeHalted s k || (k == 0 && s.dbg.s0Only && !bitOf a.toNat 4))))) ∧
      (s.md.mode = .active → s.felt.rel = none → paired s = true → bitOf a.toNat 8 = false → partnerReady s = true →
        ∃ t, exec (.halt a) s = .next t ∧ t.dbg.status = 2 ∧ t.md.handOver = true ∧ bitOf t.dbg.arg 9 = true ∧
          t.dbg.pending = s.dbg.pending) ∧
      ((∃ k, k < 4 ∧ bitOf a.toNat k = true ∧ pipeHalted s k = true) → ∃ t, exec (.resume a) s = .next t ∧
        t.dbg.status = 0 ∧ (s.exe.nextFull = 0 → t.exe.nextFull = 3) ∧ t.clk.lateRun = 0 ∧
        ∀ k, k < 4 → bitOf t.dbg.halted k = (pipeHalted s k && !bitOf a.toNat k)) ∧
      (pipeHalted s (a.toNat % 4) = true → ∃ t, exec (.step a) s = .next t ∧ t.dbg.status = 0 ∧
        (∀ k, bitOf t.dbg.halted k = (bitOf s.dbg.halted k && k != a.toNat % 4)) ∧
        tget 0 t.dbg.stepping (a.toNat % 4) = 1 + standsAt (a.toNat % 4) s ∧ t.exe = s.exe) ∧
      (pipeHalted s (a.toNat % 4) = false → exec (.step a) s = done 2 u) ∧
      exec (.bpSet a data) s = done 0 { u with dbg.bps := tset {} s.dbg.bps (a.toNat % 16) bp } ∧
      (bitOf a.toNat 8 = false ∨ a.toNat / 512 % 4 ≠ 0 → data.toNat / 2 ^ 28 ≤ 3 → exec (.wpSet a data) s =
        done 0 { u with dbg.wps := tmod {} s.dbg.wps (a.toNat % 8) fun x => { x with
          en := bitOf a.toNat 8, access := a.toNat / 512 % 4, compare := bitOf a.toNat 11, region := data.toNat / 2 ^ 28,
          index := data.toNat % 65536 } }) ∧
      (3 < data.toNat / 2 ^ 28 → exec (.wpSet a data) s = done 5 u) ∧
      exec (.wpValue a data) s =
        done 0 { u with dbg.wps := tmod {} s.dbg.wps (a.toNat % 8) fun x => { x with value := data } } ∧
      (a.toNat ≤ 1 → wdRuns (a == 1) s = true →
        wdExpired (a == 1) (s.clk.boundaryE + e) s = false → (wdOf (a == 1) s).held = [] → exec (.wdSvc a e) s =
        done 0 (modWd (a == 1) (fun w => { w with since := s.clk.boundaryE + e }) u)) ∧
      (1 < a.toNat → exec (.wdSvc a e) s = done 5 u) ∧
      (s.md.mode ≠ .active → s.md.testHold = false → ∃ t, exec (.dbgReset a thr) s = .next t ∧ t.md.rstCause = s.md.rstCause ||| 32 ∧
        t.clk.tick = 0 ∧ t.ret.bootCnt = s.ret.bootCnt + 1 ∧ t.isl = s.isl ∧ t.dbg.status = 0)) ∧
    (∀ k : Fin 4, engineRuns s = true → bitOf s.dbg.pending k = true → s.exe.sampled = true → k.val ≠ 0 ∨ s.exe.tasks = [] →
      ((strand k s).run.regs.lock = false → ∃ t, exec (.haltEffect k) s = .next t ∧ bitOf t.dbg.halted k = true ∧
        bitOf t.dbg.pending k = false ∧ t.dbg.lastPipe = k.val ∧ t.dbg.lastCause = 0 ∧ t.exe = s.exe) ∧
      ((strand k s).run.regs.lock = true → exec (.haltEffect k) s = .next (settle s)))

/-- Accesses of HMP and the debug port to the address map (R33, R484, R486, R489, R490, R491, R492, Table 23.1, Table 23.7): image
writes wait for the couch and land by their mask; a ream write is staged once the window takes it, and a read answers the
lowest member's word; a field block's register is reached by a frame; register writes have their register's effect; what takes
no access gives the error response, counted.
The statuses that chapter 23 leaves open are log entry 28. -/
def Obligations.AddressSpace : Prop :=
  ∀ s : State,
    let error := fun (a : Nat) => Host.Outcome.next (settle (accessError 0 0 0 a s))
    let wrote := fun (t : State) => Host.Outcome.next (settle { t with bus.status := 0, bus.ans := 0 })
    (∀ (r : Fin 16) (v : Word),
      exec (.reamStatClear r 0 v) s = .next (settle { s with bus.reams := tmod {} s.bus.reams r fun (x : ReamStat) => { x with
        refused := x.refused && !v.getLsbD 30, skipped := x.skipped && !v.getLsbD 29 } }) ∧
      exec (.reamStatClear r 1 v) s = .next (settle { s with bus.reams := tmod {} s.bus.reams r fun (x : ReamStat) => { x with
        disagree := x.disagree && !v.getLsbD 31 } })) ∧
    (∀ a mask v : Word, inImage a.toNat = true → a.toNat % 4 = 0 →
      let w : Staged := { addr := a.toNat, mask := mask, val := v }
      (s.md.mode = .active ∨ s.md.mode = .hold →
        exec (.imageWrite a mask v) s = .next (settle { s with bus.image := s.bus.image ++ [w] })) ∧
      (s.md.mode ≠ .active → s.md.mode ≠ .hold →
        exec (.imageWrite a mask v) s = .next (settle { s with bus.status := 2, bus.ans := 0 })) ∧
      rdLe 0 (landImageOne s w).exe.couched a.toNat 4 =
        maskWord (rdLe 0 s.exe.couched a.toNat 4) (mask.toNat &&& imageBits a.toNat) v.toNat ∧
      ∀ b, b < a.toNat ∨ a.toNat + 4 ≤ b → tget 0 (landImageOne s w).exe.couched b = tget 0 s.exe.couched b) ∧
    (∀ (r : Fin 16) (off : Nat) (mask v : Word), off < 0x800000 →
      let a := 0x58000000 + 0x800000 * r.val + off
      let w : Staged := { addr := a, mask := mask, val := v }
      (reamOk s r off = true → (s.bus.staged.filter fun x => inReam x.addr).length < 8 →
        exec (.reamWindowWrite r off mask v) s = .next (settle { s with
          bus.staged := s.bus.staged ++ [w], bus.reams := tmod {} s.bus.reams r fun x => { x with pending := true } })) ∧
      (reamOk s r off = true → 8 ≤ (s.bus.staged.filter fun x => inReam x.addr).length →
        ∃ t, exec (.reamWindowWrite r off mask v) s = .next t ∧ t.bus.staged = s.bus.staged ∧ t.bus.status = 2 ∧
          (tget {} t.bus.reams r).refused = true) ∧
      (reamOk s r off = false → exec (.reamWindowWrite r off mask v) s = error a) ∧
      (∀ silent, reamOk s r off = false → exec (.reamWindowRead r off silent) s = error a) ∧
      (∀ (silent : BitVec 16) (x : Nat) (l : List Nat), reamOk s r off = true → reamFamily s r ≠ 2 →
        (reamMembers s r).filterMap (memberWord s (reamFamily s r) off silent.toNat) = x :: l →
        ∃ t, exec (.reamWindowRead r off silent) s = .next t ∧ t.bus.ans = BitVec.ofNat 32 x ∧ t.bus.status = 0 ∧
          (tget {} t.bus.reams r).readMembers = l.length + 1 ∧
          (tget {} t.bus.reams r).disagree = ((tget {} s.bus.reams r).disagree || l.any fun y => y != x) ∧
          t.bus.staged = s.bus.staged ∧ t.md = s.md ∧ t.exe = s.exe)) ∧
    (∀ (fb : Fin 16) (off : Fin 8) (v : Word), s.fl.access = [] → s.fl.urg = [] → s.exe.qimm = [] →
      let o := 4 * off.val
      let a := 0x50000C00 + 32 * fb.val + o
      let x : FbAccess := { fb := fb.val, off := o, write := false, val := 0, since := s.clk.tick }
      let b := block fb (feelLimit fb s)
      let meets := b.powered = true ∧ reached (myPort s) fb (feelLimit fb s) = true ∧ (b.pos (myPort s)).isSome = true
      (s.fl.n ≤ fb.val → o < 0x18 → exec (.fieldBlockViewAccess fb off false v true) s = error a ∧
        exec (.fieldBlockViewAccess fb off true v true) s = error a) ∧
      (0x18 ≤ o → exec (.fieldBlockViewAccess fb off false v true) s = wrote s ∧
        exec (.fieldBlockViewAccess fb off true v true) s = wrote s) ∧
      (fb.val < s.fl.n → o < 0x18 →
        exec (.fieldBlockViewAccess fb off false v false) s = .next (settle { s with fl.access := [x] }) ∧
        exec (.fieldBlockViewAccess fb off true v false) s =
          .next (settle { s with fl.access := [{ x with write := true, val := v }] }) ∧
        (∀ u, meets → b.reg o = some u →
          ∃ t, exec (.fieldBlockViewAccess fb off false v true) s = .next t ∧ t.bus.status = 0 ∧
            t.bus.ans = BitVec.ofNat 32 u ∧ t.fl.access = [] ∧ t.exe = s.exe) ∧
        (meets → regWriteStatus b (myPort s) o = 1 →
          ∃ t, exec (.fieldBlockViewAccess fb off true v true) s = .next t ∧ t.bus.status = 0 ∧ t.fl.access = [] ∧
            ∃ load, block fb t = b.clearDiag load v.toNat))) ∧
    (∀ (a mask v : Word) (e : Nat),
      (a.toNat % 4 ≠ 0 → exec (.registerWrite a mask v e) s = error a.toNat) ∧
      (inSlot a.toNat = some s.exe.runSlot → a.toNat % 4 = 0 → exec (.registerWrite a mask v e) s = error a.toNat) ∧
      (a.toNat % 4 = 0 → inSlot a.toNat = some (1 - s.exe.runSlot) → s.exe.runSlot ≤ 1 →
        exec (.registerWrite a mask v e) s = wrote (shadowWrite (a.toNat % 0x100000 / 4) v mask s)) ∧
      exec (.registerWrite 0x50000124 mask v e) s =
        wrote { s with md.rstCause := s.md.rstCause &&& (((mask &&& v).toNat % 64) ^^^ 63) } ∧
      exec (.registerWrite 0x50000610 mask v e) s = wrote { s with rtc.setSec := maskWord s.rtc.setSec mask.toNat v.toNat } ∧
      exec (.registerWrite 0x50000620 0xFFFFFFFF v e) s = wrote { s with rtc.alm0 := v } ∧
      exec (.registerWrite 0x50000640 0xFFFFFFFF v e) s = wrote { s with rtc.bkp := tset 0 s.rtc.bkp 0 v } ∧
      exec (.registerWrite 0x50000708 0xFFFFFFFF v e) s =
        wrote (if v = 0xA55A then (if wdRuns false s then wdService false (s.clk.boundaryE + e) s else s)
          else raise 0x2004 0 (wdErr 24 s)))

/-- The island's states, its fuses and the service port (R31, R332, R335, R339, R341, R342, R345, R346, R347, R349, R350, R352,
R354, R360, R361, R362, R375, R454): power, brown-out and WD-M thread it anew; CAL_N opens it and its release commits, a counter
bit and a record for each class; chunks, offers and pair states are taken; each service command answers and stages.
The island settles after each command: log entry 33. -/
def Obligations.IslandStates : Prop :=
  ∀ s : State,
    let i := s.isl
    let on := i.st ≠ .off
    let threaded := fun (t : State) => t.isl.boot = i.boot + 1 ∧ t.isl.ms = 0 ∧ t.isl.ident = true ∧ t.isl.stParams = [] ∧
      t.isl.st ≠ .off ∧ t.isl.sealWord = i.sealWord ∧ t.isl.count = i.count ∧
      (let r := { loseDown s with isl.st := .fault, isl.cause := 0 }
       legalFwGood i.fwA r = false → legalFwGood i.fwB r = false → t.isl.st = .fault ∧ t.isl.cause = 8)
    let emptied := fun (t : State) => t.slu.down = [] ∧ t.slu.downLost = satAdd (2 ^ 32 - 1) s.slu.downLost s.slu.down.length
    (∀ f, i.st = .off → ∃ t, exec (.vmPowerGood f) s = .next t ∧ threaded t ∧ emptied t) ∧
    (on → exec .vmBrownOut s = .next (settle { s with
      slu.down := [], slu.downLost := satAdd (2 ^ 32 - 1) s.slu.downLost s.slu.down.length,
      isl.st := .off, isl.cause := 0, isl.tap := false, isl.lds := [], isl.lanes := [] })) ∧
    (on → ∃ t, exec .wdMExpiry s = .next t ∧ threaded t ∧ emptied t) ∧
    (on → i.ident = true → 3000 ≤ i.ms → exec .identDisplayEnd s = .next (settle (modIsl (fun i => { i with ident := false }) s))) ∧
    (i.st = .sealed → ∃ t, exec .calNAsserted s = .next t ∧ t.isl.st = .opened ∧ t.isl.cal = true ∧
      t.isl.auditSeq = i.auditSeq + 1 ∧ t.isl.count = i.count ∧ t.isl.stParams = i.stParams) ∧
    (i.st = .fault → ∃ t, exec .calNAsserted s = .next t ∧ threaded t ∧ emptied t) ∧
    (∀ c : Fin 9, causeHolds c s = true → i.st = .sealed ∨ i.st = .opened → ∃ t, exec (.faultCause c) s = .next t ∧ t.isl.st = .fault ∧
      t.isl.cause = c.val ∧ t.isl.auditSeq = i.auditSeq + 1) ∧
    (i.st = .opened → sealId s ≠ 0 → i.stSeal = none →
      (∀ flash, 255 - auditCount s < (classesChanged s).length → ∃ t, exec (.calNReleased flash) s = .next t ∧
        t.isl.st = .sealed ∧ t.isl.count = i.count ∧ t.isl.cfgSel = i.cfgSel ∧ t.isl.stParams = []) ∧
      ((classesChanged s).length ≤ 255 - auditCount s → ∃ t, exec (.calNReleased false) s = .next t ∧ t.isl.st = .sealed ∧
        t.isl.cal = false ∧ t.isl.count = i.count + (classesChanged s).length ∧ t.isl.stParams = [] ∧ t.isl.stPair = none ∧
        (∀ id v, i.stParams = [(id, v)] → param t id = v) ∧ (classesChanged s = [] → t.isl.cfgSel = i.cfgSel)) ∧
      ((classesChanged s).length ≤ 255 - auditCount s → classesChanged s ≠ [] → ∃ t, exec (.calNReleased true) s = .next t ∧
        t.isl.st = .fault ∧ t.isl.cause = 5 ∧ t.isl.cfgSel = i.cfgSel)) ∧
    (i.st = .opened → sealId s = 0 → i.stSeal = none → ∀ flash, ∃ t, exec (.calNReleased flash) s = .next t ∧
      t.isl.st = .fault ∧ t.isl.cause = 2 ∧ t.isl.count = i.count) ∧
    (∀ (offset total : BitVec 32) (data : List Byte), i.st = .opened → s.slu.down = [] → auditCount s < 255 →
      1 ≤ data.length → data.length ≤ 112 → 64 ≤ total.toNat → total.toNat ≤ 524288 →
      let got := (if offset = 0 then [] else i.upData) ++ data
      offset = 0 ∨ (i.upload = 1 ∧ offset.toNat = i.upNext ∧ total.toNat = i.upTotal) →
      let v := { s with
        slu.downSeq := (s.slu.downSeq + 1) % 65536,
        isl := { i with
          upload := 1, upData := got, upNext := got.length, upTotal := total.toNat, stFw := false,
          fwA := if i.fwRun = 0 then i.fwA else got, fwB := if i.fwRun = 0 then got else i.fwB } }
      (got.length < total.toNat → exec (.legalFirmwareChunk offset total data) s = .next (settle (islSettle v))) ∧
      (got.length = total.toNat → exec (.legalFirmwareChunk offset total data) s = .next (settle (islSettle { v with
        isl.upload := if legalFwGood got v then 2 else 3, isl.stFw := legalFwGood got v })))) ∧
    (∀ m rest, s.slu.down = m :: rest → m.code = 6 → sluBadForm 1 6 m = false → on →
      (m.data.headD 0 = 1 → (i.st = .opened ∨ i.st = .fault) → m.data.length = 72 → fld m.data 4 4 ≠ 0 →
        fld m.data 4 4 ≠ sealId s → auditCount s < 255 → ∃ t, exec .pairOfferImport s = .next t ∧
          t.isl.stPair = some (fld m.data 4 4, m.data.drop 8) ∧ t.slu.down = rest) ∧
      (m.data.headD 0 ≠ 1 → i.st = .sealed → islPaired s = true → m.data.length = 96 → fld m.data 4 4 = i.partner →
        beNat (m.data.drop 80) = first16 (mac i.pairKey (m.data.take 80)) →
        (∀ l, i.lastImport = some l → l < fld m.data 8 6) → ∃ t, exec .pairStateImport s = .next t ∧ t.isl.imported = true ∧
          t.isl.lastImport = some (fld m.data 8 6) ∧ t.slu.down = rest ∧
          ∀ n, n < 8 → (islLane t n).z = (toSigned 32 (fld m.data (16 + 4 * n) 4) : Rat) ∧
            (islLane t n).t = toSigned 32 (fld m.data (48 + 4 * n) 4)) ∧
      (m.data.headD 0 ≠ 1 → i.st = .opened → ∃ t, exec .pairStateImport s = .next t ∧ t.isl.imported = i.imported ∧
        t.isl.lanes = i.lanes ∧ t.slu.down = rest)) ∧
    (on → i.statusAt + 1000 ≤ i.ms → (i.first = false ∧ holdRoom s = true) ∨ (i.first = true ∧ s.slu.up.length < 32) →
      ∃ t, exec .legalStatusSend s = .next t ∧ t.isl.statusAt = i.ms ∧
      t.isl.first = false ∧ t.isl.st = i.st) ∧
    (∀ m rest, on → i.first = false → i.hold = m :: rest → s.slu.up.length < 32 → ∃ t, exec .upwardPost s = .next t ∧
      s.slu.up ++ [{ m with seq := s.slu.upSeq }] <+: t.slu.up) ∧
    (on → exec .svcIdent s = .next (settle (svcReply 1 0 (statusFixed s i.first) s))) ∧
    (on → ¬ (i.st = .fault ∧ i.cause = 8) →
      (∀ seq : BitVec 32, exec (.svcAuditRead seq) s = .next (settle (svcReply 2 0
        (((i.audit.filter fun r => decide (seq.toNat ≤ r.seq)).take 2).flatMap auditBytes) s))) ∧
      (∀ (id : BitVec 16) v, readParam s id.toNat = some v →
        exec (.paramRead id) s = .next (settle (svcReply 3 0 (s32 v) s))) ∧
      (∀ id : BitVec 16, readParam s id.toNat = none → exec (.paramRead id) s = .next (settle (svcReply 3 2 [] s))) ∧
      (∀ bs : List Byte, sealId s ≠ 0 → bs.length = 56 → exec (.verifyRec bs) s = .next (settle (svcReply 9 0
        [if beNat (bs.drop 48) = first8 (mac i.wmKey (bs.take 48)) ∧ fld bs 44 4 = sealId s then 1 else 0] s))) ∧
      (i.st ≠ .opened → ∀ (id : BitVec 16) v (c : Fin 4) load (sid : BitVec 32),
        exec (.paramWrite id v) s = .next (settle (svcReply 4 1 [] s)) ∧
        exec (.calZero c) s = .next (settle (svcReply 5 1 [] s)) ∧
        exec (.calSpan c load) s = .next (settle (svcReply 6 1 [] s)) ∧
        exec (.svcSeal sid) s = .next (settle (svcReply 7 1 [] s)) ∧
        exec .discard s = .next (settle (svcReply 8 1 [] s)) ∧
        exec .fwConfirm s = .next (settle (svcReply 10 1 [] s)))) ∧
    (i.st = .opened → ∃ t, exec .discard s = .next t ∧ t.isl.stParams = [] ∧ t.isl.stSeal = none ∧ t.isl.stPair = none ∧
      t.isl.stFw = false ∧ t.isl.upload = 0 ∧ t.isl.reply = [0x88, 0] ∧ t.isl.count = i.count) ∧
    (i.st = .opened → auditCount s < 255 →
      let staged := fun (code : Byte) (l : List (Nat × Int)) (t : State) =>
        t.isl.stParams = i.stParams ++ l ∧ t.isl.reply = [code, 0] ∧ t.isl.st = .opened ∧ t.isl.count = i.count
      (∀ (id : BitVec 16) (v : BitVec 32) lo hi d, paramRange id.toNat = some (lo, hi, d) →
        (∀ n, laneParam id.toNat = some (n, 0) → sourceOk v.toInt = true) → lo ≤ v.toInt → v.toInt ≤ hi →
        paramSetOk (stagedParam (modIsl (fun i => { i with stParams := i.stParams ++ [(id.toNat, v.toInt)] }) s)) = true →
        ∃ t, exec (.paramWrite id v) s = .next t ∧ staged 0x84 [(id.toNat, v.toInt)] t) ∧
      (∀ (id : BitVec 16) v, paramRange id.toNat = none → ∃ t, exec (.paramWrite id v) s = .next t ∧
        t.isl.stParams = i.stParams ∧ t.isl.reply = [0x84, 2]) ∧
      (∀ (c : Fin 4) zid sid lid mean spread, calIds s c = some (zid, sid, lid) → rawMean s c = some (mean, spread) →
        (stagedParam s lid = 0 ∨ spread * (stagedParam s lid).natAbs ≤ (stagedParam s sid).natAbs →
          ∃ t, exec (.calZero c) s = .next t ∧ staged 0x85 [(zid, mean)] t) ∧
        (∀ load : BitVec 32, let span := mean - stagedParam s zid
          0 < load.toInt → 10 * load.toInt ≤ span.natAbs → spread * load.toInt ≤ span.natAbs →
          ∃ t, exec (.calSpan c load) s = .next t ∧ staged 0x86 [(sid, span), (lid, load.toInt)] t)) ∧
      (∀ id : BitVec 32, sealId s = 0 → id ≠ 0 → id ≠ 0xFFFFFFFF → ∃ t, exec (.svcSeal id) s = .next t ∧
        t.isl.stSeal = some id.toNat ∧ t.isl.reply = [0x87, 0] ∧ t.isl.sealWord = i.sealWord) ∧
      (i.fwRun ≠ i.fwPref → ∃ t, exec .fwConfirm s = .next t ∧ t.isl.stConfirm = true ∧ t.isl.reply = [0x8A, 0]))

/-- Weighing, requests and the core side (R359, R363, R365, R366, R368, R370, R371, R373, R355, R374, R382, R383, R384): a record
instant takes the channels in; a telegram is accepted or rejected; a request waits in its lane and is granted by its rule;
what the island shows is 0 while invalid and a multiple of its interval otherwise; the core takes records, statuses and
extracts, and a bag-check ends at its timeout.
Exact rationals are log entry 33. -/
def Obligations.IslandWeighing : Prop :=
  ∀ s : State,
    (∀ x : Instant, s.isl.st ≠ .off → s.isl.ms + 20 < s.isl.fuseMs + 3600000 →
      (x.temp.toInt - s.isl.fuseTemp).natAbs ≤ 30 → ∃ t, exec (.recordInstant x) s = .next t ∧ t.isl.ms = s.isl.ms + 20 ∧
      t.isl.chanFault = x.faults.toNat ∧ t.isl.temp = x.temp.toInt ∧ t.isl.oper = s.slu.oper ∧
      tget 0 t.isl.raw 0 = x.raw0.toInt ∧ tget 0 t.isl.raw 3 = x.raw3.toInt ∧ t.isl.st = s.isl.st ∧
      t.isl.count = s.isl.count ∧ t.md = s.md) ∧
    (∀ (n : Nat) (x : Rat),
      let w := weigh s n x
      let g := x - (islLane s n).z
      (isOver s n g = true ∨ isUnder s n g = true ∨ laneInvalid s n = true → w.net = 0 ∧ w.price = 0) ∧
      (∃ m : Int, w.net = m * kOf s n w.range) ∧ w.tare = (islLane s n).t ∧
      (w.price ≠ 0 → 0 < w.net ∧ stable s n = true ∧ (w.price : Int) ≤ param s 3)) ∧
    (∀ (p : Fin 8) (raw : List Byte) (off : Fin 21) n, s.isl.st ≠ .off →
      ((List.range 8).find? fun n => lp s n 0 == 0x11 + (p.val : Int)) = some n →
      let d := scaleDialect s n
      let ic := tget [] (legalCfg s).ics p
      let l := islLane s n
      (telPlain d raw = none → exec (.telegram p raw off) s = .next (settle (telReject n s))) ∧
      (∀ fr, telPlain d raw = some fr → telChecks ic d l.alive fr = none → exec (.telegram p raw off) s =
        .next (settle (lsReply n d false (telReject n s)))) ∧
      (∀ fr alive, telPlain d raw = some fr → telChecks ic d l.alive fr = some alive → telMatch d fr = false →
        exec (.telegram p raw off) s =
          .next (settle (lsReply n d false (telReject n (modIslLane n (fun l => { l with alive := alive }) s))))) ∧
      (∀ fr alive v b bs, telPlain d raw = some fr → telChecks ic d l.alive fr = some alive → telMatch d fr = true →
        let cp := fr.length - fld d 22 1 - ceilDiv (fld ic 0 1) 8
        (telField d 0 cp fr).bind (telValue d) = some v → telField d 1 cp fr = some (b :: bs) → -maxTop s n ≤ v →
        v ≤ 2 * maxTop s n → ∃ t, exec (.telegram p raw off) s = .next t ∧ islLane t n = { l with
          alive := alive, tel := some v, telAt := s.isl.ms + off.val, acc := (l.acc + 1) % 2 ^ 32,
          telStable := (b.toNat &&& fld d 78 1) == fld d 79 1, lsPoll := none, lsMiss := 0, lsFault := false,
          lsSent := (islLane t n).lsSent })) ∧
    (∀ m rest off code c, (code, c) ∈ [(1, Instr.unitPrice off), (2, .tareRequest off), (3, .zeroRequest off),
        (4, .displayContentRequest off)] → s.slu.down = m :: rest → s.isl.st = .sealed →
      sluBadForm 1 6 m = false →
      (m.code = code → s.slu.oper = true → m.lane < 8 →
        exec c s = .next (settle (modIslLane m.lane (fun l => { l with
          reqs := l.reqs ++ [{ code := m.code, data := m.data, arrival := s.isl.ms + off.val }] }) { s with slu.down := rest }))) ∧
      (m.code = code → s.slu.oper = false → exec c s = .next (settle { s with slu.down := rest })) ∧
      (m.code ≠ code → exec c s = .next (settle s))) ∧
    (∀ (n : Nat) (x : Rat) (r : LegalReq),
      let l := islLane s n
      let g := x - l.z
      (r.code = 1 → r.data.length = 8 → requestResult s n x r = some (1, modIslLane n (fun l => { l with
        item := fld r.data 0 4, price := fld r.data 4 4 }) s)) ∧
      (r.code = 2 → r.data = [1, 0, 0, 0] → laneInvalid s n = false → 0 < g → isOver s n g = false → isUnder s n g = false →
        g ≤ (maxOf s n 1 : Rat) →
        (stable s n = true → requestResult s n x r = some (1, modIslLane n (fun l => { l with t := roundTo (kOf s n 1) g }) s)) ∧
        (stable s n = false → s.isl.ms ≤ r.arrival + 2000 → requestResult s n x r = none) ∧
        (stable s n = false → r.arrival + 2000 < s.isl.ms → requestResult s n x r = some (2, s))) ∧
      (r.code = 2 → r.data = [0, 0, 0, 0] →
        requestResult s n x r = some (1, modIslLane n (fun l => { l with t := 0 }) s)) ∧
      (r.code = 3 → r.data = [] → l.t = 0 → isOver s n g = false → isUnder s n g = false → inZeroRange s n x = true →
        stable s n = true →
        requestResult s n x r = some (1, modIslLane n (fun l => { l with z := x, zeroReq := false }) s)) ∧
      (r.code = 3 → r.data = [] → l.t ≠ 0 → requestResult s n x r = some (4, s))) ∧
    (∀ (n : Fin 8) r rest, (islLane s n).reqs = r :: rest → s.isl.st = .sealed → s.slu.oper = true → r.code = 2 ∨ r.code = 3 →
      r.arrival ≤ s.isl.ms →
      (r.arrival + 2000 < s.isl.ms + 20 → exec (.stabilityWaitEnd n) s =
        .next (settle (modIslLane n (fun l => { l with reqs := rest, res := r.code * 16 + 2 }) s))) ∧
      (s.isl.ms + 20 ≤ r.arrival + 2000 → exec (.stabilityWaitEnd n) s = .next (settle s))) ∧
    (∀ m rest, s.slu.up = m :: rest → sluBadForm 0x81 0x83 m = false →
      let u := { s with slu.up := rest }
      (m.code = 0x81 → m.lane < 8 → exec .weightRecord s =
        .next (settle (offerIsland (cf s 0x1C 0 (64 + 2 * m.lane) 2 0) m.lane 0x12 m.data u))) ∧
      (m.code = 0x81 → 8 ≤ m.lane → exec .weightRecord s =
        .next (settle (offerIsland (cf s 0x21 0 0 2 0) 255 0 m.data u))) ∧
      (m.code = 0x82 → ∃ t, exec .legalStatus s = .next t ∧ t.islView.status = m.data.take 24 ∧ t.slu.up = rest ∧
        t.isl = s.isl ∧ t.md = s.md ∧ (m.data.length ≤ 24 → t.felt = s.felt)) ∧
      (m.code = 0x83 → s.islView.audits.length ≤ 1022 → ∃ t, exec .auditExtract s = .next t ∧ t.slu.up = rest ∧ t.isl = s.isl ∧
        ∀ i, i < min 2 (fld m.data 0 1) → (m.data.drop (8 + 48 * i)).take 48 ∈ t.islView.audits)) ∧
    (∀ n : Fin 8,
      let b := bagOf s n
      (b.req = none → exec (.bagTimeout n) s = .next (settle s)) ∧
      (∀ r, b.req = some r →
        let late := 1000 * bagF s n 4 2 3000 < (s.clk.tick - r.start) * tickUs s.clk.tickSel
        (¬ late → exec (.bagTimeout n) s = .next (settle s)) ∧
        (late → bagSettled b = none → exec (.bagTimeout n) s =
          .next (settle (bagAnswer n r 2 (Config.freeInt s.free)
            (modBag n (fun b => { b with req := none }) { s with free := s.free + 1 })))) ∧
        (∀ v, late → bagSettled b = some v → exec (.bagTimeout n) s =
          .next (settle (bagAnswer n r (bagCompare s n r (v - r.base)) (roundAway (v - r.base))
            (modBag n (fun b => { b with req := none }) s))))))
end

