-- ==== Sys2Proof/Laws/Tbl.lean ====
section
/-! SUPPORT. The laws of the sparse tables: a read after a write, and the canonical form that every write keeps. -/

namespace Sys2Proof

variable {α : Type}

@[simp] theorem tdrop_nil (k : Nat) : tdrop k ([] : Tbl α) = [] := rfl

theorem tdrop_cons (k j : Nat) (w : α) (m : Tbl α) :
    tdrop k ((j, w) :: m) = if j = k then tdrop k m else (j, w) :: tdrop k m := by
  by_cases h : j = k <;> simp [tdrop, h]

theorem tget_tdrop_same (d : α) (m : Tbl α) (k : Nat) : tget d (tdrop k m) k = d := by
  induction m with
  | nil => rfl
  | cons e m ih =>
    obtain ⟨j, w⟩ := e
    rw [tdrop_cons]
    by_cases h : j = k <;> simp [h, ih, tget]

theorem tget_tdrop_ne (d : α) (m : Tbl α) {k j : Nat} (hk : j ≠ k) : tget d (tdrop k m) j = tget d m j := by
  induction m with
  | nil => rfl
  | cons e m ih =>
    obtain ⟨i, w⟩ := e
    rw [tdrop_cons]
    by_cases h : i = k
    · subst h
      simp [tget, ih, Ne.symm hk]
    · simp [h, tget, ih]

theorem tget_tput_same (d : α) (m : Tbl α) (k : Nat) (v : α) (h : ∀ e ∈ m, e.1 ≠ k) :
    tget d (tput k v m) k = v := by
  induction m with
  | nil => simp [tput, tget]
  | cons e m ih =>
    obtain ⟨j, w⟩ := e
    have hj : j ≠ k := h (j, w) (by simp)
    unfold tput
    split
    · simp [tget]
    · simp [tget, hj, ih fun e he => h e (by simp [he])]

theorem tget_tput_ne (d : α) (m : Tbl α) {k j : Nat} (v : α) (hk : j ≠ k) : tget d (tput k v m) j = tget d m j := by
  induction m with
  | nil => simp [tput, tget, Ne.symm hk]
  | cons e m ih =>
    obtain ⟨i, w⟩ := e
    unfold tput
    split
    · simp [tget, Ne.symm hk]
    · simp [tget, ih]

theorem tdrop_notMem (k : Nat) (m : Tbl α) : ∀ e ∈ tdrop k m, e.1 ≠ k := by
  intro e he
  simpa [tdrop] using (List.mem_filter.mp he).2

theorem tdrop_of_notMem (k : Nat) (m : Tbl α) (h : ∀ e ∈ m, e.1 ≠ k) : tdrop k m = m := by
  simpa [tdrop, List.filter_eq_self] using h

theorem tdrop_tput_same (k : Nat) (v : α) (m : Tbl α) : tdrop k (tput k v m) = tdrop k m := by
  induction m with
  | nil => simp [tput, tdrop]
  | cons e m ih =>
    obtain ⟨j, w⟩ := e
    unfold tput
    split
    · simp [tdrop]
    · rw [tdrop_cons, tdrop_cons, ih]

variable [DecidableEq α]

/-- A read after a write to the same number. -/
@[simp] theorem tget_tset_same (d : α) (m : Tbl α) (k : Nat) (v : α) : tget d (tset d m k v) k = v := by
  unfold tset
  split
  · rename_i h
    rw [tget_tdrop_same, h]
  · exact tget_tput_same d _ k v (tdrop_notMem k m)

/-- A write leaves every other number alone. -/
@[simp] theorem tget_tset_ne (d : α) (m : Tbl α) {k j : Nat} (v : α) (h : j ≠ k) :
    tget d (tset d m k v) j = tget d m j := by
  unfold tset
  split
  · exact tget_tdrop_ne d m h
  · rw [tget_tput_ne d _ v h, tget_tdrop_ne d m h]

theorem tget_tset (d : α) (m : Tbl α) (k j : Nat) (v : α) :
    tget d (tset d m k v) j = if j = k then v else tget d m j := by
  by_cases h : j = k
  · subst h; simp
  · simp [h]

/-- The later of two writes to one number stands. -/
@[simp] theorem tset_tset_same (d : α) (m : Tbl α) (k : Nat) (v w : α) : tset d (tset d m k v) k w = tset d m k w := by
  have h : tdrop k (tset d m k v) = tdrop k m := by
    unfold tset
    split
    · exact tdrop_of_notMem k _ (tdrop_notMem k m)
    · rw [tdrop_tput_same]
      exact tdrop_of_notMem k _ (tdrop_notMem k m)
  unfold tset at h ⊢
  rw [h]

/-! ## The canonical form -/

/-- The canonical form, said with quantifiers: the numbers rise and no entry is the default. -/
theorem tblAbove_iff (d : α) (lo : Nat) (m : Tbl α) :
    tblAbove d lo m = true ↔ (∀ e ∈ m, lo < e.1 ∧ e.2 ≠ d) ∧ m.Pairwise (fun a b => a.1 < b.1) := by
  induction m generalizing lo with
  | nil => simp [tblAbove]
  | cons e m ih =>
    obtain ⟨j, v⟩ := e
    simp only [tblAbove, Bool.and_eq_true, decide_eq_true_eq, ih, List.mem_cons, List.pairwise_cons]
    constructor
    · rintro ⟨⟨hl, hv⟩, hm, hp⟩
      refine ⟨?_, fun a ha => (hm a ha).1, hp⟩
      rintro e (rfl | he)
      · exact ⟨hl, hv⟩
      · exact ⟨Nat.lt_trans hl (hm e he).1, (hm e he).2⟩
    · rintro ⟨hm, hj, hp⟩
      exact ⟨⟨(hm (j, v) (.inl rfl)).1, (hm (j, v) (.inl rfl)).2⟩, fun e he => ⟨hj e he, (hm e (.inr he)).2⟩, hp⟩

theorem wf_iff (d : α) (m : Tbl α) :
    Tbl.wf d m = true ↔ (∀ e ∈ m, e.2 ≠ d) ∧ m.Pairwise (fun a b => a.1 < b.1) := by
  cases m with
  | nil => simp [Tbl.wf]
  | cons e m =>
    obtain ⟨j, v⟩ := e
    simp only [Tbl.wf, Bool.and_eq_true, decide_eq_true_eq, tblAbove_iff, List.mem_cons, List.pairwise_cons]
    constructor
    · rintro ⟨hv, hm, hp⟩
      refine ⟨?_, fun a ha => (hm a ha).1, hp⟩
      rintro e (rfl | he)
      · exact hv
      · exact (hm e he).2
    · rintro ⟨hm, hj, hp⟩
      exact ⟨hm (j, v) (.inl rfl), fun e he => ⟨hj e he, hm e (.inr he)⟩, hp⟩

theorem mem_tput (k : Nat) (v : α) (m : Tbl α) (e : Nat × α) : e ∈ tput k v m ↔ e = (k, v) ∨ e ∈ m := by
  induction m with
  | nil => simp [tput]
  | cons f m ih =>
    unfold tput
    split
    · simp
    · simp only [List.mem_cons, ih]
      tauto

theorem tput_pairwise (k : Nat) (v : α) (m : Tbl α) (hk : ∀ e ∈ m, e.1 ≠ k)
    (hp : m.Pairwise fun a b => a.1 < b.1) : (tput k v m).Pairwise fun a b => a.1 < b.1 := by
  induction m with
  | nil => simp [tput]
  | cons f m ih =>
    obtain ⟨j, w⟩ := f
    rw [List.pairwise_cons] at hp
    unfold tput
    split
    · rename_i h
      refine List.pairwise_cons.mpr ⟨?_, List.pairwise_cons.mpr hp⟩
      rintro e he
      rcases List.mem_cons.mp he with rfl | he
      · exact h
      · exact Nat.lt_trans h (hp.1 e he)
    · rename_i h
      have hj : j ≠ k := hk (j, w) (by simp)
      refine List.pairwise_cons.mpr ⟨?_, ih (fun e he => hk e (by simp [he])) hp.2⟩
      intro e he
      rcases (mem_tput k v m e).mp he with rfl | he
      · exact show j < k by omega
      · exact hp.1 e he

/-- Every write keeps the canonical form. -/
theorem tset_wf (d : α) (m : Tbl α) (k : Nat) (v : α) (h : Tbl.wf d m = true) : Tbl.wf d (tset d m k v) = true := by
  rw [wf_iff] at h ⊢
  have hd : (∀ e ∈ tdrop k m, e.2 ≠ d) ∧ (tdrop k m).Pairwise (fun a b => a.1 < b.1) :=
    ⟨fun e he => h.1 e (List.mem_of_mem_filter he), h.2.filter _⟩
  unfold tset
  split
  · exact hd
  · rename_i hv
    refine ⟨fun e he => ?_, tput_pairwise k v _ (tdrop_notMem k m) hd.2⟩
    rcases (mem_tput k v _ e).mp he with rfl | he
    · exact hv
    · exact hd.1 e he

theorem tmod_wf (d : α) (m : Tbl α) (k : Nat) (f : α → α) (h : Tbl.wf d m = true) : Tbl.wf d (tmod d m k f) = true :=
  tset_wf d m k _ h

theorem tclear_wf (d : α) (lo n : Nat) (m : Tbl α) (h : Tbl.wf d m = true) : Tbl.wf d (tclear lo n m) = true := by
  rw [wf_iff] at h ⊢
  exact ⟨fun e he => h.1 e (List.mem_of_mem_filter he), h.2.filter _⟩

theorem tmerge_wf (d : α) (m src : Tbl α) (h : Tbl.wf d m = true) : Tbl.wf d (tmerge d m src) = true := by
  unfold tmerge
  induction src generalizing m with
  | nil => exact h
  | cons e src ih => exact ih _ (tset_wf d m e.1 e.2 h)

@[simp] theorem tget_tmod_same (d : α) (m : Tbl α) (k : Nat) (f : α → α) :
    tget d (tmod d m k f) k = f (tget d m k) := tget_tset_same d m k _

@[simp] theorem tget_tmod_ne (d : α) (m : Tbl α) {k j : Nat} (f : α → α) (h : j ≠ k) :
    tget d (tmod d m k f) j = tget d m j := tget_tset_ne d m _ h

/-! ## Memories -/

/-- Every memory write keeps the canonical form. -/
theorem wrBytes_wf (d : Byte) (m : Memory) (a : Nat) (bs : List Byte) (h : Memory.wf d m = true) :
    Memory.wf d (wrBytes d m a bs) = true := by
  induction bs generalizing m a with
  | nil => exact h
  | cons b bs ih => exact ih _ _ (tset_wf d m a b h)

theorem wrLe_wf (d : Byte) (m : Memory) (a n x : Nat) (h : Memory.wf d m = true) : Memory.wf d (wrLe d m a n x) = true :=
  wrBytes_wf d m a _ h

theorem wrW_wf (d : Byte) (m : Memory) (a : Nat) (w : Word) (h : Memory.wf d m = true) :
    Memory.wf d (wrW d m a w) = true := wrLe_wf d m a 4 _ h

/-- A write of bytes leaves every address outside them alone. -/
theorem tget_wrBytes_outside (d : Byte) (m : Memory) (a : Nat) (bs : List Byte) (j : Nat)
    (h : j < a ∨ a + bs.length ≤ j) : tget d (wrBytes d m a bs) j = tget d m j := by
  induction bs generalizing m a with
  | nil => rfl
  | cons b bs ih =>
    have hlen : (b :: bs).length = bs.length + 1 := rfl
    show tget d (wrBytes d (tset d m a b) (a + 1) bs) j = _
    rw [ih _ _ (by omega), tget_tset_ne d m b (by omega)]

/-- The bytes written are read back. -/
theorem rdBytes_wrBytes (d : Byte) (m : Memory) (a : Nat) (bs : List Byte) :
    rdBytes d (wrBytes d m a bs) a bs.length = bs := by
  induction bs generalizing m a with
  | nil => rfl
  | cons b bs ih =>
    show tget d (wrBytes d (tset d m a b) (a + 1) bs) a :: rdBytes d (wrBytes d (tset d m a b) (a + 1) bs) (a + 1) bs.length = _
    rw [ih, tget_wrBytes_outside d _ _ _ _ (.inl (by omega)), tget_tset_same]

@[simp] theorem leBytes_length (n x : Nat) : (leBytes n x).length = n := by
  induction n generalizing x with
  | zero => rfl
  | succ n ih => simp [leBytes, ih]

/-- A little-endian number of `n` bytes is what its bytes give back, modulo 256^n. -/
theorem leNat_leBytes (n x : Nat) : leNat (leBytes n x) = x % 256 ^ n := by
  induction n generalizing x with
  | zero => simp [leBytes, leNat, Nat.mod_one]
  | succ n ih =>
    have h : (BitVec.ofNat 8 x).toNat = x % 256 := BitVec.toNat_ofNat x 8
    rw [leBytes, leNat, ih, h, Nat.pow_succ', Nat.mod_mul (x := x)]

theorem rdLe_wrLe (d : Byte) (m : Memory) (a n x : Nat) : rdLe d (wrLe d m a n x) a n = x % 256 ^ n := by
  have h := rdBytes_wrBytes d m a (leBytes n x)
  rw [leBytes_length] at h
  rw [rdLe, wrLe, h, leNat_leBytes]

/-- A number that fits is read back from its big-endian bytes. -/
theorem beNat_beBytes {n x : Nat} (h : x < 256 ^ n) : beNat (beBytes n x) = x := by
  rw [beNat, beBytes, List.reverse_reverse, leNat_leBytes, Nat.mod_eq_of_lt h]

end Sys2Proof
end

