-- ==== Sys2Proof/Laws/Crypto.lean ====
section
/-! SUPPORT. Lengths of what AES and GCM answer. -/

namespace Sys2Proof.Machine

@[simp] theorem aesShift_length (b : List Byte) : (aesShift b).length = 16 := by simp [aesShift]
@[simp] theorem aesMix_length (b : List Byte) : (aesMix b).length = 16 := by simp [aesMix]
theorem aesNextKey_length {k : List Byte} (r : Byte) (h : k.length = 16) : (aesNextKey r k).length = 16 := by
  simp [aesNextKey, h]

theorem aesRounds_length : ∀ (n : Nat) (r : Byte) (k b : List Byte), k.length = 16 → b.length = 16 →
    (aesRounds n r k b).length = 16
  | 0, _, _, _, _, hb => hb
  | n + 1, r, k, b, hk, _ => by
    have h := aesNextKey_length r hk
    rw [aesRounds]
    refine aesRounds_length n _ _ _ h ?_
    split <;> simp [h]

/-- A block enciphered is a block. -/
theorem aes128_length {key block : List Byte} (hk : key.length = 16) (hb : block.length = 16) :
    (aes128 key block).length = 16 :=
  aesRounds_length 10 1 key _ hk (by simp [hk, hb])

/-- A tag has 16 bytes. -/
theorem gcmTag_length {key nonce : List Byte} (aad ct : List Byte) (hk : key.length = 16) (hn : nonce.length = 12) :
    (gcmTag key nonce aad ct).length = 16 := by
  have h : (aes128 key (nonce ++ beBytes 4 1)).length = 16 := aes128_length hk (by simp [beBytes, hn])
  rw [gcmTag, List.length_zipWith, h]
  simp [beBytes]

end Sys2Proof.Machine
end

