-- ==== Sys2Proof/Laws/Switch.lean ====
section
/-! SUPPORT. What the workings of the lane switch leave alone: choosing and undoing touch only the switch, and an offered
packet besides only a lane's count of refusals. -/

namespace Sys2Proof.Machine

/-- `t` is `s` with another lane switch. -/
def OnlySw (s t : State) : Prop := ∃ w, t = { s with sw := w }

namespace Frame

theorem sw_refl (s : State) : OnlySw s s := ⟨s.sw, rfl⟩

theorem sw_trans {s t u : State} (h : OnlySw s t) (g : OnlySw t u) : OnlySw s u := by
  obtain ⟨w, rfl⟩ := h
  obtain ⟨x, rfl⟩ := g
  exact ⟨x, rfl⟩

theorem sw_foldl {β : Type} (f : State → β → State) (h : ∀ s x, OnlySw s (f s x)) (l : List β) (s : State) :
    OnlySw s (l.foldl f s) := by
  induction l generalizing s with
  | nil => exact sw_refl s
  | cons x l ih => exact sw_trans (h s x) (ih _)

theorem touchQ_sw (q : Nat) (s : State) : OnlySw s (touchQ q s) := ⟨_, rfl⟩
theorem touchU_sw (p v u : Nat) (s : State) : OnlySw s (touchU p v u s) := ⟨_, rfl⟩
theorem touchS_sw (p v : Nat) (s : State) : OnlySw s (touchS p v s) := by
  unfold touchS
  split
  · exact sw_refl s
  · exact ⟨_, rfl⟩

theorem refreshPath_sw (s : State) (q : Nat) : OnlySw s (refreshPath s q) :=
  sw_trans (touchQ_sw q s) (sw_trans (touchU_sw _ _ _ _) (touchS_sw _ _ _))

theorem chargeNode_sw (l : Nat) (s : State) (n : Node) : OnlySw s (chargeNode l s n) := by
  unfold chargeNode
  split
  · exact sw_refl s
  · exact ⟨_, rfl⟩

theorem settleNode_sw (s : State) (n : Node) : OnlySw s (settleNode s n) := by
  unfold settleNode
  split
  · exact sw_refl s
  · split
    · exact ⟨_, rfl⟩
    · exact sw_refl s

theorem choose_sw (p : Nat) (s : State) : OnlySw s (choose p s) := by
  unfold choose
  split
  · exact sw_refl s
  · split
    · exact sw_refl s
    · split
      · exact sw_refl s
      · split
        · exact sw_refl s
        · split
          · exact sw_refl s
          · refine sw_trans ?_ (refreshPath_sw _ _)
            refine sw_trans ?_ (sw_foldl _ (chargeNode_sw _) _ _)
            dsimp only
            split <;> exact ⟨_, rfl⟩

theorem undo_sw (p : Nat) (b : Bool) (s : State) : OnlySw s (undo p b s) := by
  unfold undo
  split
  · exact sw_refl s
  · refine sw_trans ?_ (refreshPath_sw _ _)
    cases b
    · refine sw_trans ?_ (sw_foldl _ settleNode_sw _ _)
      exact ⟨_, rfl⟩
    · exact ⟨_, rfl⟩

end Frame

/-- `t` is `s` with another lane switch and, in the lanes, at most other counts of refused packets. -/
def SwitchAndRefusals (s t : State) : Prop :=
  ∃ w l, t = { s with sw := w, lanes := l } ∧ ∀ n, ∃ r, tget {} l n = { tget {} s.lanes n with closeRej := r }

namespace Frame

theorem sr_of_sw {s t : State} (h : OnlySw s t) : SwitchAndRefusals s t := by
  obtain ⟨w, rfl⟩ := h
  exact ⟨w, s.lanes, rfl, fun n => ⟨(tget {} s.lanes n).closeRej, rfl⟩⟩

theorem sr_refl (s : State) : SwitchAndRefusals s s := sr_of_sw (sw_refl s)

theorem sr_trans {s t u : State} (h : SwitchAndRefusals s t) (g : SwitchAndRefusals t u) : SwitchAndRefusals s u := by
  obtain ⟨w, l, rfl, hl⟩ := h
  obtain ⟨x, m, rfl, hm⟩ := g
  refine ⟨x, m, rfl, fun n => ?_⟩
  obtain ⟨r, hr⟩ := hl n
  obtain ⟨q, hq⟩ := hm n
  exact ⟨q, by rw [hq]; dsimp only; rw [hr]⟩

theorem sr_foldl {β : Type} (f : State → β → State) (h : ∀ s x, SwitchAndRefusals s (f s x)) (l : List β) (s : State) :
    SwitchAndRefusals s (l.foldl f s) := by
  induction l generalizing s with
  | nil => exact sr_refl s
  | cons x l ih => exact sr_trans (h s x) (ih _)

theorem refusal_sr (n c : Nat) (s : State) : SwitchAndRefusals s (modLane n (fun x => { x with closeRej := satInc c x.closeRej }) s) := by
  refine ⟨s.sw, _, rfl, fun k => ?_⟩
  by_cases hk : k = n
  · subst hk
    exact ⟨satInc c (tget {} s.lanes k).closeRej, by simp⟩
  · exact ⟨(tget {} s.lanes k).closeRej, by simp [hk]⟩

theorem joinQueue_sr (q slot : Nat) (k : Pkt) (s : State) : SwitchAndRefusals s (joinQueue q slot k s).2 := by
  unfold joinQueue
  dsimp only
  split
  · exact sr_of_sw ⟨_, rfl⟩
  · split
    · dsimp only
      split
      · exact refusal_sr _ _ s
      · exact sr_refl s
    · split
      · exact sr_of_sw ⟨_, rfl⟩
      · have h : OnlySw s (refreshPath { s with sw.queues := tset [] s.sw.queues q (queue s q ++ [{ k with src := slot }]) } q) :=
          sw_trans ⟨_, rfl⟩ (refreshPath_sw _ _)
        split
        · split
          · exact sr_of_sw (sw_trans h (sw_trans (undo_sw _ _ _) (choose_sw _ _)))
          · exact sr_of_sw h
        · exact sr_of_sw h

theorem colour_sw (i b pre : Nat) (s : State) : OnlySw s (colour i b pre s).2 := by
  unfold colour
  dsimp only
  split
  · exact ⟨_, rfl⟩
  · split
    · exact ⟨_, rfl⟩
    · exact ⟨_, rfl⟩

/-- An offered packet changes only the switch and a lane's count of refusals. -/
theorem offerPkt_sr (q slot : Nat) (dei : Bool) (k : Pkt) (s : State) : SwitchAndRefusals s (offerPkt q slot dei k s).2 := by
  have h : ∀ pre, OnlySw s (colour (qPol s q) k.bytes pre s).2 := fun pre => colour_sw _ _ pre s
  unfold offerPkt
  split
  · exact sr_of_sw ⟨_, rfl⟩
  · dsimp only
    split
    · exact joinQueue_sr _ _ _ s
    · generalize (if (decide (polMode s (qPol s q) = 2) && dei) = true then 1 else 0) = pre
      have h := h pre
      generalize colour (qPol s q) k.bytes pre s = cs at h ⊢
      obtain ⟨c, t⟩ := cs
      dsimp only at h ⊢
      split
      · exact sr_of_sw (sw_trans h ⟨_, rfl⟩)
      · split
        · split
          · exact sr_of_sw (sw_trans h ⟨_, rfl⟩)
          · exact sr_trans (sr_of_sw h) (joinQueue_sr _ _ _ _)
        · exact sr_trans (sr_of_sw h) (joinQueue_sr _ _ _ _)

end Frame

end Sys2Proof.Machine
end

