-- ==== Sys2Proof/Laws/Done.lean ====
section
/-! SUPPORT. What the delivery of events at a command's end does: which fields it can change, and that it leaves nothing
undelivered. -/

namespace Sys2Proof.Machine

/-- `t` is `s` after events were delivered: only the events' own fields, the log, the export's counts, the lane switch and
a lane's count of refused packets can differ. -/
def Delivered (s t : State) : Prop :=
  ∃ ev q lg er sec last w l,
    t = { s with
          evt := ev
          ret := { s.ret with evtSeq := q, log := lg }
          hmp := { s.hmp with err := er, sysSec := sec, sysLast := last }
          sw := w
          lanes := l } ∧
      ∀ n, ∃ r, tget {} l n = { tget {} s.lanes n with closeRej := r }

namespace Frame

theorem dl_evt (s : State) (ev : Evt) : Delivered s { s with evt := ev } :=
  ⟨ev, s.ret.evtSeq, s.ret.log, s.hmp.err, s.hmp.sysSec, s.hmp.sysLast, s.sw, s.lanes, rfl,
    fun n => ⟨(tget {} s.lanes n).closeRej, rfl⟩⟩

theorem dl_refl (s : State) : Delivered s s := dl_evt s s.evt

theorem dl_trans {s t u : State} (h : Delivered s t) (g : Delivered t u) : Delivered s u := by
  obtain ⟨ev, q, lg, er, sec, last, w, l, rfl, hl⟩ := h
  obtain ⟨ev', q', lg', er', sec', last', w', l', rfl, hl'⟩ := g
  refine ⟨ev', q', lg', er', sec', last', w', l', rfl, fun n => ?_⟩
  obtain ⟨r, hr⟩ := hl n
  obtain ⟨r', hr'⟩ := hl' n
  exact ⟨r', by rw [hr']; dsimp only; rw [hr]⟩

theorem dl_foldl {β : Type} (f : State → β → State) (h : ∀ s x, Delivered s (f s x)) (l : List β) (s : State) :
    Delivered s (l.foldl f s) := by
  induction l generalizing s with
  | nil => exact dl_refl s
  | cons x l ih => exact dl_trans (h s x) (ih _)

theorem dl_of_sr {s t : State} (h : SwitchAndRefusals s t) : Delivered s t := by
  obtain ⟨w, l, rfl, hl⟩ := h
  exact ⟨s.evt, s.ret.evtSeq, s.ret.log, s.hmp.err, s.hmp.sysSec, s.hmp.sysLast, w, l, rfl, hl⟩

theorem appendLog_dl (e : LogEntry) (s : State) : Delivered s (appendLog e s) := by
  unfold appendLog
  split
  · exact ⟨_, _, _, s.hmp.err, s.hmp.sysSec, s.hmp.sysLast, s.sw, s.lanes, rfl,
      fun n => ⟨(tget {} s.lanes n).closeRej, rfl⟩⟩
  · exact dl_evt s _

theorem deliver_dl (e : LogEntry) (s : State) : Delivered s (deliver e s) := by
  unfold deliver
  split
  · exact dl_evt s _
  · dsimp only
    split
    · exact dl_trans (appendLog_dl e s) (dl_trans (dl_evt _ _) (dl_evt _ _))
    · exact dl_trans (appendLog_dl e s) (dl_evt _ _)

theorem flushEvents_dl (s : State) : Delivered s (flushEvents s) :=
  dl_trans (dl_evt s _) (dl_foldl _ (fun s e => deliver_dl e s) _ _)

theorem class_1806 : classOf 0x1806 = 0x57 := by decide

theorem raise_1806 (arg : Nat) (s : State) : raise 0x1806 arg s = note 0x1806 0x57 arg 255 0 (utcNow s) s := by
  unfold raise raiseL
  rw [class_1806]
  rfl

theorem exportOne_dl (s : State) (e : LogEntry) : Delivered s (exportOne s e) := by
  unfold exportOne
  split
  · exact dl_refl s
  · split
    · exact ⟨_, s.ret.evtSeq, s.ret.log, s.hmp.err, _, s.hmp.sysLast, s.sw, s.lanes, rfl,
        fun n => ⟨(tget {} s.lanes n).closeRej, rfl⟩⟩
    · dsimp only
      split
      · exact ⟨s.evt, s.ret.evtSeq, s.ret.log, _, s.hmp.sysSec, s.hmp.sysLast, s.sw, s.lanes, rfl,
          fun n => ⟨(tget {} s.lanes n).closeRej, rfl⟩⟩
      · rw [raise_1806]
        exact ⟨_, s.ret.evtSeq, s.ret.log, _, s.hmp.sysSec, _, s.sw, s.lanes, rfl,
          fun n => ⟨(tget {} s.lanes n).closeRej, rfl⟩⟩

theorem exportSyslog_dl (s : State) : Delivered s (exportSyslog s) :=
  dl_trans (dl_trans (dl_trans (dl_evt s _) (dl_foldl _ exportOne_dl _ _)) (flushEvents_dl _))
    (dl_trans (dl_evt _ _) (dl_foldl _ exportOne_dl _ _))

theorem klpSend_sr (l t f q : Nat) (d : List Byte) (s : State) : SwitchAndRefusals s (klpSend l t f q d s) :=
  offerPkt_sr _ _ _ _ s

theorem sendEvents_dl (s : State) : Delivered s (sendEvents s) := by
  unfold sendEvents
  split
  · exact dl_refl s
  · split
    · exact dl_trans (dl_evt s _) (dl_of_sr (sr_foldl _ (fun s e => klpSend_sr _ _ _ _ _ s) _ _))
    · exact dl_evt s _

end Frame

/-- Delivery changes only what `Delivered` names. -/
theorem settle_delivered (s : State) : Delivered s (settle s) :=
  Frame.dl_trans (Frame.dl_trans (Frame.flushEvents_dl s) (Frame.dl_trans (Frame.exportSyslog_dl _) (Frame.sendEvents_dl _)))
    (Frame.dl_evt _ _)

@[simp] theorem settle_atBnd (s : State) : (settle s).evt.atBnd = false := rfl
@[simp] theorem settle_clk (s : State) : (settle s).clk = s.clk := by
  obtain ⟨_, _, _, _, _, _, _, _, h, _⟩ := settle_delivered s
  rw [h]
@[simp] theorem settle_md (s : State) : (settle s).md = s.md := by
  obtain ⟨_, _, _, _, _, _, _, _, h, _⟩ := settle_delivered s
  rw [h]
@[simp] theorem settle_ring (s : State) : (settle s).ring = s.ring := by
  obtain ⟨_, _, _, _, _, _, _, _, h, _⟩ := settle_delivered s
  rw [h]
@[simp] theorem settle_exe (s : State) : (settle s).exe = s.exe := by
  obtain ⟨_, _, _, _, _, _, _, _, h, _⟩ := settle_delivered s
  rw [h]
@[simp] theorem settle_trial (s : State) : (settle s).trial = s.trial := by
  obtain ⟨_, _, _, _, _, _, _, _, h, _⟩ := settle_delivered s
  rw [h]
@[simp] theorem settle_boot (s : State) : (settle s).boot = s.boot := by
  obtain ⟨_, _, _, _, _, _, _, _, h, _⟩ := settle_delivered s
  rw [h]
@[simp] theorem settle_img (s : State) : (settle s).img = s.img := by
  obtain ⟨_, _, _, _, _, _, _, _, h, _⟩ := settle_delivered s
  rw [h]
@[simp] theorem settle_rtc (s : State) : (settle s).rtc = s.rtc := by
  obtain ⟨_, _, _, _, _, _, _, _, h, _⟩ := settle_delivered s
  rw [h]
@[simp] theorem settle_bus (s : State) : (settle s).bus = s.bus := by
  obtain ⟨_, _, _, _, _, _, _, _, h, _⟩ := settle_delivered s
  rw [h]
@[simp] theorem settle_dbg (s : State) : (settle s).dbg = s.dbg := by
  obtain ⟨_, _, _, _, _, _, _, _, h, _⟩ := settle_delivered s
  rw [h]
@[simp] theorem settle_fl (s : State) : (settle s).fl = s.fl := by
  obtain ⟨_, _, _, _, _, _, _, _, h, _⟩ := settle_delivered s
  rw [h]
@[simp] theorem settle_engs (s : State) : (settle s).engs = s.engs := by
  obtain ⟨_, _, _, _, _, _, _, _, h, _⟩ := settle_delivered s
  rw [h]
@[simp] theorem settle_cv (s : State) : (settle s).cv = s.cv := by
  obtain ⟨_, _, _, _, _, _, _, _, h, _⟩ := settle_delivered s
  rw [h]
@[simp] theorem settle_klp (s : State) : (settle s).klp = s.klp := by
  obtain ⟨_, _, _, _, _, _, _, _, h, _⟩ := settle_delivered s
  rw [h]
@[simp] theorem settle_felt (s : State) : (settle s).felt = s.felt := by
  obtain ⟨_, _, _, _, _, _, _, _, h, _⟩ := settle_delivered s
  rw [h]
@[simp] theorem settle_nego (s : State) : (settle s).nego = s.nego := by
  obtain ⟨_, _, _, _, _, _, _, _, h, _⟩ := settle_delivered s
  rw [h]
@[simp] theorem settle_slu (s : State) : (settle s).slu = s.slu := by
  obtain ⟨_, _, _, _, _, _, _, _, h, _⟩ := settle_delivered s
  rw [h]
@[simp] theorem settle_isl (s : State) : (settle s).isl = s.isl := by
  obtain ⟨_, _, _, _, _, _, _, _, h, _⟩ := settle_delivered s
  rw [h]
@[simp] theorem settle_islView (s : State) : (settle s).islView = s.islView := by
  obtain ⟨_, _, _, _, _, _, _, _, h, _⟩ := settle_delivered s
  rw [h]
@[simp] theorem settle_bags (s : State) : (settle s).bags = s.bags := by
  obtain ⟨_, _, _, _, _, _, _, _, h, _⟩ := settle_delivered s
  rw [h]
@[simp] theorem settle_keys (s : State) : (settle s).keys = s.keys := by
  obtain ⟨_, _, _, _, _, _, _, _, h, _⟩ := settle_delivered s
  rw [h]
@[simp] theorem settle_guard (s : State) : (settle s).guard = s.guard := by
  obtain ⟨_, _, _, _, _, _, _, _, h, _⟩ := settle_delivered s
  rw [h]
@[simp] theorem settle_wd (s : State) : (settle s).wd = s.wd := by
  obtain ⟨_, _, _, _, _, _, _, _, h, _⟩ := settle_delivered s
  rw [h]
@[simp] theorem settle_free (s : State) : (settle s).free = s.free := by
  obtain ⟨_, _, _, _, _, _, _, _, h, _⟩ := settle_delivered s
  rw [h]
@[simp] theorem settle_pending (s : State) : (settle s).pending = s.pending := by
  obtain ⟨_, _, _, _, _, _, _, _, h, _⟩ := settle_delivered s
  rw [h]
@[simp] theorem settle_ret_rows (s : State) : (settle s).ret.rows = s.ret.rows := by
  obtain ⟨_, _, _, _, _, _, _, _, h, _⟩ := settle_delivered s
  rw [h]
@[simp] theorem settle_ret_p (s : State) : (settle s).ret.p = s.ret.p := by
  obtain ⟨_, _, _, _, _, _, _, _, h, _⟩ := settle_delivered s
  rw [h]
@[simp] theorem settle_ret_lastRot (s : State) : (settle s).ret.lastRot = s.ret.lastRot := by
  obtain ⟨_, _, _, _, _, _, _, _, h, _⟩ := settle_delivered s
  rw [h]
@[simp] theorem settle_ret_flushes (s : State) : (settle s).ret.flushes = s.ret.flushes := by
  obtain ⟨_, _, _, _, _, _, _, _, h, _⟩ := settle_delivered s
  rw [h]
@[simp] theorem settle_ret_pfDone (s : State) : (settle s).ret.pfDone = s.ret.pfDone := by
  obtain ⟨_, _, _, _, _, _, _, _, h, _⟩ := settle_delivered s
  rw [h]
@[simp] theorem settle_ret_bad (s : State) : (settle s).ret.bad = s.ret.bad := by
  obtain ⟨_, _, _, _, _, _, _, _, h, _⟩ := settle_delivered s
  rw [h]
@[simp] theorem settle_ret_pfCnt (s : State) : (settle s).ret.pfCnt = s.ret.pfCnt := by
  obtain ⟨_, _, _, _, _, _, _, _, h, _⟩ := settle_delivered s
  rw [h]
@[simp] theorem settle_ret_wdS (s : State) : (settle s).ret.wdS = s.ret.wdS := by
  obtain ⟨_, _, _, _, _, _, _, _, h, _⟩ := settle_delivered s
  rw [h]
@[simp] theorem settle_ret_wdC (s : State) : (settle s).ret.wdC = s.ret.wdC := by
  obtain ⟨_, _, _, _, _, _, _, _, h, _⟩ := settle_delivered s
  rw [h]
@[simp] theorem settle_ret_bootCnt (s : State) : (settle s).ret.bootCnt = s.ret.bootCnt := by
  obtain ⟨_, _, _, _, _, _, _, _, h, _⟩ := settle_delivered s
  rw [h]
@[simp] theorem settle_ret_wakeCtr (s : State) : (settle s).ret.wakeCtr = s.ret.wakeCtr := by
  obtain ⟨_, _, _, _, _, _, _, _, h, _⟩ := settle_delivered s
  rw [h]
@[simp] theorem settle_ret_reports (s : State) : (settle s).ret.reports = s.ret.reports := by
  obtain ⟨_, _, _, _, _, _, _, _, h, _⟩ := settle_delivered s
  rw [h]
@[simp] theorem settle_hmp_sess (s : State) : (settle s).hmp.sess = s.hmp.sess := by
  obtain ⟨_, _, _, _, _, _, _, _, h, _⟩ := settle_delivered s
  rw [h]
@[simp] theorem settle_hmp_bulk (s : State) : (settle s).hmp.bulk = s.hmp.bulk := by
  obtain ⟨_, _, _, _, _, _, _, _, h, _⟩ := settle_delivered s
  rw [h]
@[simp] theorem settle_hmp_bulkOk (s : State) : (settle s).hmp.bulkOk = s.hmp.bulkOk := by
  obtain ⟨_, _, _, _, _, _, _, _, h, _⟩ := settle_delivered s
  rw [h]
@[simp] theorem settle_hmp_hdrBad (s : State) : (settle s).hmp.hdrBad = s.hmp.hdrBad := by
  obtain ⟨_, _, _, _, _, _, _, _, h, _⟩ := settle_delivered s
  rw [h]
@[simp] theorem settle_hmp_helloSec (s : State) : (settle s).hmp.helloSec = s.hmp.helloSec := by
  obtain ⟨_, _, _, _, _, _, _, _, h, _⟩ := settle_delivered s
  rw [h]
@[simp] theorem settle_hmp_authSec (s : State) : (settle s).hmp.authSec = s.hmp.authSec := by
  obtain ⟨_, _, _, _, _, _, _, _, h, _⟩ := settle_delivered s
  rw [h]
@[simp] theorem settle_hmp_write (s : State) : (settle s).hmp.write = s.hmp.write := by
  obtain ⟨_, _, _, _, _, _, _, _, h, _⟩ := settle_delivered s
  rw [h]
@[simp] theorem settle_hmp_held (s : State) : (settle s).hmp.held = s.hmp.held := by
  obtain ⟨_, _, _, _, _, _, _, _, h, _⟩ := settle_delivered s
  rw [h]
@[simp] theorem settle_hmp_waits (s : State) : (settle s).hmp.waits = s.hmp.waits := by
  obtain ⟨_, _, _, _, _, _, _, _, h, _⟩ := settle_delivered s
  rw [h]
@[simp] theorem settle_hmp_posts (s : State) : (settle s).hmp.posts = s.hmp.posts := by
  obtain ⟨_, _, _, _, _, _, _, _, h, _⟩ := settle_delivered s
  rw [h]
@[simp] theorem settle_hmp_retries (s : State) : (settle s).hmp.retries = s.hmp.retries := by
  obtain ⟨_, _, _, _, _, _, _, _, h, _⟩ := settle_delivered s
  rw [h]
@[simp] theorem settle_hmp_answer (s : State) : (settle s).hmp.answer = s.hmp.answer := by
  obtain ⟨_, _, _, _, _, _, _, _, h, _⟩ := settle_delivered s
  rw [h]
@[simp] theorem settle_hmp_plain (s : State) : (settle s).hmp.plain = s.hmp.plain := by
  obtain ⟨_, _, _, _, _, _, _, _, h, _⟩ := settle_delivered s
  rw [h]
@[simp] theorem settle_hmp_hello (s : State) : (settle s).hmp.hello = s.hmp.hello := by
  obtain ⟨_, _, _, _, _, _, _, _, h, _⟩ := settle_delivered s
  rw [h]
@[simp] theorem settle_lane_dom (s : State) (n : Nat) : (lane (settle s) n).dom = (lane s n).dom := by
  obtain ⟨_, _, _, _, _, _, _, l, h, hl⟩ := settle_delivered s
  obtain ⟨r, hr⟩ := hl n
  rw [h]
  show (tget {} l n).dom = _
  rw [hr]
  rfl
@[simp] theorem settle_lane_closeN (s : State) (n : Nat) : (lane (settle s) n).closeN = (lane s n).closeN := by
  obtain ⟨_, _, _, _, _, _, _, l, h, hl⟩ := settle_delivered s
  obtain ⟨r, hr⟩ := hl n
  rw [h]
  show (tget {} l n).closeN = _
  rw [hr]
  rfl
@[simp] theorem settle_lane_flushed (s : State) (n : Nat) : (lane (settle s) n).flushed = (lane s n).flushed := by
  obtain ⟨_, _, _, _, _, _, _, l, h, hl⟩ := settle_delivered s
  obtain ⟨r, hr⟩ := hl n
  rw [h]
  show (tget {} l n).flushed = _
  rw [hr]
  rfl
@[simp] theorem settle_lane_pends (s : State) (n : Nat) : (lane (settle s) n).pends = (lane s n).pends := by
  obtain ⟨_, _, _, _, _, _, _, l, h, hl⟩ := settle_delivered s
  obtain ⟨r, hr⟩ := hl n
  rw [h]
  show (tget {} l n).pends = _
  rw [hr]
  rfl
@[simp] theorem settle_lane_prev (s : State) (n : Nat) : (lane (settle s) n).prev = (lane s n).prev := by
  obtain ⟨_, _, _, _, _, _, _, l, h, hl⟩ := settle_delivered s
  obtain ⟨r, hr⟩ := hl n
  rw [h]
  show (tget {} l n).prev = _
  rw [hr]
  rfl
@[simp] theorem settle_lane_lost (s : State) (n : Nat) : (lane (settle s) n).lost = (lane s n).lost := by
  obtain ⟨_, _, _, _, _, _, _, l, h, hl⟩ := settle_delivered s
  obtain ⟨r, hr⟩ := hl n
  rw [h]
  show (tget {} l n).lost = _
  rw [hr]
  rfl
@[simp] theorem settle_lane_groups (s : State) (n : Nat) : (lane (settle s) n).groups = (lane s n).groups := by
  obtain ⟨_, _, _, _, _, _, _, l, h, hl⟩ := settle_delivered s
  obtain ⟨r, hr⟩ := hl n
  rw [h]
  show (tget {} l n).groups = _
  rw [hr]
  rfl
@[simp] theorem settle_lane_disc (s : State) (n : Nat) : (lane (settle s) n).disc = (lane s n).disc := by
  obtain ⟨_, _, _, _, _, _, _, l, h, hl⟩ := settle_delivered s
  obtain ⟨r, hr⟩ := hl n
  rw [h]
  show (tget {} l n).disc = _
  rw [hr]
  rfl
@[simp] theorem settle_lane_cmdDrop (s : State) (n : Nat) : (lane (settle s) n).cmdDrop = (lane s n).cmdDrop := by
  obtain ⟨_, _, _, _, _, _, _, l, h, hl⟩ := settle_delivered s
  obtain ⟨r, hr⟩ := hl n
  rw [h]
  show (tget {} l n).cmdDrop = _
  rw [hr]
  rfl
@[simp] theorem settle_lane_evOvf (s : State) (n : Nat) : (lane (settle s) n).evOvf = (lane s n).evOvf := by
  obtain ⟨_, _, _, _, _, _, _, l, h, hl⟩ := settle_delivered s
  obtain ⟨r, hr⟩ := hl n
  rw [h]
  show (tget {} l n).evOvf = _
  rw [hr]
  rfl
@[simp] theorem settle_lane_closeDrop (s : State) (n : Nat) : (lane (settle s) n).closeDrop = (lane s n).closeDrop := by
  obtain ⟨_, _, _, _, _, _, _, l, h, hl⟩ := settle_delivered s
  obtain ⟨r, hr⟩ := hl n
  rw [h]
  show (tget {} l n).closeDrop = _
  rw [hr]
  rfl

/-! ## Nothing stays undelivered -/

namespace Frame

theorem appendLog_batch (e : LogEntry) (s : State) : (appendLog e s).evt.batch = s.evt.batch := by
  unfold appendLog
  split <;> rfl
theorem appendLog_sysOut (e : LogEntry) (s : State) : (appendLog e s).evt.sysOut = s.evt.sysOut := by
  unfold appendLog
  split <;> rfl

theorem deliver_batch (e : LogEntry) (s : State) : (deliver e s).evt.batch = s.evt.batch := by
  unfold deliver
  split
  · rfl
  · dsimp only
    split <;> exact appendLog_batch e s

/-- A delivery offers its entry to the export, or, before the firmware runs, does not. -/
theorem deliver_sysOut (e : LogEntry) (s : State) : ∃ l, (deliver e s).evt.sysOut = s.evt.sysOut ++ l ∧ l.length ≤ 1 := by
  unfold deliver
  split
  · exact ⟨[], by simp⟩
  · dsimp only
    split <;> exact ⟨[_], by rw [← appendLog_sysOut e s], by simp⟩

theorem flush_batch (s : State) : (flushEvents s).evt.batch = [] := by
  have h : ∀ (l : List LogEntry) (t : State), t.evt.batch = [] → (l.foldl (fun s e => deliver e s) t).evt.batch = [] := by
    intro l
    induction l with
    | nil => exact fun t h => h
    | cons e l ih => exact fun t h => ih _ (by rw [deliver_batch, h])
  exact h _ _ rfl

theorem flush_sysOut_nil (s : State) (hb : s.evt.batch = []) : (flushEvents s).evt.sysOut = s.evt.sysOut := by
  unfold flushEvents
  rw [hb]
  rfl

theorem ticksPerSec_pos (s : State) : 0 < ticksPerSec s := by
  unfold ticksPerSec
  generalize s.clk.tickSel = n
  match n with
  | 0 => decide
  | 1 => decide
  | 2 => decide
  | 3 => decide
  | _ + 4 => exact (by decide : 0 < 1000)

/-- The export keeps quiet for a minute after EVT-1806. -/
def Hushed (s : State) : Prop := s.hmp.sysLast = some s.clk.tick

theorem exportHushed_of_hushed (s : State) (h : Hushed s) : exportHushed s = true := by
  have := ticksPerSec_pos s
  unfold exportHushed
  unfold Hushed at h
  rw [h]
  exact decide_eq_true (by omega)

theorem exportOne_hushed (s : State) (e : LogEntry) (h : Hushed s) :
    Hushed (exportOne s e) ∧ (exportOne s e).evt.batch = s.evt.batch ∧ (exportOne s e).evt.sysOut = s.evt.sysOut := by
  unfold exportOne
  split
  · exact ⟨h, rfl, rfl⟩
  · split
    · exact ⟨h, rfl, rfl⟩
    · dsimp only
      rw [if_pos (exportHushed_of_hushed { s with hmp.err := satField 0 8 s.hmp.err } h)]
      exact ⟨h, rfl, rfl⟩

/-- After an export either nothing was raised or EVT-1806 was, and then the export is hushed. -/
theorem exportOne_cases (s : State) (e : LogEntry) (h : s.evt.batch = [] ∨ Hushed s) :
    ((exportOne s e).evt.batch = [] ∨ Hushed (exportOne s e)) ∧ (exportOne s e).evt.sysOut = s.evt.sysOut := by
  rcases h with h | h
  · unfold exportOne
    split
    · exact ⟨.inl h, rfl⟩
    · split
      · exact ⟨.inl h, rfl⟩
      · dsimp only
        split
        · exact ⟨.inl h, rfl⟩
        · rw [raise_1806]
          exact ⟨.inr rfl, rfl⟩
  · have := exportOne_hushed s e h
    exact ⟨.inr this.1, this.2.2⟩

theorem export_fold_cases (l : List LogEntry) (s : State) (h : s.evt.batch = [] ∨ Hushed s) :
    ((l.foldl exportOne s).evt.batch = [] ∨ Hushed (l.foldl exportOne s)) ∧
      (l.foldl exportOne s).evt.sysOut = s.evt.sysOut := by
  induction l generalizing s with
  | nil => exact ⟨h, rfl⟩
  | cons e l ih =>
    have g := exportOne_cases s e h
    have := ih _ g.1
    exact ⟨this.1, this.2.trans g.2⟩

theorem export_fold_hushed (l : List LogEntry) (s : State) (h : Hushed s) :
    (l.foldl exportOne s).evt.batch = s.evt.batch ∧ (l.foldl exportOne s).evt.sysOut = s.evt.sysOut := by
  induction l generalizing s with
  | nil => exact ⟨rfl, rfl⟩
  | cons e l ih =>
    have g := exportOne_hushed s e h
    have := ih _ g.1
    exact ⟨this.1.trans g.2.1, this.2.trans g.2.2⟩

theorem flush_hushed (s : State) (h : Hushed s) : Hushed (flushEvents s) := by
  have key : ∀ (l : List LogEntry) (t : State), Hushed t → Hushed (l.foldl (fun s e => deliver e s) t) := by
    intro l
    induction l with
    | nil => exact fun t h => h
    | cons e l ih =>
      refine fun t h => ih _ ?_
      show Hushed (deliver e t)
      have ha : Hushed (appendLog e t) := by
        unfold appendLog
        split <;> exact h
      unfold deliver
      split
      · exact h
      · dsimp only
        split <;> exact ha
  exact key _ _ h

theorem exportSyslog_empty (s : State) (hb : s.evt.batch = []) :
    (exportSyslog s).evt.batch = [] ∧ (exportSyslog s).evt.sysOut = [] := by
  unfold exportSyslog
  dsimp only
  obtain ⟨hc, ho⟩ := export_fold_cases s.evt.sysOut { s with evt.sysOut := [] } (.inl hb)
  generalize s.evt.sysOut.foldl exportOne { s with evt.sysOut := [] } = t at hc ho ⊢
  rcases hc with hc | hc
  · have hn : (flushEvents t).evt.sysOut = [] := by rw [flush_sysOut_nil t hc]; exact ho
    rw [hn]
    exact ⟨flush_batch t, rfl⟩
  · have g := export_fold_hushed (flushEvents t).evt.sysOut { flushEvents t with evt.sysOut := [] } (flush_hushed t hc)
    exact ⟨g.1.trans (flush_batch t), g.2⟩

theorem sendEvents_evt (s : State) : (sendEvents s).evt.batch = s.evt.batch ∧ (sendEvents s).evt.sysOut = s.evt.sysOut ∧
    (sendEvents s).evt.klpHeld.length ≤ 16 := by
  unfold sendEvents
  split
  · rename_i h
    exact ⟨rfl, rfl, by rw [List.isEmpty_iff.mp h]; decide⟩
  · split
    · obtain ⟨w, l, h, _⟩ := sr_foldl (fun s (e : LogEntry) => klpSend e.lane 7 0 0 (eventPayload e) s)
        (fun s e => klpSend_sr _ _ _ _ _ s) s.evt.klpHeld { s with evt.klpHeld := [] }
      rw [h]
      exact ⟨rfl, rfl, Nat.zero_le _⟩
    · refine ⟨rfl, rfl, ?_⟩
      show (s.evt.klpHeld.take 16).length ≤ 16
      rw [List.length_take]
      omega

end Frame

/-- After every command nothing raised is left undelivered and at most 16 EVENTs wait. -/
theorem settle_settled (s : State) : Settled (settle s) := by
  have h := Frame.sendEvents_evt (exportSyslog (flushEvents s))
  have g := Frame.exportSyslog_empty (flushEvents s) (Frame.flush_batch s)
  exact ⟨h.1.trans g.1, h.2.1.trans g.2, h.2.2⟩

/-- With nothing raised and nothing waiting, delivery only ends the moment of a tick boundary. -/
theorem settle_calm (s : State) (h : Calm s) : settle s = { s with evt.atBnd := false } := by
  obtain ⟨hb, ho, hk⟩ := h
  obtain ⟨clk, md, ring, exe, trial, boot, img, evt, ret, rtc, bus, dbg, fl, sw, lanes, engs, cv, klp, felt, nego, slu,
    isl, islView, bags, keys, guard, wd, hmp, free, pending⟩ := s
  obtain ⟨batch, early, klpHeld, sysOut, sysSent, secCount, secLost, onceC, once, atBnd⟩ := evt
  dsimp only at hb ho hk
  subst hb ho hk
  rfl

end Sys2Proof.Machine
end

