-- ==== Sys2Proof/Laws/Evt.lean ====
section
/-! SUPPORT. What raising an event changes: the batch always, the mode and the cycle engine only for a class F event in
THREAD, the faults of the next boundary for any other class F event. -/

namespace Sys2Proof.Machine

/-- `t` is `s` but for the events, the mode block and the cycle engine. -/
def OnlyRaised (s t : State) : Prop := ∃ ev md ex, t = { s with evt := ev, md := md, exe := ex }

theorem note_evt (code cls arg lane flags utc : Nat) (s : State) :
    note code cls arg lane flags utc s = { s with evt := (note code cls arg lane flags utc s).evt } := rfl

theorem toMode_raised (m : Mode) (s : State) : OnlyRaised s (toMode m s) := ⟨_, _, s.exe, rfl⟩

theorem setMode_raised (m : Mode) (s : State) : OnlyRaised s (setMode m s) := by
  unfold setMode
  split
  · exact ⟨s.evt, s.md, s.exe, rfl⟩
  · exact ⟨_, _, s.exe, rfl⟩

theorem enterHoldF_raised (code : Nat) (s : State) : OnlyRaised s (enterHoldF code s) := by
  unfold enterHoldF toMode
  dsimp only
  split <;> split <;> exact ⟨_, _, _, rfl⟩

theorem raiseAs_raised (cls code arg lane : Nat) (s : State) : OnlyRaised s (raiseAs cls code arg lane s) := by
  unfold raiseAs
  dsimp only
  split
  · split
    · obtain ⟨ev, md, ex, h⟩ := enterHoldF_raised code (note code cls arg lane 0 (utcNow s) s)
      exact ⟨ev, md, ex, h⟩
    · exact ⟨_, _, s.exe, rfl⟩
  · exact ⟨_, s.md, s.exe, rfl⟩

theorem raise_raised (code arg : Nat) (s : State) : OnlyRaised s (raise code arg s) := raiseAs_raised _ _ _ _ _

/-- An event that is not of class F changes the events only. -/
theorem raise_calm (code arg : Nat) (s : State) (h : classOf code ≠ 0x46) :
    raise code arg s = { s with evt := (raise code arg s).evt } := by
  simp only [raise, raiseL, raiseAs, if_neg h]
  rfl

/-- Outside THREAD a class F event is added to the faults of the next boundary. -/
theorem raise_fault (code arg : Nat) (s : State) (h : classOf code = 0x46) (hm : s.md.mode ≠ .thread) :
    raise code arg s = { s with evt := (raise code arg s).evt, md.pendF := s.md.pendF ++ [code] } := by
  simp only [raise, raiseL, raiseAs, if_pos h]
  rw [if_neg (by simpa [note] using hm)]
  rfl

@[simp] theorem raise_clk (code arg : Nat) (s : State) : (raise code arg s).clk = s.clk := by
  obtain ⟨_, _, _, h⟩ := raise_raised code arg s; rw [h]
@[simp] theorem raise_ring (code arg : Nat) (s : State) : (raise code arg s).ring = s.ring := by
  obtain ⟨_, _, _, h⟩ := raise_raised code arg s; rw [h]
@[simp] theorem raise_trial (code arg : Nat) (s : State) : (raise code arg s).trial = s.trial := by
  obtain ⟨_, _, _, h⟩ := raise_raised code arg s; rw [h]
@[simp] theorem raise_boot (code arg : Nat) (s : State) : (raise code arg s).boot = s.boot := by
  obtain ⟨_, _, _, h⟩ := raise_raised code arg s; rw [h]
@[simp] theorem raise_img (code arg : Nat) (s : State) : (raise code arg s).img = s.img := by
  obtain ⟨_, _, _, h⟩ := raise_raised code arg s; rw [h]
@[simp] theorem raise_ret (code arg : Nat) (s : State) : (raise code arg s).ret = s.ret := by
  obtain ⟨_, _, _, h⟩ := raise_raised code arg s; rw [h]
@[simp] theorem raise_rtc (code arg : Nat) (s : State) : (raise code arg s).rtc = s.rtc := by
  obtain ⟨_, _, _, h⟩ := raise_raised code arg s; rw [h]
@[simp] theorem raise_bus (code arg : Nat) (s : State) : (raise code arg s).bus = s.bus := by
  obtain ⟨_, _, _, h⟩ := raise_raised code arg s; rw [h]
@[simp] theorem raise_dbg (code arg : Nat) (s : State) : (raise code arg s).dbg = s.dbg := by
  obtain ⟨_, _, _, h⟩ := raise_raised code arg s; rw [h]
@[simp] theorem raise_fl (code arg : Nat) (s : State) : (raise code arg s).fl = s.fl := by
  obtain ⟨_, _, _, h⟩ := raise_raised code arg s; rw [h]
@[simp] theorem raise_sw (code arg : Nat) (s : State) : (raise code arg s).sw = s.sw := by
  obtain ⟨_, _, _, h⟩ := raise_raised code arg s; rw [h]
@[simp] theorem raise_lanes (code arg : Nat) (s : State) : (raise code arg s).lanes = s.lanes := by
  obtain ⟨_, _, _, h⟩ := raise_raised code arg s; rw [h]
@[simp] theorem raise_engs (code arg : Nat) (s : State) : (raise code arg s).engs = s.engs := by
  obtain ⟨_, _, _, h⟩ := raise_raised code arg s; rw [h]
@[simp] theorem raise_cv (code arg : Nat) (s : State) : (raise code arg s).cv = s.cv := by
  obtain ⟨_, _, _, h⟩ := raise_raised code arg s; rw [h]
@[simp] theorem raise_klp (code arg : Nat) (s : State) : (raise code arg s).klp = s.klp := by
  obtain ⟨_, _, _, h⟩ := raise_raised code arg s; rw [h]
@[simp] theorem raise_felt (code arg : Nat) (s : State) : (raise code arg s).felt = s.felt := by
  obtain ⟨_, _, _, h⟩ := raise_raised code arg s; rw [h]
@[simp] theorem raise_nego (code arg : Nat) (s : State) : (raise code arg s).nego = s.nego := by
  obtain ⟨_, _, _, h⟩ := raise_raised code arg s; rw [h]
@[simp] theorem raise_slu (code arg : Nat) (s : State) : (raise code arg s).slu = s.slu := by
  obtain ⟨_, _, _, h⟩ := raise_raised code arg s; rw [h]
@[simp] theorem raise_isl (code arg : Nat) (s : State) : (raise code arg s).isl = s.isl := by
  obtain ⟨_, _, _, h⟩ := raise_raised code arg s; rw [h]
@[simp] theorem raise_islView (code arg : Nat) (s : State) : (raise code arg s).islView = s.islView := by
  obtain ⟨_, _, _, h⟩ := raise_raised code arg s; rw [h]
@[simp] theorem raise_bags (code arg : Nat) (s : State) : (raise code arg s).bags = s.bags := by
  obtain ⟨_, _, _, h⟩ := raise_raised code arg s; rw [h]
@[simp] theorem raise_keys (code arg : Nat) (s : State) : (raise code arg s).keys = s.keys := by
  obtain ⟨_, _, _, h⟩ := raise_raised code arg s; rw [h]
@[simp] theorem raise_guard (code arg : Nat) (s : State) : (raise code arg s).guard = s.guard := by
  obtain ⟨_, _, _, h⟩ := raise_raised code arg s; rw [h]
@[simp] theorem raise_wd (code arg : Nat) (s : State) : (raise code arg s).wd = s.wd := by
  obtain ⟨_, _, _, h⟩ := raise_raised code arg s; rw [h]
@[simp] theorem raise_hmp (code arg : Nat) (s : State) : (raise code arg s).hmp = s.hmp := by
  obtain ⟨_, _, _, h⟩ := raise_raised code arg s; rw [h]
@[simp] theorem raise_free (code arg : Nat) (s : State) : (raise code arg s).free = s.free := by
  obtain ⟨_, _, _, h⟩ := raise_raised code arg s; rw [h]
@[simp] theorem raise_pending (code arg : Nat) (s : State) : (raise code arg s).pending = s.pending := by
  obtain ⟨_, _, _, h⟩ := raise_raised code arg s; rw [h]

end Sys2Proof.Machine
end

