-- ==== Sys2Proof/Laws/State.lean ====
section
/-! SUPPORT. What the updates of State leave alone and what is read back after them, so that no proof unfolds one. -/

namespace Sys2Proof.Machine

variable (s : State)

/-! ### modEng -/

@[simp] theorem modEng_clk (e : Nat) (f : Eng → Eng) : (modEng e f s).clk = s.clk := rfl
@[simp] theorem modEng_md (e : Nat) (f : Eng → Eng) : (modEng e f s).md = s.md := rfl
@[simp] theorem modEng_ring (e : Nat) (f : Eng → Eng) : (modEng e f s).ring = s.ring := rfl
@[simp] theorem modEng_exe (e : Nat) (f : Eng → Eng) : (modEng e f s).exe = s.exe := rfl
@[simp] theorem modEng_trial (e : Nat) (f : Eng → Eng) : (modEng e f s).trial = s.trial := rfl
@[simp] theorem modEng_boot (e : Nat) (f : Eng → Eng) : (modEng e f s).boot = s.boot := rfl
@[simp] theorem modEng_img (e : Nat) (f : Eng → Eng) : (modEng e f s).img = s.img := rfl
@[simp] theorem modEng_evt (e : Nat) (f : Eng → Eng) : (modEng e f s).evt = s.evt := rfl
@[simp] theorem modEng_ret (e : Nat) (f : Eng → Eng) : (modEng e f s).ret = s.ret := rfl
@[simp] theorem modEng_rtc (e : Nat) (f : Eng → Eng) : (modEng e f s).rtc = s.rtc := rfl
@[simp] theorem modEng_bus (e : Nat) (f : Eng → Eng) : (modEng e f s).bus = s.bus := rfl
@[simp] theorem modEng_dbg (e : Nat) (f : Eng → Eng) : (modEng e f s).dbg = s.dbg := rfl
@[simp] theorem modEng_fl (e : Nat) (f : Eng → Eng) : (modEng e f s).fl = s.fl := rfl
@[simp] theorem modEng_sw (e : Nat) (f : Eng → Eng) : (modEng e f s).sw = s.sw := rfl
@[simp] theorem modEng_lanes (e : Nat) (f : Eng → Eng) : (modEng e f s).lanes = s.lanes := rfl
@[simp] theorem modEng_cv (e : Nat) (f : Eng → Eng) : (modEng e f s).cv = s.cv := rfl
@[simp] theorem modEng_klp (e : Nat) (f : Eng → Eng) : (modEng e f s).klp = s.klp := rfl
@[simp] theorem modEng_felt (e : Nat) (f : Eng → Eng) : (modEng e f s).felt = s.felt := rfl
@[simp] theorem modEng_nego (e : Nat) (f : Eng → Eng) : (modEng e f s).nego = s.nego := rfl
@[simp] theorem modEng_slu (e : Nat) (f : Eng → Eng) : (modEng e f s).slu = s.slu := rfl
@[simp] theorem modEng_isl (e : Nat) (f : Eng → Eng) : (modEng e f s).isl = s.isl := rfl
@[simp] theorem modEng_islView (e : Nat) (f : Eng → Eng) : (modEng e f s).islView = s.islView := rfl
@[simp] theorem modEng_bags (e : Nat) (f : Eng → Eng) : (modEng e f s).bags = s.bags := rfl
@[simp] theorem modEng_keys (e : Nat) (f : Eng → Eng) : (modEng e f s).keys = s.keys := rfl
@[simp] theorem modEng_guard (e : Nat) (f : Eng → Eng) : (modEng e f s).guard = s.guard := rfl
@[simp] theorem modEng_wd (e : Nat) (f : Eng → Eng) : (modEng e f s).wd = s.wd := rfl
@[simp] theorem modEng_hmp (e : Nat) (f : Eng → Eng) : (modEng e f s).hmp = s.hmp := rfl
@[simp] theorem modEng_free (e : Nat) (f : Eng → Eng) : (modEng e f s).free = s.free := rfl
@[simp] theorem modEng_pending (e : Nat) (f : Eng → Eng) : (modEng e f s).pending = s.pending := rfl

/-! ### modLane -/

@[simp] theorem modLane_clk (n : Nat) (f : Lane → Lane) : (modLane n f s).clk = s.clk := rfl
@[simp] theorem modLane_md (n : Nat) (f : Lane → Lane) : (modLane n f s).md = s.md := rfl
@[simp] theorem modLane_ring (n : Nat) (f : Lane → Lane) : (modLane n f s).ring = s.ring := rfl
@[simp] theorem modLane_exe (n : Nat) (f : Lane → Lane) : (modLane n f s).exe = s.exe := rfl
@[simp] theorem modLane_trial (n : Nat) (f : Lane → Lane) : (modLane n f s).trial = s.trial := rfl
@[simp] theorem modLane_boot (n : Nat) (f : Lane → Lane) : (modLane n f s).boot = s.boot := rfl
@[simp] theorem modLane_img (n : Nat) (f : Lane → Lane) : (modLane n f s).img = s.img := rfl
@[simp] theorem modLane_evt (n : Nat) (f : Lane → Lane) : (modLane n f s).evt = s.evt := rfl
@[simp] theorem modLane_ret (n : Nat) (f : Lane → Lane) : (modLane n f s).ret = s.ret := rfl
@[simp] theorem modLane_rtc (n : Nat) (f : Lane → Lane) : (modLane n f s).rtc = s.rtc := rfl
@[simp] theorem modLane_bus (n : Nat) (f : Lane → Lane) : (modLane n f s).bus = s.bus := rfl
@[simp] theorem modLane_dbg (n : Nat) (f : Lane → Lane) : (modLane n f s).dbg = s.dbg := rfl
@[simp] theorem modLane_fl (n : Nat) (f : Lane → Lane) : (modLane n f s).fl = s.fl := rfl
@[simp] theorem modLane_sw (n : Nat) (f : Lane → Lane) : (modLane n f s).sw = s.sw := rfl
@[simp] theorem modLane_engs (n : Nat) (f : Lane → Lane) : (modLane n f s).engs = s.engs := rfl
@[simp] theorem modLane_cv (n : Nat) (f : Lane → Lane) : (modLane n f s).cv = s.cv := rfl
@[simp] theorem modLane_klp (n : Nat) (f : Lane → Lane) : (modLane n f s).klp = s.klp := rfl
@[simp] theorem modLane_felt (n : Nat) (f : Lane → Lane) : (modLane n f s).felt = s.felt := rfl
@[simp] theorem modLane_nego (n : Nat) (f : Lane → Lane) : (modLane n f s).nego = s.nego := rfl
@[simp] theorem modLane_slu (n : Nat) (f : Lane → Lane) : (modLane n f s).slu = s.slu := rfl
@[simp] theorem modLane_isl (n : Nat) (f : Lane → Lane) : (modLane n f s).isl = s.isl := rfl
@[simp] theorem modLane_islView (n : Nat) (f : Lane → Lane) : (modLane n f s).islView = s.islView := rfl
@[simp] theorem modLane_bags (n : Nat) (f : Lane → Lane) : (modLane n f s).bags = s.bags := rfl
@[simp] theorem modLane_keys (n : Nat) (f : Lane → Lane) : (modLane n f s).keys = s.keys := rfl
@[simp] theorem modLane_guard (n : Nat) (f : Lane → Lane) : (modLane n f s).guard = s.guard := rfl
@[simp] theorem modLane_wd (n : Nat) (f : Lane → Lane) : (modLane n f s).wd = s.wd := rfl
@[simp] theorem modLane_hmp (n : Nat) (f : Lane → Lane) : (modLane n f s).hmp = s.hmp := rfl
@[simp] theorem modLane_free (n : Nat) (f : Lane → Lane) : (modLane n f s).free = s.free := rfl
@[simp] theorem modLane_pending (n : Nat) (f : Lane → Lane) : (modLane n f s).pending = s.pending := rfl

/-! ### modSess -/

@[simp] theorem modSess_clk (i : Nat) (f : Sess → Sess) : (modSess i f s).clk = s.clk := rfl
@[simp] theorem modSess_md (i : Nat) (f : Sess → Sess) : (modSess i f s).md = s.md := rfl
@[simp] theorem modSess_ring (i : Nat) (f : Sess → Sess) : (modSess i f s).ring = s.ring := rfl
@[simp] theorem modSess_exe (i : Nat) (f : Sess → Sess) : (modSess i f s).exe = s.exe := rfl
@[simp] theorem modSess_trial (i : Nat) (f : Sess → Sess) : (modSess i f s).trial = s.trial := rfl
@[simp] theorem modSess_boot (i : Nat) (f : Sess → Sess) : (modSess i f s).boot = s.boot := rfl
@[simp] theorem modSess_img (i : Nat) (f : Sess → Sess) : (modSess i f s).img = s.img := rfl
@[simp] theorem modSess_evt (i : Nat) (f : Sess → Sess) : (modSess i f s).evt = s.evt := rfl
@[simp] theorem modSess_ret (i : Nat) (f : Sess → Sess) : (modSess i f s).ret = s.ret := rfl
@[simp] theorem modSess_rtc (i : Nat) (f : Sess → Sess) : (modSess i f s).rtc = s.rtc := rfl
@[simp] theorem modSess_bus (i : Nat) (f : Sess → Sess) : (modSess i f s).bus = s.bus := rfl
@[simp] theorem modSess_dbg (i : Nat) (f : Sess → Sess) : (modSess i f s).dbg = s.dbg := rfl
@[simp] theorem modSess_fl (i : Nat) (f : Sess → Sess) : (modSess i f s).fl = s.fl := rfl
@[simp] theorem modSess_sw (i : Nat) (f : Sess → Sess) : (modSess i f s).sw = s.sw := rfl
@[simp] theorem modSess_lanes (i : Nat) (f : Sess → Sess) : (modSess i f s).lanes = s.lanes := rfl
@[simp] theorem modSess_engs (i : Nat) (f : Sess → Sess) : (modSess i f s).engs = s.engs := rfl
@[simp] theorem modSess_cv (i : Nat) (f : Sess → Sess) : (modSess i f s).cv = s.cv := rfl
@[simp] theorem modSess_felt (i : Nat) (f : Sess → Sess) : (modSess i f s).felt = s.felt := rfl
@[simp] theorem modSess_nego (i : Nat) (f : Sess → Sess) : (modSess i f s).nego = s.nego := rfl
@[simp] theorem modSess_slu (i : Nat) (f : Sess → Sess) : (modSess i f s).slu = s.slu := rfl
@[simp] theorem modSess_isl (i : Nat) (f : Sess → Sess) : (modSess i f s).isl = s.isl := rfl
@[simp] theorem modSess_islView (i : Nat) (f : Sess → Sess) : (modSess i f s).islView = s.islView := rfl
@[simp] theorem modSess_bags (i : Nat) (f : Sess → Sess) : (modSess i f s).bags = s.bags := rfl
@[simp] theorem modSess_keys (i : Nat) (f : Sess → Sess) : (modSess i f s).keys = s.keys := rfl
@[simp] theorem modSess_guard (i : Nat) (f : Sess → Sess) : (modSess i f s).guard = s.guard := rfl
@[simp] theorem modSess_wd (i : Nat) (f : Sess → Sess) : (modSess i f s).wd = s.wd := rfl
@[simp] theorem modSess_hmp (i : Nat) (f : Sess → Sess) : (modSess i f s).hmp = s.hmp := rfl
@[simp] theorem modSess_free (i : Nat) (f : Sess → Sess) : (modSess i f s).free = s.free := rfl
@[simp] theorem modSess_pending (i : Nat) (f : Sess → Sess) : (modSess i f s).pending = s.pending := rfl

/-! ### modHSess -/

@[simp] theorem modHSess_clk (w : Nat) (f : HSess → HSess) : (modHSess w f s).clk = s.clk := rfl
@[simp] theorem modHSess_md (w : Nat) (f : HSess → HSess) : (modHSess w f s).md = s.md := rfl
@[simp] theorem modHSess_ring (w : Nat) (f : HSess → HSess) : (modHSess w f s).ring = s.ring := rfl
@[simp] theorem modHSess_exe (w : Nat) (f : HSess → HSess) : (modHSess w f s).exe = s.exe := rfl
@[simp] theorem modHSess_trial (w : Nat) (f : HSess → HSess) : (modHSess w f s).trial = s.trial := rfl
@[simp] theorem modHSess_boot (w : Nat) (f : HSess → HSess) : (modHSess w f s).boot = s.boot := rfl
@[simp] theorem modHSess_img (w : Nat) (f : HSess → HSess) : (modHSess w f s).img = s.img := rfl
@[simp] theorem modHSess_evt (w : Nat) (f : HSess → HSess) : (modHSess w f s).evt = s.evt := rfl
@[simp] theorem modHSess_ret (w : Nat) (f : HSess → HSess) : (modHSess w f s).ret = s.ret := rfl
@[simp] theorem modHSess_rtc (w : Nat) (f : HSess → HSess) : (modHSess w f s).rtc = s.rtc := rfl
@[simp] theorem modHSess_bus (w : Nat) (f : HSess → HSess) : (modHSess w f s).bus = s.bus := rfl
@[simp] theorem modHSess_dbg (w : Nat) (f : HSess → HSess) : (modHSess w f s).dbg = s.dbg := rfl
@[simp] theorem modHSess_fl (w : Nat) (f : HSess → HSess) : (modHSess w f s).fl = s.fl := rfl
@[simp] theorem modHSess_sw (w : Nat) (f : HSess → HSess) : (modHSess w f s).sw = s.sw := rfl
@[simp] theorem modHSess_lanes (w : Nat) (f : HSess → HSess) : (modHSess w f s).lanes = s.lanes := rfl
@[simp] theorem modHSess_engs (w : Nat) (f : HSess → HSess) : (modHSess w f s).engs = s.engs := rfl
@[simp] theorem modHSess_cv (w : Nat) (f : HSess → HSess) : (modHSess w f s).cv = s.cv := rfl
@[simp] theorem modHSess_klp (w : Nat) (f : HSess → HSess) : (modHSess w f s).klp = s.klp := rfl
@[simp] theorem modHSess_felt (w : Nat) (f : HSess → HSess) : (modHSess w f s).felt = s.felt := rfl
@[simp] theorem modHSess_nego (w : Nat) (f : HSess → HSess) : (modHSess w f s).nego = s.nego := rfl
@[simp] theorem modHSess_slu (w : Nat) (f : HSess → HSess) : (modHSess w f s).slu = s.slu := rfl
@[simp] theorem modHSess_isl (w : Nat) (f : HSess → HSess) : (modHSess w f s).isl = s.isl := rfl
@[simp] theorem modHSess_islView (w : Nat) (f : HSess → HSess) : (modHSess w f s).islView = s.islView := rfl
@[simp] theorem modHSess_bags (w : Nat) (f : HSess → HSess) : (modHSess w f s).bags = s.bags := rfl
@[simp] theorem modHSess_keys (w : Nat) (f : HSess → HSess) : (modHSess w f s).keys = s.keys := rfl
@[simp] theorem modHSess_guard (w : Nat) (f : HSess → HSess) : (modHSess w f s).guard = s.guard := rfl
@[simp] theorem modHSess_wd (w : Nat) (f : HSess → HSess) : (modHSess w f s).wd = s.wd := rfl
@[simp] theorem modHSess_free (w : Nat) (f : HSess → HSess) : (modHSess w f s).free = s.free := rfl
@[simp] theorem modHSess_pending (w : Nat) (f : HSess → HSess) : (modHSess w f s).pending = s.pending := rfl

/-! ### modCv -/

@[simp] theorem modCv_clk (u : Nat) (f : Cv → Cv) : (modCv u f s).clk = s.clk := rfl
@[simp] theorem modCv_md (u : Nat) (f : Cv → Cv) : (modCv u f s).md = s.md := rfl
@[simp] theorem modCv_ring (u : Nat) (f : Cv → Cv) : (modCv u f s).ring = s.ring := rfl
@[simp] theorem modCv_exe (u : Nat) (f : Cv → Cv) : (modCv u f s).exe = s.exe := rfl
@[simp] theorem modCv_trial (u : Nat) (f : Cv → Cv) : (modCv u f s).trial = s.trial := rfl
@[simp] theorem modCv_boot (u : Nat) (f : Cv → Cv) : (modCv u f s).boot = s.boot := rfl
@[simp] theorem modCv_img (u : Nat) (f : Cv → Cv) : (modCv u f s).img = s.img := rfl
@[simp] theorem modCv_evt (u : Nat) (f : Cv → Cv) : (modCv u f s).evt = s.evt := rfl
@[simp] theorem modCv_ret (u : Nat) (f : Cv → Cv) : (modCv u f s).ret = s.ret := rfl
@[simp] theorem modCv_rtc (u : Nat) (f : Cv → Cv) : (modCv u f s).rtc = s.rtc := rfl
@[simp] theorem modCv_bus (u : Nat) (f : Cv → Cv) : (modCv u f s).bus = s.bus := rfl
@[simp] theorem modCv_dbg (u : Nat) (f : Cv → Cv) : (modCv u f s).dbg = s.dbg := rfl
@[simp] theorem modCv_fl (u : Nat) (f : Cv → Cv) : (modCv u f s).fl = s.fl := rfl
@[simp] theorem modCv_sw (u : Nat) (f : Cv → Cv) : (modCv u f s).sw = s.sw := rfl
@[simp] theorem modCv_lanes (u : Nat) (f : Cv → Cv) : (modCv u f s).lanes = s.lanes := rfl
@[simp] theorem modCv_engs (u : Nat) (f : Cv → Cv) : (modCv u f s).engs = s.engs := rfl
@[simp] theorem modCv_klp (u : Nat) (f : Cv → Cv) : (modCv u f s).klp = s.klp := rfl
@[simp] theorem modCv_felt (u : Nat) (f : Cv → Cv) : (modCv u f s).felt = s.felt := rfl
@[simp] theorem modCv_nego (u : Nat) (f : Cv → Cv) : (modCv u f s).nego = s.nego := rfl
@[simp] theorem modCv_slu (u : Nat) (f : Cv → Cv) : (modCv u f s).slu = s.slu := rfl
@[simp] theorem modCv_isl (u : Nat) (f : Cv → Cv) : (modCv u f s).isl = s.isl := rfl
@[simp] theorem modCv_islView (u : Nat) (f : Cv → Cv) : (modCv u f s).islView = s.islView := rfl
@[simp] theorem modCv_bags (u : Nat) (f : Cv → Cv) : (modCv u f s).bags = s.bags := rfl
@[simp] theorem modCv_keys (u : Nat) (f : Cv → Cv) : (modCv u f s).keys = s.keys := rfl
@[simp] theorem modCv_guard (u : Nat) (f : Cv → Cv) : (modCv u f s).guard = s.guard := rfl
@[simp] theorem modCv_wd (u : Nat) (f : Cv → Cv) : (modCv u f s).wd = s.wd := rfl
@[simp] theorem modCv_hmp (u : Nat) (f : Cv → Cv) : (modCv u f s).hmp = s.hmp := rfl
@[simp] theorem modCv_free (u : Nat) (f : Cv → Cv) : (modCv u f s).free = s.free := rfl
@[simp] theorem modCv_pending (u : Nat) (f : Cv → Cv) : (modCv u f s).pending = s.pending := rfl

/-! ### modKey -/

@[simp] theorem modKey_clk (k : Nat) (f : Key → Key) : (modKey k f s).clk = s.clk := rfl
@[simp] theorem modKey_md (k : Nat) (f : Key → Key) : (modKey k f s).md = s.md := rfl
@[simp] theorem modKey_ring (k : Nat) (f : Key → Key) : (modKey k f s).ring = s.ring := rfl
@[simp] theorem modKey_exe (k : Nat) (f : Key → Key) : (modKey k f s).exe = s.exe := rfl
@[simp] theorem modKey_trial (k : Nat) (f : Key → Key) : (modKey k f s).trial = s.trial := rfl
@[simp] theorem modKey_boot (k : Nat) (f : Key → Key) : (modKey k f s).boot = s.boot := rfl
@[simp] theorem modKey_img (k : Nat) (f : Key → Key) : (modKey k f s).img = s.img := rfl
@[simp] theorem modKey_evt (k : Nat) (f : Key → Key) : (modKey k f s).evt = s.evt := rfl
@[simp] theorem modKey_ret (k : Nat) (f : Key → Key) : (modKey k f s).ret = s.ret := rfl
@[simp] theorem modKey_rtc (k : Nat) (f : Key → Key) : (modKey k f s).rtc = s.rtc := rfl
@[simp] theorem modKey_bus (k : Nat) (f : Key → Key) : (modKey k f s).bus = s.bus := rfl
@[simp] theorem modKey_dbg (k : Nat) (f : Key → Key) : (modKey k f s).dbg = s.dbg := rfl
@[simp] theorem modKey_fl (k : Nat) (f : Key → Key) : (modKey k f s).fl = s.fl := rfl
@[simp] theorem modKey_sw (k : Nat) (f : Key → Key) : (modKey k f s).sw = s.sw := rfl
@[simp] theorem modKey_lanes (k : Nat) (f : Key → Key) : (modKey k f s).lanes = s.lanes := rfl
@[simp] theorem modKey_engs (k : Nat) (f : Key → Key) : (modKey k f s).engs = s.engs := rfl
@[simp] theorem modKey_cv (k : Nat) (f : Key → Key) : (modKey k f s).cv = s.cv := rfl
@[simp] theorem modKey_klp (k : Nat) (f : Key → Key) : (modKey k f s).klp = s.klp := rfl
@[simp] theorem modKey_felt (k : Nat) (f : Key → Key) : (modKey k f s).felt = s.felt := rfl
@[simp] theorem modKey_nego (k : Nat) (f : Key → Key) : (modKey k f s).nego = s.nego := rfl
@[simp] theorem modKey_slu (k : Nat) (f : Key → Key) : (modKey k f s).slu = s.slu := rfl
@[simp] theorem modKey_isl (k : Nat) (f : Key → Key) : (modKey k f s).isl = s.isl := rfl
@[simp] theorem modKey_islView (k : Nat) (f : Key → Key) : (modKey k f s).islView = s.islView := rfl
@[simp] theorem modKey_bags (k : Nat) (f : Key → Key) : (modKey k f s).bags = s.bags := rfl
@[simp] theorem modKey_guard (k : Nat) (f : Key → Key) : (modKey k f s).guard = s.guard := rfl
@[simp] theorem modKey_wd (k : Nat) (f : Key → Key) : (modKey k f s).wd = s.wd := rfl
@[simp] theorem modKey_hmp (k : Nat) (f : Key → Key) : (modKey k f s).hmp = s.hmp := rfl
@[simp] theorem modKey_free (k : Nat) (f : Key → Key) : (modKey k f s).free = s.free := rfl
@[simp] theorem modKey_pending (k : Nat) (f : Key → Key) : (modKey k f s).pending = s.pending := rfl

/-! ### setBlock -/

@[simp] theorem setBlock_clk (fb : Nat) (b : Block) : (setBlock fb b s).clk = s.clk := rfl
@[simp] theorem setBlock_md (fb : Nat) (b : Block) : (setBlock fb b s).md = s.md := rfl
@[simp] theorem setBlock_ring (fb : Nat) (b : Block) : (setBlock fb b s).ring = s.ring := rfl
@[simp] theorem setBlock_exe (fb : Nat) (b : Block) : (setBlock fb b s).exe = s.exe := rfl
@[simp] theorem setBlock_trial (fb : Nat) (b : Block) : (setBlock fb b s).trial = s.trial := rfl
@[simp] theorem setBlock_boot (fb : Nat) (b : Block) : (setBlock fb b s).boot = s.boot := rfl
@[simp] theorem setBlock_img (fb : Nat) (b : Block) : (setBlock fb b s).img = s.img := rfl
@[simp] theorem setBlock_evt (fb : Nat) (b : Block) : (setBlock fb b s).evt = s.evt := rfl
@[simp] theorem setBlock_ret (fb : Nat) (b : Block) : (setBlock fb b s).ret = s.ret := rfl
@[simp] theorem setBlock_rtc (fb : Nat) (b : Block) : (setBlock fb b s).rtc = s.rtc := rfl
@[simp] theorem setBlock_bus (fb : Nat) (b : Block) : (setBlock fb b s).bus = s.bus := rfl
@[simp] theorem setBlock_dbg (fb : Nat) (b : Block) : (setBlock fb b s).dbg = s.dbg := rfl
@[simp] theorem setBlock_sw (fb : Nat) (b : Block) : (setBlock fb b s).sw = s.sw := rfl
@[simp] theorem setBlock_lanes (fb : Nat) (b : Block) : (setBlock fb b s).lanes = s.lanes := rfl
@[simp] theorem setBlock_engs (fb : Nat) (b : Block) : (setBlock fb b s).engs = s.engs := rfl
@[simp] theorem setBlock_cv (fb : Nat) (b : Block) : (setBlock fb b s).cv = s.cv := rfl
@[simp] theorem setBlock_klp (fb : Nat) (b : Block) : (setBlock fb b s).klp = s.klp := rfl
@[simp] theorem setBlock_felt (fb : Nat) (b : Block) : (setBlock fb b s).felt = s.felt := rfl
@[simp] theorem setBlock_nego (fb : Nat) (b : Block) : (setBlock fb b s).nego = s.nego := rfl
@[simp] theorem setBlock_slu (fb : Nat) (b : Block) : (setBlock fb b s).slu = s.slu := rfl
@[simp] theorem setBlock_isl (fb : Nat) (b : Block) : (setBlock fb b s).isl = s.isl := rfl
@[simp] theorem setBlock_islView (fb : Nat) (b : Block) : (setBlock fb b s).islView = s.islView := rfl
@[simp] theorem setBlock_bags (fb : Nat) (b : Block) : (setBlock fb b s).bags = s.bags := rfl
@[simp] theorem setBlock_keys (fb : Nat) (b : Block) : (setBlock fb b s).keys = s.keys := rfl
@[simp] theorem setBlock_guard (fb : Nat) (b : Block) : (setBlock fb b s).guard = s.guard := rfl
@[simp] theorem setBlock_wd (fb : Nat) (b : Block) : (setBlock fb b s).wd = s.wd := rfl
@[simp] theorem setBlock_hmp (fb : Nat) (b : Block) : (setBlock fb b s).hmp = s.hmp := rfl
@[simp] theorem setBlock_free (fb : Nat) (b : Block) : (setBlock fb b s).free = s.free := rfl
@[simp] theorem setBlock_pending (fb : Nat) (b : Block) : (setBlock fb b s).pending = s.pending := rfl

/-! ### modIsl -/

@[simp] theorem modIsl_clk (f : Isl → Isl) : (modIsl f s).clk = s.clk := rfl
@[simp] theorem modIsl_md (f : Isl → Isl) : (modIsl f s).md = s.md := rfl
@[simp] theorem modIsl_ring (f : Isl → Isl) : (modIsl f s).ring = s.ring := rfl
@[simp] theorem modIsl_exe (f : Isl → Isl) : (modIsl f s).exe = s.exe := rfl
@[simp] theorem modIsl_trial (f : Isl → Isl) : (modIsl f s).trial = s.trial := rfl
@[simp] theorem modIsl_boot (f : Isl → Isl) : (modIsl f s).boot = s.boot := rfl
@[simp] theorem modIsl_img (f : Isl → Isl) : (modIsl f s).img = s.img := rfl
@[simp] theorem modIsl_evt (f : Isl → Isl) : (modIsl f s).evt = s.evt := rfl
@[simp] theorem modIsl_ret (f : Isl → Isl) : (modIsl f s).ret = s.ret := rfl
@[simp] theorem modIsl_rtc (f : Isl → Isl) : (modIsl f s).rtc = s.rtc := rfl
@[simp] theorem modIsl_bus (f : Isl → Isl) : (modIsl f s).bus = s.bus := rfl
@[simp] theorem modIsl_dbg (f : Isl → Isl) : (modIsl f s).dbg = s.dbg := rfl
@[simp] theorem modIsl_fl (f : Isl → Isl) : (modIsl f s).fl = s.fl := rfl
@[simp] theorem modIsl_sw (f : Isl → Isl) : (modIsl f s).sw = s.sw := rfl
@[simp] theorem modIsl_lanes (f : Isl → Isl) : (modIsl f s).lanes = s.lanes := rfl
@[simp] theorem modIsl_engs (f : Isl → Isl) : (modIsl f s).engs = s.engs := rfl
@[simp] theorem modIsl_cv (f : Isl → Isl) : (modIsl f s).cv = s.cv := rfl
@[simp] theorem modIsl_klp (f : Isl → Isl) : (modIsl f s).klp = s.klp := rfl
@[simp] theorem modIsl_felt (f : Isl → Isl) : (modIsl f s).felt = s.felt := rfl
@[simp] theorem modIsl_nego (f : Isl → Isl) : (modIsl f s).nego = s.nego := rfl
@[simp] theorem modIsl_slu (f : Isl → Isl) : (modIsl f s).slu = s.slu := rfl
@[simp] theorem modIsl_islView (f : Isl → Isl) : (modIsl f s).islView = s.islView := rfl
@[simp] theorem modIsl_bags (f : Isl → Isl) : (modIsl f s).bags = s.bags := rfl
@[simp] theorem modIsl_keys (f : Isl → Isl) : (modIsl f s).keys = s.keys := rfl
@[simp] theorem modIsl_guard (f : Isl → Isl) : (modIsl f s).guard = s.guard := rfl
@[simp] theorem modIsl_wd (f : Isl → Isl) : (modIsl f s).wd = s.wd := rfl
@[simp] theorem modIsl_hmp (f : Isl → Isl) : (modIsl f s).hmp = s.hmp := rfl
@[simp] theorem modIsl_free (f : Isl → Isl) : (modIsl f s).free = s.free := rfl
@[simp] theorem modIsl_pending (f : Isl → Isl) : (modIsl f s).pending = s.pending := rfl

/-! ### modIslLane -/

@[simp] theorem modIslLane_clk (n : Nat) (f : IslLane → IslLane) : (modIslLane n f s).clk = s.clk := rfl
@[simp] theorem modIslLane_md (n : Nat) (f : IslLane → IslLane) : (modIslLane n f s).md = s.md := rfl
@[simp] theorem modIslLane_ring (n : Nat) (f : IslLane → IslLane) : (modIslLane n f s).ring = s.ring := rfl
@[simp] theorem modIslLane_exe (n : Nat) (f : IslLane → IslLane) : (modIslLane n f s).exe = s.exe := rfl
@[simp] theorem modIslLane_trial (n : Nat) (f : IslLane → IslLane) : (modIslLane n f s).trial = s.trial := rfl
@[simp] theorem modIslLane_boot (n : Nat) (f : IslLane → IslLane) : (modIslLane n f s).boot = s.boot := rfl
@[simp] theorem modIslLane_img (n : Nat) (f : IslLane → IslLane) : (modIslLane n f s).img = s.img := rfl
@[simp] theorem modIslLane_evt (n : Nat) (f : IslLane → IslLane) : (modIslLane n f s).evt = s.evt := rfl
@[simp] theorem modIslLane_ret (n : Nat) (f : IslLane → IslLane) : (modIslLane n f s).ret = s.ret := rfl
@[simp] theorem modIslLane_rtc (n : Nat) (f : IslLane → IslLane) : (modIslLane n f s).rtc = s.rtc := rfl
@[simp] theorem modIslLane_bus (n : Nat) (f : IslLane → IslLane) : (modIslLane n f s).bus = s.bus := rfl
@[simp] theorem modIslLane_dbg (n : Nat) (f : IslLane → IslLane) : (modIslLane n f s).dbg = s.dbg := rfl
@[simp] theorem modIslLane_fl (n : Nat) (f : IslLane → IslLane) : (modIslLane n f s).fl = s.fl := rfl
@[simp] theorem modIslLane_sw (n : Nat) (f : IslLane → IslLane) : (modIslLane n f s).sw = s.sw := rfl
@[simp] theorem modIslLane_lanes (n : Nat) (f : IslLane → IslLane) : (modIslLane n f s).lanes = s.lanes := rfl
@[simp] theorem modIslLane_engs (n : Nat) (f : IslLane → IslLane) : (modIslLane n f s).engs = s.engs := rfl
@[simp] theorem modIslLane_cv (n : Nat) (f : IslLane → IslLane) : (modIslLane n f s).cv = s.cv := rfl
@[simp] theorem modIslLane_klp (n : Nat) (f : IslLane → IslLane) : (modIslLane n f s).klp = s.klp := rfl
@[simp] theorem modIslLane_felt (n : Nat) (f : IslLane → IslLane) : (modIslLane n f s).felt = s.felt := rfl
@[simp] theorem modIslLane_nego (n : Nat) (f : IslLane → IslLane) : (modIslLane n f s).nego = s.nego := rfl
@[simp] theorem modIslLane_slu (n : Nat) (f : IslLane → IslLane) : (modIslLane n f s).slu = s.slu := rfl
@[simp] theorem modIslLane_islView (n : Nat) (f : IslLane → IslLane) : (modIslLane n f s).islView = s.islView := rfl
@[simp] theorem modIslLane_bags (n : Nat) (f : IslLane → IslLane) : (modIslLane n f s).bags = s.bags := rfl
@[simp] theorem modIslLane_keys (n : Nat) (f : IslLane → IslLane) : (modIslLane n f s).keys = s.keys := rfl
@[simp] theorem modIslLane_guard (n : Nat) (f : IslLane → IslLane) : (modIslLane n f s).guard = s.guard := rfl
@[simp] theorem modIslLane_wd (n : Nat) (f : IslLane → IslLane) : (modIslLane n f s).wd = s.wd := rfl
@[simp] theorem modIslLane_hmp (n : Nat) (f : IslLane → IslLane) : (modIslLane n f s).hmp = s.hmp := rfl
@[simp] theorem modIslLane_free (n : Nat) (f : IslLane → IslLane) : (modIslLane n f s).free = s.free := rfl
@[simp] theorem modIslLane_pending (n : Nat) (f : IslLane → IslLane) : (modIslLane n f s).pending = s.pending := rfl

/-! ### setStrand -/

@[simp] theorem setStrand_clk (k : Nat) (x : Strand) : (setStrand k x s).clk = s.clk := rfl
@[simp] theorem setStrand_md (k : Nat) (x : Strand) : (setStrand k x s).md = s.md := rfl
@[simp] theorem setStrand_ring (k : Nat) (x : Strand) : (setStrand k x s).ring = s.ring := rfl
@[simp] theorem setStrand_trial (k : Nat) (x : Strand) : (setStrand k x s).trial = s.trial := rfl
@[simp] theorem setStrand_boot (k : Nat) (x : Strand) : (setStrand k x s).boot = s.boot := rfl
@[simp] theorem setStrand_img (k : Nat) (x : Strand) : (setStrand k x s).img = s.img := rfl
@[simp] theorem setStrand_evt (k : Nat) (x : Strand) : (setStrand k x s).evt = s.evt := rfl
@[simp] theorem setStrand_ret (k : Nat) (x : Strand) : (setStrand k x s).ret = s.ret := rfl
@[simp] theorem setStrand_rtc (k : Nat) (x : Strand) : (setStrand k x s).rtc = s.rtc := rfl
@[simp] theorem setStrand_bus (k : Nat) (x : Strand) : (setStrand k x s).bus = s.bus := rfl
@[simp] theorem setStrand_dbg (k : Nat) (x : Strand) : (setStrand k x s).dbg = s.dbg := rfl
@[simp] theorem setStrand_fl (k : Nat) (x : Strand) : (setStrand k x s).fl = s.fl := rfl
@[simp] theorem setStrand_sw (k : Nat) (x : Strand) : (setStrand k x s).sw = s.sw := rfl
@[simp] theorem setStrand_lanes (k : Nat) (x : Strand) : (setStrand k x s).lanes = s.lanes := rfl
@[simp] theorem setStrand_engs (k : Nat) (x : Strand) : (setStrand k x s).engs = s.engs := rfl
@[simp] theorem setStrand_cv (k : Nat) (x : Strand) : (setStrand k x s).cv = s.cv := rfl
@[simp] theorem setStrand_klp (k : Nat) (x : Strand) : (setStrand k x s).klp = s.klp := rfl
@[simp] theorem setStrand_felt (k : Nat) (x : Strand) : (setStrand k x s).felt = s.felt := rfl
@[simp] theorem setStrand_nego (k : Nat) (x : Strand) : (setStrand k x s).nego = s.nego := rfl
@[simp] theorem setStrand_slu (k : Nat) (x : Strand) : (setStrand k x s).slu = s.slu := rfl
@[simp] theorem setStrand_isl (k : Nat) (x : Strand) : (setStrand k x s).isl = s.isl := rfl
@[simp] theorem setStrand_islView (k : Nat) (x : Strand) : (setStrand k x s).islView = s.islView := rfl
@[simp] theorem setStrand_bags (k : Nat) (x : Strand) : (setStrand k x s).bags = s.bags := rfl
@[simp] theorem setStrand_keys (k : Nat) (x : Strand) : (setStrand k x s).keys = s.keys := rfl
@[simp] theorem setStrand_guard (k : Nat) (x : Strand) : (setStrand k x s).guard = s.guard := rfl
@[simp] theorem setStrand_wd (k : Nat) (x : Strand) : (setStrand k x s).wd = s.wd := rfl
@[simp] theorem setStrand_hmp (k : Nat) (x : Strand) : (setStrand k x s).hmp = s.hmp := rfl
@[simp] theorem setStrand_free (k : Nat) (x : Strand) : (setStrand k x s).free = s.free := rfl
@[simp] theorem setStrand_pending (k : Nat) (x : Strand) : (setStrand k x s).pending = s.pending := rfl

/-! ### modLd -/

@[simp] theorem modLd_clk (p : Nat) (f : Ld → Ld) : (modLd p f s).clk = s.clk := rfl
@[simp] theorem modLd_md (p : Nat) (f : Ld → Ld) : (modLd p f s).md = s.md := rfl
@[simp] theorem modLd_ring (p : Nat) (f : Ld → Ld) : (modLd p f s).ring = s.ring := rfl
@[simp] theorem modLd_exe (p : Nat) (f : Ld → Ld) : (modLd p f s).exe = s.exe := rfl
@[simp] theorem modLd_trial (p : Nat) (f : Ld → Ld) : (modLd p f s).trial = s.trial := rfl
@[simp] theorem modLd_boot (p : Nat) (f : Ld → Ld) : (modLd p f s).boot = s.boot := rfl
@[simp] theorem modLd_img (p : Nat) (f : Ld → Ld) : (modLd p f s).img = s.img := rfl
@[simp] theorem modLd_evt (p : Nat) (f : Ld → Ld) : (modLd p f s).evt = s.evt := rfl
@[simp] theorem modLd_ret (p : Nat) (f : Ld → Ld) : (modLd p f s).ret = s.ret := rfl
@[simp] theorem modLd_rtc (p : Nat) (f : Ld → Ld) : (modLd p f s).rtc = s.rtc := rfl
@[simp] theorem modLd_bus (p : Nat) (f : Ld → Ld) : (modLd p f s).bus = s.bus := rfl
@[simp] theorem modLd_dbg (p : Nat) (f : Ld → Ld) : (modLd p f s).dbg = s.dbg := rfl
@[simp] theorem modLd_fl (p : Nat) (f : Ld → Ld) : (modLd p f s).fl = s.fl := rfl
@[simp] theorem modLd_sw (p : Nat) (f : Ld → Ld) : (modLd p f s).sw = s.sw := rfl
@[simp] theorem modLd_lanes (p : Nat) (f : Ld → Ld) : (modLd p f s).lanes = s.lanes := rfl
@[simp] theorem modLd_engs (p : Nat) (f : Ld → Ld) : (modLd p f s).engs = s.engs := rfl
@[simp] theorem modLd_cv (p : Nat) (f : Ld → Ld) : (modLd p f s).cv = s.cv := rfl
@[simp] theorem modLd_klp (p : Nat) (f : Ld → Ld) : (modLd p f s).klp = s.klp := rfl
@[simp] theorem modLd_felt (p : Nat) (f : Ld → Ld) : (modLd p f s).felt = s.felt := rfl
@[simp] theorem modLd_nego (p : Nat) (f : Ld → Ld) : (modLd p f s).nego = s.nego := rfl
@[simp] theorem modLd_slu (p : Nat) (f : Ld → Ld) : (modLd p f s).slu = s.slu := rfl
@[simp] theorem modLd_islView (p : Nat) (f : Ld → Ld) : (modLd p f s).islView = s.islView := rfl
@[simp] theorem modLd_bags (p : Nat) (f : Ld → Ld) : (modLd p f s).bags = s.bags := rfl
@[simp] theorem modLd_keys (p : Nat) (f : Ld → Ld) : (modLd p f s).keys = s.keys := rfl
@[simp] theorem modLd_guard (p : Nat) (f : Ld → Ld) : (modLd p f s).guard = s.guard := rfl
@[simp] theorem modLd_wd (p : Nat) (f : Ld → Ld) : (modLd p f s).wd = s.wd := rfl
@[simp] theorem modLd_hmp (p : Nat) (f : Ld → Ld) : (modLd p f s).hmp = s.hmp := rfl
@[simp] theorem modLd_free (p : Nat) (f : Ld → Ld) : (modLd p f s).free = s.free := rfl
@[simp] theorem modLd_pending (p : Nat) (f : Ld → Ld) : (modLd p f s).pending = s.pending := rfl

/-! ### modBag -/

@[simp] theorem modBag_clk (n : Nat) (f : Bag → Bag) : (modBag n f s).clk = s.clk := rfl
@[simp] theorem modBag_md (n : Nat) (f : Bag → Bag) : (modBag n f s).md = s.md := rfl
@[simp] theorem modBag_ring (n : Nat) (f : Bag → Bag) : (modBag n f s).ring = s.ring := rfl
@[simp] theorem modBag_exe (n : Nat) (f : Bag → Bag) : (modBag n f s).exe = s.exe := rfl
@[simp] theorem modBag_trial (n : Nat) (f : Bag → Bag) : (modBag n f s).trial = s.trial := rfl
@[simp] theorem modBag_boot (n : Nat) (f : Bag → Bag) : (modBag n f s).boot = s.boot := rfl
@[simp] theorem modBag_img (n : Nat) (f : Bag → Bag) : (modBag n f s).img = s.img := rfl
@[simp] theorem modBag_evt (n : Nat) (f : Bag → Bag) : (modBag n f s).evt = s.evt := rfl
@[simp] theorem modBag_ret (n : Nat) (f : Bag → Bag) : (modBag n f s).ret = s.ret := rfl
@[simp] theorem modBag_rtc (n : Nat) (f : Bag → Bag) : (modBag n f s).rtc = s.rtc := rfl
@[simp] theorem modBag_bus (n : Nat) (f : Bag → Bag) : (modBag n f s).bus = s.bus := rfl
@[simp] theorem modBag_dbg (n : Nat) (f : Bag → Bag) : (modBag n f s).dbg = s.dbg := rfl
@[simp] theorem modBag_fl (n : Nat) (f : Bag → Bag) : (modBag n f s).fl = s.fl := rfl
@[simp] theorem modBag_sw (n : Nat) (f : Bag → Bag) : (modBag n f s).sw = s.sw := rfl
@[simp] theorem modBag_lanes (n : Nat) (f : Bag → Bag) : (modBag n f s).lanes = s.lanes := rfl
@[simp] theorem modBag_engs (n : Nat) (f : Bag → Bag) : (modBag n f s).engs = s.engs := rfl
@[simp] theorem modBag_cv (n : Nat) (f : Bag → Bag) : (modBag n f s).cv = s.cv := rfl
@[simp] theorem modBag_klp (n : Nat) (f : Bag → Bag) : (modBag n f s).klp = s.klp := rfl
@[simp] theorem modBag_felt (n : Nat) (f : Bag → Bag) : (modBag n f s).felt = s.felt := rfl
@[simp] theorem modBag_nego (n : Nat) (f : Bag → Bag) : (modBag n f s).nego = s.nego := rfl
@[simp] theorem modBag_slu (n : Nat) (f : Bag → Bag) : (modBag n f s).slu = s.slu := rfl
@[simp] theorem modBag_isl (n : Nat) (f : Bag → Bag) : (modBag n f s).isl = s.isl := rfl
@[simp] theorem modBag_islView (n : Nat) (f : Bag → Bag) : (modBag n f s).islView = s.islView := rfl
@[simp] theorem modBag_keys (n : Nat) (f : Bag → Bag) : (modBag n f s).keys = s.keys := rfl
@[simp] theorem modBag_guard (n : Nat) (f : Bag → Bag) : (modBag n f s).guard = s.guard := rfl
@[simp] theorem modBag_wd (n : Nat) (f : Bag → Bag) : (modBag n f s).wd = s.wd := rfl
@[simp] theorem modBag_hmp (n : Nat) (f : Bag → Bag) : (modBag n f s).hmp = s.hmp := rfl
@[simp] theorem modBag_free (n : Nat) (f : Bag → Bag) : (modBag n f s).free = s.free := rfl
@[simp] theorem modBag_pending (n : Nat) (f : Bag → Bag) : (modBag n f s).pending = s.pending := rfl

/-! ### modWd -/

@[simp] theorem modWd_clk (c : Bool) (f : Wd → Wd) : (modWd c f s).clk = s.clk := by cases c <;> rfl
@[simp] theorem modWd_md (c : Bool) (f : Wd → Wd) : (modWd c f s).md = s.md := by cases c <;> rfl
@[simp] theorem modWd_ring (c : Bool) (f : Wd → Wd) : (modWd c f s).ring = s.ring := by cases c <;> rfl
@[simp] theorem modWd_exe (c : Bool) (f : Wd → Wd) : (modWd c f s).exe = s.exe := by cases c <;> rfl
@[simp] theorem modWd_trial (c : Bool) (f : Wd → Wd) : (modWd c f s).trial = s.trial := by cases c <;> rfl
@[simp] theorem modWd_boot (c : Bool) (f : Wd → Wd) : (modWd c f s).boot = s.boot := by cases c <;> rfl
@[simp] theorem modWd_img (c : Bool) (f : Wd → Wd) : (modWd c f s).img = s.img := by cases c <;> rfl
@[simp] theorem modWd_evt (c : Bool) (f : Wd → Wd) : (modWd c f s).evt = s.evt := by cases c <;> rfl
@[simp] theorem modWd_ret (c : Bool) (f : Wd → Wd) : (modWd c f s).ret = s.ret := by cases c <;> rfl
@[simp] theorem modWd_rtc (c : Bool) (f : Wd → Wd) : (modWd c f s).rtc = s.rtc := by cases c <;> rfl
@[simp] theorem modWd_bus (c : Bool) (f : Wd → Wd) : (modWd c f s).bus = s.bus := by cases c <;> rfl
@[simp] theorem modWd_dbg (c : Bool) (f : Wd → Wd) : (modWd c f s).dbg = s.dbg := by cases c <;> rfl
@[simp] theorem modWd_fl (c : Bool) (f : Wd → Wd) : (modWd c f s).fl = s.fl := by cases c <;> rfl
@[simp] theorem modWd_sw (c : Bool) (f : Wd → Wd) : (modWd c f s).sw = s.sw := by cases c <;> rfl
@[simp] theorem modWd_lanes (c : Bool) (f : Wd → Wd) : (modWd c f s).lanes = s.lanes := by cases c <;> rfl
@[simp] theorem modWd_engs (c : Bool) (f : Wd → Wd) : (modWd c f s).engs = s.engs := by cases c <;> rfl
@[simp] theorem modWd_cv (c : Bool) (f : Wd → Wd) : (modWd c f s).cv = s.cv := by cases c <;> rfl
@[simp] theorem modWd_klp (c : Bool) (f : Wd → Wd) : (modWd c f s).klp = s.klp := by cases c <;> rfl
@[simp] theorem modWd_felt (c : Bool) (f : Wd → Wd) : (modWd c f s).felt = s.felt := by cases c <;> rfl
@[simp] theorem modWd_nego (c : Bool) (f : Wd → Wd) : (modWd c f s).nego = s.nego := by cases c <;> rfl
@[simp] theorem modWd_slu (c : Bool) (f : Wd → Wd) : (modWd c f s).slu = s.slu := by cases c <;> rfl
@[simp] theorem modWd_isl (c : Bool) (f : Wd → Wd) : (modWd c f s).isl = s.isl := by cases c <;> rfl
@[simp] theorem modWd_islView (c : Bool) (f : Wd → Wd) : (modWd c f s).islView = s.islView := by cases c <;> rfl
@[simp] theorem modWd_bags (c : Bool) (f : Wd → Wd) : (modWd c f s).bags = s.bags := by cases c <;> rfl
@[simp] theorem modWd_keys (c : Bool) (f : Wd → Wd) : (modWd c f s).keys = s.keys := by cases c <;> rfl
@[simp] theorem modWd_guard (c : Bool) (f : Wd → Wd) : (modWd c f s).guard = s.guard := by cases c <;> rfl
@[simp] theorem modWd_hmp (c : Bool) (f : Wd → Wd) : (modWd c f s).hmp = s.hmp := by cases c <;> rfl
@[simp] theorem modWd_free (c : Bool) (f : Wd → Wd) : (modWd c f s).free = s.free := by cases c <;> rfl
@[simp] theorem modWd_pending (c : Bool) (f : Wd → Wd) : (modWd c f s).pending = s.pending := by cases c <;> rfl

/-! ### setRun and setRegs -/

@[simp] theorem setRun_clk (c : Cx) (r : NetRun) : (setRun c r s).clk = s.clk := by
  unfold setRun; split <;> (try split) <;> rfl
@[simp] theorem setRegs_clk (c : Cx) (g : Regs) : (setRegs c g s).clk = s.clk := by simp [setRegs]
@[simp] theorem setRun_md (c : Cx) (r : NetRun) : (setRun c r s).md = s.md := by
  unfold setRun; split <;> (try split) <;> rfl
@[simp] theorem setRegs_md (c : Cx) (g : Regs) : (setRegs c g s).md = s.md := by simp [setRegs]
@[simp] theorem setRun_ring (c : Cx) (r : NetRun) : (setRun c r s).ring = s.ring := by
  unfold setRun; split <;> (try split) <;> rfl
@[simp] theorem setRegs_ring (c : Cx) (g : Regs) : (setRegs c g s).ring = s.ring := by simp [setRegs]
@[simp] theorem setRun_boot (c : Cx) (r : NetRun) : (setRun c r s).boot = s.boot := by
  unfold setRun; split <;> (try split) <;> rfl
@[simp] theorem setRegs_boot (c : Cx) (g : Regs) : (setRegs c g s).boot = s.boot := by simp [setRegs]
@[simp] theorem setRun_img (c : Cx) (r : NetRun) : (setRun c r s).img = s.img := by
  unfold setRun; split <;> (try split) <;> rfl
@[simp] theorem setRegs_img (c : Cx) (g : Regs) : (setRegs c g s).img = s.img := by simp [setRegs]
@[simp] theorem setRun_evt (c : Cx) (r : NetRun) : (setRun c r s).evt = s.evt := by
  unfold setRun; split <;> (try split) <;> rfl
@[simp] theorem setRegs_evt (c : Cx) (g : Regs) : (setRegs c g s).evt = s.evt := by simp [setRegs]
@[simp] theorem setRun_ret (c : Cx) (r : NetRun) : (setRun c r s).ret = s.ret := by
  unfold setRun; split <;> (try split) <;> rfl
@[simp] theorem setRegs_ret (c : Cx) (g : Regs) : (setRegs c g s).ret = s.ret := by simp [setRegs]
@[simp] theorem setRun_rtc (c : Cx) (r : NetRun) : (setRun c r s).rtc = s.rtc := by
  unfold setRun; split <;> (try split) <;> rfl
@[simp] theorem setRegs_rtc (c : Cx) (g : Regs) : (setRegs c g s).rtc = s.rtc := by simp [setRegs]
@[simp] theorem setRun_bus (c : Cx) (r : NetRun) : (setRun c r s).bus = s.bus := by
  unfold setRun; split <;> (try split) <;> rfl
@[simp] theorem setRegs_bus (c : Cx) (g : Regs) : (setRegs c g s).bus = s.bus := by simp [setRegs]
@[simp] theorem setRun_dbg (c : Cx) (r : NetRun) : (setRun c r s).dbg = s.dbg := by
  unfold setRun; split <;> (try split) <;> rfl
@[simp] theorem setRegs_dbg (c : Cx) (g : Regs) : (setRegs c g s).dbg = s.dbg := by simp [setRegs]
@[simp] theorem setRun_fl (c : Cx) (r : NetRun) : (setRun c r s).fl = s.fl := by
  unfold setRun; split <;> (try split) <;> rfl
@[simp] theorem setRegs_fl (c : Cx) (g : Regs) : (setRegs c g s).fl = s.fl := by simp [setRegs]
@[simp] theorem setRun_sw (c : Cx) (r : NetRun) : (setRun c r s).sw = s.sw := by
  unfold setRun; split <;> (try split) <;> rfl
@[simp] theorem setRegs_sw (c : Cx) (g : Regs) : (setRegs c g s).sw = s.sw := by simp [setRegs]
@[simp] theorem setRun_lanes (c : Cx) (r : NetRun) : (setRun c r s).lanes = s.lanes := by
  unfold setRun; split <;> (try split) <;> rfl
@[simp] theorem setRegs_lanes (c : Cx) (g : Regs) : (setRegs c g s).lanes = s.lanes := by simp [setRegs]
@[simp] theorem setRun_engs (c : Cx) (r : NetRun) : (setRun c r s).engs = s.engs := by
  unfold setRun; split <;> (try split) <;> rfl
@[simp] theorem setRegs_engs (c : Cx) (g : Regs) : (setRegs c g s).engs = s.engs := by simp [setRegs]
@[simp] theorem setRun_cv (c : Cx) (r : NetRun) : (setRun c r s).cv = s.cv := by
  unfold setRun; split <;> (try split) <;> rfl
@[simp] theorem setRegs_cv (c : Cx) (g : Regs) : (setRegs c g s).cv = s.cv := by simp [setRegs]
@[simp] theorem setRun_klp (c : Cx) (r : NetRun) : (setRun c r s).klp = s.klp := by
  unfold setRun; split <;> (try split) <;> rfl
@[simp] theorem setRegs_klp (c : Cx) (g : Regs) : (setRegs c g s).klp = s.klp := by simp [setRegs]
@[simp] theorem setRun_felt (c : Cx) (r : NetRun) : (setRun c r s).felt = s.felt := by
  unfold setRun; split <;> (try split) <;> rfl
@[simp] theorem setRegs_felt (c : Cx) (g : Regs) : (setRegs c g s).felt = s.felt := by simp [setRegs]
@[simp] theorem setRun_nego (c : Cx) (r : NetRun) : (setRun c r s).nego = s.nego := by
  unfold setRun; split <;> (try split) <;> rfl
@[simp] theorem setRegs_nego (c : Cx) (g : Regs) : (setRegs c g s).nego = s.nego := by simp [setRegs]
@[simp] theorem setRun_slu (c : Cx) (r : NetRun) : (setRun c r s).slu = s.slu := by
  unfold setRun; split <;> (try split) <;> rfl
@[simp] theorem setRegs_slu (c : Cx) (g : Regs) : (setRegs c g s).slu = s.slu := by simp [setRegs]
@[simp] theorem setRun_isl (c : Cx) (r : NetRun) : (setRun c r s).isl = s.isl := by
  unfold setRun; split <;> (try split) <;> rfl
@[simp] theorem setRegs_isl (c : Cx) (g : Regs) : (setRegs c g s).isl = s.isl := by simp [setRegs]
@[simp] theorem setRun_islView (c : Cx) (r : NetRun) : (setRun c r s).islView = s.islView := by
  unfold setRun; split <;> (try split) <;> rfl
@[simp] theorem setRegs_islView (c : Cx) (g : Regs) : (setRegs c g s).islView = s.islView := by simp [setRegs]
@[simp] theorem setRun_bags (c : Cx) (r : NetRun) : (setRun c r s).bags = s.bags := by
  unfold setRun; split <;> (try split) <;> rfl
@[simp] theorem setRegs_bags (c : Cx) (g : Regs) : (setRegs c g s).bags = s.bags := by simp [setRegs]
@[simp] theorem setRun_keys (c : Cx) (r : NetRun) : (setRun c r s).keys = s.keys := by
  unfold setRun; split <;> (try split) <;> rfl
@[simp] theorem setRegs_keys (c : Cx) (g : Regs) : (setRegs c g s).keys = s.keys := by simp [setRegs]
@[simp] theorem setRun_guard (c : Cx) (r : NetRun) : (setRun c r s).guard = s.guard := by
  unfold setRun; split <;> (try split) <;> rfl
@[simp] theorem setRegs_guard (c : Cx) (g : Regs) : (setRegs c g s).guard = s.guard := by simp [setRegs]
@[simp] theorem setRun_wd (c : Cx) (r : NetRun) : (setRun c r s).wd = s.wd := by
  unfold setRun; split <;> (try split) <;> rfl
@[simp] theorem setRegs_wd (c : Cx) (g : Regs) : (setRegs c g s).wd = s.wd := by simp [setRegs]
@[simp] theorem setRun_hmp (c : Cx) (r : NetRun) : (setRun c r s).hmp = s.hmp := by
  unfold setRun; split <;> (try split) <;> rfl
@[simp] theorem setRegs_hmp (c : Cx) (g : Regs) : (setRegs c g s).hmp = s.hmp := by simp [setRegs]
@[simp] theorem setRun_free (c : Cx) (r : NetRun) : (setRun c r s).free = s.free := by
  unfold setRun; split <;> (try split) <;> rfl
@[simp] theorem setRegs_free (c : Cx) (g : Regs) : (setRegs c g s).free = s.free := by simp [setRegs]
@[simp] theorem setRun_pending (c : Cx) (r : NetRun) : (setRun c r s).pending = s.pending := by
  unfold setRun; split <;> (try split) <;> rfl
@[simp] theorem setRegs_pending (c : Cx) (g : Regs) : (setRegs c g s).pending = s.pending := by simp [setRegs]

/-! ### Reading back -/

@[simp] theorem eng_modEng_same (e : Nat) (f : Eng → Eng) : eng (modEng e f s) e = f (eng s e) := by simp [eng, modEng]
@[simp] theorem eng_modEng_ne {e d : Nat} (f : Eng → Eng) (h : d ≠ e) : eng (modEng e f s) d = eng s d := by
  simp [eng, modEng, h]
@[simp] theorem lane_modLane_same (n : Nat) (f : Lane → Lane) : lane (modLane n f s) n = f (lane s n) := by
  simp [lane, modLane]
@[simp] theorem lane_modLane_ne {n m : Nat} (f : Lane → Lane) (h : m ≠ n) : lane (modLane n f s) m = lane s m := by
  simp [lane, modLane, h]
@[simp] theorem cvUnit_modCv_same (u : Nat) (f : Cv → Cv) : cvUnit (modCv u f s) u = f (cvUnit s u) := by
  simp [cvUnit, modCv]
@[simp] theorem cvUnit_modCv_ne {u v : Nat} (f : Cv → Cv) (h : v ≠ u) : cvUnit (modCv u f s) v = cvUnit s v := by
  simp [cvUnit, modCv, h]
@[simp] theorem keyOf_modKey_same (k : Nat) (f : Key → Key) : keyOf (modKey k f s) k = f (keyOf s k) := by
  simp [keyOf, modKey]
@[simp] theorem keyOf_modKey_ne {k j : Nat} (f : Key → Key) (h : j ≠ k) : keyOf (modKey k f s) j = keyOf s j := by
  simp [keyOf, modKey, h]
@[simp] theorem block_setBlock_same (fb : Nat) (b : Block) : block fb (setBlock fb b s) = b := by simp [block, setBlock]
@[simp] theorem block_setBlock_ne {fb f : Nat} (b : Block) (h : f ≠ fb) : block f (setBlock fb b s) = block f s := by
  simp [block, setBlock, h]
@[simp] theorem strand_setStrand_same (k : Nat) (x : Strand) : strand k (setStrand k x s) = x := by
  simp [strand, setStrand]
@[simp] theorem strand_setStrand_ne {k j : Nat} (x : Strand) (h : j ≠ k) : strand j (setStrand k x s) = strand j s := by
  simp [strand, setStrand, h]
@[simp] theorem islLane_modIslLane_same (n : Nat) (f : IslLane → IslLane) :
    islLane (modIslLane n f s) n = f (islLane s n) := by simp [islLane, modIslLane]
@[simp] theorem islLane_modIslLane_ne {n m : Nat} (f : IslLane → IslLane) (h : m ≠ n) :
    islLane (modIslLane n f s) m = islLane s m := by simp [islLane, modIslLane, h]
@[simp] theorem bagOf_modBag_same (n : Nat) (f : Bag → Bag) : bagOf (modBag n f s) n = f (bagOf s n) := by
  simp [bagOf, modBag]
@[simp] theorem bagOf_modBag_ne {n m : Nat} (f : Bag → Bag) (h : m ≠ n) : bagOf (modBag n f s) m = bagOf s m := by
  simp [bagOf, modBag, h]
@[simp] theorem wdOf_modWd_same (c : Bool) (f : Wd → Wd) : wdOf c (modWd c f s) = f (wdOf c s) := by cases c <;> rfl
@[simp] theorem wdOf_modWd_other (c : Bool) (f : Wd → Wd) : wdOf (!c) (modWd c f s) = wdOf (!c) s := by cases c <;> rfl

/-! ### The memories at reset -/

theorem reset_couched_wf : Memory.wf 0 State.reset.exe.couched = true := rfl
theorem reset_latched_wf : Memory.wf 0 State.reset.exe.latched = true := rfl
theorem reset_evNext_wf : Memory.wf 0 State.reset.exe.evNext = true := rfl
theorem reset_trial_wf : Memory.wf 0 State.reset.trial.sheet = true := rfl
theorem reset_flash_wf : Memory.wf 0xFF State.reset.boot.flash = true := rfl

/-! ### What the memory's users keep -/

theorem Overlay.apply_wf (o : Overlay) (m : Memory) (h : Memory.wf 0 m = true) : Memory.wf 0 (o.apply m) = true := by
  unfold Overlay.apply
  generalize o.mask = l
  induction l generalizing m with
  | nil => exact h
  | cons e l ih => exact ih _ (tset_wf 0 m _ _ h)

theorem flProgram_wf (o : Nat) (bs : List Byte) (h : Memory.wf 0xFF s.boot.flash = true) :
    Memory.wf 0xFF (flProgram o bs s).boot.flash = true := by
  unfold flProgram
  dsimp only
  generalize List.range bs.length = l
  revert h
  generalize s.boot.flash = m
  intro h
  induction l generalizing m with
  | nil => exact h
  | cons i l ih => exact ih _ (tset_wf 0xFF m _ _ h)

theorem flErase_wf (o n : Nat) (h : Memory.wf 0xFF s.boot.flash = true) :
    Memory.wf 0xFF (flErase o n s).boot.flash = true := tclear_wf 0xFF o n _ h

end Sys2Proof.Machine
end

