-- ==== Sys2Proof/Laws/Exec.lean ====
section
/-! SUPPORT. What a program word does once, for every instruction: where it is taken, its body runs and the context goes on. -/

namespace Sys2Proof.Machine

/-- A word that is taken runs its body and the context goes on by the body's displacement; NET and LIT aside. -/
theorem takeWord_takes {w : Who} {op md x : Nat} {c : Cx} {s : State} (body : Cx → State → State × Int)
    (h : Takes w op md x c s) (net : op ≠ 0x30) (lit : op ≠ 0x33) :
    takeWord w op md x body s = wordDone c (pcOf c s) (body c s).2 (body c s).1 := by
  obtain ⟨hp, hh, hw, ho⟩ := h
  unfold takeWord
  simp only [hp, hh, hw, ho, wordDone]
  simp [net, lit]

/-- Where no context of the pipe takes words, a word does nothing. -/
theorem takeWord_none {w : Who} {op md x : Nat} {s : State} (body : Cx → State → State × Int) (h : pickCx w s = none) :
    takeWord w op md x body s = s := by
  unfold takeWord
  simp [h]

/-- The modifier of a bit that a word writes: 1 inverts LA. -/
theorem laMod_eq (md : BitVec 2) (la : Bool) : laMod md.toNat la = if md = 1 then !la else la := by
  unfold laMod
  have h : md.toNat = 1 ↔ md = 1 := ⟨fun h => BitVec.eq_of_toNat_eq h, fun h => by rw [h]; rfl⟩
  simp [h]

end Sys2Proof.Machine
end

