-- ==== Sys2Proof/Tests/Slice0.lean ====
section
/-! SUPPORT. Tests: for each statement the states and operands that meet its hypotheses, clause by clause; what
`wellFormed` refuses; and the manual's worked examples. -/

namespace Sys2Proof.Tests
open Sys2Proof.Machine
set_option Elab.async false

/-! ## States for the witnesses -/

/-- A program of two networks of five words on strand 0, and one network of one word for tasks. -/
def wProg : Prog :=
  { words := (List.range 12).map fun i => (i, if i % 5 = 0 then mkWord 0x30 0 0 else mkWord 0x1C 0 0), valid := true, n := 12, strands := 1,
    ranges := [(0, 2), (0, 0), (0, 0), (0, 0)], tickFirst := 2, tickCount := 1,
    tasks := [{ first := 2, count := 1, kind := 1, prio := 3 }] }
/-- Registers in the middle of a network. -/
def wRegs : Regs := { la := true, stack := [true, false], a := 0x80000000, b := 7, l := 2, pc := 2 }
/-- A unit in ACTIVE whose pipe 0 stands in the middle of strand 0's first network. -/
def wPipe : State :=
  { State.reset with
    md.mode := .active, exe.prog0 := wProg, exe.prog1 := wProg, exe.inCycle := true, exe.sampled := true,
    exe.strands := [(0, { phase := .verify, run := { opened := true, regs := wRegs } })] }
/-- The same with the tick task on pipe 0. -/
def wTask : State :=
  { wPipe with exe.tasks := [{ task := 16, run := { opened := true, net := 2, regs := wRegs }, tick := 5, pos := 2, last := 3 }] }
/-- The same with a trial strand in the middle of its first network. -/
def wTrial : State :=
  { wPipe with trial.st := .running, trial.started := true, trial.run := { opened := true, regs := wRegs } }
/-- Before a network's NET word. -/
def wAtNet : State :=
  { wPipe with exe.strands := [(0, { phase := .verify, run := { regs := wRegs } })] }
/-- A speculating strand before a NET word. -/
def wSpec : State :=
  { wPipe with exe.strands := [(0, { phase := .spec, run := { regs := wRegs } })], exe.sampled := false }
/-- A block on both ports' chains, powered, owned by port 1, with settings. -/
def wBlk : Block :=
  { powered := true, posA := some 0, posB := some 3, settings := List.replicate 64 0 ++ (List.replicate 8 [2#8, 0]).flatten, st := .owned,
    owner := 1, counterOn := true, holdM1 := 7, islandOk := true, vfOk := true, vlOk := true, lineTimed := true, raw := 0x0204, acc := 0x0200,
    runs := [(9, 1)], isl := 0x05, cmd := 0x05 }
/-- A unit whose field chain is that block. -/
def wField (b : Block) : State := { State.reset with fl.n := 1, fl.blocks := [(0, b)], md.mode := .hold }
/-- The event entry of an edge. -/
def wEv (pri : Bool) (ch : Nat) : EvEntry := { rising := true, channel := ch, pri := pri, age := 0, stamp := 5 }
/-- `n` bytes of a record's payload, zero but for the fields named: offset, bytes and value. -/
def wRec (n : Nat) (l : List (Nat × Nat × Nat)) : List Byte :=
  l.foldl (fun bs f => (leBytes f.2.1 f.2.2).zipIdx.foldl (fun bs b => bs.set (f.1 + b.2) b.1) bs) (List.replicate n 0)
/-- A state with these configuration records. -/
def wCfg (l : List (Nat × Nat × List Byte)) (s : State) : State :=
  { s with img.cfg := l.map fun r => { typ := r.1, inst := r.2.1, payload := r.2.2 } }
/-- A unit in HOLD with nothing configured. -/
def wHold : State := { State.reset with md.mode := .hold }
/-- A unit in ACTIVE with nothing configured. -/
def wActive : State := { State.reset with md.mode := .active }
/-- A shadow slot that holds a staged edit of one network of two words, its descriptor at 64. -/
def wImg (id : Nat) : Tbl Word :=
  [(0, mkWord 0x30 0 0), (1, mkWord 0x01 0 0x200000), (16, BitVec.ofNat 32 id), (17, 2), (18, 256), (19, 128), (20, 352),
    (21, 384)] ++ (List.range 16).map (fun i => (36 + 3 * i, (1 : Word))) ++ [(88, 1), (89, 0x10000)]
/-- A unit in HOLD with that edit, and one with the edit staged. -/
def wEdit : State := { wHold with exe.prog1.words := wImg 7 }
def wStaged : State :=
  { wHold with exe.prog0 := wProg, exe.prog1 := { words := [(0, mkWord 0x30 0 0), (1, mkWord 0x01 0 0)], valid := true, n := 2 },
               trial.st := .staged, trial.editId := 7 }
/-- Half of a pair, the felt link in use. -/
def wPair (m : Mode) : State :=
  wCfg [(0x15, 0, wRec 56 [(0, 1, 1)])] { State.reset with md.mode := m, felt.silence := 2 }
/-- A copy of a sheet. -/
def wCopy (full : Bool) : Copy :=
  { full := full, handover := false, swap := none, dorm := false, moved := false, tick := 10, base := 8, pages := [3, 400],
    mem := [(0x11000000, 1), (0x11002000, 5)], klp := none, pair := none }
/-- A dialect: lines that end in LF, one map entry for lines that begin with 'A' (lane-event bit 3, word 0), a poll of one
byte every tick, the NAK string of two bytes. -/
def wDialect : List Byte :=
  wRec 584 [(0, 1, 2), (1, 1, 0x30), (7, 1, 4), (10, 2, 0x0A), (15, 1, 3), (16, 2, 35), (18, 2, 100), (23, 1, 4), (24, 1, 1),
    (25, 1, 1), (27, 1, 2), (28, 2, 1), (32, 2, 1), (34, 1, 1), (38, 1, 2), (40, 2, 2), (64, 2, 1), (66, 1, 0),
    (194, 1, 1), (200, 1, 3), (201, 1, 0), (202, 1, 1), (204, 1, 8), (576, 1, 0x41), (577, 1, 5), (578, 2, 0x1515)]
/-- Lane 0 used, its domain on, and engine 0 a port of that dialect. -/
def wPortCfg : List (Nat × Nat × List Byte) :=
  [(0x11, 0, wRec 4 [(0, 1, 1), (1, 1, 0x3F), (3, 1, 1)]),
   (0x17, 0, wRec 32 [(0, 1, 1), (1, 1, 0), (2, 1, 0xFF), (3, 1, 0xFF), (28, 1, 0), (29, 1, 0)]), (0x18, 0, wDialect)]
def wPort : State := wCfg wPortCfg { wHold with lanes := [(0, { dom := .on })], engs := [(0, { up := true })] }
/-- Queue 0 at port slot `p` and service `v`; the head packet waits, or is chosen. -/
def wPkt : Pkt := { bytes := 3, data := [1, 2, 3], src := 2, tag := some (9, 4), lane := 0, eng := 0 }
def wSw (p v : Nat) (s : State) : State := { s with sw.sched := [(1296, p + 1), (1297, v + 1)] }
def wQueue (p v : Nat) (s : State) : State := { wSw p v s with sw.queues := [(0, [wPkt])] }
def wChosen (p : Nat) (k : Pkt) (s : State) : State :=
  { wSw p 0 s with sw.chosen := [(p, some { q := 0, pkt := k, tq := {}, tu := {}, ts := {}, vq := 0, vu := 0, vs := 0, credits := [] })] }
/-- A unit in HOLD that serves KLP on uplink 0: lane 0's session is open, every queue number names queue 0. -/
def wKlpCfg : List (Nat × Nat × List Byte) :=
  [(0x11, 0, wRec 4 [(0, 1, 1), (1, 1, 0x3F), (3, 1, 1)]), (0x17, 0, wRec 32 [(0, 1, 1), (1, 1, 0), (2, 1, 0xFF), (3, 1, 0xFF)]),
   (0x18, 0, wRec 584 [(0, 1, 2), (7, 1, 4), (26, 1, 1), (449, 1, 0x24), (453, 1, 0)]),
   (0x1C, 0, wRec 96 [(20, 4, 0x0100000A), (48, 2, 2), (50, 1, 1), (51, 1, 1), (52, 4, 100), (56, 1, 4), (57, 1, 0xFF)])]
def wKlp : State :=
  wSw 0 0 (wCfg wKlpCfg { wHold with
    lanes := [(0, { dom := .on })], clk.tick := 1000,
    klp.sess := [(0, { isOpen := true, num := 9, addr := 7, port := 5, rxNext := 0xFFFFFFFF, lastRx := 990, txNext := 3, lastAck := 1,
                       unack := [{ seq := 2, typ := 0x12, tick := 990, tries := 0, data := [] }] })] })
/-- A datagram from that session's host with this ack, lane and sub-address, and its check value. -/
def wRaw (typ flags sess seq ack lane sub : Nat) (p : List Byte) : KlpDgram :=
  let h : List Byte := [0x4B, 0x4C, 1, BitVec.ofNat 8 typ, BitVec.ofNat 8 lane, BitVec.ofNat 8 flags] ++ beBytes 2 sess ++ beBytes 4 seq
    ++ beBytes 4 ack ++ beBytes 2 p.length ++ [BitVec.ofNat 8 sub, 0] ++ p
  { uplink := 0, v6 := false, dst := 0x0A000001, addr := 7, sport := 5, udp := h ++ beBytes 4 (crc32c h) }
def wDat (typ flags sess seq : Nat) (p : List Byte) : KlpDgram := wRaw typ flags sess seq 3 0 0xFF p
/-- Its next message. -/
def wDgram (typ : Nat) (p : List Byte) : KlpDgram := wDat typ 0 9 0xFFFFFFFF p
/-- A unit in HOLD that serves HMP: one session, a write of area 2 under way by it, two key sectors. -/
def wSess : HSess := { num := 5, keyId := 1, inst := 0, top := 10, idle := 3, key := List.replicate 48 0 }
def wWrite : SlotWrite := { area := 2, copy := 1, len := 64, next := 60, owner := 5 }
def wHmp : State :=
  wCfg [(0x1C, 0, wRec 96 [(20, 4, 0x0100000A)]), (0x1D, 0, wRec 32 [(0, 1, 3), (1, 1, 4), (2, 2, 60), (4, 2, 47642), (6, 1, 1), (7, 1, 8)])] { wHold with
    md.powerGood := true, hmp.sess := [wSess], clk.tick := 100, boot.cfgSel := 0,
    img.areas := [(4, (0x10000, 0x10000)), (5, (0x20000, 0x10000))],
    img.keyLen := 8192, img.keyOff := 0x40000, img.keys := [{ inst := 0, id := 1, bytes := List.replicate 32 7 }] }
/-- A sealed request of that session. -/
def wAsk (opn : Nat) (args : List Byte) (flags : BitVec 16 := 0) : HReq :=
  let b := beBytes 2 opn ++ beBytes 4 77 ++ beBytes 2 flags.toNat ++ args
  let h : HHead := { dst := 0x0A000001, port := 47641, magic := 0x484D, version := 1, kind := 3, session := 5, counter := 11,
                     length := BitVec.ofNat 16 b.length, zero := 0 }
  let nonce := (wSess.key.drop 32).take 4 ++ beBytes 8 11
  { hd := h, bulk := false, reqId := 77, flags := flags, tail := gcmTag (wSess.key.take 16) nonce h.bytes (gcmCtr (wSess.key.take 16) nonce b) }
/-- A unit whose debug port is unlocked. -/
def wDbg (m : Mode) : State := { wPipe with md.mode := m, md.powerGood := true, boot.debugLock := false }
/-- An island in state `st`, sealed by identity 5; lane 0 weighs on channel 0. -/
def wIsl (st : IslSt) : State :=
  { wHold with
    isl.st := st, isl.sealWord := { normal := 5, tight := 5 }, isl.ms := 4000, isl.raw := [(0, 50000)],
    isl.cfgA := { crcOk := true, sealId := 5, tagOk := true, params := [(0x1000, some 1), (0x1005, some 3000), (0x1013, some 100000), (0x1014, some 10000)] },
    isl.lanes := [(0, { zeroReq := false, invalid := false, hist := List.replicate 15 100 })], slu.oper := true }
/-- A downward message at its mailbox's head. -/
def wMsg (code : Nat) (data : List Byte) (s : State) : State :=
  { s with slu.down := [{ code := code, lane := 0, seq := 0, data := data }] }

def wTime : State :=
  { wHold with
    clk.tick := 0x123456789AB, rtc.sec := 86400 * 366, rtc.cal := 86400 * 366, rtc.sub := 77, rtc.fired := 3,
    rtc.pin := true, rtc.swFirst := 9, rtc.swCnt := 2, rtc.bkLow := true, md.rstCause := 0x2F, md.wakeCause := 0x1F }
def almS : State := { wTime with rtc.alm0 := 0x80000000, rtc.fired := 0, rtc.onVbak := true }
def wWd : State :=
  { wHold with
    wd.s := { en := true, run := true, per := 1000, since := 0 },
    wd.c := { en := true, run := true, per := 8, since := 0 } }
def wKeys : State :=
  { wCfg [(0x20, 0, wRec 32 [(0, 2, 0xFFFF), (4, 2, 1), (8, 2, 256)])] wHold with
    keys := [(3, { pressed := true, on := 60000, raw := 50, base := 40 }), (4, { stuck := true, raw := 50, base := 40, step := 256 }), (5, { stuck := true, raw := 40, base := 50, step := 256 }), (6, { stuck := true, raw := 40, base := 40, step := 256 })] }
def wThr : Thr := { failTest := 0, beyond := false, means := [], probes := [], vbakLow := false }
def wRet : State :=
  { wHold with
    exe.everCouched := true, exe.couched := [(0x11010000, 5), (0x11010000 + 4 * 2047, 7)], exe.couchTick := 100,
    exe.rfl := true }
def wCyc : State :=
  { wActive with
    exe.inCycle := true, exe.prog0 := wProg, exe.first := 7, clk.tick := 7, exe.strands := [(0, { phase := .wait })] }
def wDone : State :=
  wCfg [(0x12, 0, wRec 8 [(0, 1, 1), (1, 1, 1), (2, 1, 32), (3, 1, 3), (4, 1, 1)])] { wCyc with
    exe.due := 8, exe.sampled := true,
    exe.strands := [(0, { phase := .done, com := { val := [(0x11000400, 1)], mask := [(0x11000400, 1)] } })] }
def wDoneF : State := { wDone with fl.n := 1, fl.blocks := [(0, wBlk)] }
def wStg : State := wStaged
def wPart : State := { wPort with engs := [(0, { up := true, raw := [0x41, 0x31], inFrame := true })] }
def wGap : State := wCfg (wPortCfg.map fun r => if r.1 = 0x18 then (r.1, r.2.1, r.2.2.set 0 3) else r) wPart
def wFix : State := wCfg (wPortCfg.map fun r => if r.1 = 0x18 then (r.1, r.2.1, (r.2.2.set 0 1).set 6 1) else r) wPart
def wWait : Wait := { pkt := { bytes := 3, data := [1,2,3] , lane := 0}, deadline := 3, tries := 1 }
def wW : State := { wPort with clk.tick := 3, engs := [(0, { up := true, wait := some wWait })] }
def wUsb : State :=
  wCfg [(0x11, 0, wRec 4 [(0, 1, 1), (1, 1, 0x3F), (3, 1, 1)]), (0x17, 40, wRec 32 [(0, 1, 1), (1, 1, 0xFF), (14, 1, 0), (16, 2, 3)])] { wPort with
    engs := [(40, { up := true, usbAddr := 1 })] }
def wCan : State :=
  wCfg [(0x17, 48, wRec 32 [(0, 1, 1), (1, 1, 0xFF), (13, 1, 0xFF)])] { wPort with engs := [(48, { up := true })] }
def wKp : Pkt := { wPkt with typ := 0x20 }
def wGrp : State :=
  { wKlp with
    lanes := [(0, { dom := .on, groups := [{ first := 4, count := 4, latest := false, ents := [[1, 2, 3, 4]] }] })] }
def dB : KlpDgram := wDgram 0x14 [1,2,3,4]
def offd (typ : Nat) (d : KlpDgram) :=
  (offerPkt (cf wKlp 0x1C 0 62 2 0) (klpPort wKlp) false (hostPkt typ 0 d 9) (delivered 0 d wKlp)).2
def wKnl : State :=
  { wKlp with img.cfg := wKlp.img.cfg.map fun r => if r.typ = 0x11 then { r with payload := [1, 0x3F, 0, 0] } else r }
def wCan11 : KlpDgram := wDgram 5 [0,0,0,4, 0,0,0,0]
def wKq : State := { wKlp with sw.queues := [(0, [{ wPkt with src := 54 }])] }
def wCan2 : KlpDgram := wDat 5 0 9 5 [0,0,0,4, 0,0,0,0]
def wKq2 : State := { wKq with klp.sess := tmod {} wKq.klp.sess 0 fun x => { x with rxNext := 5 } }
def wOpen : KlpDgram := wDat 1 0 0 0xFFFFFFFF []
def wDo : State := { wKlp with md.mode := .dormant }
def wF : EthFrame :=
  { uplink := 0, fcsOk := true, len := 64, vid := 0, dmac := 0, supported := true, frag := none, klp := some (wDgram 0x20 [1, 2, 3, 4]), data := [] }
def sK : HSess := { wSess with kept := [{ op := 1, req := 77, status := 3, result := [1] }] }
def wAct : State := { wHmp with md.mode := .active }
def wWr (w : SlotWrite) (s : State) : State := { s with hmp.write := some w }
def wW64 : SlotWrite := { wWrite with next := 64 }
def wZero : State := { wHmp with boot.flash := [(0x20024, 0), (0x20025, 0), (0x20026, 0), (0x20027, 0)] }
def thr0 : Thr := { failTest := 0, beyond := false, means := [], probes := [], vbakLow := false }
def wDp : State :=
  let s := wPair .active; { s with
    md.powerGood := true, boot.debugLock := false, felt.partnerMode := some 4, felt.partnerFlags := 2, felt.rel := none }
def wRm : State := wCfg [(0x16, 0, wRec 256 [(0,1,0),(8,1,3),(16,1,2),(24,2,3)])] wHold
def wCal : State := { wIsl .opened with isl.raws := [(0, List.replicate 100 50000)] }
def wTel : State :=
  { wIsl .sealed with
    isl.cfgA := { crcOk := true, sealId := 5, tagOk := true, params := [(0x1000, some 0x11), (0x1005, some 3000)], scales := [(0, wRec 128 [(0, 1, 0), (2, 2, 4), (64, 2, 0), (66, 1, 2), (67, 1, 2), (72, 2, 2), (74, 1, 1), (78, 1, 1), (79, 1, 1)])], ics := [(0, wRec 20 [])] } }
def wTel2 : State := { wTel with isl.cfgA.ics := [(0, wRec 20 [(0, 1, 8)])] }
def wUn : State := { wIsl .sealed with isl.lanes := [(0, { zeroReq := false, hist := [] })] }
def wReqs (a : Nat) : State :=
  { wIsl .sealed with isl.lanes := [(0, { reqs := [{ code := 2, data := [1, 0, 0, 0], arrival := a }] })] }
def wUp (c l : Nat) (d : List Byte) : State := { wHold with slu.up := [{ code := c, lane := l, seq := 0, data := d }] }
def wBag (l : List Int) (t : Nat) : State :=
  { wHold with
    clk.tick := t, bags := [(0, { xs := l, req := some { id := 1, expected := 5, start := 0, base := 0 } })] }
def wSntp : State := wCfg [(0x1F, 0, wRec 64 [(5, 1, 1), (12, 4, 0x0A000001)])] { wHold with rtc.valid := false }
def wMsgW (p d : Nat) : State :=
  wSw p 2 (wCfg wPortCfg { wPipe with
    lanes := [(0, { dom := .on })],
    exe.couched := wrLe 0 [] (byteAddr 3 (resolveIdx (xReg 0x300010) (xOff 0x300010) 2)) 4 d })
/-- A short frame's own part: its type, the sender's tick 9 and the check value of the whole frame. -/
def wFw (typ : Nat) (p : List Byte) : FeltWire :=
  { ftype := BitVec.ofNat 8 typ, tick := 9, crc := BitVec.ofNat 32 (crc32 (shortHead typ 9 p)) }
def wHb (mode flags consistent gap : Nat) : FeltWire := wFw 1 (heartbeatData mode flags consistent gap)
def wFull (s : State) : State := { s with sw.queues := [(0, [{ wPkt with bytes := 2097152 }])] }
def wEng (x : Eng) : State := { wPort with engs := [(0, x)] }
def wRts : State := wCfg (wPortCfg.map fun r => if r.1 = 0x17 then (r.1, r.2.1, r.2.2.set 12 0x40) else r) wPort
/-- The header and the trailer of a HELLO. -/
def wHello : HHead :=
  { dst := 0x0A000001, port := 47641, magic := 0x484D, version := 1, kind := 1, session := 0, counter := 0, length := 20, zero := 0 }
def wCrc (client id : Nat) : List Byte := beBytes 4 (crc32c (wHello.bytes ++ beBytes 16 client ++ beBytes 4 id))
def wPoke (a mask v : Nat) : HReq := wAsk 0x0012 (beBytes 4 a ++ beBytes 4 mask ++ beBytes 4 v)
/-- The same header sealed for another counter. -/
def wAgain (counter : BitVec 64) (opn : Nat) (args : List Byte) : HReq :=
  let r := wAsk opn args
  let h := { r.hd with counter := counter }
  let nonce := (wSess.key.drop 32).take 4 ++ beBytes 8 counter.toNat
  { r with hd := h, tail := gcmTag (wSess.key.take 16) nonce h.bytes (gcmCtr (wSess.key.take 16) nonce (r.body opn args)) }
def wPlain (opn : Nat) (args : List Byte) : HReq :=
  let r := wAsk opn args
  let h := { r.hd with kind := 5 }
  { r with hd := h, tail := beBytes 4 (crc32c (h.bytes ++ r.body opn args)) }
def wTel3 : State := {wTel with isl.cfgA.scales := [(0, wRec 584 [(0,1,0),(2,2,4),(194,1,1),(576,1,0x41)])]}

/-! ## States and operands of single clauses -/

def wit0 : State :=
  { wHold with md.mode := .thread }
def wit2 : State :=
  { wHold with ret.evtSeq := 0xFFFFFFFF, evt.secCount := 99 }
def wit3 : State :=
  { wHold with evt.secCount := 100 }
def wit4 : State :=
  { wHold with pending := [.rtcLoad] }
def wit6 : State :=
  { wPipe with exe.noEdge := true }
def wit7 : State :=
  { wPipe with exe.divPipes := [0] }
def wit8 : State :=
  { wPipe with
    exe.strands := [(0, { phase := .verify, run := { opened := true, regs := { wRegs with lit := some 5 } } })] }
def wit9 : State :=
  { wPipe with
    exe.strands := [(0, { phase := .verify, run := { opened := true, regs := { wRegs with la := false } } })] }
def wit10 : State :=
  { wPipe with exe.taken := [(2, 3)] }
def wit11 : Timer :=
  { preset := 5, start := 3, running := true, inLast := false, q := false, elapsed := 4 }
def wit12 : Timer :=
  { preset := 5, start := 3, running := false, inLast := false, q := false, elapsed := 4 }
def wit13 : Timer :=
  { preset := 5, start := 3, running := true, inLast := true, q := false, elapsed := 4 }
def wit14 : Timer :=
  { preset := 5, start := 3, running := false, inLast := true, q := false, elapsed := 4 }
def wit15 : State :=
  { wPipe with dbg.bps := [(4, { en := true, word := 2 })] }
def wit16 : State :=
  { wPipe with exe.prog0.bad := [2] }
def wit17 : State :=
  { wPipe with exe.strands := [(0, { phase := .verify, run := { opened := true, regs := { wRegs with pc := 0 } } })] }
def wit20 : State :=
  wField { wBlk with raw := 0x200, acc := 0, runs := [(9, 1)] }
def wit21 : State :=
  wField { wBlk with
    raw := 0x200, acc := 0, runs := [(9, 4)],
    settings := (List.replicate 16 [0x10#8, 0, 0xF, 0]).flatten ++ List.replicate 16 0 }
def wit22 : State :=
  wField { wBlk with counterOn := false }
def wit23 : State :=
  wField { wBlk with safeDue := true, cmd := 0xA5 }
def wit24 : State :=
  wField { wBlk with settings := (List.replicate 16 [0x10#8, 0, 0, 0]).flatten ++ List.replicate 16 0 }
def wit25 : State :=
  wField { wBlk with settings := (List.replicate 16 [0x10#8, 0, 0xF, 0]).flatten ++ List.replicate 16 0 }
def wit26 : State :=
  wField { wBlk with settings := [] }
def wit27 : Block :=
  { wBlk with queue := List.replicate 15 (wEv true 3) }
def wit28 : Block :=
  { wBlk with queue := (wEv true 2) :: List.replicate 15 (wEv false 3) }
def wit29 : Block :=
  { wBlk with queue := List.replicate 16 (wEv true 3) }
def wit30 : State :=
  wField { wBlk with ownerSeen := true, queue := [wEv true 1] }
def wit31 : State :=
  wField { wBlk with queue := [wEv true 1] }
def wit32 : State :=
  wField { wBlk with st := .holding, missed := 7 }
def wit33 : State :=
  wField { wBlk with st := .holding, missed := 255 }
def wit34 : State :=
  wField { wBlk with st := .holding, owner := 0, relTick := true, missed := 1 }
def wit35 : State :=
  { wField wBlk with fl.sweep := some { tick := 5, count := 1, out := [(0, 0x1FF)] } }
def wit36 : Sweep :=
  { tick := 5, count := 1, out := [(0, 0x1FF)] }
def wit37 : SweepIn :=
  { port := 1, tickLo := 5, slot := 0x1FF, hdr := true, good := false, free := true }
def wit38 : SweepIn :=
  { port := 1, tickLo := 5, slot := 0x1FF, hdr := true, good := true, free := true }
def wit39 : SweepIn :=
  { port := 1, tickLo := 5, slot := 0x3FF, hdr := true, good := true, free := true }
def wit40 : SweepIn :=
  { port := 1, tickLo := 5, slot := 0x7FF, hdr := true, good := true, free := true }
def wit41 : SweepIn :=
  { port := 2, tickLo := 5, slot := 0x0FF, hdr := true, good := true, free := true }
def wit42 : Block :=
  { wBlk with missed := 1, ownerTick := some 5 }
def wit43 : SweepIn :=
  { port := 2, tickLo := 5, slot := 0x1FF, hdr := true, good := true, free := true }
def wit44 : Block :=
  { wBlk with missed := 1 }
def wit45 : Block :=
  { wBlk with missed := 2, ownerTick := some 5 }
def wit46 : Block :=
  { wBlk with st := .unowned, owner := 0 }
def wit47 : SweepIn :=
  { port := 2, tickLo := 5, slot := 0x3FF, hdr := true, good := true, free := true }
def wit48 : Block :=
  { wBlk with st := .holding, owner := 0, released := true }
def wit49 : State :=
  { wField { wBlk with queue := [wEv true 1] } with fl.carrier := some { k := 0 } }
def wit50 : State :=
  wField { wBlk with owner := 2, queue := [wEv true 1] }
def wit51 : State :=
  { wField wBlk with fl.fly := [{ fb := 0, mask := 0xF0, val := 0xA0 }] }
def wit52 : State :=
  wField { wBlk with owner := 2 }
def wit53 : State :=
  { wField wBlk with md.mode := .thread, md.thStat := 9 }
def wit54 : State :=
  wField { wBlk with evLost := 7, olOn := 1 }
def wit55 : List Byte :=
  (List.replicate 16 [0x10#8, 0, 0xF, 0]).flatten ++ List.replicate 16 0
def wit56 : State :=
  { wField wBlk with fl.reams := [{ write := { addr := 0x58000010, mask := 0xFFFFFFFF, val := 5 }, mask := 1 }] }
def wit57 : Word :=
  ReamOut.data { write := { addr := 0x58000010, mask := 0xFFFFFFFF, val := 5 }, mask := 1 }
def wit58 : ReamOut :=
  { write := { addr := 0x58000010, mask := 0xFFFFFFFF, val := 5 }, mask := 1 }
def wit59 : State :=
  { wField wBlk with clk.tickSel := 3, md.mode := .active }
def wit60 : State :=
  { wField wBlk with md.mode := .active }
def wit61 : State :=
  { wField wBlk with fl.carrier := some { k := 0 } }
def wit62 : State :=
  { wField wBlk with md.mode := .active, fl.urg := [{ fb := 0, mask := 1, val := 1 }] }
def wit63 : State :=
  { wField wBlk with fl.fly := [{ fb := 0, mask := 1, val := 1, applied := true }] }
def wit64 : Urgent :=
  { fb := 0, mask := 1, val := 1, applied := true }
def wit65 : State :=
  { wField wBlk with fl.sweep := some { tick := 5, count := 1, ins := [(0, 0x1234)], own := 1, reached := 1 } }
def wit66 : Sweep :=
  { tick := 5, count := 1, ins := [(0, 0x1234)], own := 1, reached := 1 }
def wit67 : State :=
  { { wField wBlk with
    fl.sweep := some { tick := 5, count := 1, ins := [(0, 0x1234)], own := 1, reached := 1 } } with fl.lostRun := 2 }
def wit68 : State :=
  { { wField wBlk with
    fl.sweep := some { tick := 5, count := 1, ins := [(0, 0x1234)], own := 1, reached := 1 } } with fl.lostRun := 14 }
def wit69 : State :=
  { wTime with rtc.cal := calEnd - 1 }
def wit73 : State :=
  { wTime with rtc.polling := true }
def wit74 : Sntp :=
  { mode := 4, version := 3, stratum := 1, leap := 0, echo := true, t1 := 0, t2 := 0, t3 := 0, t4 := 0 }
def wit75 : Sntp :=
  { mode := 3, version := 3, stratum := 1, leap := 0, echo := true, t1 := 0, t2 := 0, t3 := 0, t4 := 0 }
def wit76 : State :=
  { wTime with clk.tick := 4000, evt.secLost := 3 }
def wit77 : State :=
  { wTime with rtc.now := 1 }
def wit78 : State :=
  { almS with rtc.onVbak := false, md.mode := .active }
def wit79 : State :=
  { wKeys with keys := [(3, { pressed := true, on := maxOnTicks wKeys, raw := 50, base := 40 })] }
def wit80 : State :=
  { wKeys with keys := [(3, { pressed := true, on := maxOnTicks wKeys - 1, raw := 50, base := 40 })] }
def wit81 : State :=
  { wWd with wd.s.key := some 100 }
def wit82 : State :=
  { wWd with wd.s.key := some 100, wd.s.lock := true }
def wit83 : State :=
  { wWd with wd.c.en := false }
def wit84 : State :=
  { wWd with wd.c.en := false, wd.c.cut := some (100, 40) }
def wit85 : State :=
  { wWd with md.mode := .dormant }
def wit86 : State :=
  { wHold with md.mode := .backup }
def wit87 : State :=
  { wHold with clk.loopOn := true }
def wit88 : State :=
  { wHold with
    md.mode := .active, exe.inCycle := true, exe.first := 0, exe.due := 1, clk.tick := 1, exe.prog0 := wProg,
    exe.strands := [(0, { phase := .verify })] }
def wit89 : State :=
  { wHold with
    md.mode := .active, exe.inCycle := true, exe.first := 0, exe.due := 1, clk.tick := 1, clk.lateRun := 2,
    exe.prog0 := wProg, exe.strands := [(0, { phase := .verify })] }
def wit90 : State :=
  { wCyc with exe.sampled := true }
def wit91 : State :=
  { wCyc with exe.pend := [{ task := 0, a := 5, l := 3 }] }
def wit92 : State :=
  { wCyc with dbg.halted := 1 }
def wit93 : State :=
  { wDone with exe.latched := [(0x11000000, 3)] }
def wit94 : State :=
  { wHold with
    md.mode := .active, exe.inCycle := true, exe.first := 0, exe.due := 1, clk.tick := 1, clk.lateRun := 2,
    clk.lateLimit := 3, exe.prog0 := wProg, exe.strands := [(0, { phase := .verify })] }
def wit95 : State :=
  { wHold with
    md.mode := .active, exe.inCycle := true, exe.first := 0, exe.due := 1, clk.tick := 1, clk.lateRun := 1,
    clk.lateLimit := 3, exe.prog0 := wProg, exe.strands := [(0, { phase := .verify })] }
def wit96 : State :=
  { State.reset with md.mode := .backup }
def wit97 : State :=
  { wHold with md.testHold := true }
def wit98 : State :=
  { wHold with wd.pulse := true }
def wit99 : State :=
  { State.reset with md.thStat := 11 }
def wit100 : State :=
  { wHold with boot.fuseTemp := 0 }
def wit101 : State :=
  { wHold with clk.boundaryE := 1440000000000 }
def wit102 : State :=
  { wRet with md.mode := .backup }
def wit103 : State :=
  { wRet with evt.atBnd := true }
def wit104 : State :=
  { wActive with md.pendF := [0x1101, 0x0202] }
def wit105 : State :=
  { wHold with md.pendF := [0x1101], md.mode := .dormant, md.fault := true, md.faultEvt := 7 }
def wit106 : State :=
  { wActive with exe.inCycle := true }
def wit107 : State :=
  { wHold with ring.put := 64 }
def wit108 : State :=
  { wStaged with md.mode := .active, exe.inCycle := true, exe.everCouched := true }
def wit109 : State :=
  { wHold with md.fault := true, md.faultEvt := 5 }
def wit110 : State :=
  { wHold with md.faultNow := true }
def wit111 : State :=
  { wHold with exe.prog0 := wProg }
def wit112 : State :=
  { wStg with trial.st := .failed, trial.compared := 256 }
def wit113 : State :=
  { wStg with trial.st := .failed, trial.compared := 255 }
def wit114 : State :=
  { wPair .active with felt.trained := true }
def wit115 : State :=
  { wPair .standby with clk.loopOn := true }
def wit116 : FeltWire :=
  { wHb 4 8 0x1000 0 with crc := 0 }
def wit117 : State :=
  { wPair .standby with felt.silence := 1 }
def wit118 : State :=
  { wPair .standby with felt.ready := true }
def wit119 : State :=
  { wPair .active with felt.lastCopy := some (wCopy true), felt.pages := [(1, 9), (2, 12)] }
def wit120 : FeltWire :=
  { wFw 3 [] with crc := 0 }
def wit121 : State :=
  { wPair .thread with nego.waitRelease := true }
def wit122 : State :=
  { wPair .thread with md.thStat := 9 }
def wit123 : State :=
  { wPair .thread with felt.probeId := 5 }
def wit124 : State :=
  { wPort with lanes := [(0, { dom := .powering })] }
def wit125 : State :=
  { wPort with evt.atBnd := true, lanes := [(0, { dom := .closing })] }
def wit126 : State :=
  { wPort with evt.atBnd := true, lanes := [(0, { dom := .closing, closeN := 8 })] }
def wit127 : State :=
  { wPort with evt.atBnd := true }
def wit128 : State :=
  { wHold with evt.atBnd := true, md.dormReq := true, md.fault := true }
def wit129 : State :=
  { wHold with evt.atBnd := true, md.dormReq := true, md.heldWake := true }
def wit130 : State :=
  { wHold with md.mode := .dormant }
def wit131 : State :=
  { wHold with md.dormReq := true }
def wit132 : State :=
  wCfg [(0x13, 0, wRec 8 [(2, 1, 8)])] wHold
def wit133 : State :=
  { wW with clk.tick := 4 }
def wit134 : State :=
  { wW with engs := [(0, { up := true, wait := some { wWait with tries := 2 } })] }
def wit135 : Wait :=
  { wWait with tries := 2 }
def wit136 : State :=
  { wW with engs := [(0, { up := true, missRun := 2, wait := some { wWait with tries := 2 } })] }
def wit137 : State :=
  { wPort with clk.tick := 4, engs := [(0, { up := true, poll := some 3 })] }
def wit138 : State :=
  { wPort with engs := [(0, { up := true, usbAddr := 1 })] }
def wit139 : State :=
  { wUsb with engs := [(40, { up := true })] }
def wit140 : State :=
  { wCan with engs := [(48, { up := true, busOff := true, fault := true, tec := 5 })] }
def wit141 : State :=
  wCfg (wPortCfg.map fun r => if r.1 = 0x18 then (r.1, r.2.1, r.2.2.set 18 0) else r) wPart
def wit142 : State :=
  wFull (wEng { up := true, raw := List.replicate 128 0x41, inFrame := true })
def wit143 : State :=
  wEng { up := true, raw := List.replicate 2048 5, inFrame := true }
def wit144 : State :=
  { wRts with engs := [(0, { up := true, cts := true, going := [1, 2] })] }
def wit145 : State :=
  { wRts with engs := [(0, { up := true, cts := false })] }
def wit146 : State :=
  { wRts with engs := [(0, { up := true, cts := false, waiting := [(1, [5]), (1, [6, 7])] })] }
def wit147 : State :=
  { wSw 2 3 wPort with sw.sched := [(2, 1), (3, 65), (1296, 3), (1297, 4)] }
def wit148 : Chosen :=
  { q := 0, pkt := wPkt, tq := {}, tu := {}, ts := {}, vq := 0, vu := 0, vs := 0, credits := [] }
def wit149 : State :=
  wChosen 2 { wPkt with ack := true } wPort
def wit150 : Chosen :=
  { q := 0, pkt := { wPkt with ack := true }, tq := {}, tu := {}, ts := {}, vq := 0, vu := 0, vs := 0, credits := [] }
def wit151 : State :=
  wChosen 0 wKp { wKlp with klp.sess := [(0, { isOpen := true, num := 9, txNext := 0xFFFFFFFF })] }
def wit152 : Chosen :=
  { q := 0, pkt := wKp, tq := {}, tu := {}, ts := {}, vq := 0, vu := 0, vs := 0, credits := [] }
def wit153 : State :=
  wChosen 2 wPkt { wPort with md.mode := .dormant }
def wit154 : State :=
  { wSw 2 0 wPort with sw.sent := [(2, wPkt)] }
def wit155 : State :=
  (offerFrame 0 0 [0x31] (some (9, 0xFFFFFFFF)) (delivered 0 (wDgram 0x24 [0x31]) wKlp)).2
def wit156 : Instr :=
  .light (wDgram 0x27 [1, 2, 3, 4, 5, 6, 7, 8])
def wit157 : State :=
  (withdraw 0 (9, 4) (delivered 0 wCan2 wKq2)).2
def wit158 : KlpDgram :=
  wRaw 6 0 0 0 0 0xFF 0xFF (List.replicate 24 0)
def wit159 : State :=
  { wKlp with klp.sess := tmod {} wKlp.klp.sess 0 fun x => { x with ackDue := some 1000 } }
def wit160 : State :=
  { wKlp with clk.tick := 1091 }
def wit161 : State :=
  { wKlp with clk.tick := 1090 }
def wit162 : State :=
  { wKlp with
    klp.sess := tmod {} wKlp.klp.sess 0 fun x => { x with unack := [{ seq := 2, typ := 0x12, tick := 990, tries := 1, data := [] }] } }
def wit163 : EthFrame :=
  { wF with uplink := 1 }
def wit164 : EthFrame :=
  { wF with fcsOk := false }
def wit165 : EthFrame :=
  { wF with frag := some 3 }
def wit166 : State :=
  { wKlp with klp.frags := [(3, 1000)] }
def wit167 : KeyRec :=
  { inst := 0, id := 1, bytes := List.replicate 32 7 }
def wit168 : HHead :=
  { wHello with port := 47640 }
def wit169 : State :=
  { wHmp with clk.tick := 1000000 }
def wit170 : State :=
  { wHmp with md.mode := .thread }
def wit171 : HReq :=
  { wPoke 0x10100000 0xFF 7 with tail := [] }
def wit172 : HReq :=
  wPlain 0x0012 (beBytes 4 0x10100000 ++ beBytes 4 0xFF ++ beBytes 4 7)
def wit173 : HReq :=
  { wPoke 0x10100000 0xFF 7 with tail := (wPoke 0x10100000 0xFF 7).tail.map (~~~ ·) }
def wit174 : State :=
  { wHmp with hmp.authSec := true }
def wit175 : HReq :=
  wAgain 10 0x0012 (beBytes 4 0x10100000 ++ beBytes 4 0xFF ++ beBytes 4 7)
def wit176 : State :=
  { wHmp with hmp.sess := [sK] }
def wit177 : HResp :=
  { op := 1, req := 77, status := 3, result := [1] }
def wit178 : State :=
  { wHmp with ret.reports := [{ kind := 1, tick := 2, data := [1, 2] }] }
def wit179 : State :=
  { wHmp with hmp.bulk := some 8 }
def wit180 : HReq :=
  wAsk 0x40 (beBytes 4 0 ++ beBytes 2 40)
def wit181 : State :=
  { wHmp with islView.audits := [List.replicate 48 1] }
def wit182 : HReq :=
  wAsk 0x10 (beBytes 4 0x50000124 ++ beBytes 2 1)
def wit183 : HReq :=
  wAsk 0x10 (beBytes 4 0 ++ beBytes 2 257)
def wit184 : State :=
  { wHmp with md.mode := .dormant }
def wit185 : HReq :=
  wAsk 34 ([2, 0, 0, 0] ++ beBytes 4 7 ++ beBytes 4 8)
def wit186 : State :=
  { wHmp with trial.st := .staged }
def wit187 : HReq :=
  wAsk 48 ([2, 0, 0, 0] ++ beBytes 4 64 ++ beBytes 4 0)
def wit188 : HReq :=
  { wAsk 0x30 ([2, 0, 0, 0] ++ beBytes 4 64 ++ beBytes 4 0) with flashOk := false }
def wit189 : HReq :=
  wAsk 49 ([2, 0, 0, 0] ++ beBytes 4 60 ++ [1, 2, 3, 4])
def wit190 : HReq :=
  wAsk 49 ([2, 0, 0, 0] ++ beBytes 4 61 ++ [1, 2, 3, 4])
def wit191 : State :=
  wWr { wW64 with hold := 3 } wZero
def wit192 : SlotWrite :=
  { wW64 with hold := 3 }
def wit193 : HReq :=
  wAsk 80 ([1, 3, 0, 0] ++ beBytes 4 4 ++ beBytes 32 5 ++ beBytes 4 6 ++ beBytes 32 7)
def wit194 : State :=
  { wHmp with hmp.sess := [wSess, { wSess with num := 6, inst := 1 }] }
def wit195 : State :=
  { wHmp with boot.custKey := 0 }
def wit196 : State :=
  { wDbg .hold with isl.tap := true }
def wit197 : State :=
  { wDbg .hold with isl.tap := false }
def wit198 : State :=
  { wDbg .hold with boot.debugLock := true }
def wit199 : State :=
  { wDbg .hold with dbg.busy := true }
def wit200 : State :=
  { wDbg .active with dbg.halted := 3, dbg.s0Only := true }
def wit201 : State :=
  { wDbg .active with dbg.halted := 3 }
def wit202 : State :=
  { wDbg .active with wd.c.en := true, wd.c.run := true, wd.c.per := 8 }
def wit203 : State :=
  { wDbg .active with dbg.pending := 2 }
def wit204 : State :=
  { wDbg .active with
    dbg.pending := 1,
    exe.strands := [(0, { phase := .verify, run := { opened := true, regs := { wRegs with lock := true } } })] }
def wit205 : State :=
  { wHold with md.mode := .standby }
def wit207 : State :=
  { wRm with bus.staged := List.replicate 8 { addr := 0x58000000, mask := 1, val := 2 } }
def wit209 : State :=
  { wHold with isl.st := .off }
def wit210 : State :=
  { wIsl .sealed with isl.ident := true }
def wit211 : State :=
  { wIsl .opened with isl.count := 255, isl.stParams := [(2, 5)] }
def wit212 : State :=
  { wIsl .opened with isl.stParams := [(2, 5)] }
def wit213 : State :=
  { wIsl .opened with isl.sealWord := {} }
def wit214 : State :=
  { wIsl .opened with
    isl.sealWord := {}, isl.upload := 1, isl.upTotal := 64, isl.upNext := 61, isl.upData := List.replicate 61 0 }
def wit215 : State :=
  wMsg 6 ([1, 0, 0, 0, 9, 0, 0, 0] ++ List.replicate 64 3) (wIsl .opened)
def wit216 : SluMsg :=
  { code := 6, lane := 0, seq := 0, data := [1, 0, 0, 0, 9, 0, 0, 0] ++ List.replicate 64 3 }
def wit217 : State :=
  wMsg 6 ([2, 0, 0, 0, 9, 0, 0, 0] ++ List.replicate 64 3) (wIsl .opened)
def wit218 : SluMsg :=
  { code := 6, lane := 0, seq := 0, data := [2, 0, 0, 0, 9, 0, 0, 0] ++ List.replicate 64 3 }
def wit219 : State :=
  { wIsl .sealed with isl.hold := [{ code := 0x82, lane := 0, seq := 0, data := [] }] }
def wit220 : SluMsg :=
  { code := 0x82, lane := 0, seq := 0, data := [] }
def wit221 : State :=
  { wIsl .opened with isl.fwRun := 1 }
def wit222 : Instant :=
  { raw0 := 5, raw1 := 6, raw2 := 7, raw3 := 8, faults := 2, temp := 20 }
def wit223 : SluMsg :=
  { code := 2, lane := 0, seq := 0, data := [0, 0, 0, 0] }
def wit224 : State :=
  wMsg 2 [0, 0, 0, 0] { wIsl .sealed with slu.oper := false }
def wit225 : LegalReq :=
  { code := 1, data := [1, 0, 0, 0, 2, 0, 0, 0], arrival := 0 }
def wit226 : LegalReq :=
  { code := 2, data := [1, 0, 0, 0], arrival := 3900 }
def wit227 : LegalReq :=
  { code := 2, data := [1, 0, 0, 0], arrival := 900 }
def wit228 : LegalReq :=
  { code := 2, data := [0, 0, 0, 0], arrival := 3900 }
def wit229 : LegalReq :=
  { code := 3, data := [], arrival := 3900 }
def wit230 : State :=
  { wIsl .sealed with isl.lanes := [(0, { t := 5 })] }
def wit231 : LegalReq :=
  { code := 2, data := [1, 0, 0, 0], arrival := 2019 }
def wit232 : LegalReq :=
  { code := 2, data := [1, 0, 0, 0], arrival := 2020 }
def wit233 : SluMsg :=
  { code := 0x81, lane := 0, seq := 0, data := [1] }
def wit234 : SluMsg :=
  { code := 0x81, lane := 8, seq := 0, data := [1] }
def wit235 : SluMsg :=
  { code := 0x82, lane := 8, seq := 0, data := [1] }
def wit236 : State :=
  wUp 0x83 8 (1 :: List.replicate 103 1)
def wit237 : SluMsg :=
  { code := 0x83, lane := 8, seq := 0, data := 1 :: List.replicate 103 1 }
def wit238 : BagReq :=
  { id := 1, expected := 5, start := 0, base := 0 }
def wit239 : State :=
  { wIsl .sealed with
    isl.lanes := [(0, { zeroReq := false, invalid := false, price := 199, hist := List.replicate 15 1000 })] }

/-! ## Sealed requests

A request sealed as its session seals meets `Asks` once the rest does; no tag is computed. -/

/-- The request carries the tag that its session gives it. -/
def Tagged (r : HReq) (opn : Nat) (args : List Byte) (x : HSess) : Prop :=
  r.tail = gcmTag (x.key.take 16) ((x.key.drop 32).take 4 ++ beBytes 8 r.hd.counter.toNat) r.hd.bytes
    (gcmCtr (x.key.take 16) ((x.key.drop 32).take 4 ++ beBytes 8 r.hd.counter.toNat) (r.body opn args))

theorem tagged_sealed {r : HReq} {opn : Nat} {args : List Byte} {x : HSess} (hb : r.bulk = false) (h : Tagged r opn args x) :
    r.sealed x (r.body opn args) = true := by
  rw [HReq.sealed, hb]
  exact beq_iff_eq.2 h

theorem tagged_good {r : HReq} {opn : Nat} {args : List Byte} {x : HSess} (h : Tagged r opn args x) (hk : x.key.length = 48)
    (hg : (r.hd.magic == 0x484D && r.hd.version == 1 && r.hd.zero == 0 && r.hd.length.toNat == (r.body opn args).length
      && decide ((r.body opn args).length ≤ 1152)) = true) : hdrGood r.hd false false (r.body opn args) r.tail = true := by
  have hl : r.tail.length = 16 := by
    rw [h]
    exact gcmTag_length _ _ (by simp [hk]) (by simp [hk, beBytes])
  simp only [hdrGood, hl]
  simpa using hg

theorem asks {r : HReq} {opn : Nat} {args : List Byte} {x : HSess} {s : State} (h : Tagged r opn args x)
    (hd : servesHmp r.hd false s = true ∧ s.boot.recovery = false ∧ r.bulk = false ∧ r.hd.kind = 3 ∧ x.key.length = 48 ∧
      (r.hd.magic == 0x484D && r.hd.version == 1 && r.hd.zero == 0 && r.hd.length.toNat == (r.body opn args).length
        && decide ((r.body opn args).length ≤ 1152)) = true ∧ r.formed = true ∧ hSess s r.hd.session.toNat = some x ∧
      x.top < r.hd.counter.toNat ∧ ∀ k ∈ x.kept, k.req ≠ r.reqId.toNat) : Asks r opn args x s :=
  have ⟨h1, h2, h3, h4, h5, h6, h7, h8, h9, h10⟩ := hd
  ⟨h1, h2, h3, h4, tagged_good h h5 h6, tagged_sealed h3 h, h7, h8, h9, h10⟩

theorem wAsk_tagged (opn : Nat) (args : List Byte) (flags : BitVec 16) : Tagged (wAsk opn args flags) opn args wSess := by
  simp [Tagged, wAsk, HReq.body]
theorem wAgain_tagged (counter : BitVec 64) (opn : Nat) (args : List Byte) :
    Tagged (wAgain counter opn args) opn args wSess := by
  simp [Tagged, wAgain, wAsk, HReq.body]
theorem tagged_flash {r : HReq} {opn : Nat} {args : List Byte} {x : HSess} (h : Tagged r opn args x) (b : Bool) :
    Tagged { r with flashOk := b } opn args x := h

theorem flipped_unsealed {r : HReq} {opn : Nat} {args : List Byte} {x : HSess} (h : Tagged r opn args x) (hb : r.bulk = false)
    (hk : x.key.length = 48) :
    ({ r with tail := r.tail.map (~~~ ·) } : HReq).sealed x (({ r with tail := r.tail.map (~~~ ·) } : HReq).body opn args) = false := by
  have hl : r.tail.length = 16 := by
    rw [h]
    exact gcmTag_length _ _ (by simp [hk]) (by simp [hk, beBytes])
  have ne : ∀ b : Byte, ~~~b ≠ b := by decide
  simp only [HReq.sealed, hb]
  rw [beq_eq_false_iff_ne]
  intro e
  have e : r.tail.map (~~~ ·) = r.tail := e.trans h.symm
  revert e hl
  cases r.tail with
  | nil => simp
  | cons b l => exact fun _ e => ne b (List.cons.inj e).1

/-! ## Hypotheses that a machine decides -/

theorem witness_FaultEvents :
    (classOf 514 = 70 ∧ wit0.md.mode = Mode.thread ∧ wit0.md.fault = false) ∧
    (classOf 514 = 70 ∧ wActive.md.mode ≠ Mode.thread) ∧
    (classOf 513 ≠ 70) := by
  refine ⟨?_, ?_, ?_⟩ <;> decide +kernel

theorem witness_IdleStep :
    wHold.pending = [] := by
  decide +kernel

theorem witness_LogAppends :
    (wit2.evt.secCount < 100 ∧ 1 ≠ (wit2.ret.evtSeq + 1) % 2 ^ 32 % 4096) ∧
    (100 ≤ wit3.evt.secCount) := by
  refine ⟨?_, ?_⟩ <;> decide +kernel

theorem witness_StepRunsFront :
    wit4.pending = [Instr.rtcLoad] := by
  decide +kernel

theorem witness_BitInstructions_1 :
    (Takes (Who.pipe 0) 1 3 2097157 (Cx.strand 0) wPipe) ∧
    (Takes (Who.pipe 0) 2 3 2097157 (Cx.strand 0) wPipe) ∧
    (Takes (Who.pipe 0) 3 3 2097157 (Cx.strand 0) wPipe) ∧
    (Takes (Who.pipe 0) 4 3 2097157 (Cx.strand 0) wPipe) ∧
    (Takes (Who.pipe 0) 5 3 2097157 (Cx.strand 0) wPipe) ∧
    (Takes (Who.pipe 0) 6 0 0 (Cx.strand 0) wPipe ∧ (regsOf (Cx.strand 0) wPipe).stack = [true, false]) ∧
    (Takes (Who.pipe 0) 7 0 0 (Cx.strand 0) wPipe ∧ (regsOf (Cx.strand 0) wPipe).stack = [true, false]) ∧
    (Takes (Who.pipe 0) 8 0 0 (Cx.strand 0) wPipe) ∧
    (Takes (Who.pipe 0) 9 1 10489855 (Cx.strand 0) wPipe) ∧
    (Takes (Who.pipe 0) 10 1 2097157 (Cx.strand 0) wPipe) := by
  delta Takes; refine ⟨?_, ?_, ?_, ?_, ?_, ?_, ?_, ?_, ?_, ?_⟩ <;> decide +kernel

theorem witness_BitInstructions_2 :
    (Takes (Who.pipe 0) 11 1 2097157 (Cx.strand 0) wPipe) ∧
    (Takes (Who.pipe 0) 12 0 2097157 (Cx.strand 0) wPipe) ∧
    (Takes (Who.pipe 0) 13 0 2097157 (Cx.strand 0) wPipe) ∧
    (Takes (Who.pipe 0) 1 3 2097157 Cx.task wTask) ∧
    (Takes Who.trial 1 3 2097157 Cx.tstrand wTrial) := by
  delta Takes; refine ⟨?_, ?_, ?_, ?_, ?_⟩ <;> decide +kernel

theorem witness_WordInstructions_1 :
    (Takes (Who.pipe 0) 24 0 3145735 (Cx.strand 0) wPipe) ∧
    (Takes (Who.pipe 0) 25 0 3145735 (Cx.strand 0) wPipe) ∧
    (Takes (Who.pipe 0) 26 0 3145735 (Cx.strand 0) wPipe) ∧
    (Takes (Who.pipe 0) 27 0 3145735 (Cx.strand 0) wPipe) ∧
    (Takes (Who.pipe 0) 28 0 0 (Cx.strand 0) wPipe) ∧
    (Takes (Who.pipe 0) 29 0 3145735 (Cx.strand 0) wPipe) ∧
    (Takes (Who.pipe 0) 30 0 3145735 (Cx.strand 0) wPipe) ∧
    (Takes (Who.pipe 0) 31 0 3145735 (Cx.strand 0) wPipe) ∧
    (Takes (Who.pipe 0) 32 0 3145735 (Cx.strand 0) wPipe) ∧
    (Takes (Who.pipe 0) 33 0 3145735 (Cx.strand 0) wPipe) := by
  delta Takes; refine ⟨?_, ?_, ?_, ?_, ?_, ?_, ?_, ?_, ?_, ?_⟩ <;> decide +kernel

theorem witness_WordInstructions_2 :
    (Takes (Who.pipe 0) 34 0 3145735 (Cx.strand 0) wPipe) ∧
    (Takes (Who.pipe 0) 35 0 3145735 (Cx.strand 0) wPipe) ∧
    (Takes (Who.pipe 0) 36 0 3145735 (Cx.strand 0) wPipe) ∧
    (Takes (Who.pipe 0) 37 0 3145735 (Cx.strand 0) wPipe) ∧
    (Takes (Who.pipe 0) 39 0 3145735 (Cx.strand 0) wPipe) ∧
    (Takes (Who.pipe 0) 40 0 3145735 (Cx.strand 0) wPipe) ∧
    (Takes (Who.pipe 0) 41 0 3145735 (Cx.strand 0) wPipe) ∧
    (Takes (Who.pipe 0) 42 0 3145735 (Cx.strand 0) wPipe) ∧
    (Takes (Who.pipe 0) 43 0 3145735 (Cx.strand 0) wPipe) ∧
    (Takes (Who.pipe 0) 24 2 8388608 (Cx.strand 0) wPipe) := by
  delta Takes; refine ⟨?_, ?_, ?_, ?_, ?_, ?_, ?_, ?_, ?_, ?_⟩ <;> decide +kernel

theorem witness_WordInstructions_3 :
    (Takes (Who.pipe 0) 25 2 8388608 (Cx.strand 0) wPipe) ∧
    (Takes (Who.pipe 0) 29 2 8388608 (Cx.strand 0) wPipe) ∧
    (Takes (Who.pipe 0) 30 2 8388608 (Cx.strand 0) wPipe) ∧
    (Takes (Who.pipe 0) 31 2 8388608 (Cx.strand 0) wPipe) ∧
    (Takes (Who.pipe 0) 32 2 8388608 (Cx.strand 0) wPipe) ∧
    (Takes (Who.pipe 0) 33 2 8388608 (Cx.strand 0) wPipe) ∧
    (Takes (Who.pipe 0) 34 2 8388608 (Cx.strand 0) wPipe) ∧
    (Takes (Who.pipe 0) 35 2 8388608 (Cx.strand 0) wPipe) ∧
    (Takes (Who.pipe 0) 36 2 33 (Cx.strand 0) wPipe) ∧
    (Takes (Who.pipe 0) 37 2 33 (Cx.strand 0) wPipe) := by
  delta Takes; refine ⟨?_, ?_, ?_, ?_, ?_, ?_, ?_, ?_, ?_, ?_⟩ <;> decide +kernel

theorem witness_WordInstructions_4 :
    (Takes (Who.pipe 0) 39 3 8388608 (Cx.strand 0) wPipe) ∧
    (Takes (Who.pipe 0) 40 3 8388608 (Cx.strand 0) wPipe) ∧
    (Takes (Who.pipe 0) 41 3 8388608 (Cx.strand 0) wPipe) ∧
    (Takes (Who.pipe 0) 42 3 8388608 (Cx.strand 0) wPipe) ∧
    (Takes (Who.pipe 0) 43 3 8388608 (Cx.strand 0) wPipe) := by
  delta Takes; refine ⟨?_, ?_, ?_, ?_, ?_⟩ <;> decide +kernel

theorem witness_CounterInstructions :
    (Takes (Who.pipe 0) 19 1 5242887 (Cx.strand 0) wPipe) ∧
    (Takes (Who.pipe 0) 19 0 13631551 (Cx.strand 0) wPipe) ∧
    (Takes (Who.pipe 0) 20 1 5242887 (Cx.strand 0) wPipe) ∧
    (Takes (Who.pipe 0) 20 0 13631551 (Cx.strand 0) wPipe) ∧
    (Takes (Who.pipe 0) 21 1 5242887 (Cx.strand 0) wPipe) ∧
    (Takes (Who.pipe 0) 21 0 13631551 (Cx.strand 0) wPipe) ∧
    (Takes (Who.pipe 0) 22 2 5242887 (Cx.strand 0) wPipe) := by
  delta Takes; refine ⟨?_, ?_, ?_, ?_, ?_, ?_, ?_⟩ <;> decide +kernel

theorem witness_TimerInstructions_1 :
    (Takes (Who.pipe 0) 16 1 4194311 (Cx.strand 0) wPipe) ∧
    (Takes (Who.pipe 0) 17 1 4194311 (Cx.strand 0) wPipe) ∧
    (Takes (Who.pipe 0) 18 1 4194311 (Cx.strand 0) wPipe) ∧
    (0 < 5) ∧
    (0 < 5 ∧ wit12.running = false) ∧
    (0 < 5 ∧ wit11.running = true ∧ 7 - wit11.start < 5) ∧
    (0 < 5 ∧ wit11.running = true ∧ 5 ≤ 8 - wit11.start) ∧
    (0 < 5 ∧ wit13.inLast = true) ∧
    (0 < 5 ∧ wit12.inLast = false ∧ wit12.running = false) ∧
    (0 < 5 ∧ wit11.inLast = false ∧ wit11.running = true ∧ 7 - wit11.start < 5) := by
  delta Takes; refine ⟨?_, ?_, ?_, ?_, ?_, ?_, ?_, ?_, ?_, ?_⟩ <;> decide +kernel

theorem witness_TimerInstructions_2 :
    (0 < 5 ∧ wit11.inLast = false ∧ wit11.running = true ∧ 5 ≤ 8 - wit11.start) ∧
    (0 < 5 ∧ wit14.running = false ∧ (true = false ∨ wit14.inLast = true)) ∧
    (0 < 5 ∧ wit12.running = false ∧ (false = false ∨ wit12.inLast = true)) := by
  refine ⟨?_, ?_, ?_⟩ <;> decide +kernel

theorem witness_JumpAndLaneInstructions :
    (Takes (Who.pipe 0) 44 0 2 (Cx.strand 0) wPipe) ∧
    (Takes (Who.pipe 0) 45 1 2 (Cx.strand 0) wPipe) ∧
    (Takes (Who.pipe 0) 46 0 14745598 (Cx.strand 0) wPipe) ∧
    (Takes (Who.pipe 0) 47 0 12 (Cx.strand 0) wPipe) ∧
    (Takes (Who.pipe 0) 49 0 0 (Cx.strand 0) wPipe) ∧
    (Takes (Who.pipe 0) 50 0 0 (Cx.strand 0) wPipe) ∧
    (Takes (Who.pipe 0) 51 0 165 (Cx.strand 0) wPipe) ∧
    (Takes (Who.pipe 0) 61 0 0 (Cx.strand 0) wPipe) ∧
    (Takes (Who.pipe 0) 46 0 2162686 (Cx.strand 0) wPipe) := by
  delta Takes; refine ⟨?_, ?_, ?_, ?_, ?_, ?_, ?_, ?_, ?_⟩ <;> decide +kernel

theorem witness_DivisionAndImmediates :
    (Takes (Who.pipe 0) 32 2 8388608 (Cx.strand 0) wPipe) ∧
    ((2 : Word) ≠ (0 : Word) ∧ (¬((4294967289 : Word) = (2147483648 : Word) ∧ (2 : Word) = (4294967295 : Word)))) ∧
    ((1 : Word) ≠ (0 : Word) ∧ (¬((2147483648 : Word) = (2147483648 : Word) ∧ (1 : Word) = (4294967295 : Word)))) ∧
    (isLive (Cx.strand 0) = true ∧ pipeOf (Cx.strand 0) ∈ wit7.exe.divPipes) ∧
    (isLive Cx.task = true ∧ pipeOf Cx.task ∉ wTask.exe.divPipes) ∧
    (2 ≤ 2 ∧ (regsOf (Cx.strand 0) wPipe).lit = none) ∧
    (2 ≤ 3 ∧ (regsOf (Cx.strand 0) wit8).lit = some 5) ∧
    ((2 : Word) ≠ (0 : Word) ∧ (¬((7 : Word) = (2147483648 : Word) ∧ (2 : Word) = (4294967295 : Word))) ∧ (0 : ℤ) ≤
     BitVec.toInt (7 : Word)) ∧
    ((2 : Word) ≠ (0 : Word) ∧ (¬((4294967289 : Word) = (2147483648 : Word) ∧ (2 : Word) = (4294967295 : Word))) ∧
     BitVec.toInt (4294967289 : Word) ≤ (0 : ℤ)) := by
  delta Takes; refine ⟨?_, ?_, ?_, ?_, ?_, ?_, ?_, ?_, ?_⟩ <;> decide +kernel

theorem witness_MessageInstruction :
    (Takes (Who.pipe 0) 60 0 3145744 (Cx.strand 0) wPipe) ∧
    (Takes Who.trial 60 0 3145744 Cx.tstrand wTrial ∧ (¬isLive Cx.tstrand = true)) ∧
    (Takes (Who.pipe 0) 60 0 3145744 (Cx.strand 0) wit9 ∧ isLive (Cx.strand 0) = true ∧ (regsOf (Cx.strand 0) wit9).la
     = false) ∧
    (Takes (Who.pipe 0) 60 0 3145744 (Cx.strand 0) wPipe ∧ isLive (Cx.strand 0) = true ∧ (regsOf (Cx.strand 0)
     wPipe).la = true ∧ msgShapeOk (seeWord (Cx.strand 0) wPipe 3 (resolveIdx (xReg 3145744) (xOff 3145744) (regsOf
     (Cx.strand 0) wPipe).l)) (resolveIdx (xReg 3145744) (xOff 3145744) (regsOf (Cx.strand 0) wPipe).l) = false) ∧
    (Takes (Who.pipe 0) 60 0 3145744 (Cx.strand 0) (wMsgW 2 4) ∧ isLive (Cx.strand 0) = true ∧ (regsOf (Cx.strand 0)
     (wMsgW 2 4)).la = true ∧ msgShapeOk (seeWord (Cx.strand 0) (wMsgW 2 4) 3 (resolveIdx (xReg 3145744) (xOff
     3145744) (regsOf (Cx.strand 0) (wMsgW 2 4)).l)) (resolveIdx (xReg 3145744) (xOff 3145744) (regsOf (Cx.strand 0)
     (wMsgW 2 4)).l) = true ∧ (offerPkt (BitVec.toNat (seeWord (Cx.strand 0) (wMsgW 2 4) 3 (resolveIdx (xReg 3145744)
     (xOff 3145744) (regsOf (Cx.strand 0) (wMsgW 2 4)).l)) / 65536 % 2048) 54 false (kPacket (readPayload (Cx.strand
     0) (resolveIdx (xReg 3145744) (xOff 3145744) (regsOf (Cx.strand 0) (wMsgW 2 4)).l + 1) (ceilDiv (BitVec.toNat
     (seeWord (Cx.strand 0) (wMsgW 2 4) 3 (resolveIdx (xReg 3145744) (xOff 3145744) (regsOf (Cx.strand 0) (wMsgW 2
     4)).l)) % 65536) 4) (getWord (Cx.strand 0) 3 (resolveIdx (xReg 3145744) (xOff 3145744) (regsOf (Cx.strand 0)
     (wMsgW 2 4)).l) (wMsgW 2 4)).2).2 (BitVec.toNat (seeWord (Cx.strand 0) (wMsgW 2 4) 3 (resolveIdx (xReg 3145744)
     (xOff 3145744) (regsOf (Cx.strand 0) (wMsgW 2 4)).l)) / 65536 % 2048) (List.take (BitVec.toNat (seeWord
     (Cx.strand 0) (wMsgW 2 4) 3 (resolveIdx (xReg 3145744) (xOff 3145744) (regsOf (Cx.strand 0) (wMsgW 2 4)).l)) %
     65536) (readPayload (Cx.strand 0) (resolveIdx (xReg 3145744) (xOff 3145744) (regsOf (Cx.strand 0) (wMsgW 2 4)).l
     + 1) (ceilDiv (BitVec.toNat (seeWord (Cx.strand 0) (wMsgW 2 4) 3 (resolveIdx (xReg 3145744) (xOff 3145744)
     (regsOf (Cx.strand 0) (wMsgW 2 4)).l)) % 65536) 4) (getWord (Cx.strand 0) 3 (resolveIdx (xReg 3145744) (xOff
     3145744) (regsOf (Cx.strand 0) (wMsgW 2 4)).l) (wMsgW 2 4)).2).1)) (readPayload (Cx.strand 0) (resolveIdx (xReg
     3145744) (xOff 3145744) (regsOf (Cx.strand 0) (wMsgW 2 4)).l + 1) (ceilDiv (BitVec.toNat (seeWord (Cx.strand 0)
     (wMsgW 2 4) 3 (resolveIdx (xReg 3145744) (xOff 3145744) (regsOf (Cx.strand 0) (wMsgW 2 4)).l)) % 65536) 4)
     (getWord (Cx.strand 0) 3 (resolveIdx (xReg 3145744) (xOff 3145744) (regsOf (Cx.strand 0) (wMsgW 2 4)).l) (wMsgW 2
     4)).2).2).1 = Adm.accepted) ∧
    (Takes (Who.pipe 0) 60 0 3145744 (Cx.strand 0) (wMsgW 255 4) ∧ isLive (Cx.strand 0) = true ∧ (regsOf (Cx.strand 0)
     (wMsgW 255 4)).la = true ∧ msgShapeOk (seeWord (Cx.strand 0) (wMsgW 255 4) 3 (resolveIdx (xReg 3145744) (xOff
     3145744) (regsOf (Cx.strand 0) (wMsgW 255 4)).l)) (resolveIdx (xReg 3145744) (xOff 3145744) (regsOf (Cx.strand 0)
     (wMsgW 255 4)).l) = true ∧ (offerPkt (BitVec.toNat (seeWord (Cx.strand 0) (wMsgW 255 4) 3 (resolveIdx (xReg
     3145744) (xOff 3145744) (regsOf (Cx.strand 0) (wMsgW 255 4)).l)) / 65536 % 2048) 54 false (kPacket (readPayload
     (Cx.strand 0) (resolveIdx (xReg 3145744) (xOff 3145744) (regsOf (Cx.strand 0) (wMsgW 255 4)).l + 1) (ceilDiv
     (BitVec.toNat (seeWord (Cx.strand 0) (wMsgW 255 4) 3 (resolveIdx (xReg 3145744) (xOff 3145744) (regsOf (Cx.strand
     0) (wMsgW 255 4)).l)) % 65536) 4) (getWord (Cx.strand 0) 3 (resolveIdx (xReg 3145744) (xOff 3145744) (regsOf
     (Cx.strand 0) (wMsgW 255 4)).l) (wMsgW 255 4)).2).2 (BitVec.toNat (seeWord (Cx.strand 0) (wMsgW 255 4) 3
     (resolveIdx (xReg 3145744) (xOff 3145744) (regsOf (Cx.strand 0) (wMsgW 255 4)).l)) / 65536 % 2048) (List.take
     (BitVec.toNat (seeWord (Cx.strand 0) (wMsgW 255 4) 3 (resolveIdx (xReg 3145744) (xOff 3145744) (regsOf (Cx.strand
     0) (wMsgW 255 4)).l)) % 65536) (readPayload (Cx.strand 0) (resolveIdx (xReg 3145744) (xOff 3145744) (regsOf
     (Cx.strand 0) (wMsgW 255 4)).l + 1) (ceilDiv (BitVec.toNat (seeWord (Cx.strand 0) (wMsgW 255 4) 3 (resolveIdx
     (xReg 3145744) (xOff 3145744) (regsOf (Cx.strand 0) (wMsgW 255 4)).l)) % 65536) 4) (getWord (Cx.strand 0) 3
     (resolveIdx (xReg 3145744) (xOff 3145744) (regsOf (Cx.strand 0) (wMsgW 255 4)).l) (wMsgW 255 4)).2).1))
     (readPayload (Cx.strand 0) (resolveIdx (xReg 3145744) (xOff 3145744) (regsOf (Cx.strand 0) (wMsgW 255 4)).l + 1)
     (ceilDiv (BitVec.toNat (seeWord (Cx.strand 0) (wMsgW 255 4) 3 (resolveIdx (xReg 3145744) (xOff 3145744) (regsOf
     (Cx.strand 0) (wMsgW 255 4)).l)) % 65536) 4) (getWord (Cx.strand 0) 3 (resolveIdx (xReg 3145744) (xOff 3145744)
     (regsOf (Cx.strand 0) (wMsgW 255 4)).l) (wMsgW 255 4)).2).2).1 ≠ Adm.accepted) := by
  delta Takes; refine ⟨?_, ?_, ?_, ?_, ?_, ?_⟩ <;> decide +kernel

theorem witness_OutputAndLaneWords_1 :
    (Takes (Who.pipe 0) 53 1 1048581 (Cx.strand 0) wPipe) ∧
    (Takes (Who.pipe 0) 55 0 3 (Cx.strand 0) wPipe) ∧
    (Takes (Who.pipe 0) 62 0 0 (Cx.strand 0) wPipe) ∧
    (Takes (Who.pipe 0) 54 0 15 (Cx.strand 0) wPipe) ∧
    (Takes (Who.pipe 0) 56 0 15 (Cx.strand 0) wPipe) ∧
    (Takes (Who.pipe 0) 57 1 31 (Cx.strand 0) wPipe) ∧
    (Takes (Who.pipe 0) 58 1 10420225 (Cx.strand 0) wPipe) ∧
    (Takes (Who.pipe 0) 59 0 12517377 (Cx.strand 0) wPipe) ∧
    (Takes (Who.pipe 0) 53 1 1048581 (Cx.strand 0) wPipe ∧ isLive (Cx.strand 0) = true) ∧
    (Takes Who.trial 53 1 1048581 Cx.tstrand wTrial ∧ (¬isLive Cx.tstrand = true)) := by
  delta Takes; refine ⟨?_, ?_, ?_, ?_, ?_, ?_, ?_, ?_, ?_, ?_⟩ <;> decide +kernel

theorem witness_OutputAndLaneWords_2 :
    (Takes (Who.pipe 0) 55 0 3 (Cx.strand 0) wPipe ∧ isLive (Cx.strand 0) = true ∧ ((regsOf (Cx.strand 0) wPipe).l.toNat, 3 % 16) ∉ (setRegs (Cx.strand 0) { la := (regsOf (Cx.strand 0) (getWord (Cx.strand 0) 3 (15360 + 16 * (regsOf (Cx.strand 0) wPipe).l.toNat + 3 % 16) wPipe).2).la, stack := (regsOf (Cx.strand 0) (getWord (Cx.strand 0) 3 (15360 + 16 * (regsOf (Cx.strand 0) wPipe).l.toNat + 3 % 16) wPipe).2).stack, a := seeWord (Cx.strand 0) wPipe 3 (15360 + 16 * (regsOf (Cx.strand 0) wPipe).l.toNat + 3 % 16), b := (regsOf (Cx.strand 0) (getWord (Cx.strand 0) 3 (15360 + 16 * (regsOf (Cx.strand 0) wPipe).l.toNat + 3 % 16) wPipe).2).b, l := (regsOf (Cx.strand 0) (getWord (Cx.strand 0) 3 (15360 + 16 * (regsOf (Cx.strand 0) wPipe).l.toNat + 3 % 16) wPipe).2).l, pc := (regsOf (Cx.strand 0) (getWord (Cx.strand 0) 3 (15360 + 16 * (regsOf (Cx.strand 0) wPipe).l.toNat + 3 % 16) wPipe).2).pc, lock := (regsOf (Cx.strand 0) (getWord (Cx.strand 0) 3 (15360 + 16 * (regsOf (Cx.strand 0) wPipe).l.toNat + 3 % 16) wPipe).2).lock, lit := (regsOf (Cx.strand 0) (getWord (Cx.strand 0) 3 (15360 + 16 * (regsOf (Cx.strand 0) wPipe).l.toNat + 3 % 16) wPipe).2).lit } (getWord (Cx.strand 0) 3 (15360 + 16 * (regsOf (Cx.strand 0) wPipe).l.toNat + 3 % 16) wPipe).2).exe.taken) ∧
    (Takes (Who.pipe 0) 55 0 3 (Cx.strand 0) wit10 ∧ (¬isLive (Cx.strand 0) = true ∨ ((regsOf (Cx.strand 0) wit10).l.toNat, 3 % 16) ∈ (setRegs (Cx.strand 0) { la := (regsOf (Cx.strand 0) (getWord (Cx.strand 0) 3 (15360 + 16 * (regsOf (Cx.strand 0) wit10).l.toNat + 3 % 16) wit10).2).la, stack := (regsOf (Cx.strand 0) (getWord (Cx.strand 0) 3 (15360 + 16 * (regsOf (Cx.strand 0) wit10).l.toNat + 3 % 16) wit10).2).stack, a := seeWord (Cx.strand 0) wit10 3 (15360 + 16 * (regsOf (Cx.strand 0) wit10).l.toNat + 3 % 16), b := (regsOf (Cx.strand 0) (getWord (Cx.strand 0) 3 (15360 + 16 * (regsOf (Cx.strand 0) wit10).l.toNat + 3 % 16) wit10).2).b, l := (regsOf (Cx.strand 0) (getWord (Cx.strand 0) 3 (15360 + 16 * (regsOf (Cx.strand 0) wit10).l.toNat + 3 % 16) wit10).2).l, pc := (regsOf (Cx.strand 0) (getWord (Cx.strand 0) 3 (15360 + 16 * (regsOf (Cx.strand 0) wit10).l.toNat + 3 % 16) wit10).2).pc, lock := (regsOf (Cx.strand 0) (getWord (Cx.strand 0) 3 (15360 + 16 * (regsOf (Cx.strand 0) wit10).l.toNat + 3 % 16) wit10).2).lock, lit := (regsOf (Cx.strand 0) (getWord (Cx.strand 0) 3 (15360 + 16 * (regsOf (Cx.strand 0) wit10).l.toNat + 3 % 16) wit10).2).lit } (getWord (Cx.strand 0) 3 (15360 + 16 * (regsOf (Cx.strand 0) wit10).l.toNat + 3 % 16) wit10).2).exe.taken)) ∧
    (Takes (Who.pipe 0) 62 0 0 (Cx.strand 0) wPipe ∧ isLive (Cx.strand 0) = true ∧ (regsOf (Cx.strand 0) wPipe).la =
     true) ∧
    (Takes Who.trial 62 0 0 Cx.tstrand wTrial ∧ (¬isLive Cx.tstrand = true ∨ (regsOf Cx.tstrand wTrial).la = false)) := by
  delta Takes; refine ⟨?_, ?_, ?_, ?_⟩ <;> decide +kernel

theorem witness_MidNetworkWord :
    (Cx.strand 0 = Cx.task → wPipe.exe.tasks ≠ []) ∧ (Cx.strand 0 = Cx.ttask → wPipe.trial.tasks ≠ []) ∧ (↑(2 : ℕ) +
    (2 : ℤ)).toNat < netEnd (progOf (Cx.strand (0 : ℕ)) wPipe) (runOf (Cx.strand (0 : ℕ)) wPipe).net := by
  decide +kernel

theorem witness_BitOperandForms :
    ((¬(kindOf (xReg 8388615) = 0 ∧ wPipe.exe.noEdge = true))) ∧
    (kindOf (xReg 7) = 0 ∧ wit6.exe.noEdge = true) := by
  refine ⟨?_, ?_⟩ <;> decide +kernel

theorem witness_BitWriteReads :
    (2 ≤ 2 ∧ ((match Cx.strand 0 with | Cx.strand j => (strand j wPipe).run.fence | _ => false) = false)) ∧
    (0 ≤ 2 ∧ ((match Cx.strand 0 with | Cx.strand j => (strand j wSpec).run.fence | _ => false) = false)) ∧
    (0 ≤ 2 ∧ ((match Cx.strand 0 with | Cx.strand j => (strand j wPipe).run.fence | _ => false) = false) ∧ 285212672 ≠
     bitAddr 0 8191) := by
  refine ⟨?_, ?_, ?_⟩ <;> decide +kernel

theorem witness_WordWriteReads :
    (3 ≤ 3 ∧ ((match Cx.task with | Cx.strand j => (strand j wTask).run.fence | _ => false) = false)) ∧
    (1 ≤ 3 ∧ ((match Cx.strand 0 with | Cx.strand j => (strand j wPipe).run.fence | _ => false) = false)) ∧
    (2 ≤ 3 ∧ ((match Cx.strand 0 with | Cx.strand j => (strand j wPipe).run.fence | _ => false) = false)) := by
  refine ⟨?_, ?_, ?_⟩ <;> decide +kernel

theorem witness_WordStops :
    (pickCx (Who.pipe 0) wit15 = some (Cx.strand 0) ∧ haltBefore (Cx.strand 0) wit15 (pcOf (Cx.strand 0) wit15) = some
     (1, 4)) ∧
    (pickCx (Who.pipe 0) wit16 = some (Cx.strand 0) ∧ haltBefore (Cx.strand 0) wit16 (pcOf (Cx.strand 0) wit16) = none
     ∧ corrupt (Cx.strand 0) (pcOf (Cx.strand 0) wit16) (mkWord 1 0 2097157) wit16 = true ∧ isLive (Cx.strand 0) =
     true) ∧
    (pickCx (Who.pipe 0) wPipe = some (Cx.strand 0) ∧ haltBefore (Cx.strand 0) wPipe (pcOf (Cx.strand 0) wPipe) = none
     ∧ corrupt (Cx.strand 0) (pcOf (Cx.strand 0) wPipe) (mkWord 1 0 14680069) wPipe = true ∧ isLive (Cx.strand 0) =
     true) ∧
    (pickCx Who.trial wTrial = some Cx.tstrand ∧ haltBefore Cx.tstrand wTrial (pcOf Cx.tstrand wTrial) = none ∧
     corrupt Cx.tstrand (pcOf Cx.tstrand wTrial) (mkWord 1 0 14680069) wTrial = true ∧ isLive Cx.tstrand = false) := by
  refine ⟨?_, ?_, ?_, ?_⟩ <;> decide +kernel

theorem witness_NetOpens :
    (pickCx (Who.pipe 0) wSpec = some (Cx.strand 0) ∧ haltBefore (Cx.strand 0) wSpec (pcOf (Cx.strand 0) wSpec) = none
     ∧ corrupt (Cx.strand 0) (pcOf (Cx.strand 0) wSpec) (mkWord 48 0 1048576) wSpec = false ∧ (runOf (Cx.strand 0)
     wSpec).opened = false ∧ Cx.strand 0 = Cx.strand 0 ∧ BitVec.getLsbD (1048576 : BitVec (24 : ℕ)) (20 : ℕ) = true ∧
     (strand 0 wSpec).phase = Phase.spec) ∧
    (pickCx (Who.pipe 0) wAtNet = some (Cx.strand 0) ∧ haltBefore (Cx.strand 0) wAtNet (pcOf (Cx.strand 0) wAtNet) =
     none ∧ corrupt (Cx.strand 0) (pcOf (Cx.strand 0) wAtNet) (mkWord 48 0 1048576) wAtNet = false ∧ (runOf (Cx.strand
     0) wAtNet).opened = false ∧
     ((match Cx.strand (0 : ℕ) with | Cx.strand k => BitVec.getLsbD (1048576 : BitVec (24 : ℕ)) (20 : ℕ) && (strand k wAtNet).phase == Phase.spec | _ => false) = false)) ∧
    (pickCx (Who.pipe 0) wSpec = some (Cx.strand 0) ∧ haltBefore (Cx.strand 0) wSpec (pcOf (Cx.strand 0) wSpec) = none
     ∧ corrupt (Cx.strand 0) (pcOf (Cx.strand 0) wSpec) (mkWord 48 0 0) wSpec = false ∧ (runOf (Cx.strand 0)
     wSpec).opened = false ∧
     ((match Cx.strand (0 : ℕ) with | Cx.strand k => BitVec.getLsbD (0 : BitVec (24 : ℕ)) (20 : ℕ) && (strand k wSpec).phase == Phase.spec | _ => false) = false)) ∧
    (pickCx (Who.pipe 0) wit17 = some (Cx.strand 0) ∧ haltBefore (Cx.strand 0) wit17 (pcOf (Cx.strand 0) wit17) = none
     ∧ corrupt (Cx.strand 0) (pcOf (Cx.strand 0) wit17) (mkWord 48 0 0) wit17 = false ∧ (runOf (Cx.strand 0)
     wit17).opened = true ∧ pcOf (Cx.strand 0) wit17 = netStart (progOf (Cx.strand 0) wit17) (runOf (Cx.strand 0)
     wit17).net) := by
  refine ⟨?_, ?_, ?_, ?_⟩ <;> decide +kernel

theorem witness_BlockOutputs :
    (block 0 (wField wBlk)).powered = true := by
  decide +kernel

theorem witness_BlockInputs :
    ((block 0 (wField wBlk)).powered = true ∧ (block 0 (wField wBlk)).islandOk = true) ∧
    ((block 0 wit20).powered = true ∧ (block 0 wit20).settingsOk = true ∧ 8 ≤ 9 ∧ bitOf (block 0 wit20).raw 9 = true ∧
     max 1 (((block 0 wit20).filter 9 + 4) / 5) ≤ tget 0 (block 0 wit20).runs 9) ∧
    ((block 0 wit21).powered = true ∧ (block 0 wit21).settingsOk = true ∧ 8 ≤ 9 ∧ bitOf (block 0 wit21).raw 9 = true ∧
     max 1 (((block 0 wit21).filter 9 + 4) / 5) ≤ tget 0 (block 0 wit21).runs 9) ∧
    ((block 0 wit24).powered = true ∧ 7 < 8 ∧ (block 0 wit24).settingsOk = true ∧ 1000 ≤ 16000 ∧ 1000 * (block 0
     wit24).filter 7 ≤ 16000) ∧
    ((block 0 wit25).powered = true ∧ 7 < 8 ∧ (block 0 wit25).settingsOk = true ∧ 1000 ≤ 16000 ∧ 1000 * (block 0
     wit25).filter 7 ≤ 16000) ∧
    ((block 0 (wField wBlk)).powered = true ∧ 7 < 8 ∧ (block 0 (wField wBlk)).settingsOk = true ∧ 1000 ≤ 1000 ∧ 1000 *
     (block 0 (wField wBlk)).filter 7 ≤ 1000) ∧
    ((block 0 wit24).powered = true ∧ 7 < 8 ∧ (block 0 wit24).settingsOk = true ∧ 15999 < 1000 * (block 0
     wit24).filter 7) ∧
    ((block 0 wit26).powered = true ∧ 0 < 8 ∧ (block 0 wit26).settingsOk = false ∧ 1000 ≤ 1000) := by
  refine ⟨?_, ?_, ?_, ?_, ?_, ?_, ?_, ?_⟩ <;> decide +kernel

theorem witness_BlockOwnership_1 :
    ((block 0 wit22).counterOn = false) ∧
    ((block 0 (wField wBlk)).safeDue = false) ∧
    ((block 0 wit23).safeDue = true) ∧
    ((block 0 wit30).counterOn = true) ∧
    ((block 0 wit31).counterOn = true) ∧
    ((block 0 wit32).counterOn = true) ∧
    ((block 0 wit33).counterOn = true) ∧
    ((block 0 wit34).counterOn = true) ∧
    (wit35.fl.sweep = some wit36 ∧ (block 0 (feelLimit 0 wit35)).powered = true ∧ reached (myPort (feelLimit 0 wit35))
     0 (feelLimit 0 wit35) = true ∧ bitOf wit36.reached 0 = false ∧ (block 0 (feelLimit 0 wit35)).pos (myPort
     (feelLimit 0 wit35)) = some 0) ∧
    ((block 0 (feelLimit 0 (wField wBlk))).powered = true ∧ reached (3 - myPort (feelLimit 0 (wField wBlk))) 0
     (feelLimit 0 (wField wBlk)) = true ∧ (block 0 (feelLimit 0 (wField wBlk))).pos (3 - myPort (feelLimit 0 (wField
     wBlk))) = some 3) := by
  refine ⟨?_, ?_, ?_, ?_, ?_, ?_, ?_, ?_, ?_, ?_⟩ <;> decide +kernel

theorem witness_BlockOwnership_2 :
    ((wit37.port = 1 ∨ wit37.port = 2) ∧ wit37.good = false) ∧
    ((wit38.port = 1 ∨ wit38.port = 2) ∧ wit38.good = true ∧ wBlk.owner = wit38.port ∧ bitOf wit38.slot 10 = false ∧
     bitOf wit38.slot 9 = false) ∧
    ((wit39.port = 1 ∨ wit39.port = 2) ∧ wit39.good = true ∧ wBlk.owner = wit39.port ∧ bitOf wit39.slot 10 = false ∧
     bitOf wit39.slot 9 = true) ∧
    ((wit40.port = 1 ∨ wit40.port = 2) ∧ wit40.good = true ∧ wBlk.owner = wit40.port ∧ bitOf wit40.slot 10 = true) ∧
    ((wit41.port = 1 ∨ wit41.port = 2) ∧ wit41.good = true ∧ wBlk.owner ≠ wit41.port ∧ bitOf wit41.slot 8 = false) ∧
    ((wit43.port = 1 ∨ wit43.port = 2) ∧ wit43.good = true ∧ wit42.owner ≠ wit43.port ∧ bitOf wit43.slot 8 = true ∧
     (wit42.st ≠ BlkSt.unowned ∧ wit42.released = false ∧ (wit42.missed + if wit42.ownerTick = some wit43.tickLo then
     0 else 1) < 2)) ∧
    ((wit43.port = 1 ∨ wit43.port = 2) ∧ wit43.good = true ∧ wBlk.owner ≠ wit43.port ∧ bitOf wit43.slot 8 = true ∧
     (wBlk.st ≠ BlkSt.unowned ∧ wBlk.released = false ∧ (wBlk.missed + if wBlk.ownerTick = some wit43.tickLo then 0
     else 1) < 2)) ∧
    ((wit43.port = 1 ∨ wit43.port = 2) ∧ wit43.good = true ∧ wit44.owner ≠ wit43.port ∧ bitOf wit43.slot 8 = true ∧
     (¬(wit44.st ≠ BlkSt.unowned ∧ wit44.released = false ∧ (wit44.missed + if wit44.ownerTick = some wit43.tickLo
     then 0 else 1) < 2)) ∧ bitOf wit43.slot 10 = false ∧ bitOf wit43.slot 9 = false) ∧
    ((wit43.port = 1 ∨ wit43.port = 2) ∧ wit43.good = true ∧ wit45.owner ≠ wit43.port ∧ bitOf wit43.slot 8 = true ∧
     (¬(wit45.st ≠ BlkSt.unowned ∧ wit45.released = false ∧ (wit45.missed + if wit45.ownerTick = some wit43.tickLo
     then 0 else 1) < 2)) ∧ bitOf wit43.slot 10 = false ∧ bitOf wit43.slot 9 = false) ∧
    ((wit47.port = 1 ∨ wit47.port = 2) ∧ wit47.good = true ∧ wit46.owner ≠ wit47.port ∧ bitOf wit47.slot 8 = true ∧
     (¬(wit46.st ≠ BlkSt.unowned ∧ wit46.released = false ∧ (wit46.missed + if wit46.ownerTick = some wit47.tickLo
     then 0 else 1) < 2)) ∧ bitOf wit47.slot 10 = false ∧ bitOf wit47.slot 9 = true) := by
  refine ⟨?_, ?_, ?_, ?_, ?_, ?_, ?_, ?_, ?_, ?_⟩ <;> decide +kernel

theorem witness_BlockOwnership_3 :
    (wit43.port = 1 ∨ wit43.port = 2) ∧ wit43.good = true ∧ wit48.owner ≠ wit43.port ∧ bitOf wit43.slot 8 = true ∧
    (¬(wit48.st ≠ BlkSt.unowned ∧ wit48.released = false ∧ (wit48.missed + if wit48.ownerTick = some wit43.tickLo then
    0 else 1) < 2)) ∧ bitOf wit43.slot 10 = false ∧ bitOf wit43.slot 9 = false := by
  decide +kernel

theorem witness_EventQueue :
    (wBlk.queue.length ≤ 16 ∧ wBlk.queue.length < 16) ∧
    (wit27.queue.length ≤ 16 ∧ wit27.queue.length < 16) ∧
    (wit28.queue.length ≤ 16 ∧ wit28.queue.length = 16 ∧ (∃ f ∈ wit28.queue, f.pri = false)) ∧
    (wit29.queue.length ≤ 16 ∧ wit29.queue.length = 16 ∧ (∀ f ∈ wit29.queue, f.pri = true)) ∧
    (wit29.queue.length ≤ 16 ∧ wEv true 3 ∈ wit29.queue ∧ (wEv true 3).pri = true) ∧
    (wit28.queue.length ≤ 16 ∧ (List.Pairwise (fun f g ↦ g.pri = true → f.pri = true) wit28.queue)) := by
  refine ⟨?_, ?_, ?_, ?_, ?_, ?_⟩ <;> decide +kernel

theorem witness_BlockFrames_1 :
    (Meets 0 (myPort wit49) wit49 ∧ (block 0 wit49).pos (myPort wit49) = some 0 ∧ (block 0 wit49).queue = [wEv true 1] ∧ (block 0 wit49).st = BlkSt.owned ∧ (block 0 wit49).owner = myPort wit49 ∧ wit49.fl.carrier = some { k := 0 } ∧ bitOf { k := (0 : ℕ) : Carrier }.passed (0 : ℕ) = false ∧ { k := (0 : ℕ) : Carrier }.bad = false) ∧
    (Meets 0 (3 - myPort wit50) wit50 ∧ (block 0 wit50).queue = [wEv true 1] ∧ (block 0 wit50).st = BlkSt.owned ∧
     (block 0 wit50).owner = 3 - myPort wit50) ∧
    (Meets 0 (myPort wit51) wit51 ∧ wit51.fl.fly = [{ fb := 0, mask := 240, val := 160 }] ∧ { fb := (0 : ℕ), mask := (240 : ℕ), val := (160 : ℕ) : Urgent }.fb = (0 : ℕ) ∧ { fb := (0 : ℕ), mask := (240 : ℕ), val := (160 : ℕ) : Urgent }.applied = false ∧ { fb := (0 : ℕ), mask := (240 : ℕ), val := (160 : ℕ) : Urgent }.bad = false ∧ (block 0 wit51).owner = myPort wit51) ∧
    (Meets 0 (3 - myPort wit52) wit52 ∧ (block 0 wit52).owner = 3 - myPort wit52) ∧
    (((0 + 1 == myPort wit53) = true → setupTime wit53 = true) ∧ (block 0 wit53).powered = true ∧ reached (0 + 1) 0
     wit53 = true ∧ 15 < 16) ∧
    (((0 + 1 == myPort wit53) = true → setupTime wit53 = true) ∧ (block 0 wit53).powered = true ∧ reached (0 + 1) 0
     wit53 = true ∧ 16 ≤ 16) ∧
    (((1 + 1 == myPort (wField wBlk)) = true → setupTime (wField wBlk) = true) ∧ (block 0 (wField wBlk)).powered =
     true ∧ reached (1 + 1) 0 (wField wBlk) = true ∧ 0 < 16) ∧
    ((0 + 1 == myPort wit53) = true ∧ setupTime wit53 = true ∧ Meets 0 (0 + 1) wit53 ∧ (block 0 wit53).pos (0 + 1) =
     some 0) ∧
    (((0 + 1 == myPort (wField wBlk)) = true → mgmtStart (wField wBlk) 3200 768 = true) ∧ Meets 0 (0 + 1) (feelLimit 0 (if 0 + 1 = myPort (wField wBlk) then { clk := (wField wBlk).clk, md := (wField wBlk).md, ring := (wField wBlk).ring, exe := (wField wBlk).exe, trial := (wField wBlk).trial, boot := (wField wBlk).boot, img := (wField wBlk).img, evt := (wField wBlk).evt, ret := (wField wBlk).ret, rtc := (wField wBlk).rtc, bus := (wField wBlk).bus, dbg := (wField wBlk).dbg, fl := { found := (wField wBlk).fl.found, n := (wField wBlk).fl.n, rtt := (wField wBlk).fl.rtt, foreign := (wField wBlk).fl.foreign, blocks := (wField wBlk).fl.blocks, align := (wField wBlk).fl.align, slots := (wField wBlk).fl.slots, known := (wField wBlk).fl.known, fresh := (wField wBlk).fl.fresh, owned := (wField wBlk).fl.owned, seenOwn := (wField wBlk).fl.seenOwn, seenForeign := (wField wBlk).fl.seenForeign, told := (wField wBlk).fl.told, lostRun := (wField wBlk).fl.lostRun, sweepBad := (wField wBlk).fl.sweepBad, carrierBad := (wField wBlk).fl.carrierBad, urgentBad := (wField wBlk).fl.urgentBad, unknownFt := (wField wBlk).fl.unknownFt, strangers := (wField wBlk).fl.strangers, strangerLast := (wField wBlk).fl.strangerLast, rttSeen := (wField wBlk).fl.rttSeen, sweep := (wField wBlk).fl.sweep, carrier := (wField wBlk).fl.carrier, urg := (wField wBlk).fl.urg, fly := (wField wBlk).fl.fly, refused := (wField wBlk).fl.refused, relAll := (wField wBlk).fl.relAll, claimed := (wField wBlk).fl.claimed, reply := (wField wBlk).fl.reply, reams := (wField wBlk).fl.reams, busyTill := 3200 + 768, left := (wField wBlk).fl.left, access := (wField wBlk).fl.access }, sw := (wField wBlk).sw, lanes := (wField wBlk).lanes, engs := (wField wBlk).engs, cv := (wField wBlk).cv, klp := (wField wBlk).klp, felt := (wField wBlk).felt, nego := (wField wBlk).nego, slu := (wField wBlk).slu, isl := (wField wBlk).isl, islView := (wField wBlk).islView, bags := (wField wBlk).bags, keys := (wField wBlk).keys, guard := (wField wBlk).guard, wd := (wField wBlk).wd, hmp := (wField wBlk).hmp, free := (wField wBlk).free, pending := (wField wBlk).pending } else wField wBlk))) ∧
    (((1 + 1 == myPort (wField wBlk)) = true → mgmtStart (wField wBlk) 0 768 = true) ∧ Meets 0 (1 + 1) (feelLimit 0 (if 1 + 1 = myPort (wField wBlk) then { clk := (wField wBlk).clk, md := (wField wBlk).md, ring := (wField wBlk).ring, exe := (wField wBlk).exe, trial := (wField wBlk).trial, boot := (wField wBlk).boot, img := (wField wBlk).img, evt := (wField wBlk).evt, ret := (wField wBlk).ret, rtc := (wField wBlk).rtc, bus := (wField wBlk).bus, dbg := (wField wBlk).dbg, fl := { found := (wField wBlk).fl.found, n := (wField wBlk).fl.n, rtt := (wField wBlk).fl.rtt, foreign := (wField wBlk).fl.foreign, blocks := (wField wBlk).fl.blocks, align := (wField wBlk).fl.align, slots := (wField wBlk).fl.slots, known := (wField wBlk).fl.known, fresh := (wField wBlk).fl.fresh, owned := (wField wBlk).fl.owned, seenOwn := (wField wBlk).fl.seenOwn, seenForeign := (wField wBlk).fl.seenForeign, told := (wField wBlk).fl.told, lostRun := (wField wBlk).fl.lostRun, sweepBad := (wField wBlk).fl.sweepBad, carrierBad := (wField wBlk).fl.carrierBad, urgentBad := (wField wBlk).fl.urgentBad, unknownFt := (wField wBlk).fl.unknownFt, strangers := (wField wBlk).fl.strangers, strangerLast := (wField wBlk).fl.strangerLast, rttSeen := (wField wBlk).fl.rttSeen, sweep := (wField wBlk).fl.sweep, carrier := (wField wBlk).fl.carrier, urg := (wField wBlk).fl.urg, fly := (wField wBlk).fl.fly, refused := (wField wBlk).fl.refused, relAll := (wField wBlk).fl.relAll, claimed := (wField wBlk).fl.claimed, reply := (wField wBlk).fl.reply, reams := (wField wBlk).fl.reams, busyTill := 0 + 768, left := (wField wBlk).fl.left, access := (wField wBlk).fl.access }, sw := (wField wBlk).sw, lanes := (wField wBlk).lanes, engs := (wField wBlk).engs, cv := (wField wBlk).cv, klp := (wField wBlk).klp, felt := (wField wBlk).felt, nego := (wField wBlk).nego, slu := (wField wBlk).slu, isl := (wField wBlk).isl, islView := (wField wBlk).islView, bags := (wField wBlk).bags, keys := (wField wBlk).keys, guard := (wField wBlk).guard, wd := (wField wBlk).wd, hmp := (wField wBlk).hmp, free := (wField wBlk).free, pending := (wField wBlk).pending } else wField wBlk))) := by
  delta Meets; refine ⟨?_, ?_, ?_, ?_, ?_, ?_, ?_, ?_, ?_, ?_⟩ <;> decide +kernel

theorem witness_BlockFrames_2 :
    (((0 + 1 == myPort wit54) = true → mgmtStart wit54 3200 768 = true) ∧ Meets 0 (0 + 1) wit54 ∧ (16 : Byte) = (16 :
     Byte) ∧ (block 0 wit54).owner = 0 + 1) ∧
    (((1 + 1 == myPort wit54) = true → mgmtStart wit54 0 768 = true) ∧ Meets 0 (1 + 1) wit54 ∧ ((16 : Byte) ≠ (16 :
     Byte) ∨ (block (0 : ℕ) wit54).owner ≠ (1 : ℕ) + (1 : ℕ))) ∧
    (((0 + 1 == myPort (wField wBlk)) = true → mgmtStart (wField wBlk) 3200 768 = true) ∧ Meets 0 (0 + 1) (wField
     wBlk) ∧ ((20 : Byte) ≠ (16 : Byte) ∨ (block (0 : ℕ) (wField wBlk)).owner ≠ (0 : ℕ) + (1 : ℕ))) ∧
    (((0 + 1 == myPort wit53) = true → setupTime wit53 = true) ∧ Meets 0 (0 + 1) wit53 ∧ ((block 0 wit53).owner = 0 ∨
     (block 0 wit53).owner = 0 + 1) ∧ 3 ≤ 3 ∧ 63 ≤ 63 ∧ settingsValid (List.replicate 80 0) = true) ∧
    (((1 + 1 == myPort wit52) = true → setupTime wit52 = true) ∧ Meets 0 (1 + 1) wit52 ∧ ((block 0 wit52).owner = 0 ∨
     (block 0 wit52).owner = 1 + 1) ∧ 0 ≤ 3 ∧ 0 ≤ 63 ∧ settingsValid wit55 = true) ∧
    (((1 + 1 == myPort (wField wBlk)) = true → setupTime (wField wBlk) = true) ∧ Meets 0 (1 + 1) (wField wBlk) ∧
     ((block 0 (wField wBlk)).owner ≠ 0 ∧ (block 0 (wField wBlk)).owner ≠ 1 + 1 ∨ 3 < 3 ∨ 63 < 63 ∨ settingsValid
     (List.replicate 80 0) = false)) ∧
    (((0 + 1 == myPort wit53) = true → setupTime wit53 = true) ∧ Meets 0 (0 + 1) wit53 ∧ ((block 0 wit53).owner ≠ 0 ∧
     (block 0 wit53).owner ≠ 0 + 1 ∨ 3 < 4 ∨ 63 < 63 ∨ settingsValid (List.replicate 80 0) = false)) ∧
    (((0 + 1 == myPort wit53) = true → setupTime wit53 = true) ∧ Meets 0 (0 + 1) wit53 ∧ ((block 0 wit53).owner ≠ 0 ∧
     (block 0 wit53).owner ≠ 0 + 1 ∨ 3 < 3 ∨ 63 < 64 ∨ settingsValid (List.replicate 80 0) = false)) ∧
    (((0 + 1 == myPort wit53) = true → setupTime wit53 = true) ∧ Meets 0 (0 + 1) wit53 ∧ ((block 0 wit53).owner ≠ 0 ∧
     (block 0 wit53).owner ≠ 0 + 1 ∨ 3 < 3 ∨ 63 < 63 ∨ settingsValid [] = false)) ∧
    ((1 + 1 == myPort wit52) = false ∧ Meets 0 (1 + 1) wit52 ∧ (block 0 wit52).pos (1 + 1) = some 3 ∧ BitVec.getLsbD
     (65535 : BitVec (16 : ℕ)) (3 : ℕ) = true ∧ (block 0 wit52).owner = 1 + 1) := by
  delta Meets; refine ⟨?_, ?_, ?_, ?_, ?_, ?_, ?_, ?_, ?_, ?_⟩ <;> decide +kernel

theorem witness_BlockFrames_3 :
    (0 + 1 == myPort wit56) = true ∧ Meets 0 (0 + 1) wit56 ∧ (block 0 wit56).pos (0 + 1) = some 0 ∧ bitOf 1 0 = true ∧
    (block 0 wit56).owner = 0 + 1 ∧ wit56.fl.reams = [wit58] ∧ wit58.mask = 1 ∧ wit58.data = wit57 ∧ wit58.start =
    none ∧ wit58.bad = false ∧ mgmtStart wit56 3200 896 = true := by
  delta Meets; decide +kernel

theorem witness_LinkController_1 :
    (wit59.fl.n ≠ 0 ∧ 37 < carrierCount wit59.clk.tickSel ∧ carriersRun wit59 = true) ∧
    (wit60.fl.n ≠ 0 ∧ 0 < carrierCount wit60.clk.tickSel ∧ carriersRun wit60 = true) ∧
    (wit61.fl.carrier = some { k := 0 } ∧ knownFt 31 = false) ∧
    (wit61.fl.carrier = some { k := 0 } ∧ knownFt 192 = true ∧ (false = false ∨ { k := (0 : ℕ) : Carrier }.bad = true ∨ (192 : ℕ) ≠ (192 : ℕ) + { k := (0 : ℕ) : Carrier }.k)) ∧
    (wit61.fl.carrier = some { k := 0 } ∧ knownFt 193 = true ∧ (true = false ∨ { k := (0 : ℕ) : Carrier }.bad = true ∨ (193 : ℕ) ≠ (192 : ℕ) + { k := (0 : ℕ) : Carrier }.k)) ∧
    (wit61.fl.carrier = some { k := 0 } ∧ knownFt 192 = true ∧ { k := (0 : ℕ) : Carrier }.bad = false ∧ (192 : ℕ) = (192 : ℕ) + { k := (0 : ℕ) : Carrier }.k) ∧
    ((absorbQimm wit62).fl.urg = [{ fb := 0, mask := 1, val := 1 }] ∧ wit62.md.mode = Mode.active ∧ mayStart (absorbQimm wit62) 3200 384 = true) ∧
    (mayStart (absorbQimm wit62) 99999 384 = false) ∧
    (wit63.fl.fly = [wit64] ∧ knownFt 95 = false) ∧
    (wit63.fl.fly = [wit64] ∧ wit64.applied = true ∧ wit64.bad = false ∧ 96 = 96 + posOf wit63 wit64.fb ∧ knownFt 96 =
     true) := by
  refine ⟨?_, ?_, ?_, ?_, ?_, ?_, ?_, ?_, ?_, ?_⟩ <;> decide +kernel

theorem witness_LinkController_2 :
    (wit63.fl.fly = [wit64] ∧ knownFt 96 = true ∧ (wit64.applied = false ∨ wit64.bad = true ∨ false = false)) ∧
    (wit65.fl.sweep = some wit66 ∧ knownFt 31 = false) ∧
    (wit65.fl.sweep = some wit66 ∧ wit66.measure = false ∧ wit66.bad = false ∧ wit65.md.mode ≠ Mode.thread ∧ 2000 ≤
     wit65.fl.rtt + 2000) ∧
    (wit65.fl.sweep = some wit66 ∧ wit66.measure = false ∧ knownFt 16 = true ∧ (true = false ∨ wit66.bad = true ∨ (16
     : Byte) ≠ (16 : Byte) ∨ wit65.fl.rtt + (2000 : ℕ) < (2001 : ℕ))) ∧
    (wit65.fl.sweep = some wit66 ∧ wit66.measure = false ∧ knownFt 16 = true ∧ (false = false ∨ wit66.bad = true ∨ (16
     : Byte) ≠ (16 : Byte) ∨ wit65.fl.rtt + (2000 : ℕ) < (500 : ℕ))) ∧
    (wit65.fl.sweep = some wit66 ∧ wit66.measure = false ∧ knownFt 96 = true ∧ (true = false ∨ wit66.bad = true ∨ (96
     : Byte) ≠ (16 : Byte) ∨ wit65.fl.rtt + (2000 : ℕ) < (500 : ℕ))) ∧
    (wit65.fl.sweep = some wit66 ∧ wit66.measure = false) ∧
    (wit67.md.mode ≠ Mode.thread ∧ wit67.fl.lostRun < 15 ∧ wit67.fl.lostRun + 1 = lossLimit wit67) ∧
    (wit68.md.mode ≠ Mode.thread ∧ wit68.fl.lostRun < 15) ∧
    (wit65.md.mode ≠ Mode.thread ∧ wit65.fl.lostRun < 15 ∧ wit65.fl.lostRun + 1 ≠ lossLimit wit65) := by
  refine ⟨?_, ?_, ?_, ?_, ?_, ?_, ?_, ?_, ?_, ?_⟩ <;> decide +kernel

theorem witness_ClockCommands_1 :
    (wit69.rtc.cal + 1 = calEnd) ∧
    (wit73.rtc.polling = true ∧ sntpUsable wit74 = true ∧ wit73.rtc.valid = false) ∧
    (wit73.rtc.polling = true ∧ sntpUsable wit75 = false) ∧
    (wTime.md.mode ≠ Mode.backup) ∧
    (wit76.clk.tick % ticksPerSec wit76 = 0 ∧ wit76.evt.secLost ≠ 0) ∧
    ((almMatches (almWord almS 1) almS.rtc.cal = false ∨ bitOf almS.rtc.now 1 = true)) ∧
    ((almMatches (almWord wit77 0) wit77.rtc.cal = false ∨ bitOf wit77.rtc.now 0 = true)) ∧
    (almMatches (almWord almS 0) almS.rtc.cal = true ∧ bitOf almS.rtc.now 0 = false ∧ almS.rtc.onVbak = true) ∧
    (almMatches (almWord wit78 0) wit78.rtc.cal = true ∧ bitOf wit78.rtc.now 0 = false ∧ wit78.rtc.onVbak = false ∧
     wit78.md.mode = Mode.active ∧ wit78.md.dormReq = false ∧ bitOf wit78.rtc.fired 0 = false) ∧
    (sntpRuns wSntp true = true ∧ wSntp.rtc.polling = false) := by
  refine ⟨?_, ?_, ?_, ?_, ?_, ?_, ?_, ?_, ?_, ?_⟩ <;> decide +kernel

theorem witness_ClockCommands_2 :
    (0 ≤ 31 ∧ (BitVec.ofInt (24 : ℕ) (-40000 : ℤ)).toInt = (-40000 : ℤ) + (5000 : ℤ) * ↑(0 : ℕ)) ∧
    (31 ≤ 31 ∧ (BitVec.ofInt (24 : ℕ) (115000 : ℤ)).toInt = (-40000 : ℤ) + (5000 : ℤ) * ↑(31 : ℕ)) := by
  refine ⟨?_, ?_⟩ <;> decide +kernel

theorem witness_WatchdogExpiry :
    (wWd.boot.recovery = false ∧ wWd.md.mode ≠ Mode.backup ∧ wWd.wd.hold = false ∧ wWd.wd.s.en = true ∧ wWd.wd.s.run =
     true ∧ wWd.wd.s.since + wWd.wd.s.per * 400000 ≤ wWd.clk.boundaryE + 400000000) ∧
    (wWd.boot.recovery = false ∧ wWd.md.mode ≠ Mode.backup ∧ wWd.wd.hold = false ∧ wWd.wd.c.en = true ∧ wWd.wd.c.run =
     true ∧ wWd.wd.c.since + wWd.wd.c.per * tickE wWd.clk.tickSel ≤ wWd.clk.boundaryE + 800000) ∧
    (wWd.boot.recovery = false ∧ wWd.md.mode ≠ Mode.backup ∧ wWd.wd.hold = false ∧ wWd.clk.boundaryE + 399999999 <
     wWd.wd.s.since + wWd.wd.s.per * 400000) ∧
    (wWd.boot.recovery = false ∧ wWd.md.mode ≠ Mode.backup ∧ wWd.wd.hold = false ∧ wWd.clk.boundaryE + 799999 <
     wWd.wd.c.since + wWd.wd.c.per * tickE wWd.clk.tickSel) := by
  refine ⟨?_, ?_, ?_, ?_⟩ <;> decide +kernel

theorem witness_KeyCommands :
    ((keyOf wit79 3).pressed = true ∧ (keyOf wit79 3).stuck = false ∧ wit79.guard = false ∧ maxOnTicks wit79 ≠ 0 ∧
     maxOnTicks wit79 ≤ (keyOf wit79 3).on) ∧
    ((keyOf wit80 3).on < maxOnTicks wit80) ∧
    ((keyOf wKeys 4).stuck = true ∧ (keyOf wKeys 4).fault = false ∧ wKeys.guard = false ∧ keyOn wKeys 4 = true ∧ cf
     wKeys 32 0 8 2 256 ≤ (keyOf wKeys 4).step) ∧
    ((keyOf wKeys 5).stuck = true ∧ (keyOf wKeys 5).fault = false ∧ wKeys.guard = false ∧ keyOn wKeys 5 = true ∧ cf
     wKeys 32 0 8 2 256 ≤ (keyOf wKeys 5).step) ∧
    ((keyOf wKeys 3).pressed = true ∧ (keyOf wKeys 3).stuck = false) := by
  refine ⟨?_, ?_, ?_, ?_, ?_⟩ <;> decide +kernel

theorem witness_WatchdogRegisters_1 :
    (wdRuns false wWd = true ∧ wdExpired false (wWd.clk.boundaryE + 100) wWd = false ∧ wWd.wd.s.held = []) ∧
    (wdExpired false (wWd.clk.boundaryE + 400000000) wWd = true) ∧
    ((5 : Word) ≠ (42330 : Word)) ∧
    (wdWindow true (wWd.clk.boundaryE + 100000) wWd = true ∧ wdExpired true (wWd.clk.boundaryE + 100000) wWd = false ∧
     (wdOf true wWd).held = []) ∧
    (wdWindow false (wWd.clk.boundaryE + 50000000) wWd = true ∧ wdExpired false (wWd.clk.boundaryE + 50000000) wWd =
     false ∧ (wdOf false wWd).held = []) ∧
    (wdWindow true (wWd.clk.boundaryE + 100001) wWd = false) ∧
    ((wdOf false wit81).key = some 100 ∧ wit81.clk.boundaryE + 356 ≤ 100 + 256 ∧ (wdOf false wit81).lock = false ∧
     (wdOf false wit81).en = true) ∧
    ((wdOf false wit82).key = some 100 ∧ wit82.clk.boundaryE + 356 ≤ 100 + 256 ∧ (wdOf false wit82).lock = true) ∧
    ((wdOf false wit81).key = some 100 ∧ 100 + 256 < wit81.clk.boundaryE + 357) ∧
    ((4081 : Word) ≠ (24225 : Word) ∧ ((wdOf false wit81).key = none ∨ (4081 : Word) ≠ (4080 : Word))) := by
  refine ⟨?_, ?_, ?_, ?_, ?_, ?_, ?_, ?_, ?_, ?_⟩ <;> decide +kernel

theorem witness_WatchdogRegisters_2 :
    ((4080 : Word) ≠ (24225 : Word) ∧ ((wdOf false wWd).key = none ∨ (4080 : Word) ≠ (4080 : Word))) ∧
    ((wdOf true wit83).en = false) ∧
    ((wdOf false wWd).en = true) ∧
    ((wdOf true wit83).en = false ∧ (wdOf true wit83).held = [] ∧ (∀ (t : ℕ × ℕ), (wdOf true wit83).cut = some t → t.1
     ≠ wit83.clk.boundaryE + 100)) ∧
    ((wdOf true wit84).en = false ∧ (wdOf true wit84).cut = some (wit84.clk.boundaryE + 100, 40)) ∧
    ((wdOf true wit83).held = [] ∧ wdExpired true (wit83.clk.boundaryE + 100) wit83 = false) ∧
    (wit85.md.mode = Mode.dormant ∧ wdRuns false wit85 = true ∧ wdExpired false (wit85.clk.boundaryE + 350000000)
     wit85 = false ∧ wit85.wd.s.held = [] ∧ wit85.wd.s.since + wdPeriod false wit85 * 7 / 8 ≤ wit85.clk.boundaryE +
     350000000) := by
  refine ⟨?_, ?_, ?_, ?_, ?_, ?_, ?_⟩ <;> decide +kernel

theorem witness_TickBoundary :
    (ticking wit86 = false) ∧
    (ticking wHold = true) ∧
    (ticking wit87 = true) ∧
    (couchDue wit88 = true ∧ cycleComplete wit88 = false ∧ anyHalted wit88 = false) ∧
    (couchDue wit89 = true ∧ cycleComplete wit89 = false ∧ anyHalted wit89 = false) ∧
    (couchDue wit94 = true ∧ cycleComplete wit94 = false ∧ anyHalted wit94 = false ∧ satInc 255 wit94.clk.lateRun =
     wit94.clk.lateLimit) ∧
    (couchDue wit95 = true ∧ cycleComplete wit95 = false ∧ anyHalted wit95 = false ∧ satInc 255 wit95.clk.lateRun ≠
     wit95.clk.lateLimit) := by
  refine ⟨?_, ?_, ?_, ?_, ?_, ?_, ?_⟩ <;> decide +kernel

theorem witness_SampleAndDispatch :
    (engineRuns wCyc = true ∧ wCyc.exe.sampled = false ∧ wCyc.exe.first = wCyc.clk.tick) ∧
    ((wit90.exe.sampled = true ∨ wit90.exe.first ≠ wit90.clk.tick)) ∧
    (engineRuns wCyc = true ∧ (running wCyc).tickCount ≠ 0 ∧ pipeHalted wCyc 0 = false ∧ pipe0Locked wCyc = false ∧
     wCyc.exe.dead.contains 0 = false ∧ wCyc.exe.tasks = [] ∧ wCyc.exe.pend = []) ∧
    (engineRuns wit91 = true ∧ pipeHalted wit91 0 = false ∧ pipe0Locked wit91 = false ∧ wit91.exe.dead.contains 0 = false ∧ wit91.exe.tasks = [] ∧ wit91.exe.pend = [{ task := 0, a := 5, l := 3 }] ∧ (taskRange (running wit91) { task := (0 : ℕ), a := (5 : Word), l := (3 : BitVec (3 : ℕ)) : Trigger }.task).2 ≠ (0 : ℕ)) ∧
    (pipeHalted wit92 0 = true ∧ wit92.dbg.s0Only = false) := by
  refine ⟨?_, ?_, ?_, ?_, ?_⟩ <;> decide +kernel

theorem witness_SheetThatCouches :
    (Memory.wf 0 wit93.exe.latched = true ∧ (∀ e ∈ wit93.exe.latched, (inI e.1 || inEv e.1) = true)) ∧
    (Memory.wf 0 wit93.exe.latched = true ∧ (∀ e ∈ wit93.exe.latched, (inI e.1 || inEv e.1) = true) ∧ (inI 285212672
     || inEv 285212672) = true) ∧
    (Memory.wf 0 wit93.exe.latched = true ∧ (∀ e ∈ wit93.exe.latched, (inI e.1 || inEv e.1) = true) ∧ (inI 285213952
     || inEv 285213952) = false ∧ (∀ k < 4, tget 0 (strand k wit93).com.mask 285213952 = 0)) := by
  refine ⟨?_, ?_, ?_⟩ <;> decide +kernel

theorem witness_CouchOnCompletion :
    (mayCouch wDone = true) ∧
    (mayCouch wDoneF = true) ∧
    (mayCouch wCyc = false) ∧
    (mayCouch { clk := wDone.clk, md := wDone.md, ring := wDone.ring, exe := wDone.exe, trial := wDone.trial, boot := wDone.boot, img := wDone.img, evt := wDone.evt, ret := wDone.ret, rtc := wDone.rtc, bus := wDone.bus, dbg := wDone.dbg, fl := wDone.fl, sw := wDone.sw, lanes := wDone.lanes, engs := wDone.engs, cv := wDone.cv, klp := wDone.klp, felt := { lpown := wDone.felt.lpown, lpownIn := wDone.felt.lpownIn, partnerOk := wDone.felt.partnerOk, okLow := wDone.felt.okLow, lane0 := wDone.felt.lane0, lane1 := wDone.felt.lane1, trained := wDone.felt.trained, lostTicks := wDone.felt.lostTicks, wasTrained := wDone.felt.wasTrained, silence := wDone.felt.silence, gapRun := wDone.felt.gapRun, gaps := wDone.felt.gaps, crcBurst := wDone.felt.crcBurst, crcShort := wDone.felt.crcShort, delayNs := wDone.felt.delayNs, probeId := wDone.felt.probeId, turn := wDone.felt.turn, fullPending := wDone.felt.fullPending, fullNext := wDone.felt.fullNext, witness := wDone.felt.witness, keep := wDone.felt.keep, offerDue := wDone.felt.offerDue, partnerMode := wDone.felt.partnerMode, partnerFlags := wDone.felt.partnerFlags, partnerTick := wDone.felt.partnerTick, partnerGap := wDone.felt.partnerGap, pages := wDone.felt.pages, base := wDone.felt.base, lastCopy := wDone.felt.lastCopy, sessSnap := wDone.felt.sessSnap, sessStamp := wDone.felt.sessStamp, pairStamp := wDone.felt.pairStamp, pairRec := wDone.felt.pairRec, swapMark := wDone.felt.swapMark, swapFrom := wDone.felt.swapFrom, dormMark := wDone.felt.dormMark, dormFrom := wDone.felt.dormFrom, swapped := wDone.felt.swapped, consistent := wDone.felt.consistent, goodRun := wDone.felt.goodRun, ready := wDone.felt.ready, editBad := wDone.felt.editBad, wantStandby := wDone.felt.wantStandby, since := wDone.felt.since, reportId := wDone.felt.reportId, reportDigest := wDone.felt.reportDigest, returns := wDone.felt.returns, returnBlocked := wDone.felt.returnBlocked, returnPending := wDone.felt.returnPending, returnAsked := wDone.felt.returnAsked, claimIn := wDone.felt.claimIn, lastCause := wDone.felt.lastCause, rel := wDone.felt.rel, syncDue := wDone.felt.syncDue, garp := wDone.felt.garp, announced := wDone.felt.announced, wakeOut := wDone.felt.wakeOut, editOut := wDone.felt.editOut, hbFlags := wDone.felt.hbFlags, sent := wDone.felt.sent, burstA := wDone.felt.burstA, burstB := wDone.felt.burstB, unlisted := wDone.felt.unlisted, partnerNow := wDone.felt.partnerNow, probeN := wDone.felt.probeN, ann := wDone.felt.ann }, nego := wDone.nego, slu := wDone.slu, isl := wDone.isl, islView := wDone.islView, bags := wDone.bags, keys := wDone.keys, guard := wDone.guard, wd := wDone.wd, hmp := wDone.hmp, free := wDone.free, pending := wDone.pending } = true) ∧
    (mayCouch { clk := wCyc.clk, md := wCyc.md, ring := wCyc.ring, exe := wCyc.exe, trial := wCyc.trial, boot := wCyc.boot, img := wCyc.img, evt := wCyc.evt, ret := wCyc.ret, rtc := wCyc.rtc, bus := wCyc.bus, dbg := wCyc.dbg, fl := wCyc.fl, sw := wCyc.sw, lanes := wCyc.lanes, engs := wCyc.engs, cv := wCyc.cv, klp := wCyc.klp, felt := { lpown := wCyc.felt.lpown, lpownIn := wCyc.felt.lpownIn, partnerOk := wCyc.felt.partnerOk, okLow := wCyc.felt.okLow, lane0 := wCyc.felt.lane0, lane1 := wCyc.felt.lane1, trained := wCyc.felt.trained, lostTicks := wCyc.felt.lostTicks, wasTrained := wCyc.felt.wasTrained, silence := wCyc.felt.silence, gapRun := wCyc.felt.gapRun, gaps := wCyc.felt.gaps, crcBurst := wCyc.felt.crcBurst, crcShort := wCyc.felt.crcShort, delayNs := wCyc.felt.delayNs, probeId := wCyc.felt.probeId, turn := wCyc.felt.turn, fullPending := wCyc.felt.fullPending, fullNext := wCyc.felt.fullNext, witness := wCyc.felt.witness, keep := wCyc.felt.keep, offerDue := wCyc.felt.offerDue, partnerMode := wCyc.felt.partnerMode, partnerFlags := wCyc.felt.partnerFlags, partnerTick := wCyc.felt.partnerTick, partnerGap := wCyc.felt.partnerGap, pages := wCyc.felt.pages, base := wCyc.felt.base, lastCopy := wCyc.felt.lastCopy, sessSnap := wCyc.felt.sessSnap, sessStamp := wCyc.felt.sessStamp, pairStamp := wCyc.felt.pairStamp, pairRec := wCyc.felt.pairRec, swapMark := wCyc.felt.swapMark, swapFrom := wCyc.felt.swapFrom, dormMark := wCyc.felt.dormMark, dormFrom := wCyc.felt.dormFrom, swapped := wCyc.felt.swapped, consistent := wCyc.felt.consistent, goodRun := wCyc.felt.goodRun, ready := wCyc.felt.ready, editBad := wCyc.felt.editBad, wantStandby := wCyc.felt.wantStandby, since := wCyc.felt.since, reportId := wCyc.felt.reportId, reportDigest := wCyc.felt.reportDigest, returns := wCyc.felt.returns, returnBlocked := wCyc.felt.returnBlocked, returnPending := wCyc.felt.returnPending, returnAsked := wCyc.felt.returnAsked, claimIn := wCyc.felt.claimIn, lastCause := wCyc.felt.lastCause, rel := wCyc.felt.rel, syncDue := wCyc.felt.syncDue, garp := wCyc.felt.garp, announced := wCyc.felt.announced, wakeOut := wCyc.felt.wakeOut, editOut := wCyc.felt.editOut, hbFlags := wCyc.felt.hbFlags, sent := wCyc.felt.sent, burstA := wCyc.felt.burstA, burstB := wCyc.felt.burstB, unlisted := wCyc.felt.unlisted, partnerNow := wCyc.felt.partnerNow, probeN := wCyc.felt.probeN, ann := wCyc.felt.ann }, nego := wCyc.nego, slu := wCyc.slu, isl := wCyc.isl, islView := wCyc.islView, bags := wCyc.bags, keys := wCyc.keys, guard := wCyc.guard, wd := wCyc.wd, hmp := wCyc.hmp, free := wCyc.free, pending := wCyc.pending } = false) := by
  refine ⟨?_, ?_, ?_, ?_, ?_⟩ <;> decide +kernel

theorem witness_Resets :
    (wit96.md.mode = Mode.backup) ∧
    (1000 ≤ 1000 ∧ wHold.md.mode ≠ Mode.backup ∧ wHold.md.testHold = false) ∧
    (1000 ≤ 1000 ∧ wActive.md.mode ≠ Mode.backup ∧ wActive.md.testHold = false) ∧
    (1000 ≤ 1000 ∧ wit97.md.testHold = true) ∧
    (500 ≤ 500) ∧
    (wit98.wd.pulse = true ∧ wit98.md.testHold = false) ∧
    (wHold.wd.pulse = false) := by
  refine ⟨?_, ?_, ?_, ?_, ?_, ?_, ?_⟩ <;> decide +kernel

theorem witness_SuppliesAndFuses :
    (wit99.md.mode = Mode.thread ∧ wit99.md.thStat = 11 ∧ wit99.wd.hold = false) ∧
    (wActive.md.mode ≠ Mode.backup ∧ wActive.rtc.onVbak = false) ∧
    (wit100.md.mode ≠ Mode.backup ∧ wit100.md.mode ≠ Mode.thread ∧ wit100.boot.recovery = false ∧ (wit100.boot.fuseE +
     (3600 : ℕ) * (400000000 : ℕ) ≤ wit100.clk.boundaryE ∨ (30 : ℕ) < (BitVec.toInt (31 : BitVec (16 : ℕ)) -
     wit100.boot.fuseTemp).natAbs)) ∧
    (wit101.md.mode ≠ Mode.backup ∧ wit101.md.mode ≠ Mode.thread ∧ wit101.boot.recovery = false ∧ (wit101.boot.fuseE +
     (3600 : ℕ) * (400000000 : ℕ) ≤ wit101.clk.boundaryE ∨ (30 : ℕ) < (BitVec.toInt (0 : BitVec (16 : ℕ)) -
     wit101.boot.fuseTemp).natAbs)) ∧
    (wit100.clk.boundaryE < wit100.boot.fuseE + 3600 * 400000000 ∧ (BitVec.toInt (30 : BitVec (16 : ℕ)) -
     wit100.boot.fuseTemp).natAbs ≤ (30 : ℕ)) ∧
    (1000 ≤ 1000 ∧ wHold.md.mode ≠ Mode.backup) ∧
    (999 < 1000) := by
  refine ⟨?_, ?_, ?_, ?_, ?_, ?_, ?_⟩ <;> decide +kernel

theorem witness_RetainedSaves_at_hand :
    ((∀ (r t : ℕ), (rowSlot wRet r t).gen + 1 < 2 ^ 32) ∧ 10000 ≤ 10000 ∧ wRet.md.mode ≠ Mode.backup ∧
     wRet.exe.everCouched = true ∧ wRet.wd.hold = false) ∧
    ((∀ (r t : ℕ), (rowSlot wit102 r t).gen + 1 < 2 ^ 32) ∧ (wit102.md.mode = Mode.backup ∨ wit102.exe.everCouched =
     false ∨ wit102.wd.hold = true ∨ 10000 < 5000)) ∧
    ((∀ (r t : ℕ), (rowSlot wRet r t).gen + 1 < 2 ^ 32) ∧ (wRet.md.mode = Mode.backup ∨ wRet.exe.everCouched = false ∨
     wRet.wd.hold = true ∨ 4999 < 5000)) ∧
    ((∀ (r t : ℕ), (rowSlot wit103 r t).gen + 1 < 2 ^ 32) ∧ wit103.evt.atBnd = true ∧ wit103.exe.rfl = true ∧
     (wit103.md.mode = Mode.hold ∨ wit103.md.mode = Mode.dormant)) ∧
    ((∀ (r t : ℕ), (rowSlot wRet r t).gen + 1 < 2 ^ 32) ∧ wRet.evt.atBnd = false) := by
  refine ⟨?_, ?_, ?_, ?_, ?_⟩
  · exact ⟨fun _ _ => show 0 + 1 < 2 ^ 32 by decide, by decide +kernel⟩
  · exact ⟨fun _ _ => show 0 + 1 < 2 ^ 32 by decide, by decide +kernel⟩
  · exact ⟨fun _ _ => show 0 + 1 < 2 ^ 32 by decide, by decide +kernel⟩
  · exact ⟨fun _ _ => show 0 + 1 < 2 ^ 32 by decide, by decide +kernel⟩
  · exact ⟨fun _ _ => show 0 + 1 < 2 ^ 32 by decide, by decide +kernel⟩

theorem witness_BoundaryFaults :
    (wit104.md.pendF ≠ [] ∧ wit104.md.mode ≠ Mode.dormant ∧ (¬(wit104.md.mode = Mode.hold ∧ wit104.md.fault = true))) ∧
    (wit104.md.pendF ≠ [] ∧ wit104.md.mode ≠ Mode.dormant ∧ (¬(wit104.md.mode = Mode.hold ∧ wit104.md.fault = true)) ∧
     wit104.md.mode = Mode.active) ∧
    (wit105.md.pendF ≠ [] ∧ wit105.md.mode = Mode.dormant) ∧
    (wit104.md.pendF ≠ [] ∧ 4353 ∈ wit104.md.pendF) := by
  refine ⟨?_, ?_, ?_, ?_⟩ <;> decide +kernel

theorem witness_RingEntriesWait :
    (wit106.ring.put < wit106.ring.take + 64) ∧
    (wit107.ring.take + 64 ≤ wit107.ring.put) := by
  refine ⟨?_, ?_⟩ <;> decide +kernel

theorem witness_TrialStarts :
    wit108.md.mode = Mode.active ∧ wit108.ring.put = wit108.ring.take ∧ wit108.trial.st = TrialSt.staged ∧
    wit108.trial.editId = 7 ∧ onlineOk wit108 (shadow wit108) = true := by
  decide +kernel

theorem witness_RingEntriesInHold_1 :
    (wit109.md.mode = Mode.hold ∧ wit109.ring.put = wit109.ring.take ∧ wit109.md.fault = true ∧ wit109.md.faultNow =
     false) ∧
    (wit109.md.mode = Mode.hold ∧ wit109.ring.put = wit109.ring.take ∧ wit109.md.fault = true) ∧
    (wit110.md.mode = Mode.hold ∧ wit110.ring.put = wit110.ring.take ∧ wit110.md.faultNow = true) ∧
    (wit111.md.mode = Mode.hold ∧ wit111.ring.put = wit111.ring.take ∧ (wit111.md.faultNow = false ∧ wit111.md.fault =
     false ∧ wit111.felt.rel = none) ∧ paired wit111 = false ∧ (running wit111).valid = true) ∧
    (wHold.md.mode = Mode.hold ∧ wHold.ring.put = wHold.ring.take ∧ (wHold.md.faultNow = false ∧ wHold.md.fault =
     false ∧ wHold.felt.rel = none) ∧ (running wHold).valid = false) ∧
    (wHold.md.mode = Mode.hold ∧ wHold.ring.put = wHold.ring.take ∧ (wHold.md.faultNow = false ∧ wHold.md.fault =
     false ∧ wHold.felt.rel = none)) ∧
    (wEdit.md.mode = Mode.hold ∧ wEdit.ring.put = wEdit.ring.take ∧ wEdit.trial.st = TrialSt.idle ∧ editLayoutOk
     (shadow wEdit) 7 64 = true ∧ failedChecks (checkCtx wEdit) (stagedProg (shadow wEdit) 64).1 (stagedProg (shadow
     wEdit) 64).2 = []) ∧
    (wHold.md.mode = Mode.hold ∧ wHold.ring.put = wHold.ring.take ∧ wHold.trial.st = TrialSt.idle ∧ editLayoutOk
     (shadow wHold) 7 0 = false) ∧
    (wStg.md.mode = Mode.hold ∧ wStg.ring.put = wStg.ring.take ∧ wStg.trial.st = TrialSt.staged ∧ wStg.trial.editId =
     7) ∧
    (wStg.md.mode = Mode.hold ∧ wStg.ring.put = wStg.ring.take) := by
  refine ⟨?_, ?_, ?_, ?_, ?_, ?_, ?_, ?_, ?_, ?_⟩ <;> decide +kernel

theorem witness_RingEntriesInHold_2 :
    (wStg.md.mode = Mode.hold ∧ wStg.ring.put = wStg.ring.take ∧ wStg.trial.st ≠ TrialSt.idle ∧ wStg.trial.editId = 7) ∧
    (wit112.md.mode = Mode.hold ∧ wit112.ring.put = wit112.ring.take ∧ wit112.trial.st = TrialSt.failed ∧
     wit112.trial.editId = 7 ∧ wit112.trial.k ≤ wit112.trial.compared ∧ pairGuard wit112 = true) ∧
    (wit113.md.mode = Mode.hold ∧ wit113.ring.put = wit113.ring.take ∧ wit113.trial.compared < wit113.trial.k) := by
  refine ⟨?_, ?_, ?_⟩ <;> decide +kernel

theorem witness_FeltFrames_1 :
    (feltOn (wPair Mode.active) = true ∧ (wPair Mode.active).felt.trained = false) ∧
    (feltOn wit114 = true ∧ wit114.felt.trained = true) ∧
    (feltOn (wPair Mode.hold) = true ∧ Arrives 1 (wHb 4 8 4096 0) (heartbeatData 4 8 4096 0) (wPair Mode.hold) ∧
     ((wPair Mode.hold).clk.loopOn = false ∨ slaved (wPair Mode.hold) = false) ∧ inPhase (wPair Mode.hold) = true ∧
     (wPair Mode.hold).md.dormMark = false) ∧
    (feltOn wit115 = true ∧ Arrives 1 (wHb 4 8 4096 0) (heartbeatData 4 8 4096 0) wit115 ∧ wit115.clk.loopOn = true ∧
     slaved wit115 = true ∧ 0 < wit115.clk.tickLen) ∧
    (feltOn (wPair Mode.hold) = true ∧ frameGood wit116 (heartbeatData 4 8 4096 0) = false) ∧
    (feltOn (wPair Mode.hold) = true ∧ (¬((wPair Mode.hold).md.mode = Mode.standby ∧ (wPair Mode.hold).felt.silence =
     2))) ∧
    (feltOn wit117 = true ∧ (¬(wit117.md.mode = Mode.standby ∧ wit117.felt.silence = 2))) ∧
    (feltOn wit118 = true ∧ wit118.md.mode = Mode.standby ∧ wit118.felt.silence = 2 ∧ wit118.felt.witness = false ∧
     wit118.felt.ready = true) ∧
    (feltOn wit119 = true ∧ Arrives 2 (wFw 2 (leBytes 6 10)) (leBytes 6 10) wit119 ∧ wit119.felt.lastCopy = some
     (wCopy true) ∧ (wCopy true).tick = 10 ∧ wit119.felt.swapMark = none ∧ wit119.felt.dormMark = false) ∧
    (feltOn (wPair Mode.active) = true ∧ Arrives 3 (wFw 3 []) [] (wPair Mode.active)) := by
  delta Arrives; refine ⟨?_, ?_, ?_, ?_, ?_, ?_, ?_, ?_, ?_, ?_⟩ <;> decide +kernel

theorem witness_FeltFrames_2 :
    (feltOn (wPair Mode.active) = true ∧ frameGood wit120 [] = false) ∧
    (feltOn wit121 = true ∧ Arrives 4 (wFw 4 [3]) [3] wit121 ∧ wit121.md.mode = Mode.thread ∧ wit121.nego.waitRelease
     = true) ∧
    (feltOn (wPair Mode.active) = true ∧ Arrives 5 (wFw 5 (editData 3 5)) (editData 3 5) (wPair Mode.active)) ∧
    (feltOn (wPair Mode.dormant) = true ∧ Arrives 6 (wFw 6 [31]) [31] (wPair Mode.dormant) ∧ (wPair
     Mode.dormant).md.mode = Mode.dormant ∧ (wPair Mode.dormant).md.wakeStep = 0) ∧
    (feltOn wit122 = true ∧ Arrives 7 (wFw 7 (negoData (NegoPart.cfg 77))) (negoData (NegoPart.cfg 77)) wit122 ∧
     wit122.md.mode = Mode.thread ∧ wit122.md.thStat ≠ 10) ∧
    (feltOn (wPair Mode.active) = true ∧ Arrives 8 (wFw 8 (leBytes 4 77)) (leBytes 4 77) (wPair Mode.active) ∧
     receiving (wPair Mode.active) = false) ∧
    (feltOn wit123 = true ∧ Arrives 9 (wFw 9 (echoData 5 100)) (echoData 5 100) wit123 ∧ wit123.md.mode = Mode.thread
     ∧ wit123.felt.probeId = 5 ∧ ↑(180 : ℕ) - ↑(100 : ℕ) = (4 : ℤ) * ↑(20 : ℕ)) := by
  delta Arrives; refine ⟨?_, ?_, ?_, ?_, ?_, ?_, ?_⟩ <;> decide +kernel

theorem witness_CopyReceived_at_hand :
    ((true = true ∨ goodCopy (some []) none = none ∨ ∃ c n, goodCopy (some []) none = some c ∧ (wPair
     Mode.standby).felt.consistent = some n ∧ c.tick ≤ n) ∧ receiving (wPair Mode.standby) = true ∧ feltOn (wPair
     Mode.standby) = true ∧ (wPair Mode.standby).md.mode = Mode.standby) ∧
    ((false = true ∨ goodCopy (some []) none = none ∨ ∃ c n, goodCopy (some []) none = some c ∧ (wPair
     Mode.standby).felt.consistent = some n ∧ c.tick ≤ n) ∧ receiving (wPair Mode.standby) = true ∧ feltOn (wPair
     Mode.standby) = true ∧ (wPair Mode.standby).md.mode = Mode.standby) := by
  refine ⟨?_, ?_⟩
  · exact ⟨.inl rfl, by decide +kernel⟩
  · exact ⟨.inr (.inl rfl), by decide +kernel⟩

theorem witness_CopyContent :
    (Memory.wf 0 (wCopy true).mem = true ∧ (285212672 ≤ 285212672 ∧ 285212672 < 285214720 ∨ ∃ p, pageOf 285212672 =
     some p ∧ (p ∈ if (wCopy true).full = true then List.range 416 else (wCopy true).pages) ∧ isPreset 285212672 =
     false)) ∧
    (Memory.wf 0 (wCopy false).mem = true ∧ (¬(285212672 ≤ 285220864 ∧ 285220864 < 285214720 ∨ ∃ p, pageOf 285220864 =
     some p ∧ (p ∈ if (wCopy false).full = true then List.range 416 else (wCopy false).pages) ∧ isPreset 285220864 =
     false))) := by
  refine ⟨?_, ?_⟩ <;> decide +kernel

theorem witness_LaneDomains_1 :
    (wPort.md.mode ≠ Mode.backup) ∧
    ((lane wit124 0).dom = Dom.powering ∧ ticking wit124 = true) ∧
    (wit125.evt.atBnd = true ∧ (lane wit125 0).dom = Dom.closing ∧ (lane wit125 0).flushed = false ∧ (drainTicks
     wit125 ≤ (lane wit125 0).closeN ∨ laneHolds wit125 0 = false)) ∧
    (wit126.evt.atBnd = true ∧ (lane wit126 0).dom = Dom.closing ∧ (lane wit126 0).flushed = false ∧ (drainTicks
     wit126 ≤ (lane wit126 0).closeN ∨ laneHolds wit126 0 = false)) ∧
    (wit127.evt.atBnd = true ∧ ((lane wit127 0).dom ≠ Dom.closing ∨ (lane wit127 0).flushed = true ∨ (lane wit127
     0).closeN < drainTicks wit127 ∧ laneHolds wit127 0 = true)) ∧
    (wit128.evt.atBnd = true ∧ ticking wit128 = true ∧ wit128.md.mode = Mode.hold ∧ wit128.md.dormReq = true ∧
     wit128.exe.rfl = false ∧ (∀ l < 8, (lane wit128 l).dom = Dom.off) ∧ wit128.md.heldWake = false) ∧
    (wit129.evt.atBnd = true ∧ ticking wit129 = true ∧ wit129.md.mode = Mode.hold ∧ wit129.md.dormReq = true ∧
     wit129.exe.rfl = false ∧ (∀ l < 8, (lane wit129 l).dom = Dom.off) ∧ wit129.md.heldWake = true) ∧
    (wit127.evt.atBnd = true ∧ (wit127.md.mode ≠ Mode.hold ∨ wit127.md.dormReq = false ∨ wit127.exe.rfl = true ∨ ∃ l <
     8, (lane wit127 l).dom ≠ Dom.off)) ∧
    (wPort.evt.atBnd = false) ∧
    (portState wPort 0 = 2) := by
  refine ⟨?_, ?_, ?_, ?_, ?_, ?_, ?_, ?_, ?_, ?_⟩ <;> decide +kernel

theorem witness_LaneDomains_2 :
    (portState wPort 1 ≠ 2) ∧
    (ticking wit130 = true ∧ (4 = 4 ∨ bitOf (wakeSrc wit130) 4 = true) ∧ wit130.md.mode = Mode.dormant ∧ (paired
     wit130 = false ∨ wit130.md.prev ≠ Mode.standby ∨ wit130.felt.trained = false) ∧ wit130.md.wakeStep = 0) ∧
    (ticking wit130 = true ∧ (0 = 4 ∨ bitOf (wakeSrc wit130) 0 = true) ∧ wit130.md.mode = Mode.dormant ∧ (paired
     wit130 = false ∨ wit130.md.prev ≠ Mode.standby ∨ wit130.felt.trained = false) ∧ wit130.md.wakeStep = 0) ∧
    (ticking wit131 = true ∧ (3 = 4 ∨ bitOf (wakeSrc wit131) 3 = true) ∧ wit131.md.mode ≠ Mode.dormant ∧
     wit131.md.dormReq = true) ∧
    (0 ≠ 4 ∧ bitOf (wakeSrc wit132) 0 = false) := by
  refine ⟨?_, ?_, ?_, ?_, ?_⟩ <;> decide +kernel

theorem witness_PortReplies_1 :
    ((eng wW 0).up = (portState wW 0 == 2) ∧ (eng wW 0).wait = some wWait ∧ wW.clk.tick ≤ wWait.deadline) ∧
    ((eng wit133 0).up = (portState wit133 0 == 2) ∧ (eng wit133 0).wait = some wWait ∧ wWait.deadline <
     wit133.clk.tick) ∧
    ((eng wW 0).up = (portState wW 0 == 2) ∧ (eng wW 0).wait = some wWait ∧ ctsStops wW 0 = false ∧ wWait.tries < dl
     wW 0 27 1 2) ∧
    ((eng wit134 0).up = (portState wit134 0 == 2) ∧ (eng wit134 0).wait = some wit135 ∧ dl wit134 0 27 1 2 ≤
     wit135.tries) ∧
    ((eng wit136 0).up = (portState wit136 0 == 2) ∧ (eng wit136 0).wait = some wit135 ∧ dl wit136 0 27 1 2 ≤
     wit135.tries) ∧
    ((eng wit133 0).up = (portState wit133 0 == 2) ∧ (eng wit133 0).wait = some wWait ∧ ctsStops wit133 0 = false ∧
     (eng wit133 0).poll = none ∧ wWait.tries < dl wit133 0 27 1 2 ∧ wWait.deadline < wit133.clk.tick) ∧
    ((eng wW 0).up = (portState wW 0 == 2) ∧ (eng wW 0).wait = some wWait ∧ (eng wW 0).poll = none ∧ wW.clk.tick ≤
     wWait.deadline) ∧
    ((eng wit137 0).up = (portState wit137 0 == 2) ∧ (eng wit137 0).wait = none ∧ (eng wit137 0).poll = some 3 ∧ 3 <
     wit137.clk.tick) ∧
    ((eng wPort 0).up = (portState wPort 0 == 2) ∧ (eng wPort 0).up = true ∧ ctsStops wPort 0 = false ∧ dialectOf
     wPort 0 ≤ 31 ∧ dlFlag wPort 0 5 = true ∧ (eng wPort 0).poll = none ∧ (wPort.clk.tick + max 1 (dl wPort 0 28 2 1)
     * 65536 - dl wPort 0 30 2 0) % max 1 (dl wPort 0 28 2 1) = 0) ∧
    ((eng wPort 0).up = (portState wPort 0 == 2) ∧ (eng wPort 0).usbAddr = 0) := by
  refine ⟨?_, ?_, ?_, ?_, ?_, ?_, ?_, ?_, ?_, ?_⟩ <;> decide +kernel

theorem witness_PortReplies_2 :
    ((eng wit138 0).up = (portState wit138 0 == 2) ∧ (eng wit138 0).usbAddr ≠ 0) ∧
    ((∀ e ∈ [40 + 0, 52, 53, 54, 55], (eng wPort e).up = (portState wPort e == 2))) ∧
    ((∀ e ∈ [40 + 0, 52, 53, 54, 55], (eng wit139 e).up = (portState wit139 e == 2)) ∧ (List.find? (fun e ↦ bindable
     wit139 e 0 3 5) [40 + 0, 52, 53, 54, 55] = some 40)) ∧
    ((∀ e ∈ [40 + 0, 52, 53, 54, 55], (eng wUsb e).up = (portState wUsb e == 2))) ∧
    ((∀ e ∈ [40 + 0, 52, 53, 54, 55], (eng wUsb e).up = (portState wUsb e == 2)) ∧ (∀ e ∈ [40 + 0, 52, 53, 54, 55],
     bindable wUsb e 0 3 5 = false)) ∧
    (portState wCan (48 + 0) = 2 ∧ (eng wCan (48 + 0)).up = true) ∧
    ((eng wit140 (48 + 0)).busOff = true) ∧
    ((eng wCan (48 + 0)).busOff = false) ∧
    ((∀ e ∈ [40 + 0, 52, 53, 54, 55], (eng wPort e).up = (portState wPort e == 2)) ∧ (∀ e ∈ [40 + 0, 52, 53, 54, 55],
     bindable wPort e 0 3 5 = false)) ∧
    ((bitOf (port wPort 15 12 1 1) 6 = false ∨ (eng wPort 15).cts = true)) := by
  refine ⟨?_, ?_, ?_, ?_, ?_, ?_, ?_, ?_, ?_, ?_⟩ <;> decide +kernel

theorem witness_PortReplies_3 :
    (bitOf (port wit144 0 12 1 1) 6 = true ∧ (eng wit144 0).cts = true) ∧
    (bitOf (port wit145 0 12 1 1) 6 = true ∧ (eng wit145 0).cts = false ∧ (eng wit145 0).waiting = []) ∧
    (bitOf (port wit146 0 12 1 1) 6 = true ∧ (eng wit146 0).cts = false ∧ (eng wit146 0).waiting = [(1, [5])] ++ [(1,
     [6, 7])]) := by
  refine ⟨?_, ?_, ?_⟩ <;> decide +kernel

theorem witness_PortFrames_1 :
    (portState wPort 0 = 2 ∧ (eng wPort 0).up = true ∧ dialectOf wPort 0 ≤ 31 ∧ (2048 : ℕ) < (List.replicate (2049 :
     ℕ) (0 : Byte)).length) ∧
    (portState wPort 0 = 2 ∧ (eng wPort 0).up = true ∧ dialectOf wPort 0 ≤ 31 ∧ [(65 : Byte), (49 : Byte), (10 :
     Byte)].length ≤ (2048 : ℕ) ∧ noCells wPort (cellsOf [(65 : Byte), (49 : Byte), (10 : Byte)].length) = false ∧
     plainFrame wPort 0 [65, 49, 10] = ([65, 49, 10], false) ∧ dlFlag wPort 0 1 = false ∧ mapMatch wPort 0 [65, 49,
     10] = some 0 ∧ extractAll wPort 0 [65, 49, 10] = some [([], Val.bytes [49])] ∧ laneShut wPort (mapLane wPort 0 0
     [([], Val.bytes [49])]) = false) ∧
    (portState wPort 0 = 2 ∧ (eng wPort 0).up = true ∧ dialectOf wPort 0 ≤ 31 ∧ [(66 : Byte), (49 : Byte), (10 :
     Byte)].length ≤ (2048 : ℕ) ∧ noCells wPort (cellsOf [(66 : Byte), (49 : Byte), (10 : Byte)].length) = false ∧
     plainFrame wPort 0 [66, 49, 10] = ([66, 49, 10], false) ∧ dlFlag wPort 0 1 = false ∧ mapMatch wPort 0 [66, 49,
     10] = none) ∧
    (portState (wFull wPort) 0 = 2 ∧ (eng (wFull wPort) 0).up = true ∧ dialectOf (wFull wPort) 0 ≤ 31 ∧ [(1 :
     Byte)].length ≤ (2048 : ℕ) ∧ noCells (wFull wPort) (cellsOf [(1 : Byte)].length) = true ∧ (0 < 48 ∨ 51 < 0)) ∧
    (portState wGap 0 = 2 ∧ (eng wGap 0).up = true ∧ dialectOf wGap 0 ≤ 31 ∧ dl wGap 0 0 1 0 = 3 ∧ partOfFrame wGap 0
     ≠ [] ∧ dl wGap 0 16 2 35 ≤ 35) ∧
    (portState wGap 0 = 2 ∧ (eng wGap 0).up = true ∧ dialectOf wGap 0 ≤ 31 ∧ dl wGap 0 0 1 0 = 3 ∧ partOfFrame wGap 0
     ≠ [] ∧ 34 < dl wGap 0 16 2 35) ∧
    (portState wPort 0 = 2 ∧ (eng wPort 0).up = true ∧ dialectOf wPort 0 ≤ 31 ∧ (dl wPort 0 0 1 0 ≠ 3 ∨ partOfFrame
     wPort 0 = []) ∧ (if dl wPort 0 18 2 0 = 0 then 35 else dl wPort 0 18 2 0) ≤ 100) ∧
    (portState wPort 0 = 2 ∧ (eng wPort 0).up = true ∧ dialectOf wPort 0 ≤ 31 ∧ (dl wPort 0 0 1 0 ≠ 3 ∨ partOfFrame
     wPort 0 = []) ∧ (99 < if dl wPort 0 18 2 0 = 0 then 35 else dl wPort 0 18 2 0)) ∧
    (portState wPart 0 = 2 ∧ (eng wPart 0).up = true ∧ dialectOf wPart 0 ≤ 31 ∧ dl wPart 0 18 2 0 ≠ 0 ∧ partOfFrame
     wPart 0 ≠ []) ∧
    (portState wit141 0 = 2 ∧ (eng wit141 0).up = true ∧ dialectOf wit141 0 ≤ 31 ∧ dl wit141 0 18 2 0 = 0) := by
  refine ⟨?_, ?_, ?_, ?_, ?_, ?_, ?_, ?_, ?_, ?_⟩ <;> decide +kernel

theorem witness_PortFrames_2 :
    (portState wit142 0 = 2 ∧ (eng wit142 0).up = true ∧ dialectOf wit142 0 ≤ 31 ∧ BitVec.getLsbD (10 : BitVec (9 :
     ℕ)) (8 : ℕ) = false ∧ (eng wit142 0).inFrame = true ∧ ((eng wit142 0).raw.length % 128 = 0 ∧ noCells wit142 1 =
     true)) ∧
    (portState wPart 0 = 2 ∧ (eng wPart 0).up = true ∧ dialectOf wPart 0 ≤ 31 ∧ BitVec.getLsbD (11 : BitVec (9 : ℕ))
     (8 : ℕ) = false ∧ (eng wPart 0).inFrame = true ∧ (¬((eng wPart 0).raw.length % 128 = 0 ∧ noCells wPart 1 = true))
     ∧ frameFate wPart (0 : ℕ) ((eng wPart (0 : ℕ)).raw ++ [BitVec.extractLsb' (0 : ℕ) (8 : ℕ) (11 : BitVec (9 : ℕ))])
     (eng wPart (0 : ℕ)).trail = Fate.more) ∧
    (portState wPart 0 = 2 ∧ (eng wPart 0).up = true ∧ dialectOf wPart 0 ≤ 31 ∧ BitVec.getLsbD (10 : BitVec (9 : ℕ))
     (8 : ℕ) = false ∧ (eng wPart 0).inFrame = true ∧ (¬((eng wPart 0).raw.length % 128 = 0 ∧ noCells wPart 1 = true))
     ∧ frameFate wPart (0 : ℕ) ((eng wPart (0 : ℕ)).raw ++ [BitVec.extractLsb' (0 : ℕ) (8 : ℕ) (10 : BitVec (9 : ℕ))])
     (eng wPart (0 : ℕ)).trail = Fate.whole) ∧
    (portState wit143 0 = 2 ∧ (eng wit143 0).up = true ∧ dialectOf wit143 0 ≤ 31 ∧ BitVec.getLsbD (5 : BitVec (9 : ℕ))
     (8 : ℕ) = false ∧ (eng wit143 0).inFrame = true ∧ (¬((eng wit143 0).raw.length % 128 = 0 ∧ noCells wit143 1 =
     true)) ∧ frameFate wit143 (0 : ℕ) ((eng wit143 (0 : ℕ)).raw ++ [BitVec.extractLsb' (0 : ℕ) (8 : ℕ) (5 : BitVec (9
     : ℕ))]) (eng wit143 (0 : ℕ)).trail = Fate.impossible) := by
  refine ⟨?_, ?_, ?_, ?_⟩ <;> decide +kernel

theorem witness_LaneSwitch_1 :
    (1 ≤ 3 ∧ 3 ≤ 2048 ∧ (qPort (wSw 2 0 wPort) 0 ≠ 255 ∧ (qSrc (wSw 2 0 wPort) 0 = 255 ∨ qSrc (wSw 2 0 wPort) 0 = 7) ∧
     ¬(7 = 55 ∧ qSvc (wSw 2 0 wPort) 0 < 2)) ∧ qPol (wSw 2 0 wPort) 0 = 65535 ∧ slotShut (wSw 2 0 wPort) (qPort (wSw 2
     0 wPort) 0) = false ∧ (queueCells (wSw 2 0 wPort) 0 + cellsOf 3 ≤ qMax (wSw 2 0 wPort) 0 ∧ cellsOf 3 ≤ freeCells
     (wSw 2 0 wPort) ∧ (qSvc (wSw 2 0 wPort) 0 ≠ 0 → reserveLegal (wSw 2 0 wPort) + cellsOf 3 ≤ freeCells (wSw 2 0
     wPort))) ∧ (∀ (c : Chosen), chosenAt (wSw 2 0 wPort) (qPort (wSw 2 0 wPort) 0) = some c → qSvc (wSw 2 0 wPort)
     c.q ≤ qSvc (wSw 2 0 wPort) 0)) ∧
    (1 ≤ 3 ∧ 3 ≤ 2048 ∧ (qPort (wSw 2 3 wPort) 0 ≠ 255 ∧ (qSrc (wSw 2 3 wPort) 0 = 255 ∨ qSrc (wSw 2 3 wPort) 0 = 7) ∧
     ¬(7 = 55 ∧ qSvc (wSw 2 3 wPort) 0 < 2)) ∧ qPol (wSw 2 3 wPort) 0 = 65535 ∧ slotShut (wSw 2 3 wPort) (qPort (wSw 2
     3 wPort) 0) = false ∧ (queueCells (wSw 2 3 wPort) 0 + cellsOf 3 ≤ qMax (wSw 2 3 wPort) 0 ∧ cellsOf 3 ≤ freeCells
     (wSw 2 3 wPort) ∧ (qSvc (wSw 2 3 wPort) 0 ≠ 0 → reserveLegal (wSw 2 3 wPort) + cellsOf 3 ≤ freeCells (wSw 2 3
     wPort))) ∧ (∀ (c : Chosen), chosenAt (wSw 2 3 wPort) (qPort (wSw 2 3 wPort) 0) = some c → qSvc (wSw 2 3 wPort)
     c.q ≤ qSvc (wSw 2 3 wPort) 0)) ∧
    (1 ≤ 3 ∧ 3 ≤ 2048 ∧ (qPort wit147 0 ≠ 255 ∧ (qSrc wit147 0 = 255 ∨ qSrc wit147 0 = 7) ∧ ¬(7 = 55 ∧ qSvc wit147 0 <
     2)) ∧ qPol wit147 0 = 65535 ∧ slotShut wit147 (qPort wit147 0) = false ∧ (¬(queueCells wit147 0 + cellsOf 3 ≤
     qMax wit147 0 ∧ cellsOf 3 ≤ freeCells wit147 ∧ (qSvc wit147 0 ≠ 0 → reserveLegal wit147 + cellsOf 3 ≤ freeCells
     wit147)))) ∧
    (1 ≤ 3 ∧ 3 ≤ 2048 ∧ (¬(qPort wPort 0 ≠ 255 ∧ (qSrc wPort 0 = 255 ∨ qSrc wPort 0 = 7) ∧ ¬(7 = 55 ∧ qSvc wPort 0 <
     2)))) ∧
    (1 ≤ 3 ∧ 3 ≤ 2048 ∧ (¬(qPort (wSw 2 0 wPort) 0 ≠ 255 ∧ (qSrc (wSw 2 0 wPort) 0 = 255 ∨ qSrc (wSw 2 0 wPort) 0 =
     55) ∧ ¬(55 = 55 ∧ qSvc (wSw 2 0 wPort) 0 < 2)))) ∧
    (chosenAt (wQueue 2 0 wPort) 2 = none ∧ pickSvc (wQueue 2 0 wPort) 2 = some 0 ∧ pickSub (wQueue 2 0 wPort) 2 0 =
     some 0 ∧ pickQueue (wQueue 2 0 wPort) 2 0 0 = some 0 ∧ queue (wQueue 2 0 wPort) 0 = [wPkt]) ∧
    (chosenAt (wQueue 2 3 wPort) 2 = none ∧ pickSvc (wQueue 2 3 wPort) 2 = some 3 ∧ pickSub (wQueue 2 3 wPort) 2 3 =
     some 0 ∧ pickQueue (wQueue 2 3 wPort) 2 3 0 = some 0 ∧ queue (wQueue 2 3 wPort) 0 = [wPkt]) ∧
    (((chosenAt (wChosen 2 wPkt wPort) 2).isSome = true ∨ pickSvc (wChosen 2 wPkt wPort) 2 = none)) ∧
    (chosenAt (wQueue 2 0 wPort) 2 = none) ∧
    (chosenAt (wChosen 2 wPkt wPort) 2 = some wit148 ∧ canStart (wChosen 2 wPkt wPort) 2 wit148.pkt = true ∧
     sendingEng 2 wit148.pkt = some 0 ∧ (0 < 48 ∨ 51 < 0)) := by
  refine ⟨?_, ?_, ?_, ?_, ?_, ?_, ?_, ?_, ?_, ?_⟩ <;> decide +kernel

theorem witness_LaneSwitch_2 :
    (chosenAt wit149 2 = some wit150 ∧ canStart wit149 2 wit150.pkt = true ∧ sendingEng 2 wit150.pkt = some 0 ∧ (0 <
     48 ∨ 51 < 0)) ∧
    (chosenAt wit151 0 = some wit152 ∧ canStart wit151 0 wit152.pkt = true ∧ 0 < 2 ∧ 0 = klpPort wit151 ∧ klpServed wit151 = true ∧ wit152.pkt.src ≠ 54 ∧ wit152.pkt.typ ≠ 0 ∧ wit152.pkt.form = 0 ∧ (tget { } wit151.klp.sess (sessIdx wit152.pkt.lane)).isOpen = true) ∧
    (chosenAt (wChosen 56 wKp wPort) 56 = some wit152 ∧ canStart (wChosen 56 wKp wPort) 56 wit152.pkt = true ∧ 56 = 56
     ∧ 32 ≤ wit152.pkt.typ ∧ wit152.pkt.typ ≤ 35 ∧ (wChosen 56 wKp wPort).slu.down.length < 32) ∧
    (chosenAt wit153 2 = some wit148 ∧ canStart wit153 2 wit148.pkt = false) ∧
    (chosenAt (wQueue 2 0 wPort) (qPort (wQueue 2 0 wPort) 0) = none ∧ (queue (wQueue 2 0 wPort) 0).any (hasTag (9,
     4)) = true) ∧
    (chosenAt (wQueue 2 0 wPort) (qPort (wQueue 2 0 wPort) 0) = none ∧ (queue (wQueue 2 0 wPort) 0).any (hasTag (9,
     5)) = false ∧ ((List.any (wQueue 2 0 wPort).sw.sent fun e ↦ hasTag (9, 5) e.2) = false)) ∧
    (2 ≠ 56 ∧ noCells (wFull wPort) 1 = true) ∧
    ((56 = 56 ∨ noCells (wFull wPort) 1 = false)) ∧
    ((54 = 56 ∨ noCells wPort 1 = false)) ∧
    (chosenAt wit154 (qPort wit154 0) = none ∧ (queue wit154 0).any (hasTag (9, 4)) = false ∧ ((List.any
     wit154.sw.sent fun e ↦ hasTag (9, 4) e.2) = true)) := by
  refine ⟨?_, ?_, ?_, ?_, ?_, ?_, ?_, ?_, ?_, ?_⟩ <;> decide +kernel

theorem witness_LaneSwitch_3 :
    ((inSched 559940512 = true ∨ inPolicer 559940512 = true) ∧ 559940512 % 4 = 0 ∧ unusedPort 559940512 = true) ∧
    ((inSched 559940620 = true ∨ inPolicer 559940620 = true) ∧ 559940620 % 4 = 0 ∧ unusedPort 559940620 = true) ∧
    ((inSched 559940880 = true ∨ inPolicer 559940880 = true) ∧ 559940880 % 4 = 0 ∧ unusedPort 559940880 = false ∧
     mirrorTry 559940880 255 5 (withStaged (wQueue 2 0 wPort)) = none) := by
  refine ⟨?_, ?_, ?_⟩ <;> decide +kernel

theorem witness_KlpMessages :
    (NextMessage 20 dB 0 wKlp ∧ 0 < 8 ∧ dB.payload.length ≤ 12 ∧ offerPkt (cf wKlp 28 0 62 2 0) (klpPort wKlp) false (hostPkt 20 0 dB (tget { } wKlp.klp.sess 0).num) (delivered 0 dB wKlp) = (Adm.accepted, offd 20 dB)) ∧
    ((32, Instr.price (wDgram 32 [1, 2, 3, 4])) ∈ [(32, Instr.price (wDgram 32 [1, 2, 3, 4])), (33, Instr.tare (wDgram 32 [1, 2, 3, 4])), (34, Instr.zero (wDgram 32 [1, 2, 3, 4])), (35, Instr.ldisp (wDgram 32 [1, 2, 3, 4]))] ∧ NextMessage 32 (wDgram 32 [1, 2, 3, 4]) 0 wKlp ∧ 0 < 8 ∧ laneLegal wKlp 0 = true ∧ (wDgram 32 [1, 2, 3, 4]).payload.length ≤ 120 ∧ offerPkt (cf wKlp 28 0 60 2 0) (klpPort wKlp) false (hostPkt 32 0 (wDgram 32 [1, 2, 3, 4]) (tget { } wKlp.klp.sess 0).num) (delivered 0 (wDgram 32 [1, 2, 3, 4]) wKlp) = (Adm.accepted, offd 32 (wDgram 32 [1, 2, 3, 4]))) ∧
    ((35, Instr.ldisp (wDgram 35 [1, 2, 3, 4])) ∈ [(32, Instr.price (wDgram 35 [1, 2, 3, 4])), (33, Instr.tare (wDgram 35 [1, 2, 3, 4])), (34, Instr.zero (wDgram 35 [1, 2, 3, 4])), (35, Instr.ldisp (wDgram 35 [1, 2, 3, 4]))] ∧ NextMessage 35 (wDgram 35 [1, 2, 3, 4]) 0 wKlp ∧ 0 < 8 ∧ laneLegal wKlp 0 = true ∧ (wDgram 35 [1, 2, 3, 4]).payload.length ≤ 120 ∧ offerPkt (cf wKlp 28 0 60 2 0) (klpPort wKlp) false (hostPkt 35 0 (wDgram 35 [1, 2, 3, 4]) (tget { } wKlp.klp.sess 0).num) (delivered 0 (wDgram 35 [1, 2, 3, 4]) wKlp) = (Adm.accepted, offd 35 (wDgram 35 [1, 2, 3, 4]))) ∧
    ((33, Instr.tare (wDgram 33 [1, 2, 3, 4])) ∈ [(32, Instr.price (wDgram 33 [1, 2, 3, 4])), (33, Instr.tare (wDgram
     33 [1, 2, 3, 4])), (34, Instr.zero (wDgram 33 [1, 2, 3, 4])), (35, Instr.ldisp (wDgram 33 [1, 2, 3, 4]))] ∧
     NextMessage 33 (wDgram 33 [1, 2, 3, 4]) 0 wKnl ∧ 0 < 8 ∧ laneLegal wKnl 0 = false) ∧
    ((36, Instr.display (wDgram 36 [49])) ∈ [(36, Instr.display (wDgram 36 [49])), (37, Instr.print (wDgram 36 [49])), (38, Instr.drawer (wDgram 36 [49]))] ∧ NextMessage 36 (wDgram 36 [49]) 0 wKlp ∧ routeTemplate wKlp (if 0 = 8 then 255 else 0) (wDgram 36 [49]).sub 36 = some (0, 0) ∧ offerFrame 0 0 (wDgram 36 [49]).payload (some ((tget { } wKlp.klp.sess 0).num, (wDgram 36 [49]).seq)) (delivered 0 (wDgram 36 [49]) wKlp) = (some Adm.accepted, wit155)) ∧
    ((38, Instr.drawer (wDgram 38 [49])) ∈ [(38, Instr.drawer (wDgram 38 [49])), (39, Instr.light (wDgram 38 [49])),
     (40, Instr.belt (wDgram 38 [49]))] ∧ NextMessage 38 (wDgram 38 [49]) 0 wKlp ∧ (38 = 38 → routeTemplate wKlp (if 0
     = 8 then 255 else 0) (wDgram 38 [49]).sub 38 = none) ∧ cf wKlp 28 0 56 1 255 ≠ 255 ∧ 0 < 8 ∧ laneShut wKlp 0 =
     false ∧ (wDgram 38 [49]).payload.length ≤ 8) ∧
    ((40, Instr.belt (wDgram 40 [1, 2, 3, 4, 5, 6, 7, 8])) ∈ [(38, Instr.drawer (wDgram 40 [1, 2, 3, 4, 5, 6, 7, 8])),
     (39, Instr.light (wDgram 40 [1, 2, 3, 4, 5, 6, 7, 8])), (40, Instr.belt (wDgram 40 [1, 2, 3, 4, 5, 6, 7, 8]))] ∧
     NextMessage 40 (wDgram 40 [1, 2, 3, 4, 5, 6, 7, 8]) 0 wKlp ∧ (40 = 38 → routeTemplate wKlp (if 0 = 8 then 255
     else 0) (wDgram 40 [1, 2, 3, 4, 5, 6, 7, 8]).sub 40 = none) ∧ cf wKlp 28 0 56 1 255 ≠ 255 ∧ 0 < 8 ∧ laneShut wKlp
     0 = false ∧ (wDgram 40 [1, 2, 3, 4, 5, 6, 7, 8]).payload.length ≤ 8) ∧
    ((39, wit156) ∈ [(38, Instr.drawer (wDgram 39 [1, 2, 3, 4, 5, 6, 7, 8])), (39, Instr.light (wDgram 39 [1, 2, 3, 4,
     5, 6, 7, 8])), (40, Instr.belt (wDgram 39 [1, 2, 3, 4, 5, 6, 7, 8]))] ∧ NextMessage 39 (wDgram 39 [1, 2, 3, 4, 5,
     6, 7, 8]) 0 wGrp ∧ (39 = 38 → routeTemplate wGrp (if 0 = 8 then 255 else 0) (wDgram 39 [1, 2, 3, 4, 5, 6, 7,
     8]).sub 39 = none) ∧ cf wGrp 28 0 56 1 255 ≠ 255 ∧ 0 < 8 ∧ laneShut wGrp 0 = false ∧ (wDgram 39 [1, 2, 3, 4, 5,
     6, 7, 8]).payload.length ≤ 8) ∧
    (NextMessage 5 wCan2 0 wKq2 ∧ seqEarlier (beNat (List.take 4 wCan2.payload)) wCan2.seq = true ∧ queueOfTag (delivered 0 wCan2 wKq2) ((tget { } wKq2.klp.sess 0).num, beNat (List.take 4 wCan2.payload)) = some 0 ∧ (((queue (delivered 0 wCan2 wKq2) 0 ++ List.map (fun c ↦ c.2.pkt) (List.filter (fun c ↦ c.2.q == 0) (chosenList (delivered 0 wCan2 wKq2)))).any fun k ↦ hasTag ((tget { } wKq2.klp.sess 0).num, beNat (List.take 4 wCan2.payload)) k && (k.typ == 20 || decide (32 ≤ k.typ) && decide (k.typ ≤ 35))) = false) ∧ withdraw 0 ((tget { } wKq2.klp.sess 0).num, beNat (List.take 4 wCan2.payload)) (delivered 0 wCan2 wKq2) = (true, wit157)) ∧
    (NextMessage 2 (wDgram 2 [0, 0, 0, 0]) 0 wKlp) := by
  delta NextMessage; delta Passes; refine ⟨?_, ?_, ?_, ?_, ?_, ?_, ?_, ?_, ?_, ?_⟩ <;> decide +kernel

theorem witness_KlpSessions_1 :
    (Passes (wRaw 255 2 9 0 3 0 255 []).typ (wRaw 255 2 9 0 3 0 255 []) 0 wKlp ∧ (wRaw 255 2 9 0 3 0 255 []).typ ≠ 1 ∧ (wRaw 255 2 9 0 3 0 255 []).typ ≠ 6 ∧ (wRaw 255 2 9 0 3 0 255 []).ackOnly = true ∧ ((wRaw 255 2 9 0 3 0 255 []).ack = (tget { } wKlp.klp.sess 0).txNext ∨ seqEarlier (wRaw 255 2 9 0 3 0 255 []).ack (tget { } wKlp.klp.sess 0).txNext = true) ∧ seqEarlier (wRaw 255 2 9 0 3 0 255 []).ack (tget { } wKlp.klp.sess 0).lastAck = false) ∧
    (Passes (wRaw 255 2 9 0 2 0 255 []).typ (wRaw 255 2 9 0 2 0 255 []) 0 wKlp ∧ (wRaw 255 2 9 0 2 0 255 []).typ ≠ 1 ∧ (wRaw 255 2 9 0 2 0 255 []).typ ≠ 6 ∧ (wRaw 255 2 9 0 2 0 255 []).ackOnly = true ∧ ((wRaw 255 2 9 0 2 0 255 []).ack = (tget { } wKlp.klp.sess 0).txNext ∨ seqEarlier (wRaw 255 2 9 0 2 0 255 []).ack (tget { } wKlp.klp.sess 0).txNext = true) ∧ seqEarlier (wRaw 255 2 9 0 2 0 255 []).ack (tget { } wKlp.klp.sess 0).lastAck = false) ∧
    (Passes (wRaw 255 2 9 0 4 0 255 []).typ (wRaw 255 2 9 0 4 0 255 []) 0 wKlp ∧ (wRaw 255 2 9 0 4 0 255 []).typ ≠ 1 ∧ (wRaw 255 2 9 0 4 0 255 []).typ ≠ 6 ∧ (wRaw 255 2 9 0 4 0 255 []).ackOnly = true ∧ ((wRaw 255 2 9 0 4 0 255 []).ack ≠ (tget { } wKlp.klp.sess 0).txNext ∧ seqEarlier (wRaw 255 2 9 0 4 0 255 []).ack (tget { } wKlp.klp.sess 0).txNext = false ∨ seqEarlier (wRaw 255 2 9 0 4 0 255 []).ack (tget { } wKlp.klp.sess 0).lastAck = true)) ∧
    (Passes (wRaw 255 2 9 0 0 0 255 []).typ (wRaw 255 2 9 0 0 0 255 []) 0 wKlp ∧ (wRaw 255 2 9 0 0 0 255 []).typ ≠ 1 ∧ (wRaw 255 2 9 0 0 0 255 []).typ ≠ 6 ∧ (wRaw 255 2 9 0 0 0 255 []).ackOnly = true ∧ ((wRaw 255 2 9 0 0 0 255 []).ack ≠ (tget { } wKlp.klp.sess 0).txNext ∧ seqEarlier (wRaw 255 2 9 0 0 0 255 []).ack (tget { } wKlp.klp.sess 0).txNext = false ∨ seqEarlier (wRaw 255 2 9 0 0 0 255 []).ack (tget { } wKlp.klp.sess 0).lastAck = true)) ∧
    (wit158.typ = 6 ∧ headerCheck wit158 = 0 ∧ wit158.crcOk = true ∧ ↑wit158.uplink = klpPort wDo ∧ (isOwn wDo
     (klpPort wDo) wit158.v6 wit158.dst.toNat = true ∨ wit158.v6 = false ∧ wit158.dst.toNat = 4294967295) ∧
     wit158.session = 0 ∧ wit158.lane = 255 ∧ wit158.length = 24 ∧ List.take 16 wit158.payload = wDo.img.storeUuid ++
     List.replicate (16 - wDo.img.storeUuid.length) 0 ∧ (klpAuth wDo = 0 ∨ wit158.tagged = true ∧ klpTag wDo wit158
     none = true ∧ wDo.ret.wakeCtr < beNat (List.take 8 (List.drop 16 wit158.payload))) ∧ wDo.md.mode = Mode.dormant ∧
     wDo.md.wakeStep = 0 ∧ paired wDo = false ∧ bitOf (wakeSrc wDo) 0 = true) ∧
    (wit158.typ = 6 ∧ headerCheck wit158 = 0 ∧ wit158.crcOk = true ∧ ↑wit158.uplink = klpPort wKlp ∧ (isOwn wKlp
     (klpPort wKlp) wit158.v6 wit158.dst.toNat = true ∨ wit158.v6 = false ∧ wit158.dst.toNat = 4294967295) ∧
     wit158.session = 0 ∧ wit158.lane = 255 ∧ wit158.length = 24 ∧ List.take 16 wit158.payload = wKlp.img.storeUuid ++
     List.replicate (16 - wKlp.img.storeUuid.length) 0 ∧ (klpAuth wKlp = 0 ∨ wit158.tagged = true ∧ klpTag wKlp wit158
     none = true ∧ wKlp.ret.wakeCtr < beNat (List.take 8 (List.drop 16 wit158.payload))) ∧ wKlp.md.mode ≠ Mode.dormant) ∧
    ((tget { } wit159.klp.sess 0).ackDue = some 1000 ∧ 1000 ≤ wit159.clk.tick) ∧
    ((tget { } wit160.klp.sess 0).isOpen = true ∧ (tget { } wit160.klp.sess 0).lastRx + idleTicks wit160 < wit160.clk.tick) ∧
    (wit161.clk.tick ≤ (tget { } wit161.klp.sess 0).lastRx + idleTicks wit161) ∧
    ((tget { } wit162.klp.sess 0).isOpen = true ∧ (∃ u ∈ (tget { } wit162.klp.sess 0).unack, maxRetx wit162 ≤ u.tries ∧ u.tick + (u.tries + 1) * rtoTicks wit162 < wit162.clk.tick)) := by
  delta Passes; refine ⟨?_, ?_, ?_, ?_, ?_, ?_, ?_, ?_, ?_, ?_⟩ <;> decide +kernel

theorem witness_KlpSessions_2 :
    ((∀ u ∈ (tget { } wKlp.klp.sess 0).unack, maxRetx wKlp ≤ u.tries → wKlp.clk.tick ≤ u.tick + (u.tries + 1) * rtoTicks wKlp) ∧ (List.Pairwise (fun u w ↦ u.seq ≠ w.seq) (tget { } wKlp.klp.sess 0).unack)) ∧
    (uplinkUsed wKlp ↑wit163.uplink = false) ∧
    (uplinkUsed wKlp ↑wit164.uplink = true ∧ wit164.fcsOk = false) ∧
    (uplinkUsed wKlp ↑wF.uplink = true ∧ wF.fcsOk = true ∧ 64 ≤ wF.len ∧ wF.len ≤ 1522 ∧ wF.vid.toNat = cf wKlp 28 0
     (8 + 2 * ↑wF.uplink) 2 0 ∧ takesMac wKlp (↑wF.uplink) wF.dmac.toNat = true ∧ wF.supported = true ∧ ↑wF.uplink =
     klpPort wKlp ∧ wF.klp = some (wDgram 32 [1, 2, 3, 4]) ∧ wF.frag = none) ∧
    (uplinkUsed wKlp ↑wit165.uplink = true ∧ wit165.fcsOk = true ∧ 64 ≤ wit165.len ∧ wit165.len ≤ 1522 ∧
     wit165.vid.toNat = cf wKlp 28 0 (8 + 2 * ↑wit165.uplink) 2 0 ∧ takesMac wKlp (↑wit165.uplink) wit165.dmac.toNat =
     true ∧ wit165.supported = true ∧ ↑wit165.uplink = klpPort wKlp ∧ wit165.klp = some (wDgram 32 [1, 2, 3, 4]) ∧
     wit165.frag = some 3 ∧ (∀ g ∈ wKlp.klp.frags, g.1 ≠ 3) ∧ wKlp.klp.frags.length < 16) ∧
    (uplinkUsed wit166 ↑wit165.uplink = true ∧ wit165.fcsOk = true ∧ 64 ≤ wit165.len ∧ wit165.len ≤ 1522 ∧
     wit165.vid.toNat = cf wit166 28 0 (8 + 2 * ↑wit165.uplink) 2 0 ∧ takesMac wit166 (↑wit165.uplink)
     wit165.dmac.toNat = true ∧ wit165.supported = true ∧ ↑wit165.uplink = klpPort wit166 ∧ wit165.klp = some (wDgram
     32 [1, 2, 3, 4]) ∧ wit165.frag = some 3 ∧ (3, 1000) ∈ wit166.klp.frags ∧ (3, 1000).1 = 3) := by
  refine ⟨?_, ?_, ?_, ?_, ?_, ?_⟩ <;> decide +kernel

theorem witness_KlpSessions_at_hand :
    ((∀ (x : Option Sess), tagFits wKlp (wRaw 1 0 0 4294967295 0 255 255 []) x = true) ∧ (wRaw 1 0 0 4294967295 0 255 255 []).typ = 1 ∧ ↑(wRaw 1 0 0 4294967295 0 255 255 []).uplink = klpPort wKlp ∧ servesAddr wKlp (wRaw 1 0 0 4294967295 0 255 255 []).v6 (wRaw 1 0 0 4294967295 0 255 255 []).dst.toNat = true ∧ headerCheck (wRaw 1 0 0 4294967295 0 255 255 []) = 0 ∧ (wRaw 1 0 0 4294967295 0 255 255 []).crcOk = true ∧ (wRaw 1 0 0 4294967295 0 255 255 []).session = 0 ∧ (klpAuth wKlp ≠ 2 ∨ (wRaw 1 0 0 4294967295 0 255 255 []).tagged = true) ∧ ((wRaw 1 0 0 4294967295 0 255 255 []).lane = 255 ∨ (wRaw 1 0 0 4294967295 0 255 255 []).lane < 8 ∧ laneUsed wKlp (wRaw 1 0 0 4294967295 0 255 255 []).lane = true) ∧ ((tget { } wKlp.klp.sess (sessIdx (wRaw 1 0 0 4294967295 0 255 255 []).lane)).isOpen = false ∨ (tget { } wKlp.klp.sess (sessIdx (wRaw 1 0 0 4294967295 0 255 255 []).lane)).addr = (wRaw 1 0 0 4294967295 0 255 255 []).addr.toNat ∧ (tget { } wKlp.klp.sess (sessIdx (wRaw 1 0 0 4294967295 0 255 255 []).lane)).port = (wRaw 1 0 0 4294967295 0 255 255 []).sport.toNat ∧ (tget { } wKlp.klp.sess (sessIdx (wRaw 1 0 0 4294967295 0 255 255 []).lane)).v6 = (wRaw 1 0 0 4294967295 0 255 255 []).v6 ∨ (tget { } wKlp.klp.sess (sessIdx (wRaw 1 0 0 4294967295 0 255 255 []).lane)).lastRx + idleTicks wKlp < wKlp.clk.tick)) ∧
    ((∀ (x : Option Sess), tagFits wKlp wOpen x = true) ∧ wOpen.typ = 1 ∧ ↑wOpen.uplink = klpPort wKlp ∧ servesAddr wKlp wOpen.v6 wOpen.dst.toNat = true ∧ headerCheck wOpen = 0 ∧ wOpen.crcOk = true ∧ wOpen.session = 0 ∧ (klpAuth wKlp ≠ 2 ∨ wOpen.tagged = true) ∧ (wOpen.lane = 255 ∨ wOpen.lane < 8 ∧ laneUsed wKlp wOpen.lane = true) ∧ ((tget { } wKlp.klp.sess (sessIdx wOpen.lane)).isOpen = false ∨ (tget { } wKlp.klp.sess (sessIdx wOpen.lane)).addr = wOpen.addr.toNat ∧ (tget { } wKlp.klp.sess (sessIdx wOpen.lane)).port = wOpen.sport.toNat ∧ (tget { } wKlp.klp.sess (sessIdx wOpen.lane)).v6 = wOpen.v6 ∨ (tget { } wKlp.klp.sess (sessIdx wOpen.lane)).lastRx + idleTicks wKlp < wKlp.clk.tick)) := by
  refine ⟨?_, ?_⟩
  · exact ⟨fun _ => by rfl, by decide +kernel⟩
  · exact ⟨fun _ => by rfl, by decide +kernel⟩

theorem witness_HmpRequests :
    (servesHmp wHello false wHmp = true ∧ wHello.kind = 1 ∧ hdrGood wHello false true (beBytes 16 3 ++ beBytes 4 1) []
     = false) ∧
    (servesHmp wHello false wHmp = true ∧ wHello.kind = 1 ∧ hdrGood wHello false true (beBytes 16 3 ++ beBytes 4 1)
     (wCrc 3 1) = true ∧ wHmp.hmp.helloSec < cf wHmp 29 0 7 1 8 ∧ (List.find? (fun k ↦ k.id == 1) wHmp.img.keys = some
     wit167) ∧ wHmp.hmp.sess.length < cf wHmp 29 0 1 1 4) ∧
    (servesHmp wHello false wHmp = true ∧ wHello.kind = 1 ∧ hdrGood wHello false true (beBytes 16 3 ++ beBytes 4 2)
     (wCrc 3 2) = true ∧ wHmp.hmp.helloSec < cf wHmp 29 0 7 1 8 ∧ (∀ k ∈ wHmp.img.keys, k.id ≠ 2)) ∧
    (servesHmp wit168 false wHmp = false) ∧
    (hSess wit169 5 = some wSess ∧ (∀ (w : SlotWrite), wit169.hmp.write = some w → w.owner ≠ wSess.num) ∧ wSess.idle +
     hmpIdle wit169 < wit169.clk.tick) ∧
    (hSess wHmp 5 = some wSess ∧ (∀ (w : SlotWrite), wHmp.hmp.write = some w → w.owner ≠ wSess.num) ∧ wHmp.clk.tick ≤
     wSess.idle + hmpIdle wHmp) ∧
    (servesHmp (wPoke 269484032 255 7).hd (wPoke 269484032 255 7).bulk wit170 = false) ∧
    (servesHmp wit171.hd wit171.bulk wHmp = true ∧ wit171.kindOk = true ∧ hdrGood wit171.hd wit171.bulk wit171.plain
     (wit171.body 18 (beBytes 4 269484032 ++ beBytes 4 255 ++ beBytes 4 7)) wit171.tail = false) ∧
    (servesHmp wit172.hd wit172.bulk wHmp = true ∧ wit172.kindOk = true ∧ hdrGood wit172.hd wit172.bulk wit172.plain
     (wit172.body 18 (beBytes 4 269484032 ++ beBytes 4 255 ++ beBytes 4 7)) wit172.tail = true ∧ wit172.plain = true) := by
  refine ⟨?_, ?_, ?_, ?_, ?_, ?_, ?_, ?_, ?_⟩ <;> decide +kernel

theorem witness_HmpRequests_at_hand_1 :
    (wit173.sealed wSess (wit173.body 18 (beBytes 4 269484032 ++ beBytes 4 255 ++ beBytes 4 7)) = false ∧ servesHmp
     wit173.hd wit173.bulk wit174 = true ∧ wit173.kindOk = true ∧ hdrGood wit173.hd wit173.bulk wit173.plain
     (wit173.body 18 (beBytes 4 269484032 ++ beBytes 4 255 ++ beBytes 4 7)) wit173.tail = true ∧ wit173.plain = false
     ∧ wit173.bulk = false ∧ hSess wit174 (BitVec.toNat wit173.hd.session) = some wSess ∧ wit174.hmp.authSec = true) ∧
    (wit175.sealed wSess (wit175.body 18 (beBytes 4 269484032 ++ beBytes 4 255 ++ beBytes 4 7)) = true ∧ servesHmp
     wit175.hd wit175.bulk wHmp = true ∧ wit175.kindOk = true ∧ hdrGood wit175.hd wit175.bulk wit175.plain
     (wit175.body 18 (beBytes 4 269484032 ++ beBytes 4 255 ++ beBytes 4 7)) wit175.tail = true ∧ wit175.plain = false
     ∧ wit175.bulk = false ∧ hSess wHmp (BitVec.toNat wit175.hd.session) = some wSess ∧ wit175.hd.counter.toNat ≤
     wSess.top ∧ (wit175.hd.counter.toNat = wSess.top ∨ wit175.hd.counter.toNat + 64 < wSess.top ∨
     wit175.hd.counter.toNat ∈ wSess.seen)) ∧
    ((wPoke 269484032 255 7).sealed sK ((wPoke 269484032 255 7).body 18 (beBytes 4 269484032 ++ beBytes 4 255 ++
     beBytes 4 7)) = true ∧ servesHmp (wPoke 269484032 255 7).hd (wPoke 269484032 255 7).bulk wit176 = true ∧ (wPoke
     269484032 255 7).kindOk = true ∧ hdrGood (wPoke 269484032 255 7).hd (wPoke 269484032 255 7).bulk (wPoke 269484032
     255 7).plain ((wPoke 269484032 255 7).body 18 (beBytes 4 269484032 ++ beBytes 4 255 ++ beBytes 4 7)) (wPoke
     269484032 255 7).tail = true ∧ (wPoke 269484032 255 7).plain = false ∧ (wPoke 269484032 255 7).bulk = false ∧
     hSess wit176 (BitVec.toNat (wPoke 269484032 255 7).hd.session) = some sK ∧ sK.top < (wPoke 269484032 255
     7).hd.counter.toNat ∧ (List.find? (fun k ↦ k.req == BitVec.toNat (wPoke 269484032 255 7).reqId) sK.kept = some
     wit177)) ∧
    (Asks (wAsk 1 []) 1 [] wSess wHmp) ∧
    (Asks (wAsk 2 []) 2 [] wSess wit178) ∧
    (Asks (wAsk 96 []) 96 [] wSess wHmp ∧ wHmp.hmp.bulk = none) ∧
    (Asks (wAsk 96 []) 96 [] wSess wit179 ∧ wit179.hmp.bulk = some 8 ∧ 8 ≠ wSess.num) ∧
    (Asks (wAsk 3 []) 3 [] wSess wHmp ∧ (∀ (w : SlotWrite), wHmp.hmp.write = some w → w.owner ≠ wSess.num)) ∧
    (Asks wit180 64 (beBytes 4 0 ++ beBytes 2 40) wSess wHmp ∧ 1 ≤ 40 ∧ 40 ≤ 40) ∧
    (Asks (wAsk 65 (beBytes 4 0)) 65 (beBytes 4 0) wSess wit181) := by
  refine ⟨?_, ?_, ?_, ?_, ?_, ?_, ?_, ?_, ?_, ?_⟩
  · exact ⟨flipped_unsealed (wAsk_tagged _ _ _) rfl (by decide), by decide +kernel⟩
  · exact ⟨tagged_sealed rfl (wAgain_tagged _ _ _), by decide +kernel⟩
  · exact ⟨tagged_sealed rfl (wAsk_tagged _ _ _), by decide +kernel⟩
  · exact asks (wAsk_tagged _ _ _) (by decide +kernel)
  · exact asks (wAsk_tagged _ _ _) (by decide +kernel)
  · exact ⟨asks (wAsk_tagged _ _ _) (by decide +kernel), by decide +kernel⟩
  · exact ⟨asks (wAsk_tagged _ _ _) (by decide +kernel), by decide +kernel⟩
  · exact ⟨asks (wAsk_tagged _ _ _) (by decide +kernel), by decide +kernel⟩
  · exact ⟨asks (wAsk_tagged _ _ _) (by decide +kernel), by decide +kernel⟩
  · exact asks (wAsk_tagged _ _ _) (by decide +kernel)

theorem witness_HmpRequests_at_hand_2 :
    (Asks wit182 16 (beBytes 4 1342177572 ++ beBytes 2 1) wSess wHmp ∧ 1 ≤ 1 ∧ 1 ≤ 256 ∧ (∀ i < 1, inFbView
     (1342177572 + 4 * i) = false ∧ inReam (1342177572 + 4 * i) = false ∧ drawsFree (1342177572 + 4 * i) = false ∧
     peekWord 0 (1342177572 + 4 * i) (asked wit182 wSess wHmp) = some 0)) ∧
    (Asks wit183 16 (beBytes 4 0 ++ beBytes 2 257) wSess wHmp ∧ (257 = 0 ∨ 256 < 257)) ∧
    (Asks (wAsk 17 (beBytes 4 1342178832) 2) 17 (beBytes 4 1342178832) wSess wHmp ∧ (wAsk 17 (beBytes 4 1342178832)
     2).effect = true ∧ inFbView 1342178832 = false ∧ inReam 1342178832 = false ∧ drawsFree 1342178832 = false ∧
     peekWord 0 1342178832 (asked (wAsk 17 (beBytes 4 1342178832) 2) wSess wHmp) = some 0) ∧
    (Asks (wAsk 17 (beBytes 4 1342178832)) 17 (beBytes 4 1342178832) wSess wHmp ∧ (wAsk 17 (beBytes 4
     1342178832)).effect = false) ∧
    (Asks (wPoke 269484036 255 18) 18 (beBytes 4 269484036 ++ beBytes 4 255 ++ beBytes 4 18) wSess wHmp ∧ 269484036 %
     4 = 0 ∧ inSlot 269484036 = some (1 - wHmp.exe.runSlot) ∧ wHmp.exe.runSlot ≤ 1) ∧
    (Asks (wPoke 268435460 255 18) 18 (beBytes 4 268435460 ++ beBytes 4 255 ++ beBytes 4 18) wSess wHmp ∧ inSlot
     268435460 = some wHmp.exe.runSlot) := by
  refine ⟨?_, ?_, ?_, ?_, ?_, ?_⟩
  · exact ⟨asks (wAsk_tagged _ _ _) (by decide +kernel), by decide +kernel⟩
  · exact ⟨asks (wAsk_tagged _ _ _) (by decide +kernel), by decide +kernel⟩
  · exact ⟨asks (wAsk_tagged _ _ _) (by decide +kernel), by decide +kernel⟩
  · exact ⟨asks (wAsk_tagged _ _ _) (by decide +kernel), by decide +kernel⟩
  · exact ⟨asks (wAsk_tagged _ _ _) (by decide +kernel), by decide +kernel⟩
  · exact ⟨asks (wAsk_tagged _ _ _) (by decide +kernel), by decide +kernel⟩

theorem witness_HmpControl_at_hand_1 :
    (Asks (wAsk 32 [3, 1]) 32 [3, 1] wSess wAct ∧ 1 < 2 ∧ wAct.md.mode ≠ Mode.dormant ∧ wAct.ring.put < wAct.ring.take
     + 64) ∧
    (Asks (wAsk 32 [3, 1]) 32 [3, 1] wSess wit184 ∧ wit184.md.mode = Mode.dormant ∧ (3 : Byte) = (3 : Byte) ∧ 1 < 2 ∧
     wit184.md.wakeStep = 0 ∧ paired wit184 = false) ∧
    (Asks wit185 34 ([2] ++ beBytes 3 wit185.zeros.toNat ++ beBytes 4 7 ++ beBytes 4 8) wSess wAct ∧ wit185.zeros = 0
     ∧ wAct.md.mode ≠ Mode.dormant ∧ wAct.ring.put < wAct.ring.take + 64) ∧
    (Asks (wAsk 33 []) 33 [] wSess wHmp ∧ wHmp.hmp.write = none ∧ wHmp.md.mode ≠ Mode.active ∧ wHmp.md.testHold =
     false) ∧
    (Asks (wAsk 35 (beBytes 4 4 ++ leBytes 4 9)) 35 (beBytes 4 4 ++ leBytes 4 9) wSess wHmp ∧ 4 + (leBytes 4 9).length
     ≤ 1048576 ∧ wHmp.trial.st = TrialSt.idle ∧ 4 % 4 = 0 ∧ leBytes 4 9 = leBytes 4 9) ∧
    (Asks (wAsk 35 (beBytes 4 4 ++ [1, 2])) 35 (beBytes 4 4 ++ [1, 2]) wSess wit186 ∧ (4 : ℕ) + [(1 : Byte), (2 :
     Byte)].length ≤ (1048576 : ℕ) ∧ wit186.trial.st ≠ TrialSt.idle) ∧
    (Asks wit187 48 ([2] ++ beBytes 3 wit187.zeros.toNat ++ beBytes 4 64 ++ beBytes 4 0) wSess wHmp ∧ wit187.zeros = 0
     ∧ 1 ≤ 2 ∧ 2 ≤ 3 ∧ wHmp.md.mode ≠ Mode.dormant ∧ 64 ≤ 64 ∧ 64 ≤ (copyRange wHmp 2 (freeCopy wHmp 2)).2 ∧
     wHmp.hmp.write = none ∧ wHmp.hmp.waits = [] ∧ wit187.flashOk = true) ∧
    (Asks wit188 48 ([2] ++ beBytes 3 wit188.zeros.toNat ++ beBytes 4 64 ++ beBytes 4 0) wSess wHmp ∧ wit188.zeros = 0
     ∧ 1 ≤ 2 ∧ 2 ≤ 3 ∧ wHmp.md.mode ≠ Mode.dormant ∧ 64 ≤ 64 ∧ 64 ≤ (copyRange wHmp 2 (freeCopy wHmp 2)).2 ∧
     wHmp.hmp.write = none ∧ wHmp.hmp.waits = [] ∧ wit188.flashOk = false) ∧
    (Asks wit189 49 ([2] ++ beBytes 3 wit189.zeros.toNat ++ beBytes 4 60 ++ [1, 2, 3, 4]) wSess (wWr wWrite wHmp) ∧
     (wWr wWrite wHmp).hmp.write = some wWrite ∧ wWrite.owner = wSess.num ∧ (wWr wWrite wHmp).md.mode ≠ Mode.dormant ∧
     2 = wWrite.area ∧ wit189.zeros = 0 ∧ 60 = wWrite.next ∧ wWrite.next + [(1 : Byte), (2 : Byte), (3 : Byte), (4 :
     Byte)].length ≤ wWrite.len ∧ [(1 : Byte), (2 : Byte), (3 : Byte), (4 : Byte)].length ≤ (1024 : ℕ) ∧
     wit189.flashOk = true) ∧
    (Asks wit190 49 ([2] ++ beBytes 3 wit190.zeros.toNat ++ beBytes 4 61 ++ [1, 2, 3, 4]) wSess (wWr wWrite wHmp) ∧
     (wWr wWrite wHmp).hmp.write = some wWrite ∧ wWrite.owner = wSess.num ∧ (wWr wWrite wHmp).md.mode ≠ Mode.dormant ∧
     2 = wWrite.area ∧ wit190.zeros = 0 ∧ 61 ≠ wWrite.next) := by
  refine ⟨?_, ?_, ?_, ?_, ?_, ?_, ?_, ?_, ?_, ?_⟩
  · exact ⟨asks (wAsk_tagged _ _ _) (by decide +kernel), by decide +kernel⟩
  · exact ⟨asks (wAsk_tagged _ _ _) (by decide +kernel), by decide +kernel⟩
  · exact ⟨asks (wAsk_tagged _ _ _) (by decide +kernel), by decide +kernel⟩
  · exact ⟨asks (wAsk_tagged _ _ _) (by decide +kernel), by decide +kernel⟩
  · exact ⟨asks (wAsk_tagged _ _ _) (by decide +kernel), by decide +kernel⟩
  · exact ⟨asks (wAsk_tagged _ _ _) (by decide +kernel), by decide +kernel⟩
  · exact ⟨asks (wAsk_tagged _ _ _) (by decide +kernel), by decide +kernel⟩
  · exact ⟨asks (tagged_flash (wAsk_tagged _ _ _) _) (by decide +kernel), by decide +kernel⟩
  · exact ⟨asks (wAsk_tagged _ _ _) (by decide +kernel), by decide +kernel⟩
  · exact ⟨asks (wAsk_tagged _ _ _) (by decide +kernel), by decide +kernel⟩

theorem witness_HmpControl_at_hand_2 :
    (Asks (wAsk 50 [2]) 50 [2] wSess (wWr wW64 wZero) ∧ (wWr wW64 wZero).hmp.write = some wW64 ∧ wW64.owner =
     wSess.num ∧ (wWr wW64 wZero).md.mode ≠ Mode.dormant ∧ 2 = wW64.area ∧ wW64.next = wW64.len ∧ (wWr wW64
     wZero).hmp.waits = [] ∧ readBack (asked (wAsk 50 [2]) wSess (wWr wW64 wZero)) wW64.area wW64.copy = true ∧
     wW64.hold = 0) ∧
    (Asks (wAsk 50 [2]) 50 [2] wSess wit191 ∧ wit191.hmp.write = some wit192 ∧ wit192.owner = wSess.num ∧
     wit191.md.mode ≠ Mode.dormant ∧ 2 = wit192.area ∧ wit192.next = wit192.len ∧ wit191.hmp.waits = [] ∧ readBack
     (asked (wAsk 50 [2]) wSess wit191) wit192.area wit192.copy = true ∧ wit192.hold ≠ 0) ∧
    (Asks (wAsk 50 [2]) 50 [2] wSess (wWr wW64 wHmp) ∧ (wWr wW64 wHmp).hmp.write = some wW64 ∧ wW64.owner = wSess.num
     ∧ (wWr wW64 wHmp).md.mode ≠ Mode.dormant ∧ 2 = wW64.area ∧ wW64.next = wW64.len ∧ (wWr wW64 wHmp).hmp.waits = []
     ∧ readBack (asked (wAsk 50 [2]) wSess (wWr wW64 wHmp)) wW64.area wW64.copy = false) ∧
    (Asks (wAsk 51 [2]) 51 [2] wSess (wWr wW64 wHmp) ∧ (wWr wW64 wHmp).hmp.write = some wW64 ∧ wW64.owner = wSess.num
     ∧ (wWr wW64 wHmp).md.mode ≠ Mode.dormant ∧ 2 = wW64.area ∧ (wWr wW64 wHmp).hmp.waits = []) ∧
    (Asks wit193 80 ([1, 3] ++ beBytes 2 wit193.zeros.toNat ++ beBytes 4 4 ++ beBytes 32 5 ++ beBytes 4 6 ++ beBytes
     32 7) wSess wit194 ∧ wit193.zeros = 0 ∧ wit193.flashOk = true ∧ 1 ≤ 1 ∧ 3 ≤ 3 ∧ 8192 ≤ wit194.img.keyLen ∧
     wSess.inst ≠ 1) ∧
    (Asks (wAsk 81 (beBytes 32 6) 4) 81 (beBytes 32 6) wSess wit195 ∧ (wAsk 81 (beBytes 32 6) 4).irrev = true ∧
     wit195.md.mode = Mode.hold ∧ wit195.boot.custKey = 0) ∧
    (Asks (wAsk 81 (beBytes 32 6) 4) 81 (beBytes 32 6) wSess wAct ∧ (wAct.md.mode ≠ Mode.hold ∨ (wAsk 81 (beBytes 32
     6) 4).irrev = false)) ∧
    (Asks (wAsk 81 (beBytes 32 6)) 81 (beBytes 32 6) wSess wHmp ∧ (wHmp.md.mode ≠ Mode.hold ∨ (wAsk 81 (beBytes 32
     6)).irrev = false)) ∧
    (Asks (wAsk 82 [] 4) 82 [] wSess wHmp ∧ (wAsk 82 [] 4).irrev = true ∧ wHmp.md.mode = Mode.hold) := by
  refine ⟨?_, ?_, ?_, ?_, ?_, ?_, ?_, ?_, ?_⟩
  · exact ⟨asks (wAsk_tagged _ _ _) (by decide +kernel), by decide +kernel⟩
  · exact ⟨asks (wAsk_tagged _ _ _) (by decide +kernel), by decide +kernel⟩
  · exact ⟨asks (wAsk_tagged _ _ _) (by decide +kernel), by decide +kernel⟩
  · exact ⟨asks (wAsk_tagged _ _ _) (by decide +kernel), by decide +kernel⟩
  · exact ⟨asks (wAsk_tagged _ _ _) (by decide +kernel), by decide +kernel⟩
  · exact ⟨asks (wAsk_tagged _ _ _) (by decide +kernel), by decide +kernel⟩
  · exact ⟨asks (wAsk_tagged _ _ _) (by decide +kernel), by decide +kernel⟩
  · exact ⟨asks (wAsk_tagged _ _ _) (by decide +kernel), by decide +kernel⟩
  · exact ⟨asks (wAsk_tagged _ _ _) (by decide +kernel), by decide +kernel⟩

theorem witness_DebugPort_1 :
    (tapOn (wDbg Mode.hold) = true ∧ (wDbg Mode.hold).dbg.extest = false ∧ dbgLocked (wDbg Mode.hold) = false ∧ (wDbg
     Mode.hold).md.mode = Mode.hold) ∧
    (tapOn (wDbg Mode.active) = true ∧ (wDbg Mode.active).dbg.extest = false ∧ dbgLocked (wDbg Mode.active) = false ∧
     (wDbg Mode.active).md.mode ≠ Mode.hold) ∧
    (tapOn (wDbg Mode.hold) = true ∧ (wDbg Mode.hold).dbg.extest = false ∧ (wDbg Mode.hold).md.testHold = false) ∧
    (tapOn (wDbg Mode.hold) = true ∧ (wDbg Mode.hold).dbg.extest = false ∧ (31 : BitVec (5 : ℕ)) ≠ (0 : BitVec (5 :
     ℕ)) ∧ (31 : BitVec (5 : ℕ)) ≠ (1 : BitVec (5 : ℕ)) ∧ (31 : BitVec (5 : ℕ)) ≠ (2 : BitVec (5 : ℕ)) ∧ (31 : BitVec
     (5 : ℕ)) ≠ (16 : BitVec (5 : ℕ)) ∧ (31 : BitVec (5 : ℕ)) ≠ (17 : BitVec (5 : ℕ))) ∧
    (tapOn (wDbg Mode.hold) = true ∧ (wDbg Mode.hold).dbg.extest = false ∧ (3 : BitVec (5 : ℕ)) ≠ (0 : BitVec (5 : ℕ))
     ∧ (3 : BitVec (5 : ℕ)) ≠ (1 : BitVec (5 : ℕ)) ∧ (3 : BitVec (5 : ℕ)) ≠ (2 : BitVec (5 : ℕ)) ∧ (3 : BitVec (5 :
     ℕ)) ≠ (16 : BitVec (5 : ℕ)) ∧ (3 : BitVec (5 : ℕ)) ≠ (17 : BitVec (5 : ℕ))) ∧
    (tapOn wit196 = true ∧ wit196.dbg.extest = false ∧ wit196.isl.tap = true) ∧
    (tapOn wit197 = true ∧ wit197.dbg.extest = false ∧ wit197.isl.tap = false) ∧
    (tapOn wit196 = true ∧ wit196.dbg.extest = false ∧ wit196.isl.tap = true ∧ wit196.dbg.islIr = 2) ∧
    (tapOn (wDbg Mode.hold) = true ∧ (wDbg Mode.hold).dbg.extest = false ∧ (wDbg Mode.hold).dbg.lockout = false) ∧
    (tapOn wit198 = true ∧ wit198.dbg.extest = false ∧ dbgLocked wit198 = true) := by
  refine ⟨?_, ?_, ?_, ?_, ?_, ?_, ?_, ?_, ?_, ?_⟩ <;> decide +kernel

theorem witness_DebugPort_2 :
    (tapOn wit199 = true ∧ wit199.dbg.extest = false ∧ dbgLocked wit199 = false ∧ wit199.dbg.busy = true) ∧
    (tapOn (wDbg Mode.active) = true ∧ (wDbg Mode.active).dbg.extest = false ∧ dbgLocked (wDbg Mode.active) = false ∧
     (wDbg Mode.active).dbg.busy = false ∧ ((1 : Byte), Instr.dapPeek (3 : Word) (0 : ℕ)) ∈ [((1 : Byte),
     Instr.dapPeek (3 : Word) (0 : ℕ)), ((2 : Byte), Instr.dapReadEffect (3 : Word) (2 : Word) (0 : ℕ)), ((4 : Byte),
     Instr.dapPoke (3 : Word) (2 : Word) (0 : ℕ)), ((16 : Byte), Instr.halt (3 : Word)), ((17 : Byte), Instr.resume (3
     : Word)), ((18 : Byte), Instr.step (3 : Word)), ((32 : Byte), Instr.bpSet (3 : Word) (2 : Word)), ((33 : Byte),
     Instr.wpSet (3 : Word) (2 : Word)), ((34 : Byte), Instr.wpValue (3 : Word) (2 : Word)), ((48 : Byte), Instr.wdSvc
     (3 : Word) (0 : ℕ)), ((49 : Byte), Instr.dbgReset (3 : Word) thr0)]) ∧
    (tapOn (wDbg Mode.active) = true ∧ (wDbg Mode.active).dbg.extest = false ∧ dbgLocked (wDbg Mode.active) = false ∧
     (wDbg Mode.active).dbg.busy = false ∧ ((16 : Byte), Instr.halt (3 : Word)) ∈ [((1 : Byte), Instr.dapPeek (3 :
     Word) (0 : ℕ)), ((2 : Byte), Instr.dapReadEffect (3 : Word) (2 : Word) (0 : ℕ)), ((4 : Byte), Instr.dapPoke (3 :
     Word) (2 : Word) (0 : ℕ)), ((16 : Byte), Instr.halt (3 : Word)), ((17 : Byte), Instr.resume (3 : Word)), ((18 :
     Byte), Instr.step (3 : Word)), ((32 : Byte), Instr.bpSet (3 : Word) (2 : Word)), ((33 : Byte), Instr.wpSet (3 :
     Word) (2 : Word)), ((34 : Byte), Instr.wpValue (3 : Word) (2 : Word)), ((48 : Byte), Instr.wdSvc (3 : Word) (0 :
     ℕ)), ((49 : Byte), Instr.dbgReset (3 : Word) thr0)]) ∧
    (tapOn (wDbg Mode.active) = true ∧ (wDbg Mode.active).dbg.extest = false ∧ dbgLocked (wDbg Mode.active) = false ∧
     (wDbg Mode.active).dbg.busy = false) ∧
    (tapOn (wDbg Mode.active) = true ∧ (wDbg Mode.active).dbg.extest = false ∧ dbgLocked (wDbg Mode.active) = false ∧
     (wDbg Mode.active).dbg.busy = false ∧ inFbView 1342177572 = false ∧ inReam 1342177572 = false ∧ drawsFree
     1342177572 = false ∧ peekWord 0 1342177572 (dapBegun 1342177572 (wDbg Mode.active)) = some 0) ∧
    (tapOn (wDbg Mode.active) = true ∧ (wDbg Mode.active).dbg.extest = false ∧ dbgLocked (wDbg Mode.active) = false ∧
     (wDbg Mode.active).dbg.busy = false ∧ 269484036 % 4 = 0 ∧ inSlot 269484036 = some (1 - (wDbg
     Mode.active).exe.runSlot) ∧ (wDbg Mode.active).exe.runSlot ≤ 1) ∧
    (tapOn (wDbg Mode.active) = true ∧ (wDbg Mode.active).dbg.extest = false ∧ dbgLocked (wDbg Mode.active) = false ∧
     (wDbg Mode.active).dbg.busy = false ∧ (wDbg Mode.active).md.mode = Mode.active ∧ (wDbg Mode.active).felt.rel =
     none ∧ paired (wDbg Mode.active) = false) ∧
    (tapOn wit200 = true ∧ wit200.dbg.extest = false ∧ dbgLocked wit200 = false ∧ wit200.dbg.busy = false ∧
     wit200.md.mode = Mode.active ∧ wit200.felt.rel = none ∧ paired wit200 = false) ∧
    (tapOn wDp = true ∧ wDp.dbg.extest = false ∧ dbgLocked wDp = false ∧ wDp.dbg.busy = false ∧ wDp.md.mode =
     Mode.active ∧ wDp.felt.rel = none ∧ paired wDp = true ∧ bitOf 5 8 = false ∧ partnerReady wDp = true) ∧
    (tapOn wit201 = true ∧ wit201.dbg.extest = false ∧ dbgLocked wit201 = false ∧ wit201.dbg.busy = false ∧ (∃ k < 4,
     bitOf 1 k = true ∧ pipeHalted wit201 k = true)) := by
  refine ⟨?_, ?_, ?_, ?_, ?_, ?_, ?_, ?_, ?_, ?_⟩ <;> decide +kernel

theorem witness_DebugPort_3 :
    (tapOn wit201 = true ∧ wit201.dbg.extest = false ∧ dbgLocked wit201 = false ∧ wit201.dbg.busy = false ∧ pipeHalted
     wit201 (1 % 4) = true) ∧
    (tapOn wit201 = true ∧ wit201.dbg.extest = false ∧ dbgLocked wit201 = false ∧ wit201.dbg.busy = false ∧ pipeHalted
     wit201 (2 % 4) = false) ∧
    (tapOn wit201 = true ∧ wit201.dbg.extest = false ∧ dbgLocked wit201 = false ∧ wit201.dbg.busy = false) ∧
    (tapOn wit201 = true ∧ wit201.dbg.extest = false ∧ dbgLocked wit201 = false ∧ wit201.dbg.busy = false ∧ (bitOf
     2819 8 = false ∨ 2819 / 512 % 4 ≠ 0) ∧ 268435461 / 2 ^ 28 ≤ 3) ∧
    (tapOn wit201 = true ∧ wit201.dbg.extest = false ∧ dbgLocked wit201 = false ∧ wit201.dbg.busy = false ∧ 3 <
     1073741829 / 2 ^ 28) ∧
    (tapOn wit202 = true ∧ wit202.dbg.extest = false ∧ dbgLocked wit202 = false ∧ wit202.dbg.busy = false ∧ 1 ≤ 1 ∧
     wdRuns ((1 : Word) == (1 : Word)) wit202 = true ∧ wdExpired ((1 : Word) == (1 : Word)) (wit202.clk.boundaryE + (7
     : ℕ)) wit202 = false ∧ (wdOf ((1 : Word) == (1 : Word)) wit202).held = []) ∧
    (tapOn (wDbg Mode.active) = true ∧ (wDbg Mode.active).dbg.extest = false ∧ dbgLocked (wDbg Mode.active) = false ∧
     (wDbg Mode.active).dbg.busy = false ∧ 1 < 2) ∧
    (tapOn (wDbg Mode.hold) = true ∧ (wDbg Mode.hold).dbg.extest = false ∧ dbgLocked (wDbg Mode.hold) = false ∧ (wDbg
     Mode.hold).dbg.busy = false ∧ (wDbg Mode.hold).md.mode ≠ Mode.active ∧ (wDbg Mode.hold).md.testHold = false) ∧
    (tapOn wit203 = true ∧ wit203.dbg.extest = false ∧ engineRuns wit203 = true ∧ bitOf wit203.dbg.pending 1 = true ∧
     wit203.exe.sampled = true ∧ (1 ≠ 0 ∨ wit203.exe.tasks = []) ∧ (strand 1 wit203).run.regs.lock = false) ∧
    (tapOn wit204 = true ∧ wit204.dbg.extest = false ∧ engineRuns wit204 = true ∧ bitOf wit204.dbg.pending 0 = true ∧
     wit204.exe.sampled = true ∧ (0 ≠ 0 ∨ wit204.exe.tasks = []) ∧ (strand 0 wit204).run.regs.lock = true) := by
  refine ⟨?_, ?_, ?_, ?_, ?_, ?_, ?_, ?_, ?_, ?_⟩ <;> decide +kernel

theorem witness_DebugPort_4 :
    tapOn (wDbg Mode.active) = true ∧ (wDbg Mode.active).dbg.extest = false ∧ dbgLocked (wDbg Mode.active) = false ∧
    (wDbg Mode.active).dbg.busy = false ∧ inFbView 1342177572 = false ∧ inReam 1342177572 = false ∧ drawsFree
    1342177572 = false ∧ peekWord 0 1342177572 (dapBegun 1342177572 (wDbg Mode.active)) = some 0 ∧ bitOf 1 0 = true := by
  decide +kernel

theorem witness_AddressSpace_1 :
    (inImage 285212928 = true ∧ 285212928 % 4 = 0 ∧ (wHold.md.mode = Mode.active ∨ wHold.md.mode = Mode.hold)) ∧
    (inImage 285212928 = true ∧ 285212928 % 4 = 0 ∧ wit205.md.mode ≠ Mode.active ∧ wit205.md.mode ≠ Mode.hold) ∧
    (inImage 285212928 = true ∧ 285212928 % 4 = 0) ∧
    (4 < 8388608 ∧ reamOk wRm 0 4 = true ∧ ((List.filter (fun x ↦ inReam x.addr) wRm.bus.staged).length < 8)) ∧
    (4 < 8388608 ∧ reamOk wit207 0 4 = true ∧ (8 ≤ (List.filter (fun x ↦ inReam x.addr) wit207.bus.staged).length)) ∧
    (5 < 8388608 ∧ reamOk wRm 0 5 = false) ∧
    (4 < 8388608 ∧ reamOk wRm 2 4 = false) ∧
    (4 < 8388608 ∧ reamOk wRm 0 4 = true ∧ reamFamily wRm 0 ≠ 2 ∧ List.filterMap (memberWord wRm (reamFamily wRm 0) 4
     0) (reamMembers wRm 0) = [0, 0]) ∧
    ((wField wBlk).fl.access = [] ∧ (wField wBlk).fl.urg = [] ∧ (wField wBlk).exe.qimm = [] ∧ (wField wBlk).fl.n ≤ 3 ∧
     4 * 4 < 24) ∧
    ((wField wBlk).fl.access = [] ∧ (wField wBlk).fl.urg = [] ∧ (wField wBlk).exe.qimm = [] ∧ 24 ≤ 4 * 7) := by
  refine ⟨?_, ?_, ?_, ?_, ?_, ?_, ?_, ?_, ?_, ?_⟩ <;> decide +kernel

theorem witness_AddressSpace_2 :
    ((wField wBlk).fl.access = [] ∧ (wField wBlk).fl.urg = [] ∧ (wField wBlk).exe.qimm = [] ∧ 0 < (wField wBlk).fl.n ∧
     4 * 4 < 24) ∧
    ((wField wBlk).fl.access = [] ∧ (wField wBlk).fl.urg = [] ∧ (wField wBlk).exe.qimm = [] ∧ 0 < (wField wBlk).fl.n ∧
     4 * 4 < 24 ∧ ((block 0 (feelLimit 0 (wField wBlk))).powered = true ∧ reached (myPort (wField wBlk)) 0 (feelLimit
     0 (wField wBlk)) = true ∧ ((block 0 (feelLimit 0 (wField wBlk))).pos (myPort (wField wBlk))).isSome = true) ∧
     regWriteStatus (block 0 (feelLimit 0 (wField wBlk))) (myPort (wField wBlk)) (4 * 4) = 1) ∧
    (inImage 285212928 = true ∧ 285212928 % 4 = 0 ∧ (285212932 < 285212928 ∨ 285212928 + 4 ≤ 285212932)) ∧
    ((wField wBlk).fl.access = [] ∧ (wField wBlk).fl.urg = [] ∧ (wField wBlk).exe.qimm = [] ∧ 0 < (wField wBlk).fl.n ∧
     4 * 2 < 24 ∧ ((block 0 (feelLimit 0 (wField wBlk))).powered = true ∧ reached (myPort (wField wBlk)) 0 (feelLimit
     0 (wField wBlk)) = true ∧ ((block 0 (feelLimit 0 (wField wBlk))).pos (myPort (wField wBlk))).isSome = true) ∧
     (block 0 (feelLimit 0 (wField wBlk))).reg (4 * 2) = some 114693) ∧
    (3 % 4 ≠ 0) ∧
    (inSlot 268435460 = some wHold.exe.runSlot ∧ 268435460 % 4 = 0) ∧
    (269484036 % 4 = 0 ∧ inSlot 269484036 = some (1 - wHold.exe.runSlot) ∧ wHold.exe.runSlot ≤ 1) := by
  refine ⟨?_, ?_, ?_, ?_, ?_, ?_, ?_⟩ <;> decide +kernel

theorem witness_IslandStates_1 :
    (wit209.isl.st = IslSt.off) ∧
    ((wIsl IslSt.sealed).isl.st ≠ IslSt.off) ∧
    (wit210.isl.st ≠ IslSt.off ∧ wit210.isl.ident = true ∧ 3000 ≤ wit210.isl.ms) ∧
    ((wIsl IslSt.sealed).isl.st = IslSt.sealed) ∧
    ((wIsl IslSt.fault).isl.st = IslSt.fault) ∧
    (causeHolds 8 (wIsl IslSt.opened) = true ∧ ((wIsl IslSt.opened).isl.st = IslSt.sealed ∨ (wIsl IslSt.opened).isl.st
     = IslSt.opened)) ∧
    (wit211.isl.st = IslSt.opened ∧ sealId wit211 ≠ 0 ∧ wit211.isl.stSeal = none ∧ 255 - auditCount wit211 <
     (classesChanged wit211).length) ∧
    (wit212.isl.st = IslSt.opened ∧ sealId wit212 ≠ 0 ∧ wit212.isl.stSeal = none ∧ (classesChanged wit212).length ≤
     255 - auditCount wit212) ∧
    (wit212.isl.st = IslSt.opened ∧ sealId wit212 ≠ 0 ∧ wit212.isl.stSeal = none ∧ (classesChanged wit212).length ≤
     255 - auditCount wit212 ∧ classesChanged wit212 ≠ []) ∧
    (wit213.isl.st = IslSt.opened ∧ sealId wit213 = 0 ∧ wit213.isl.stSeal = none) := by
  refine ⟨?_, ?_, ?_, ?_, ?_, ?_, ?_, ?_, ?_, ?_⟩ <;> decide +kernel

theorem witness_IslandStates_2 :
    (wit213.isl.st = IslSt.opened ∧ wit213.slu.down = [] ∧ auditCount wit213 < 255 ∧ (1 : ℕ) ≤ [(1 : Byte), (2 :
     Byte), (3 : Byte)].length ∧ [(1 : Byte), (2 : Byte), (3 : Byte)].length ≤ (112 : ℕ) ∧ 64 ≤ 64 ∧ 64 ≤ 524288 ∧ ((0
     : BitVec (32 : ℕ)) = (0 : BitVec (32 : ℕ)) ∨ wit213.isl.upload = (1 : ℕ) ∧ (0 : ℕ) = wit213.isl.upNext ∧ (64 : ℕ)
     = wit213.isl.upTotal) ∧ ((if (0 : BitVec (32 : ℕ)) = (0 : BitVec (32 : ℕ)) then [] else wit213.isl.upData) ++ [(1
     : Byte), (2 : Byte), (3 : Byte)]).length < (64 : ℕ)) ∧
    (wit214.isl.st = IslSt.opened ∧ wit214.slu.down = [] ∧ auditCount wit214 < 255 ∧ (1 : ℕ) ≤ [(1 : Byte), (2 :
     Byte), (3 : Byte)].length ∧ [(1 : Byte), (2 : Byte), (3 : Byte)].length ≤ (112 : ℕ) ∧ 64 ≤ 64 ∧ 64 ≤ 524288 ∧
     ((61 : BitVec (32 : ℕ)) = (0 : BitVec (32 : ℕ)) ∨ wit214.isl.upload = (1 : ℕ) ∧ (61 : ℕ) = wit214.isl.upNext ∧
     (64 : ℕ) = wit214.isl.upTotal) ∧ ((if (61 : BitVec (32 : ℕ)) = (0 : BitVec (32 : ℕ)) then [] else
     wit214.isl.upData) ++ [(1 : Byte), (2 : Byte), (3 : Byte)]).length = (64 : ℕ)) ∧
    (wit215.slu.down = [wit216] ∧ wit216.code = 6 ∧ sluBadForm 1 6 wit216 = false ∧ wit215.isl.st ≠ IslSt.off ∧
     wit216.data.headD 0 = 1 ∧ (wit215.isl.st = IslSt.opened ∨ wit215.isl.st = IslSt.fault) ∧ wit216.data.length = 72
     ∧ fld wit216.data 4 4 ≠ 0 ∧ fld wit216.data 4 4 ≠ sealId wit215 ∧ auditCount wit215 < 255) ∧
    (wit217.slu.down = [wit218] ∧ wit218.code = 6 ∧ sluBadForm 1 6 wit218 = false ∧ wit217.isl.st ≠ IslSt.off ∧
     wit218.data.headD 0 ≠ 1 ∧ wit217.isl.st = IslSt.opened) ∧
    ((wIsl IslSt.sealed).isl.st ≠ IslSt.off ∧ (wIsl IslSt.sealed).isl.statusAt + 1000 ≤ (wIsl IslSt.sealed).isl.ms ∧
     ((wIsl IslSt.sealed).isl.first = false ∧ holdRoom (wIsl IslSt.sealed) = true ∨ (wIsl IslSt.sealed).isl.first =
     true ∧ (wIsl IslSt.sealed).slu.up.length < 32)) ∧
    (wit219.isl.st ≠ IslSt.off ∧ wit219.isl.first = false ∧ wit219.isl.hold = [wit220] ∧ wit219.slu.up.length < 32) ∧
    ((wIsl IslSt.sealed).isl.st ≠ IslSt.off ∧ (¬((wIsl IslSt.sealed).isl.st = IslSt.fault ∧ (wIsl
     IslSt.sealed).isl.cause = 8))) ∧
    ((wIsl IslSt.sealed).isl.st ≠ IslSt.off ∧ (¬((wIsl IslSt.sealed).isl.st = IslSt.fault ∧ (wIsl
     IslSt.sealed).isl.cause = 8)) ∧ readParam (wIsl IslSt.sealed) 2 = some 1) ∧
    ((wIsl IslSt.sealed).isl.st ≠ IslSt.off ∧ (¬((wIsl IslSt.sealed).isl.st = IslSt.fault ∧ (wIsl
     IslSt.sealed).isl.cause = 8)) ∧ readParam (wIsl IslSt.sealed) 7 = none) ∧
    ((wIsl IslSt.sealed).isl.st ≠ IslSt.off ∧ (¬((wIsl IslSt.sealed).isl.st = IslSt.fault ∧ (wIsl
     IslSt.sealed).isl.cause = 8)) ∧ (wIsl IslSt.sealed).isl.st ≠ IslSt.opened) := by
  refine ⟨?_, ?_, ?_, ?_, ?_, ?_, ?_, ?_, ?_, ?_⟩ <;> decide +kernel

theorem witness_IslandStates_3 :
    ((wIsl IslSt.opened).isl.st = IslSt.opened) ∧
    ((wIsl IslSt.opened).isl.st = IslSt.opened ∧ auditCount (wIsl IslSt.opened) < 255 ∧ paramRange 7 = none) ∧
    (wCal.isl.st = IslSt.opened ∧ auditCount wCal < 255 ∧ calIds wCal 0 = some (4114, 4115, 4116) ∧ rawMean wCal 0 =
     some (50000, 0) ∧ (stagedParam wCal (4116 : ℕ) = (0 : ℤ) ∨ (0 : ℤ) * ↑(stagedParam wCal (4116 : ℕ)).natAbs ≤
     ↑(stagedParam wCal (4115 : ℕ)).natAbs)) ∧
    (wCal.isl.st = IslSt.opened ∧ auditCount wCal < 255 ∧ calIds wCal 0 = some (4114, 4115, 4116) ∧ rawMean wCal 0 =
     some (50000, 0) ∧ (0 : ℤ) < BitVec.toInt (5000 : BitVec (32 : ℕ)) ∧ (10 : ℤ) * BitVec.toInt (5000 : BitVec (32 :
     ℕ)) ≤ ↑((50000 : ℤ) - stagedParam wCal (4114 : ℕ)).natAbs ∧ (0 : ℤ) * BitVec.toInt (5000 : BitVec (32 : ℕ)) ≤
     ↑((50000 : ℤ) - stagedParam wCal (4114 : ℕ)).natAbs) ∧
    (wit213.isl.st = IslSt.opened ∧ auditCount wit213 < 255 ∧ sealId wit213 = 0 ∧ (9 : BitVec (32 : ℕ)) ≠ (0 : BitVec
     (32 : ℕ)) ∧ (9 : BitVec (32 : ℕ)) ≠ (4294967295 : BitVec (32 : ℕ))) ∧
    (wit221.isl.st = IslSt.opened ∧ auditCount wit221 < 255 ∧ wit221.isl.fwRun ≠ wit221.isl.fwPref) ∧
    ((wIsl IslSt.sealed).isl.st ≠ IslSt.off ∧ (¬((wIsl IslSt.sealed).isl.st = IslSt.fault ∧ (wIsl
     IslSt.sealed).isl.cause = 8)) ∧ sealId (wIsl IslSt.sealed) ≠ 0 ∧ (List.replicate (56 : ℕ) (0 : Byte)).length =
     (56 : ℕ)) := by
  refine ⟨?_, ?_, ?_, ?_, ?_, ?_, ?_⟩ <;> decide +kernel

theorem witness_IslandStates_at_hand :
    (∀ (n : ℕ), laneParam (2 : ℕ) = some (n, (0 : ℕ)) → sourceOk (BitVec.toInt (5 : BitVec (32 : ℕ))) = true) ∧ (wIsl IslSt.opened).isl.st = IslSt.opened ∧ auditCount (wIsl IslSt.opened) < 255 ∧ paramRange 2 = some (1, 100, 1) ∧ (1 : ℤ) ≤ BitVec.toInt (5 : BitVec (32 : ℕ)) ∧ BitVec.toInt (5 : BitVec (32 : ℕ)) ≤ (100 : ℤ) ∧ (paramSetOk (stagedParam (modIsl (fun i ↦ { st := i.st, cause := i.cause, cal := i.cal, ms := i.ms, ident := i.ident, fwA := i.fwA, fwB := i.fwB, fwPref := i.fwPref, fwRun := i.fwRun, cfgA := i.cfgA, cfgB := i.cfgB, cfgSel := i.cfgSel, gen := i.gen, sealWord := i.sealWord, debugOff := i.debugOff, tap := i.tap, count := i.count, marginal := i.marginal, trims := i.trims, lastTrims := i.lastTrims, fuseMs := i.fuseMs, fuseTemp := i.fuseTemp, wmKey := i.wmKey, pairPriv := i.pairPriv, pairPub := i.pairPub, partner := i.partner, partnerPub := i.partnerPub, pairKey := i.pairKey, boot := i.boot, audit := i.audit, auditSeq := i.auditSeq, auditSent := i.auditSent, recSeq := i.recSeq, hold := i.hold, stParams := i.stParams ++ [((2 : ℕ), BitVec.toInt (5 : BitVec (32 : ℕ)))], stSeal := i.stSeal, stPair := i.stPair, stFw := i.stFw, stConfirm := i.stConfirm, upload := i.upload, upNext := i.upNext, upTotal := i.upTotal, upData := i.upData, lanes := i.lanes, raw := i.raw, raws := i.raws, chanFault := i.chanFault, temp := i.temp, lds := i.lds, lastImport := i.lastImport, imported := i.imported, impOper := i.impOper, oper := i.oper, lastTick := i.lastTick, first := i.first, rejected := i.rejected, lastStatus := i.lastStatus, statusAt := i.statusAt, stateAt := i.stateAt, stateRec := i.stateRec, reply := i.reply : Isl }) (wIsl IslSt.opened))) = true) := by
  exact ⟨fun n h => by simp [laneParam] at h, by decide +kernel⟩

theorem witness_IslandWeighing_1 :
    ((wIsl IslSt.sealed).isl.st ≠ IslSt.off ∧ (wIsl IslSt.sealed).isl.ms + 20 < (wIsl IslSt.sealed).isl.fuseMs +
     3600000 ∧ (wit222.temp.toInt - (wIsl IslSt.sealed).isl.fuseTemp).natAbs ≤ 30) ∧
    (wTel.isl.st ≠ IslSt.off ∧ (List.find? (fun n ↦ Machine.lp wTel n (0 : ℕ) == (17 : ℤ) + ↑(0 : ℕ)) (List.range (8 :
     ℕ)) = some (0 : ℕ)) ∧ telPlain (scaleDialect wTel 0) [5, 1, 1] = none) ∧
    (wTel2.isl.st ≠ IslSt.off ∧ (List.find? (fun n ↦ Machine.lp wTel2 n (0 : ℕ) == (17 : ℤ) + ↑(0 : ℕ)) (List.range (8
     : ℕ)) = some (0 : ℕ)) ∧ telPlain (scaleDialect wTel2 0) [5, 1, 1, 9] = some [5, 1, 1, 9] ∧ telChecks (tget []
     (legalCfg wTel2).ics 0) (scaleDialect wTel2 0) (islLane wTel2 0).alive [5, 1, 1, 9] = none) ∧
    (wTel.isl.st ≠ IslSt.off ∧ (List.find? (fun n ↦ Machine.lp wTel n (0 : ℕ) == (17 : ℤ) + ↑(0 : ℕ)) (List.range (8 :
     ℕ)) = some (0 : ℕ)) ∧ telPlain (scaleDialect wTel 0) [5, 1, 1, 0] = some [5, 1, 1, 0] ∧ telChecks (tget []
     (legalCfg wTel).ics 0) (scaleDialect wTel 0) (islLane wTel 0).alive [5, 1, 1, 0] = some none ∧ telMatch
     (scaleDialect wTel 0) [5, 1, 1, 0] = true ∧ (telField (scaleDialect wTel (0 : ℕ)) (0 : ℕ) ([(5 : Byte), (1 :
     Byte), (1 : Byte), (0 : Byte)].length - fld (scaleDialect wTel (0 : ℕ)) (22 : ℕ) (1 : ℕ) - ceilDiv (fld (tget []
     (legalCfg wTel).ics (0 : ℕ)) (0 : ℕ) (1 : ℕ)) (8 : ℕ)) [(5 : Byte), (1 : Byte), (1 : Byte), (0 : Byte)]).bind
     (telValue (scaleDialect wTel (0 : ℕ))) = some (261 : ℤ) ∧ telField (scaleDialect wTel (0 : ℕ)) (1 : ℕ) ([(5 :
     Byte), (1 : Byte), (1 : Byte), (0 : Byte)].length - fld (scaleDialect wTel (0 : ℕ)) (22 : ℕ) (1 : ℕ) - ceilDiv
     (fld (tget [] (legalCfg wTel).ics (0 : ℕ)) (0 : ℕ) (1 : ℕ)) (8 : ℕ)) [(5 : Byte), (1 : Byte), (1 : Byte), (0 :
     Byte)] = some [(1 : Byte)] ∧ -maxTop wTel 0 ≤ 261 ∧ 261 ≤ 2 * maxTop wTel 0) ∧
    (wTel3.isl.st ≠ IslSt.off ∧ (List.find? (fun n ↦ Machine.lp wTel3 n (0 : ℕ) == (17 : ℤ) + ↑(0 : ℕ)) (List.range (8
     : ℕ)) = some (0 : ℕ)) ∧ telPlain (scaleDialect wTel3 0) [5, 1, 1, 0] = some [5, 1, 1, 0] ∧ telChecks (tget []
     (legalCfg wTel3).ics 0) (scaleDialect wTel3 0) (islLane wTel3 0).alive [5, 1, 1, 0] = some none ∧ telMatch
     (scaleDialect wTel3 0) [5, 1, 1, 0] = false) ∧
    ((2, Instr.tareRequest 3) ∈ [(1, Instr.unitPrice 3), (2, Instr.tareRequest 3), (3, Instr.zeroRequest 3), (4,
     Instr.displayContentRequest 3)] ∧ (wMsg 2 [0, 0, 0, 0] (wIsl IslSt.sealed)).slu.down = [wit223] ∧ (wMsg 2 [0, 0,
     0, 0] (wIsl IslSt.sealed)).isl.st = IslSt.sealed ∧ sluBadForm 1 6 wit223 = false ∧ wit223.code = 2 ∧ (wMsg 2 [0,
     0, 0, 0] (wIsl IslSt.sealed)).slu.oper = true ∧ wit223.lane < 8) ∧
    ((2, Instr.tareRequest 3) ∈ [(1, Instr.unitPrice 3), (2, Instr.tareRequest 3), (3, Instr.zeroRequest 3), (4,
     Instr.displayContentRequest 3)] ∧ wit224.slu.down = [wit223] ∧ wit224.isl.st = IslSt.sealed ∧ sluBadForm 1 6
     wit223 = false ∧ wit223.code = 2 ∧ wit224.slu.oper = false) ∧
    ((3, Instr.zeroRequest 3) ∈ [(1, Instr.unitPrice 3), (2, Instr.tareRequest 3), (3, Instr.zeroRequest 3), (4,
     Instr.displayContentRequest 3)] ∧ (wMsg 2 [0, 0, 0, 0] (wIsl IslSt.sealed)).slu.down = [wit223] ∧ (wMsg 2 [0, 0,
     0, 0] (wIsl IslSt.sealed)).isl.st = IslSt.sealed ∧ sluBadForm 1 6 wit223 = false ∧ wit223.code ≠ 3) ∧
    (wit225.code = 1 ∧ wit225.data.length = 8) ∧
    (wit226.code = 2 ∧ wit226.data = [1, 0, 0, 0] ∧ laneInvalid (wIsl IslSt.sealed) 0 = false ∧ 0 < 100 - (islLane
     (wIsl IslSt.sealed) 0).z ∧ isOver (wIsl IslSt.sealed) 0 (100 - (islLane (wIsl IslSt.sealed) 0).z) = false ∧
     isUnder (wIsl IslSt.sealed) 0 (100 - (islLane (wIsl IslSt.sealed) 0).z) = false ∧ 100 - (islLane (wIsl
     IslSt.sealed) 0).z ≤ ↑(maxOf (wIsl IslSt.sealed) 0 1) ∧ stable (wIsl IslSt.sealed) 0 = true) := by
  refine ⟨?_, ?_, ?_, ?_, ?_, ?_, ?_, ?_, ?_, ?_⟩ <;> decide +kernel

theorem witness_IslandWeighing_2 :
    (wit226.code = 2 ∧ wit226.data = [1, 0, 0, 0] ∧ laneInvalid wUn 0 = false ∧ 0 < 100 - (islLane wUn 0).z ∧ isOver
     wUn 0 (100 - (islLane wUn 0).z) = false ∧ isUnder wUn 0 (100 - (islLane wUn 0).z) = false ∧ 100 - (islLane wUn
     0).z ≤ ↑(maxOf wUn 0 1) ∧ stable wUn 0 = false ∧ wUn.isl.ms ≤ wit226.arrival + 2000) ∧
    (wit227.code = 2 ∧ wit227.data = [1, 0, 0, 0] ∧ laneInvalid wUn 0 = false ∧ 0 < 100 - (islLane wUn 0).z ∧ isOver
     wUn 0 (100 - (islLane wUn 0).z) = false ∧ isUnder wUn 0 (100 - (islLane wUn 0).z) = false ∧ 100 - (islLane wUn
     0).z ≤ ↑(maxOf wUn 0 1) ∧ stable wUn 0 = false ∧ wit227.arrival + 2000 < wUn.isl.ms) ∧
    (wit228.code = 2 ∧ wit228.data = [0, 0, 0, 0]) ∧
    (wit229.code = 3 ∧ wit229.data = [] ∧ (islLane (wIsl IslSt.sealed) 0).t = 0 ∧ isOver (wIsl IslSt.sealed) 0 (10 -
     (islLane (wIsl IslSt.sealed) 0).z) = false ∧ isUnder (wIsl IslSt.sealed) 0 (10 - (islLane (wIsl IslSt.sealed)
     0).z) = false ∧ inZeroRange (wIsl IslSt.sealed) 0 10 = true ∧ stable (wIsl IslSt.sealed) 0 = true) ∧
    (wit229.code = 3 ∧ wit229.data = [] ∧ (islLane wit230 0).t ≠ 0) ∧
    ((islLane (wReqs 2019) 0).reqs = [wit231] ∧ (wReqs 2019).isl.st = IslSt.sealed ∧ (wReqs 2019).slu.oper = true ∧
     (wit231.code = 2 ∨ wit231.code = 3) ∧ wit231.arrival ≤ (wReqs 2019).isl.ms ∧ wit231.arrival + 2000 < (wReqs
     2019).isl.ms + 20) ∧
    ((islLane (wReqs 2020) 0).reqs = [wit232] ∧ (wReqs 2020).isl.st = IslSt.sealed ∧ (wReqs 2020).slu.oper = true ∧
     (wit232.code = 2 ∨ wit232.code = 3) ∧ wit232.arrival ≤ (wReqs 2020).isl.ms ∧ (wReqs 2020).isl.ms + 20 ≤
     wit232.arrival + 2000) ∧
    ((wUp 129 0 [1]).slu.up = [wit233] ∧ sluBadForm 129 131 wit233 = false ∧ wit233.code = 129 ∧ wit233.lane < 8) ∧
    ((wUp 129 8 [1]).slu.up = [wit234] ∧ sluBadForm 129 131 wit234 = false ∧ wit234.code = 129 ∧ 8 ≤ wit234.lane) ∧
    ((wUp 130 8 [1]).slu.up = [wit235] ∧ sluBadForm 129 131 wit235 = false ∧ wit235.code = 130) := by
  refine ⟨?_, ?_, ?_, ?_, ?_, ?_, ?_, ?_, ?_, ?_⟩ <;> decide +kernel

theorem witness_IslandWeighing_3 :
    (wit236.slu.up = [wit237] ∧ sluBadForm 129 131 wit237 = false ∧ wit237.code = 131 ∧ wit236.islView.audits.length ≤
     1022) ∧
    ((bagOf wHold 0).req = none) ∧
    ((bagOf (wBag [] 10) 0).req = some wit238 ∧ (¬1000 * bagF (wBag [] 10) 0 4 2 3000 < ((wBag [] 10).clk.tick -
     wit238.start) * tickUs (wBag [] 10).clk.tickSel)) ∧
    ((bagOf (wBag [] 1000000) 0).req = some wit238 ∧ 1000 * bagF (wBag [] 1000000) 0 4 2 3000 < ((wBag []
     1000000).clk.tick - wit238.start) * tickUs (wBag [] 1000000).clk.tickSel ∧ bagSettled (bagOf (wBag [] 1000000) 0)
     = none) ∧
    ((bagOf (wBag (List.replicate 50 7) 1000000) 0).req = some wit238 ∧ 1000 * bagF (wBag (List.replicate 50 7)
     1000000) 0 4 2 3000 < ((wBag (List.replicate 50 7) 1000000).clk.tick - wit238.start) * tickUs (wBag
     (List.replicate 50 7) 1000000).clk.tickSel ∧ bagSettled (bagOf (wBag (List.replicate 50 7) 1000000) 0) = some 7) ∧
    ((isOver (wIsl IslSt.sealed) 0 (50000 - (islLane (wIsl IslSt.sealed) 0).z) = true ∨ isUnder (wIsl IslSt.sealed) 0
     (50000 - (islLane (wIsl IslSt.sealed) 0).z) = true ∨ laneInvalid (wIsl IslSt.sealed) 0 = true)) ∧
    ((weigh wit239 0 1000).price ≠ 0) := by
  refine ⟨?_, ?_, ?_, ?_, ?_, ?_, ?_⟩ <;> decide +kernel

/-! ## Hypotheses that are shown by hand -/

/-! ### Two bursts that arrive whole: a copy of an empty sheet -/

theorem crc32_lt (bs : List Byte) : crc32 bs < 256 ^ 4 := by
  rw [crc32, crcRefl]
  exact BitVec.isLt _

theorem fld_append_right {a b : List Byte} {n : Nat} : fld (a ++ b) a.length n = leNat (b.take n) := by
  rw [fld, List.drop_left]

/-- A burst's CRC-32 is the one it ends with. -/
theorem burst_crc (index flags tick base map mark : Nat) (body : List Byte) :
    burstCrc (burst index flags tick base map mark body) = true := by
  rw [burst]
  generalize hb : leBytes 2 (0xF00A + index) ++ [BitVec.ofNat 8 index, BitVec.ofNat 8 flags] ++ leBytes 4 body.length
    ++ leBytes 6 tick ++ [0, 0] ++ leBytes 6 base ++ [0, 0] ++ leBytes 32 map ++ leBytes 4 mark ++ leBytes 4 0 ++ body = b
  have hl : 64 ≤ b.length := by
    rw [← hb]
    simp
    omega
  have hn : (b ++ leBytes 4 (crc32 b)).length - 4 = b.length := by simp
  simp only [burstCrc, hn, fld_append_right, List.take_left]
  rw [List.take_of_length_le (by simp), leNat_leBytes, Nat.mod_eq_of_lt (crc32_lt b)]
  simp
  omega

theorem wrBytes_zeros : ∀ n a, wrBytes 0 [] a (List.replicate n 0) = []
  | 0, _ => rfl
  | n + 1, a => wrBytes_zeros n (a + 1)

/-- A standby whose last consistent sheet is that of couch 8. -/
def wBehind : State := { wPair .standby with felt.consistent := some 8 }
/-- A copy of an empty sheet with no dirty page. -/
def wNone : Copy := { wCopy false with pages := [], mem := [] }

theorem wNone_arrives : goodCopy (some (burstA wNone)) (some (burstB wNone)) = some wNone := by
  have ha : ((burstA wNone).drop 64).take (fld (burstA wNone) 4 4) = List.replicate 2048 0 := by decide +kernel
  have hb : ((burstB wNone).drop 64).take (fld (burstB wNone) 4 4) = [] := by decide +kernel
  have hp : (pageBits (fld (burstA wNone) 24 32)).filter (fun p => decide (p < 160)) ++
      (pageBits (fld (burstB wNone) 24 32)).map (160 + ·) = [] := by decide +kernel
  have hr : readCopy (burstA wNone) (burstB wNone) = some wNone := by
    simp only [readCopy, ha, hb, hp]
    have ht : takeRuns (runsA []) (List.replicate 2048 0) [] = ([], []) := by
      have h1 : (List.replicate 2048 (0 : Byte)).take 2048 = List.replicate 2048 0 := by decide +kernel
      have h2 : (List.replicate 2048 (0 : Byte)).drop 2048 = [] := by decide +kernel
      show (wrBytes 0 [] 0x11000000 ((List.replicate 2048 0).take 2048), (List.replicate 2048 0).drop 2048) = _
      rw [h1, h2, wrBytes_zeros]
    rw [ht]
    decide +kernel
  have hw : (burstWhole 0 (burstA wNone) && burstWhole 1 (burstB wNone)) = true := by decide +kernel
  simp only [Bool.and_eq_true] at hw
  have ca : ∀ c, burstCrc (burstA c) = true := fun c => by rw [burstA]; exact burst_crc ..
  have cb : ∀ c, burstCrc (burstB c) = true := fun c => by rw [burstB]; exact burst_crc ..
  simp only [goodCopy]
  rw [ca, cb, hw.1, hw.2, if_pos (by decide)]
  exact hr

theorem witness_CopyReceived :
    receiving wBehind = true ∧ feltOn wBehind = true ∧ wBehind.md.mode = Mode.standby ∧
    goodCopy (some (burstA wNone)) (some (burstB wNone)) = some wNone ∧
    (wBehind.felt.consistent = none ∧ wNone.full = true ∨
      ∃ n, wBehind.felt.consistent = some n ∧ n < wNone.tick ∧ (wNone.full = true ∨ wNone.base ≤ n)) ∧
    wNone.swap = none ∧ wNone.klp = none ∧ wNone.pair = none ∧ wBehind.felt.offerDue = false ∧ wNone.dorm = false ∧
    wNone.handover = false :=
  ⟨rfl, rfl, rfl, wNone_arrives, .inr ⟨8, rfl, by decide, .inr (by decide)⟩, rfl, rfl, rfl, rfl, rfl, rfl⟩

/-! ### A parameter write that passes: the default parameters are legal -/

theorem firstBad_none {l : Checks} (h : ∀ c ∈ l, c.2 = true) : firstBad l = none := by
  simp only [firstBad, Option.map_eq_none_iff, List.find?_eq_none]
  intro c hc
  simp [h c hc]

/-- A field reads alike where the bytes do. -/
theorem liveLe_congr {f g : Nat → Nat} {o p n : Nat} (h : ∀ i, i < n → f (o + i) = g (p + i)) : liveLe f o n = liveLe g p n := by
  simp only [liveLe]
  rw [List.map_congr_left fun i hi => by rw [h i (List.mem_range.1 hi)]]

/-- The default bytes of a queue, a program row and a policer. -/
def defQueue : Nat → Nat := nth 0 [0xFF, 7, 0, 0xFF, 0, 1, 0, 1, 0xFF, 0xFF, 0xFF, 0xFF, 0, 0, 0, 0]
def defShaper : Nat → Nat := nth 0 [0, 0, 0, 0, 0, 0, 0, 0, 0, 1, 0, 0, 0, 8, 0, 8]
def defPolicer : Nat → Nat := fun j => if j = 13 ∨ j = 17 then 8 else 0

theorem default_queue (q j n : Nat) (hq : q < 2048) (hj : j + n ≤ 16) :
    liveLe schedDefault (1296 + 16 * q + j) n = liveLe defQueue j n :=
  liveLe_congr fun i hi => by
    have e : (1296 + 16 * q + j + i - 1296) % 16 = j + i := by omega
    rw [schedDefault, if_neg (by omega), if_neg (by omega), if_neg (by omega), if_pos (by omega), e]
    rfl

theorem default_shaper (k j n : Nat) (hj : j + n ≤ 16) : liveLe schedDefault (34064 + 16 * k + j) n = liveLe defShaper j n :=
  liveLe_congr fun i hi => by
    have e : (34064 + 16 * k + j + i - 34064) % 16 = j + i := by omega
    rw [schedDefault, if_neg (by omega), if_neg (by omega), if_neg (by omega), if_neg (by omega), e]
    rfl

theorem default_policer (k j n : Nat) (hj : j + n ≤ 20) : liveLe policerDefault (20 * k + j) n = liveLe defPolicer j n :=
  liveLe_congr fun i hi => by
    have e : (20 * k + j + i) % 20 = j + i := by omega
    rw [policerDefault, e]
    rfl

theorem default_sched_legal : firstBad (schedChecks fun o n _ => liveLe schedDefault o n) = none := by
  apply firstBad_none
  intro c hc
  simp only [schedChecks, List.mem_append, List.mem_flatMap, List.mem_range] at hc
  rcases hc with (((hc | ⟨p, hp, hc⟩) | ⟨u, hu, hc⟩) | ⟨q, hq, hc⟩) | ⟨k, hk, hc⟩
  · revert c
    decide +kernel
  · simp only [← List.mem_append] at hc
    revert hc
    revert c
    revert hp
    revert p
    decide +kernel
  · revert hc
    revert c
    revert hu
    revert u
    decide +kernel
  · have h := fun j n hj => default_queue q j n hq hj
    have h0 := h 0 1 (by decide)
    rw [Nat.add_zero] at h0
    revert c
    simp only [List.mem_cons, List.not_mem_nil, or_false, forall_eq_or_imp, forall_eq, rng, rngOr, zer, h0, h 1 1 (by decide),
      h 2 1 (by decide), h 3 1 (by decide), h 4 2 (by decide), h 6 2 (by decide), h 8 2 (by decide), h 10 2 (by decide),
      h 12 4 (by decide), show (liveLe defQueue 10 2 == 0xFFFF) = true by decide,
      show (liveLe defQueue 0 1 != 0xFF) = false by decide, Bool.not_false, Bool.true_or, Bool.and_true]
    decide
  · have h := fun j n hj => default_shaper k j n hj
    have h0 := h 0 1 (by decide)
    rw [Nat.add_zero] at h0
    revert c
    simp only [List.mem_cons, List.not_mem_nil, or_false, forall_eq_or_imp, forall_eq, rng, zer, h0, h 1 1 (by decide),
      h 8 2 (by decide), h 10 2 (by decide), show liveLe defShaper 0 1 = 0 by decide, beq_self_eq_true, Bool.true_or, Bool.true_and]
    decide

theorem default_policers_legal : firstBad (policerChecks fun o n _ => liveLe policerDefault o n) = none := by
  apply firstBad_none
  intro c hc
  simp only [policerChecks, List.mem_flatMap] at hc
  obtain ⟨k, -, hc⟩ := hc
  have h := fun j n hj => default_policer k j n hj
  have h0 := h 0 1 (by decide)
  rw [Nat.add_zero] at h0
  revert c
  simp only [List.mem_cons, List.not_mem_nil, or_false, forall_eq_or_imp, forall_eq, rng, zer, h0, h 1 3 (by decide),
    h 4 4 (by decide), h 8 4 (by decide), h 12 4 (by decide), h 16 4 (by decide)]
  decide

/-- The policers' first word written as it is. -/
theorem witness_LaneSwitch_mirror :
    inPolicer 0x21700000 = true ∧ unusedPort 0x21700000 = false ∧
    (mirrorTry 0x21700000 0 5 (withStaged wHold)).isSome = true := by
  refine ⟨by decide, by decide, ?_⟩
  have hp : policerByte (putMirror 0x21700000 0 5 wHold) = policerDefault := funext fun o => by
    have e : (putMirror 0x21700000 0 5 wHold).sw.polm = [(0, 1), (1, 1), (2, 1), (3, 1)] := by decide +kernel
    by_cases h : o < 4
    · revert o
      decide +kernel
    · have z : tget 0 (putMirror 0x21700000 0 5 wHold).sw.polm o = 0 := by
        rw [e]
        simp only [tget]
        repeat rw [if_neg (by omega)]
      rw [policerByte, z]
      rfl
  have hs : schedByte (putMirror 0x21700000 0 5 wHold) = schedDefault := rfl
  have hm : movesBusy wHold (putMirror 0x21700000 0 5 wHold) 0x21700000 = false := by decide
  have hv : mirrorsValid (putMirror 0x21700000 0 5 wHold) = true := by
    rw [mirrorsValid, hp, hs, default_sched_legal, default_policers_legal]
    rfl
  show (mirrorTry 0x21700000 0 5 wHold).isSome = true
  rw [mirrorTry, hm, hv]
  rfl

/-- A queue group that exists is in queue mode and has room. -/
theorem witness_KlpMessages_groups :
    ((lane wKlp 0).groups.find? fun g => g.first == 4) = none ∧
    (∀ g, ((lane wGrp 0).groups.find? fun g => g.first == 4) = some g → g.latest = false ∧ g.ents.length < 8) ∧
    cf wGrp 0x1C 0 56 1 0xFF + (match (enginesOf wGrp 0).find? fun e => port wGrp e 0 1 0 == 1 with
      | some e => port wGrp e 29 1 0 | none => 0) = 4 := by
  refine ⟨by decide +kernel, ?_, by decide +kernel⟩
  intro g h
  have e : ((lane wGrp 0).groups.find? fun g => g.first == 4) =
    some { first := 4, count := 4, latest := false, ents := [[1, 2, 3, 4]] } := by decide +kernel
  rw [e] at h
  cases h
  decide

theorem witness_IslandStates_pair_state :
    ∃ (s : State) (m : SluMsg), s.slu.down = [m] ∧ m.code = 6 ∧ m.data.headD 0 ≠ 1 ∧ s.isl.st = .sealed ∧ islPaired s = true ∧
      m.data.length = 96 ∧ fld m.data 4 4 = s.isl.partner ∧
      sluBadForm 1 6 m = false ∧ beNat (m.data.drop 80) = first16 (mac s.isl.pairKey (m.data.take 80)) ∧
      ∀ l, s.isl.lastImport = some l → l < fld m.data 8 6 := by
  let head : List Byte := [2, 0, 0, 0, 9, 0, 0, 0] ++ List.replicate 72 0
  let tag := first16 (mac 3 head)
  have ht : tag < 256 ^ 16 := Nat.mod_lt _ (by decide)
  have hd : (head ++ beBytes 16 tag).drop 80 = beBytes 16 tag := List.drop_left' rfl
  have hk : (head ++ beBytes 16 tag).take 80 = head := List.take_left' rfl
  refine ⟨{ wIsl .sealed with
    isl.partner := 9, isl.pairKey := 3, slu.down := [{ code := 6, lane := 0, seq := 0, data := head ++ beBytes 16 tag }] }, _,
    rfl, rfl, ?_, rfl, rfl, ?_, rfl, ?_, ?_, fun _ h => by cases h⟩
  · exact show ((2 : Byte) ≠ 1) by decide
  · rfl
  · rfl
  · show beNat ((head ++ beBytes 16 tag).drop 80) = first16 (mac 3 ((head ++ beBytes 16 tag).take 80))
    rw [hd, hk]
    exact beNat_beBytes ht

theorem witness_StepKeepsSettled : Settled State.reset ∧ ∃ t, step State.reset = .next t :=
  ⟨by delta Settled; decide +kernel, _, rfl⟩

theorem witness_WordFrame :
    isWord (.ulk (.pipe 0)) = true ∧ exec (.ulk (.pipe 0)) wHold = .next (settle wHold) :=
  ⟨rfl, by rfl⟩

/-! ## What no command can carry -/

/-- The findings of tail threading with the lists that the part gives. -/
def thrGood : Thr := { wThr with means := List.replicate 17 0 }

theorem test_wf_accepts :
    wellFormed (.resetN 1000 thrGood) = true ∧ wellFormed (.negotiationFrame (.low (List.replicate 8 0)) (wFw 7 [])) = true ∧
    wellFormed (.powerOnReset { unitId := true, e0 := 0 } (List.replicate 5 3300) thrGood) = true ∧
    wellFormed (.bag (wDgram 0x14 [1])) = true ∧ wellFormed (.ackOnly (wRaw 0xFF 2 9 0 3 0 0xFF [])) = true ∧
    wellFormed (.ethFrame wF) = true ∧ wellFormed (.setupFrame 0 0 0 0 0 (List.replicate 80 0) true) = true := by decide +kernel

theorem test_wf_means : wellFormed (.resetN 1000 { thrGood with means := List.replicate 16 0 }) = false := by decide
theorem test_wf_probes : wellFormed (.extest { cells := 0 } { thrGood with probes := List.replicate 17 0 }) = false := by decide
theorem test_wf_banks : wellFormed (.powerOnReset { unitId := true, e0 := 0 } [3300] thrGood) = false := by decide
theorem test_wf_bank_level : wellFormed (.powerOnReset { unitId := true, e0 := 0 } (List.replicate 5 1619) thrGood) = false := by decide
theorem test_wf_raws : wellFormed (.tickBoundary (List.replicate 16 0) true true) = false := by decide
theorem test_wf_hop : wellFormed (.enumerationFrame 0 0 256 true) = false := by decide
theorem test_wf_round : wellFormed (.probeFrame 0 0 true (2 ^ 32)) = false := by decide
theorem test_wf_setup : wellFormed (.setupFrame 0 0 0 0 0 (List.replicate 79 0) true) = false := by decide
theorem test_wf_nego_low (w : FeltWire) : wellFormed (.negotiationFrame (.low [1]) w) = false := rfl
theorem test_wf_nego_high (w : FeltWire) : wellFormed (.negotiationFrame (.high []) w) = false := rfl
theorem burst_long (n : Nat) (h : 66252 < n) : burstOk (some (List.replicate n 0)) = false := by
  simp [burstOk]
  omega
theorem test_wf_burst_a : wellFormed (.copyReceived (some (List.replicate 66253 0)) none false) = false := by
  rw [wellFormed, burst_long _ (by decide)]
  rfl
theorem test_wf_burst_b : wellFormed (.copyReceived none (some (List.replicate 66253 0)) false) = false := by
  rw [wellFormed, burst_long _ (by decide)]
  rfl
theorem test_wf_packet_empty : wellFormed (.packetAccepted 0 0 0 false []) = false := by decide
theorem test_wf_packet_data : wellFormed (.packetAccepted 0 0 1 false [1, 2]) = false := by decide
theorem test_wf_packet_long : wellFormed (.packetAccepted 0 0 2049 false []) = false := by decide
theorem test_wf_type : wellFormed (.bag (wDgram 0x20 [1])) = false := by decide +kernel
theorem test_wf_ack_flag : wellFormed (.ackOnly (wDgram 0xFF [])) = false := by decide +kernel
theorem dgram_long (d : KlpDgram) (n : Nat) (h : 65507 < n) : dgramOk { d with udp := List.replicate n 0 } = false := by
  simp [dgramOk]
  omega
theorem test_wf_udp (d : KlpDgram) : wellFormed (.bag { d with udp := List.replicate 65508 0 }) = false := by
  rw [wellFormed, dgramIs, dgram_long _ _ (by decide)]
  rfl
theorem test_wf_frame_len : wellFormed (.ethFrame { wF with len := 65536 }) = false := by decide
theorem test_wf_frame_klp (d : KlpDgram) :
    wellFormed (.ethFrame { wF with klp := some { d with udp := List.replicate 65508 0 } }) = false := by
  simp only [wellFormed, frameOk, dgram_long _ _ (show 65507 < 65508 by decide), Bool.and_false]
theorem test_wf_ream_write : wellFormed (.reamWindowWrite 0 (2 ^ 23) 0 0) = false := by decide
theorem test_wf_ream_read : wellFormed (.reamWindowRead 0 (2 ^ 23) 0) = false := by decide

/-! ## The manual's worked examples and check values -/

/-- The state that a command leaves. -/
def after (c : Instr) (s : State) : State :=
  match exec c s with
  | .next t => t
  | .fault _ => State.reset
  | .refused _ => State.reset

/-- "123456789". -/
def digits : List Byte := [0x31, 0x32, 0x33, 0x34, 0x35, 0x36, 0x37, 0x38, 0x39]

/-- Table 17.3: the fixed CRC-32C. -/
theorem test_crc32c : crc32c digits = 0xE3069283 := by decide +kernel
/-- Table 17.3: the other sets, in its order. -/
theorem test_crc_sets :
    crc32 digits = 0xCBF43926 ∧
    crcOf { width := 16, refin := false, refout := false, poly := 0x1021, init := 0xFFFF, xorout := 0 } digits = 0x29B1 ∧
    crcOf { width := 8, refin := false, refout := false, poly := 0x07, init := 0, xorout := 0 } digits = 0xF4 ∧
    crcOf { width := 16, refin := true, refout := true, poly := 0x8005, init := 0xFFFF, xorout := 0 } digits = 0x4B37 ∧
    crcOf { width := 16, refin := true, refout := true, poly := 0x1021, init := 0, xorout := 0 } digits = 0x2189 ∧
    crcOf { width := 16, refin := false, refout := false, poly := 0x1021, init := 0, xorout := 0 } digits = 0x31C3 ∧
    crcOf { width := 5, refin := true, refout := true, poly := 0x05, init := 0x1F, xorout := 0x1F } digits = 0x19 ∧
    crcOf { width := 3, refin := false, refout := false, poly := 0x3, init := 0, xorout := 0x7 } digits = 0x4 := by
  decide +kernel

/-- Table 17.4: the counter decisions on LS6. -/
theorem test_alive_decisions :
    aliveTest 4 true none 0 = .first ∧ aliveTest 4 true (some 0) 1 = .next ∧ aliveTest 4 true (some 15) 1 = .next ∧
    aliveTest 4 true (some 1) 1 = .repeated ∧ aliveTest 4 true (some 1) 3 = .skip ∧
    aliveTest 4 true (some 3) 0 = .restart := by decide

/-- Table 7.12: its words, and the operands that its passes with L = 6 and L = 7 reach. -/
theorem test_network_2520 :
    mkWord 0x01 1 0x800010 = 0x05800010 ∧ mkWord 0x10 0 0xC00002 = 0x40C00002 ∧ mkWord 0x16 0 0xB00005 = 0x58B00005 ∧
    mkWord 0x09 1 0x900028 = 0x25900028 ∧ mkWord 0x2E 0 0xE0FFFC = 0xB8E0FFFC ∧
    resolveIdx (xReg 0x800010) (xOff 0x800010) 6 = 6160 ∧ resolveIdx (xReg 0xC00002) (xOff 0xC00002) 6 = 898 ∧
    resolveIdx (xReg 0xB00005) (xOff 0xB00005) 6 = 10245 ∧ resolveIdx (xReg 0x900028) (xOff 0x900028) 6 = 6184 ∧
    resolveIdx (xReg 0x800010) (xOff 0x800010) 7 = 7184 ∧ resolveIdx (xReg 0xB00005) (xOff 0xB00005) 7 = 11269 := by decide

/-- Chapter 12, worked through: the check digit of GTIN-13 7310582046178, and the two words of its value. -/
theorem test_scan :
    gs1 [7, 3, 1, 0, 5, 8, 2, 0, 4, 6, 1, 7] = 8 ∧ 7310582046178 % 2 ^ 32 = 0x20A55DE2 ∧ 7310582046178 / 2 ^ 32 = 0x6A6 := by
  decide

/-- The scale of Table 16.11: class III, multi-interval, u = 1 g. -/
def wBananas : State :=
  { wHold with
    isl.st := .sealed, isl.sealWord := { normal := 5, tight := 5 }, isl.ms := 420,
    isl.cfgA := { crcOk := true, sealId := 5, tagOk := true, params := [(0x1300, some 0x13), (0x1304, some 2), (0x1305, some 6000), (0x1306, some 15000),
      (0x1308, some 2), (0x1309, some 5)] },
    isl.lanes := [(3, { zeroReq := false, tel := some 1235, telAt := 410, telStable := true, price := 249, item := 0x3A11 })] }

/-- Table 16.11, step 5. -/
theorem test_bananas :
    (weigh wBananas 3 1235).net = 1236 ∧ (weigh wBananas 3 1235).price = 308 ∧ (weigh wBananas 3 1235).range = 1 ∧
    (weigh wBananas 3 1235).flags = 0x61 := by decide +kernel
/-- Table 16.12, step 3: the settled change of 12 364 lies within 247 of 12 360. -/
theorem test_bag :
    bagCompare wHold 3 { id := 1, expected := 12360, start := 0, base := 20451 } 12364 = 0 ∧
    bagCompare wHold 3 { id := 1, expected := 12360, start := 0, base := 20451 } 12608 = 1 := by decide +kernel

/-! ## One step -/

/-- ADD wraps (R147): 0x80000000 + (the sign-extended 0x800000). -/
theorem test_add_wraps : (regsOf (.strand 0) (after (.add (.pipe 0) 2 0x800000) wPipe)).a = 0x7F800000 := by decide +kernel
/-- DIV by 0 (R147): the quotient is 0 and the remainder is A. -/
theorem test_div_zero :
    (regsOf (.strand 0) (after (.div (.pipe 0) 2 0) wPipe)).a = 0 ∧
    (regsOf (.strand 0) (after (.div (.pipe 0) 2 0) wPipe)).b = 0x80000000 ∧
    (after (.div (.pipe 0) 2 0) wPipe).exe.div0 = 1 := by decide +kernel
/-- XAB exchanges A and B (R146). -/
theorem test_xab :
    (regsOf (.strand 0) (after (.xab (.pipe 0)) wPipe)).a = 7 ∧
    (regsOf (.strand 0) (after (.xab (.pipe 0)) wPipe)).b = 0x80000000 := by decide +kernel
/-- CGT is signed and CGTU is not (R146): 0x80000000 against 7. -/
theorem test_compare_signs :
    (regsOf (.strand 0) (after (.cgt (.pipe 0) 2 7) wPipe)).la = false ∧
    (regsOf (.strand 0) (after (.cgtu (.pipe 0) 2 7) wPipe)).la = true := by decide +kernel
/-- A store is seen by its own context and not yet in the couched sheet (R159). -/
theorem test_store_runs_ahead :
    seeWord (.strand 0) (after (.sta (.pipe 0) 0x300005) wPipe) 3 5 = 0x80000000 ∧
    (after (.sta (.pipe 0) 0x300005) wPipe).exe.couched = [] := by decide +kernel
/-- The tick advances at a boundary (R43). -/
theorem test_tick : (after (.tickBoundary (List.replicate 17 0) true true) wHold).clk.tick = 1 := by decide +kernel
/-- RTC_LOAD takes the seconds set (R421). -/
theorem test_rtc_load :
    (after .rtcLoad { wHold with rtc.setSec := 1000 }).rtc.sec = 1000 ∧
    (after .rtcLoad { wHold with rtc.setSec := 1000 }).rtc.valid = true := by decide +kernel
/-- A disable key after 256 E-clocks is too late (R447). -/
theorem test_key_late :
    (after (.wdKeyWrite false 0x0FF0 257) { wWd with wd.s.key := some 0 }).wd.s.en = true ∧
    (after (.wdKeyWrite false 0x0FF0 256) { wWd with wd.s.key := some 0 }).wd.s.en = false := by decide +kernel
/-- A word that no row of the table spells leaves the queue as it is. -/
theorem test_no_bits : decodeTableWord 32 0x05800010 = none ∧ (wHold.withFetchWord 32 5) = wHold := ⟨rfl, rfl⟩
/-- A step takes the command at the queue's front. -/
theorem test_queue :
    (match step { wHold with pending := [.rtcLoad, .vmBrownOut] } with
      | .next t => t.pending | .fault _ => [] | .refused _ => []) = [.vmBrownOut] := by decide +kernel

end Sys2Proof.Tests
end

section
namespace Sys2Proof.Machine
/-- While a place is free an entry waits in the place that its number gives, with status 0 (R24). -/
theorem enterRing_room {kind arg off : Nat} {auth : Bool} {s : State} (h : s.ring.put < s.ring.take + 64) :
    enterRing kind auth arg off s = { s with
      ring.slots := tset {} s.ring.slots (s.ring.put % 64)
        { kind := kind, flags := b2n auth, arg := arg, stageOff := off, seq := s.ring.put % 65536 },
      ring.put := s.ring.put + 1 } := by
  simp [enterRing, ringPut, Nat.not_le.mpr h]

/-- With 64 entries pending nothing is written and the entry is kept for another try (R24, R406). -/
theorem enterRing_full {kind arg off : Nat} {auth : Bool} {s : State} (h : s.ring.take + 64 ≤ s.ring.put) :
    enterRing kind auth arg off s = { s with hmp.retries := s.hmp.retries ++
      [(0, 0, { kind := kind, flags := b2n auth, arg := arg, stageOff := off }, 0)] } := by
  simp [enterRing, ringPut, h]

/-- Settles O43: each of the six commands enters its kind, and `ringPut` has the two cases. -/
theorem ringEntriesWait : Obligations.RingEntriesWait := by
  intro auth arg off s
  refine ⟨fun room => ?_, fun full => ?_⟩
  · have waits := fun k o => congrArg ok (enterRing_room (kind := k) (arg := arg.toNat) (off := o) (auth := auth) room)
    exact ⟨waits 1 0, waits 2 off.toNat, waits 3 0, waits 4 0, waits 5 0, waits 6 0⟩
  · have again := fun k o => congrArg ok (enterRing_full (kind := k) (arg := arg.toNat) (off := o) (auth := auth) full)
    exact ⟨again 1 0, again 2 off.toNat, again 3 0, again 4 0, again 5 0, again 6 0⟩
end Sys2Proof.Machine
end

section
/-! The lane switch (O52): what the scheduler's own records leave alone. -/
namespace Sys2Proof.Machine

/-- `t` is `s` but for the tags, virtual times and credits of its scheduler. -/
def OnlyWfq (s t : State) : Prop :=
  ∃ tq tu ts vq vu vs cr, t = { s with sw := { s.sw with
    tagQ := tq, tagU := tu, tagS := ts, vQ := vq, vU := vu, vS := vs, credit := cr } }

namespace OnlyWfq

theorem refl (s : State) : OnlyWfq s s := ⟨_, _, _, _, _, _, _, rfl⟩

theorem trans {s t u : State} (h : OnlyWfq s t) (g : OnlyWfq t u) : OnlyWfq s u := by
  obtain ⟨_, _, _, _, _, _, _, rfl⟩ := h
  obtain ⟨_, _, _, _, _, _, _, rfl⟩ := g
  exact ⟨_, _, _, _, _, _, _, rfl⟩

theorem foldl {β : Type} {f : State → β → State} (h : ∀ s x, OnlyWfq s (f s x)) (l : List β) (s : State) :
    OnlyWfq s (l.foldl f s) := by
  induction l generalizing s with
  | nil => exact refl s
  | cons x l ih => exact (h s x).trans (ih _)

theorem queues {s t : State} (h : OnlyWfq s t) : t.sw.queues = s.sw.queues := by
  obtain ⟨_, _, _, _, _, _, _, rfl⟩ := h; rfl
theorem chosen {s t : State} (h : OnlyWfq s t) : t.sw.chosen = s.sw.chosen := by
  obtain ⟨_, _, _, _, _, _, _, rfl⟩ := h; rfl
theorem egr {s t : State} (h : OnlyWfq s t) : t.sw.egr = s.sw.egr := by
  obtain ⟨_, _, _, _, _, _, _, rfl⟩ := h; rfl
theorem drop {s t : State} (h : OnlyWfq s t) : t.sw.drop = s.sw.drop := by
  obtain ⟨_, _, _, _, _, _, _, rfl⟩ := h; rfl
theorem cancelLate {s t : State} (h : OnlyWfq s t) : t.sw.cancelLate = s.sw.cancelLate := by
  obtain ⟨_, _, _, _, _, _, _, rfl⟩ := h; rfl
theorem svc {s t : State} (h : OnlyWfq s t) (q : Nat) : qSvc t q = qSvc s q := by
  obtain ⟨_, _, _, _, _, _, _, rfl⟩ := h; rfl
theorem queue {s t : State} (h : OnlyWfq s t) (q : Nat) : queue t q = queue s q := by
  rw [Machine.queue, h.queues, Machine.queue]
theorem chosenAt {s t : State} (h : OnlyWfq s t) (p : Nat) : chosenAt t p = chosenAt s p := by
  rw [Machine.chosenAt, h.chosen, Machine.chosenAt]

end OnlyWfq

theorem touchQ_wfq (q : Nat) (s : State) : OnlyWfq s (touchQ q s) := ⟨_, _, _, _, _, _, _, rfl⟩
theorem touchU_wfq (p v u : Nat) (s : State) : OnlyWfq s (touchU p v u s) := ⟨_, _, _, _, _, _, _, rfl⟩
theorem touchS_wfq (p v : Nat) (s : State) : OnlyWfq s (touchS p v s) := by
  unfold touchS
  split
  · exact .refl s
  · exact ⟨_, _, _, _, _, _, _, rfl⟩
theorem refreshPath_wfq (s : State) (q : Nat) : OnlyWfq s (refreshPath s q) :=
  (touchQ_wfq q s).trans ((touchU_wfq _ _ _ _).trans (touchS_wfq _ _ _))
theorem chargeNode_wfq (l : Nat) (s : State) (n : Node) : OnlyWfq s (chargeNode l s n) := by
  unfold chargeNode
  split
  · exact .refl s
  · exact ⟨_, _, _, _, _, _, _, rfl⟩
theorem settleNode_wfq (s : State) (n : Node) : OnlyWfq s (settleNode s n) := by
  unfold settleNode
  split
  · exact .refl s
  · split
    · exact ⟨_, _, _, _, _, _, _, rfl⟩
    · exact .refl s

/-! ## Choosing -/

/-- The choice of packet `k` of queue `q`, with its saved copy (R297). -/
def choiceOf (p v u q : Nat) (k : Pkt) (s : State) : Chosen :=
  { q := q, pkt := k, tq := tget {} s.sw.tagQ q, tu := tget {} s.sw.tagU (keyU p v u), ts := tget {} s.sw.tagS (keyS p v),
    vq := tget 0 s.sw.vQ (keyU p v u), vu := tget 0 s.sw.vU (keyS p v), vs := tget 0 s.sw.vS p,
    credits := (pathNodes p v u q).filterMap fun n => (shaperOf s n).map fun i => (i, credit s i) }

/-- What a completed choice does besides the scheduler's records: the head of queue `q` leaves it and is chosen. -/
theorem choose_takes {p v u q : Nat} {k : Pkt} {rest : List Pkt} {s : State} (free : chosenAt s p = none)
    (hv : pickSvc s p = some v) (hu : pickSub s p v = some u) (hq : pickQueue s p v u = some q)
    (head : queue s q = k :: rest) :
    OnlyWfq { s with sw.queues := tset [] s.sw.queues q rest,
                     sw.chosen := tset none s.sw.chosen p (some (choiceOf p v u q k s)) } (choose p s) := by
  unfold choose
  simp -zeta only [free, hv, hu, hq, head, Option.isSome_none, Bool.false_eq_true, if_false]
  refine .trans ?_ ((OnlyWfq.foldl (chargeNode_wfq _) _ _).trans (refreshPath_wfq _ _))
  dsimp only
  split <;> exact ⟨_, _, _, _, _, _, _, rfl⟩

/-- A port with a packet chosen already, or with nothing to choose, chooses nothing. -/
theorem choose_idle {p : Nat} {s : State} (h : (chosenAt s p).isSome = true ∨ pickSvc s p = none) : choose p s = s := by
  unfold choose
  rcases h with h | h
  · rw [if_pos h]
  · simp [h]

/-! ## Admission -/

/-- A packet may come from this slot into this queue (R27, R287). -/
def SourceOk (s : State) (q slot : Nat) : Prop :=
  qPort s q ≠ 0xFF ∧ (qSrc s q = 0xFF ∨ qSrc s q = slot) ∧ ¬ (slot = 55 ∧ qSvc s q < 2)

/-- A queue and the buffer have room for a packet of this many cells (R287). -/
def RoomFor (s : State) (q cells : Nat) : Prop :=
  queueCells s q + cells ≤ qMax s q ∧ cells ≤ freeCells s ∧ (qSvc s q ≠ 0 → reserveLegal s + cells ≤ freeCells s)

theorem SourceOk.not_refused {s : State} {q slot : Nat} (h : SourceOk s q slot) :
    ¬ (qPort s q = 0xFF ∨ (qSrc s q ≠ 0xFF ∧ qSrc s q ≠ slot)) := by
  obtain ⟨port, src, -⟩ := h
  tauto

/-- The space check refuses exactly what has no room. -/
theorem roomFor_iff (s : State) (q cells : Nat) : RoomFor s q cells ↔
    ¬ (qMax s q < queueCells s q + cells ∨ (qSvc s q ≠ 0 ∧ freeCells s < reserveLegal s + cells) ∨ freeCells s < cells) := by
  simp only [RoomFor, not_or, not_and, Nat.not_lt]
  tauto

section
variable {q slot : Nat} {dei : Bool} {k : Pkt} {s : State}

theorem joinQueue_accepted (source : SourceOk s q slot) (shut : slotShut s (qPort s q) = false)
    (room : RoomFor s q (cellsOf k.bytes)) (kept : ∀ c, chosenAt s (qPort s q) = some c → qSvc s c.q ≤ qSvc s q) :
    OnlyWfq { s with sw.queues := tset [] s.sw.queues q (queue s q ++ [{ k with src := slot }]) }
      (joinQueue q slot k s).2 := by
  unfold joinQueue
  simp only [if_neg source.not_refused, shut, if_neg ((roomFor_iff _ _ _).mp room), Bool.false_eq_true, if_false]
  have joined := refreshPath_wfq
    { s with sw.queues := tset [] s.sw.queues q (queue s q ++ [{ k with src := slot }]) } q
  split
  · rename_i c hc
    rw [joined.chosenAt] at hc
    rw [if_neg (by rw [joined.svc, joined.svc]; exact Nat.not_lt.mpr (kept c hc))]
    exact joined
  · exact joined

theorem joinQueue_full (source : SourceOk s q slot) (shut : slotShut s (qPort s q) = false)
    (room : ¬ RoomFor s q (cellsOf k.bytes)) : (joinQueue q slot k s).2 = countDrop q 0 s := by
  unfold joinQueue
  simp only [if_neg source.not_refused, shut, if_pos (not_not.mp (mt (roomFor_iff _ _ _).mpr room)),
    Bool.false_eq_true, if_false]

/-- A packet of an allowed source for a queue without a policer goes to the checks of closing and space. -/
theorem admitFrom_unpoliced (source : SourceOk s q slot) (pol : qPol s q = 0xFFFF) :
    admitFrom q slot dei k s = joinQueue q slot k s := by
  simp only [admitFrom, offerPkt, if_neg source.2.2, if_neg source.not_refused, pol, true_or, if_true]

theorem admitFrom_refused (h : ¬ SourceOk s q slot) : (admitFrom q slot dei k s).2 = countDrop q 24 s := by
  unfold admitFrom
  split
  · rfl
  · have refused : qPort s q = 0xFF ∨ (qSrc s q ≠ 0xFF ∧ qSrc s q ≠ slot) := by
      unfold SourceOk at h
      tauto
    simp only [offerPkt, if_pos refused]

end

end Sys2Proof.Machine
end

section
/-! The live parameters of the lane switch stand through the delivery of events, and the commands of the lane switch. -/
namespace Sys2Proof.Machine

/-! ## Cancels -/

/-- With no chosen packet at its port, a waiting packet leaves its queue. -/
theorem cancel_withdraws {q : Nat} {t : Nat × Nat} {s : State} (free : chosenAt s (qPort s q) = none)
    (waits : (queue s q).any (hasTag t) = true) : (cancel q t s).1 = 0 ∧
      OnlyWfq { s with sw.queues := tset [] s.sw.queues q ((queue s q).eraseP (hasTag t)) } (cancel q t s).2 := by
  simp only [cancel, withdraw, free, waits, if_true]
  exact ⟨trivial, (OnlyWfq.foldl settleNode_wfq _ _).trans (refreshPath_wfq _ _)⟩

/-- A packet that waits nowhere is late; one that was committed is counted and reported besides. -/
theorem cancel_late {q : Nat} {t : Nat × Nat} {s : State} (free : chosenAt s (qPort s q) = none)
    (gone : (queue s q).any (hasTag t) = false) : cancel q t s =
      (1, if s.sw.sent.any fun e => hasTag t e.2 then
          raise 0x1302 q { s with sw.cancelLate := satInc 65535 s.sw.cancelLate } else s) := by
  simp [cancel, withdraw, free, gone]

/-! ## What delivery keeps -/

/-- `t` has the live parameters of `s`. -/
def SameParams (s t : State) : Prop := t.sw.sched = s.sw.sched ∧ t.sw.polm = s.sw.polm

namespace SameParams

theorem refl (s : State) : SameParams s s := ⟨rfl, rfl⟩

theorem of_sw {s t : State} (h : t.sw = s.sw) : SameParams s t := ⟨by rw [h], by rw [h]⟩

theorem trans {s t u : State} (h : SameParams s t) (g : SameParams t u) : SameParams s u :=
  ⟨g.1.trans h.1, g.2.trans h.2⟩

theorem of_same {r s t : State} (h : SameParams r t) (hs : r.sw.sched = s.sw.sched) (hp : r.sw.polm = s.sw.polm) :
    SameParams s t := ⟨h.1.trans hs, h.2.trans hp⟩

theorem foldl {β : Type} {f : State → β → State} (h : ∀ s x, SameParams s (f s x)) (l : List β) (s : State) :
    SameParams s (l.foldl f s) := by
  induction l generalizing s with
  | nil => exact refl s
  | cons x l ih => exact (h s x).trans (ih _)

end SameParams

theorem OnlyWfq.params {s t : State} (h : OnlyWfq s t) : SameParams s t := by
  obtain ⟨_, _, _, _, _, _, _, rfl⟩ := h
  exact ⟨rfl, rfl⟩

theorem choose_params (p : Nat) (s : State) : SameParams s (choose p s) := by
  cases free : chosenAt s p with
  | some c => rw [choose_idle (.inl (by rw [free]; rfl))]; exact .refl s
  | none =>
    cases hv : pickSvc s p with
    | none => rw [choose_idle (.inr hv)]; exact .refl s
    | some v =>
      cases hu : pickSub s p v with
      | none => simp only [choose, free, hv, hu]; exact .refl s
      | some u =>
        cases hq : pickQueue s p v u with
        | none => simp only [choose, free, hv, hu, hq]; exact .refl s
        | some q =>
          cases head : queue s q with
          | nil => simp only [choose, free, hv, hu, hq, head]; exact .refl s
          | cons k rest => exact (choose_takes free hv hu hq head).params.of_same rfl rfl

theorem undo_params (p : Nat) (back : Bool) (s : State) : SameParams s (undo p back s) := by
  unfold undo
  split
  · exact .refl s
  · refine .trans ?_ (refreshPath_wfq _ _).params
    cases back with
    | true => exact ⟨rfl, rfl⟩
    | false =>
      exact (OnlyWfq.foldl settleNode_wfq _ _).params.of_same rfl rfl

theorem joinQueue_params (q slot : Nat) (k : Pkt) (s : State) : SameParams s (joinQueue q slot k s).2 := by
  unfold joinQueue
  dsimp only
  split
  · exact ⟨rfl, rfl⟩
  · split
    · split <;> exact ⟨rfl, rfl⟩
    · split
      · exact ⟨rfl, rfl⟩
      · have joined : SameParams s
            (refreshPath { s with sw.queues := tset [] s.sw.queues q (queue s q ++ [{ k with src := slot }]) } q) :=
          (refreshPath_wfq _ _).params.of_same rfl rfl
        generalize refreshPath _ q = t at joined ⊢
        split
        · split
          · exact joined.trans ((undo_params _ _ _).trans (choose_params _ _))
          · exact joined
        · exact joined

theorem colour_params (i b pre : Nat) (s : State) : SameParams s (colour i b pre s).2 := by
  unfold colour
  dsimp only
  split
  · exact ⟨rfl, rfl⟩
  · split <;> exact ⟨rfl, rfl⟩

theorem offerPkt_params (q slot : Nat) (dei : Bool) (k : Pkt) (s : State) : SameParams s (offerPkt q slot dei k s).2 := by
  unfold offerPkt
  split
  · exact ⟨rfl, rfl⟩
  · dsimp only
    generalize (if (decide (polMode s (qPol s q) = 2) && dei) = true then 1 else 0) = pre
    have coloured := colour_params (qPol s q) k.bytes pre s
    split
    · exact joinQueue_params _ _ _ _
    · split
      · exact coloured
      · split
        · split
          · exact coloured
          · exact coloured.trans (joinQueue_params _ _ _ _)
        · exact coloured.trans (joinQueue_params _ _ _ _)

theorem appendLog_sw (e : LogEntry) (s : State) : (appendLog e s).sw = s.sw := by
  unfold appendLog
  split <;> rfl

theorem deliver_sw (e : LogEntry) (s : State) : (deliver e s).sw = s.sw := by
  unfold deliver
  split
  · rfl
  · dsimp only
    split <;> exact appendLog_sw e s

theorem foldl_sw {β : Type} {f : State → β → State} (h : ∀ s x, (f s x).sw = s.sw) (l : List β) (s : State) :
    (l.foldl f s).sw = s.sw := by
  induction l generalizing s with
  | nil => rfl
  | cons x l ih => exact (ih _).trans (h s x)

theorem flushEvents_sw (s : State) : (flushEvents s).sw = s.sw := by
  rw [flushEvents, foldl_sw fun s e => deliver_sw e s]

theorem exportOne_sw (s : State) (e : LogEntry) : (exportOne s e).sw = s.sw := by
  unfold exportOne
  split
  · rfl
  · split
    · rfl
    · dsimp only
      split
      · rfl
      · exact raise_sw _ _ _

theorem exportSyslog_sw (s : State) : (exportSyslog s).sw = s.sw := by
  rw [exportSyslog, foldl_sw exportOne_sw]
  dsimp only
  rw [flushEvents_sw, foldl_sw exportOne_sw]

theorem sendEvents_params (s : State) : SameParams s (sendEvents s) := by
  unfold sendEvents
  split
  · exact .refl s
  · split
    · have sent := SameParams.foldl (fun s (e : LogEntry) => offerPkt_params (cf s 0x1C 0 58 2 0) (klpPort s) false
        { bytes := max 64 (klpFrameBytes s e.lane (eventPayload e).length), lane := e.lane, typ := 7,
          data := eventPayload e } s) s.evt.klpHeld { s with evt.klpHeld := [] }
      exact sent
    · exact ⟨rfl, rfl⟩

/-- Delivery offers EVENTs to the switch and keeps its live parameters. -/
theorem settle_params (s : State) : SameParams s (settle s) := by
  have sent := sendEvents_params (exportSyslog (flushEvents s))
  unfold SameParams at sent
  rw [exportSyslog_sw, flushEvents_sw] at sent
  exact sent

@[simp] theorem settle_sched (s : State) : (settle s).sw.sched = s.sw.sched := (settle_params s).1
@[simp] theorem settle_polm (s : State) : (settle s).sw.polm = s.sw.polm := (settle_params s).2

end Sys2Proof.Machine
end

section
/-! The commands of the lane switch, and the statement O52. -/
namespace Sys2Proof.Machine

/-! ## PACKET_ACCEPTED (R287) -/

section
variable {slot : Fin 57} {q : BitVec 11} {bytes : Nat} {dei : Bool} {data : List Byte} {s : State}

/-- A packet of 1 to 2 048 bytes is offered to its queue. -/
theorem exec_packetAccepted (low : 1 ≤ bytes) (high : bytes ≤ 2048) : exec (.packetAccepted slot q bytes dei data) s =
    .next (settle (admitFrom q.toNat slot.val dei { bytes := bytes, data := data } s).2) := by
  show ok _ = _
  rw [if_neg (by omega)]
  rfl

theorem packetAccepted_joins (low : 1 ≤ bytes) (high : bytes ≤ 2048) (source : SourceOk s q.toNat slot.val)
    (pol : qPol s q.toNat = 0xFFFF) (shut : slotShut s (qPort s q.toNat) = false)
    (room : RoomFor s q.toNat (cellsOf bytes))
    (kept : ∀ c, chosenAt s (qPort s q.toNat) = some c → qSvc s c.q ≤ qSvc s q.toNat) :
    ∃ u, exec (.packetAccepted slot q bytes dei data) s = .next (settle u) ∧
      queue u q.toNat = queue s q.toNat ++ [{ bytes := bytes, data := data, src := slot.val }] ∧
      (∀ m, m ≠ q.toNat → queue u m = queue s m) ∧ u.sw.chosen = s.sw.chosen ∧ u.sw.drop = s.sw.drop := by
  refine ⟨_, exec_packetAccepted low high, ?_⟩
  rw [admitFrom_unpoliced source pol]
  have joined := joinQueue_accepted (k := { bytes := bytes, data := data }) source shut room kept
  refine ⟨?_, fun m hm => ?_, joined.chosen, joined.drop⟩
  · exact (joined.queue _).trans (by simp [queue])
  · exact (joined.queue m).trans (by simp [queue, hm])

theorem packetAccepted_full (low : 1 ≤ bytes) (high : bytes ≤ 2048) (source : SourceOk s q.toNat slot.val)
    (pol : qPol s q.toNat = 0xFFFF) (shut : slotShut s (qPort s q.toNat) = false)
    (room : ¬ RoomFor s q.toNat (cellsOf bytes)) :
    exec (.packetAccepted slot q bytes dei data) s = .next (settle (countDrop q.toNat 0 s)) := by
  rw [exec_packetAccepted low high, admitFrom_unpoliced source pol, joinQueue_full source shut room]

theorem packetAccepted_source (low : 1 ≤ bytes) (high : bytes ≤ 2048) (source : ¬ SourceOk s q.toNat slot.val) :
    exec (.packetAccepted slot q bytes dei data) s = .next (settle (countDrop q.toNat 24 s)) := by
  rw [exec_packetAccepted low high, admitFrom_refused source]

end

/-! ## INGRESS_NO_BUFFER (R288) -/

theorem raiseOnceKey_raised (key code arg lane : Nat) (s : State) : OnlyRaised s (raiseOnceKey key code arg lane s) := by
  unfold raiseOnceKey
  split
  · exact ⟨_, _, _, rfl⟩
  · obtain ⟨ev, md, ex, h⟩ := raiseAs_raised (classOf code) code arg lane { s with evt.once := key :: s.evt.once }
    exact ⟨ev, md, ex, h⟩

@[simp] theorem raiseOnceKey_sw (key code arg lane : Nat) (s : State) : (raiseOnceKey key code arg lane s).sw = s.sw := by
  obtain ⟨_, _, _, h⟩ := raiseOnceKey_raised key code arg lane s
  rw [h]

@[simp] theorem raiseOnceKey_engs (key code arg lane : Nat) (s : State) :
    (raiseOnceKey key code arg lane s).engs = s.engs := by
  obtain ⟨_, _, _, h⟩ := raiseOnceKey_raised key code arg lane s
  rw [h]

@[simp] theorem noBuffer_sw (slot : Nat) (s : State) :
    (noBuffer slot s).sw = { s.sw with nobuf := satInc 65535 s.sw.nobuf } := by simp [noBuffer]

@[simp] theorem eng_noBuffer (slot e : Nat) (s : State) : eng (noBuffer slot s) e = eng s e := by simp [noBuffer, eng]

theorem ingressNoBuffer_drops {slot : Fin 57} {s : State} (port : slot.val ≠ 56) (none : noCells s 1 = true) :
    ∃ u, exec (.ingressNoBuffer slot) s = .next (settle u) ∧ u.sw = { s.sw with nobuf := satInc 65535 s.sw.nobuf } ∧
      (2 ≤ slot.val → slot.val ≤ 53 → (eng u (slot.val - 2)).raw = [] ∧ (eng u (slot.val - 2)).inFrame = false) := by
  refine ⟨noBuffer slot.val (if 2 ≤ slot.val ∧ slot.val ≤ 53 then dropFrame (slot.val - 2) s else s), ?_, ?_, ?_⟩
  · show ok _ = _
    simp [port, none, ok]
  · rw [noBuffer_sw]
    split <;> rfl
  · intro low high
    rw [eng_noBuffer, if_pos ⟨low, high⟩]
    simp [eng, dropFrame]

theorem ingressNoBuffer_has {slot : Fin 57} {s : State} (h : slot.val = 56 ∨ noCells s 1 = false) :
    exec (.ingressNoBuffer slot) s = .next (settle s) := by
  show ok _ = _
  rw [if_pos (h.imp_right fun h => by rw [h]; rfl)]
  rfl

/-! ## SELECTION_COMPLETE (R297) -/

theorem selectionComplete_takes {p : Fin 57} {v u q : Nat} {k : Pkt} {rest : List Pkt} {s : State}
    (free : chosenAt s p = none) (hv : pickSvc s p = some v) (hu : pickSub s p v = some u)
    (hq : pickQueue s p v u = some q) (head : queue s q = k :: rest) :
    ∃ t c, exec (.selectionComplete p) s = .next (settle t) ∧ chosenAt t p = some c ∧ c.q = q ∧ c.pkt = k ∧
      queue t q = rest ∧ (∀ m, m ≠ q → queue t m = queue s m) ∧ t.sw.egr = s.sw.egr := by
  have taken := choose_takes free hv hu hq head
  refine ⟨choose p s, choiceOf p v u q k s, rfl, ?_, rfl, rfl, ?_, fun m hm => ?_, taken.egr⟩
  · exact (taken.chosenAt _).trans (by simp [chosenAt])
  · exact (taken.queue _).trans (by simp [queue])
  · exact (taken.queue m).trans (by simp [queue, hm])

theorem selectionComplete_idle {p : Fin 57} {s : State} (h : (chosenAt s p).isSome = true ∨ pickSvc s p = none) :
    exec (.selectionComplete p) s = .next (settle s) :=
  congrArg ok (choose_idle h)

/-! ## COMMIT (R283, R297) -/

/-- The switch with port `p`'s chosen packet committed: its cells are the port's, and no choice is left. -/
def committed (p : Nat) (k : Pkt) (s : State) : State :=
  { s with sw.chosen := tset none s.sw.chosen p none, sw.egr := tset 0 s.sw.egr p (cellsOf k.bytes),
           sw.sent := tset {} s.sw.sent p k }

theorem commit_none {p : Fin 57} {s : State} (h : chosenAt s p = none) : exec (.commit p) s = .next (settle s) := by
  show ok _ = _
  rw [h]
  rfl

theorem commit_waits {p : Fin 57} {s : State} {c : Chosen} (h : chosenAt s p = some c)
    (start : canStart s p c.pkt = false) : exec (.commit p) s = .next (settle s) := by
  show ok _ = _
  simp [h, start, ok]

theorem commit_departs {p : Fin 57} {s : State} {c : Chosen} (h : chosenAt s p = some c)
    (start : canStart s p c.pkt = true) :
    exec (.commit p) s = .next (settle (depart p (qSvc s c.q) c.pkt (committed p c.pkt s))) := by
  show ok _ = _
  simp only [h, start, if_true]
  rfl

/-- What a departed packet's port reads, as long as what the port does keeps the switch. -/
theorem committed_books {p : Nat} {k : Pkt} {s u : State} (h : u.sw = (committed p k s).sw) :
    chosenAt u p = none ∧ tget 0 u.sw.egr p = cellsOf k.bytes ∧ u.sw.queues = s.sw.queues := by
  simp [chosenAt, h, committed]

/-- A frame that leaves at once: what engine `e` then shows. -/
def leaving (bs : List Byte) (x : Eng) : Eng := { x with sentTpl := bs, going := bs, tx := (x.tx + 1) % 2 ^ 32 }

/-- Outside the CAN ports a frame whose transmitter is not stopped leaves, and waits for its reply when it expects one. -/
theorem sendFrame_leaves {e : Nat} {k : Pkt} {s : State} (noCan : e < 48 ∨ 51 < e) (cts : ctsStops s e = false) :
    (sendFrame e k s).sw = s.sw ∧ eng (sendFrame e k s) e = (if k.ack then
      { leaving k.data (eng s e) with wait := some { pkt := k, deadline := s.clk.tick + dl s e 23 1 4 } }
      else leaving k.data (eng s e)) := by
  have can : decide (48 ≤ e ∧ e < 52) = false := by simp; omega
  have sent : sendFrame e k s = (if k.ack then
      modEng e (fun x => { x with wait := some { pkt := k, deadline := s.clk.tick + dl s e 23 1 4 } })
        (modEng e (leaving k.data) s) else modEng e (leaving k.data) s) := by
    simp only [sendFrame, can, Bool.false_and, Bool.false_eq_true, if_false, canCounters, if_pos noCan, sendBytes, cts]
    rfl
  rw [sent]
  cases k.ack <;> simp

theorem commit_frame {p : Fin 57} {s : State} {c : Chosen} {e : Nat} (h : chosenAt s p = some c)
    (start : canStart s p c.pkt = true) (sends : sendingEng p c.pkt = some e) (noCan : e < 48 ∨ 51 < e) :
    ∃ u, exec (.commit p) s = .next (settle u) ∧ chosenAt u p = none ∧ tget 0 u.sw.egr p = cellsOf c.pkt.bytes ∧
      u.sw.queues = s.sw.queues ∧ (eng u e).sentTpl = c.pkt.data ∧ (eng u e).tx = ((eng s e).tx + 1) % 2 ^ 32 ∧
      (c.pkt.ack = true → (eng u e).wait = some { pkt := c.pkt, deadline := s.clk.tick + dl s e 23 1 4 }) := by
  have cts : ctsStops s e = false := by
    simp only [canStart, sends, mayTransmit, Bool.and_eq_true, Bool.not_eq_true'] at start
    exact start.2.2.1.2
  obtain ⟨sw, shows⟩ := sendFrame_leaves (k := c.pkt) (s := committed p c.pkt s) noCan cts
  obtain ⟨chosen, egr, queues⟩ := committed_books sw
  refine ⟨sendFrame e c.pkt (committed p c.pkt s), ?_, chosen, egr, queues, ?_, ?_, fun ack => ?_⟩
  · rw [commit_departs h start, depart, sends]
  · rw [shows]
    split <;> rfl
  · rw [shows]
    split <;> rfl
  · rw [shows, if_pos ack]
    rfl

theorem commit_message {p : Fin 57} {s : State} {c : Chosen} (h : chosenAt s p = some c)
    (start : canStart s p c.pkt = true) (up : p.val < 2) (port : p.val = klpPort s) (served : klpServed s = true)
    (host : c.pkt.src ≠ 54) (typ : c.pkt.typ ≠ 0) (form : c.pkt.form = 0)
    (isOpen : (tget {} s.klp.sess (sessIdx c.pkt.lane)).isOpen = true) :
    ∃ u, exec (.commit p) s = .next (settle u) ∧ chosenAt u p = none ∧ tget 0 u.sw.egr p = cellsOf c.pkt.bytes ∧
      let x := tget {} s.klp.sess (sessIdx c.pkt.lane)
      tget {} u.klp.sess (sessIdx c.pkt.lane) = { x with
        txNext := (x.txNext + 1) % 2 ^ 32, ackDue := none,
        unack := x.unack ++ [{ seq := x.txNext, typ := c.pkt.typ, tick := s.clk.tick, tries := 0, data := c.pkt.data }] } := by
  have sends : sendingEng p c.pkt = none := by simp [sendingEng, up]
  have served' : klpServed (committed p c.pkt s) = true := served
  have isOpen' : (tget {} (committed p c.pkt s).klp.sess (sessIdx c.pkt.lane)).isOpen = true := isOpen
  have port' : p.val = klpPort (committed p c.pkt s) := port
  refine ⟨klpDepart (qSvc s c.q) c.pkt (committed p c.pkt s), ?_, ?_⟩
  · rw [commit_departs h start, depart, sends]
    dsimp only
    rw [if_pos up, if_pos ⟨port', .inr (.inl typ)⟩]
  · simp only [klpDepart, served', host, form, isOpen', Bool.not_true, Bool.false_eq_true, false_and, if_false]
    obtain ⟨chosen, egr, -⟩ := committed_books (p := p) (k := c.pkt) (s := s) rfl
    exact ⟨chosen, egr, tget_tset_same _ _ _ _⟩

theorem commit_toIsland {p : Fin 57} {s : State} {c : Chosen} (h : chosenAt s p = some c)
    (start : canStart s p c.pkt = true) (port : p.val = 56) (low : 0x20 ≤ c.pkt.typ) (high : c.pkt.typ ≤ 0x23)
    (room : s.slu.down.length < 32) :
    ∃ u, exec (.commit p) s = .next (settle u) ∧ chosenAt u p = none ∧ u.slu.down = s.slu.down ++
      [{ code := c.pkt.typ - 0x1F, lane := c.pkt.lane, seq := s.slu.downSeq, data := c.pkt.data }] := by
  have sends : sendingEng p c.pkt = none := by simp [sendingEng, port]
  have full : ¬ 32 ≤ (committed p c.pkt s).slu.down.length := Nat.not_le.mpr room
  refine ⟨toIsland c.pkt (committed p c.pkt s), ?_, ?_⟩
  · rw [commit_departs h start, depart, sends]
    simp [port]
  · rw [toIsland, if_neg (by omega)]
    simp only [sluDown, if_neg full, if_true]
    exact ⟨(committed_books rfl).1, rfl⟩

/-! ## PACKET_CANCEL (R299) -/

section
variable {q : BitVec 11} {session : BitVec 16} {seq : BitVec 32} {s : State}

theorem exec_packetCancel : exec (.packetCancel q session seq) s =
    .next (settle { (cancel q.toNat (session.toNat, seq.toNat) s).2 with
      sw.answer := (cancel q.toNat (session.toNat, seq.toNat) s).1 }) := rfl

theorem packetCancel_withdraws (free : chosenAt s (qPort s q.toNat) = none)
    (waits : (queue s q.toNat).any (hasTag (session.toNat, seq.toNat)) = true) :
    ∃ u, exec (.packetCancel q session seq) s = .next (settle u) ∧
      queue u q.toNat = (queue s q.toNat).eraseP (hasTag (session.toNat, seq.toNat)) ∧
      (∀ m, m ≠ q.toNat → queue u m = queue s m) ∧ u.sw.answer = 0 ∧ u.sw.cancelLate = s.sw.cancelLate := by
  obtain ⟨answer, left⟩ := cancel_withdraws free waits
  refine ⟨{ (cancel q.toNat (session.toNat, seq.toNat) s).2 with sw.answer := 0 }, ?_, ?_, fun m hm => ?_, rfl,
    left.cancelLate⟩
  · rw [exec_packetCancel, answer]
  · exact (left.queue _).trans (by simp [queue])
  · exact (left.queue m).trans (by simp [queue, hm])

theorem packetCancel_late (free : chosenAt s (qPort s q.toNat) = none)
    (gone : (queue s q.toNat).any (hasTag (session.toNat, seq.toNat)) = false)
    (unsent : (s.sw.sent.any fun e => hasTag (session.toNat, seq.toNat) e.2) = false) :
    exec (.packetCancel q session seq) s = .next (settle { s with sw.answer := 1 }) := by
  rw [exec_packetCancel, cancel_late free gone, unsent]
  rfl

theorem packetCancel_committed (free : chosenAt s (qPort s q.toNat) = none)
    (gone : (queue s q.toNat).any (hasTag (session.toNat, seq.toNat)) = false)
    (sent : (s.sw.sent.any fun e => hasTag (session.toNat, seq.toNat) e.2) = true) :
    exec (.packetCancel q session seq) s = .next (settle (raise 0x1302 q.toNat { s with
      sw.cancelLate := satInc 65535 s.sw.cancelLate, sw.answer := 1 })) := by
  rw [exec_packetCancel, cancel_late free gone, sent]
  have calm : classOf 0x1302 ≠ 0x46 := by decide
  simp only [if_true, raise, raiseL, raiseAs, if_neg calm]
  rfl

end

/-! ## MIRROR_WRITE (R304) -/

section
variable {a mask v : Word} {s : State} (mirror : inSched a.toNat = true ∨ inPolicer a.toNat = true)
  (aligned : a.toNat % 4 = 0)
include mirror aligned

theorem exec_mirrorWrite : exec (.mirrorWrite a mask v) s =
    .next (settle (mirrorWrite { addr := a.toNat, mask := mask, val := v } s)) := by
  show ok _ = _
  rw [if_pos (by simpa [aligned] using mirror)]
  rfl

theorem mirrorWrite_unused (unused : unusedPort a.toNat = true) : ∃ t, exec (.mirrorWrite a mask v) s = .next t ∧
    t.bus.staged = s.bus.staged ∧ t.sw.sched = s.sw.sched ∧ t.sw.polm = s.sw.polm ∧ t.exe = s.exe := by
  refine ⟨_, exec_mirrorWrite mirror aligned, ?_⟩
  rw [mirrorWrite, if_pos unused]
  simp [answerStaged, answerAccess]

theorem mirrorWrite_staged (used : unusedPort a.toNat = false)
    (passes : (mirrorTry a.toNat mask v (withStaged s)).isSome = true) : exec (.mirrorWrite a mask v) s =
      .next (settle { s with bus.staged := s.bus.staged ++ [{ addr := a.toNat, mask := mask, val := v }] }) := by
  obtain ⟨t, ht⟩ := Option.isSome_iff_exists.mp passes
  rw [exec_mirrorWrite mirror aligned]
  simp [mirrorWrite, used, ht]

theorem mirrorWrite_refused (used : unusedPort a.toNat = false) (fails : mirrorTry a.toNat mask v (withStaged s) = none) :
    ∃ t, exec (.mirrorWrite a mask v) s = .next t ∧ t.bus = { s.bus with status := 2, ans := 0 } ∧ t.exe = s.exe := by
  have calm := raise_calm 0x1306 a.toNat s (by decide)
  have refused : mirrorWrite { addr := a.toNat, mask := mask, val := v } s =
      answerStaged { addr := a.toNat, mask := mask, val := v } 2 (raise 0x1306 a.toNat s) := by
    simp [mirrorWrite, used, fails, mirrorRefuse]
  refine ⟨_, exec_mirrorWrite mirror aligned, ?_, ?_⟩
  · simp [refused, answerStaged, answerAccess, nth]
  · rw [refused, settle_exe, calm]
    rfl

end

/-- Settles O52: admission, choice, commit, cancel and parameter writes, each by its own lemmas. -/
theorem laneSwitch : Obligations.LaneSwitch := by
  refine ⟨?_, ?_, ?_, ?_, ?_⟩
  · intro slot q bytes dei data s n source room low high
    exact ⟨packetAccepted_joins low high, packetAccepted_full low high, packetAccepted_source low high⟩
  · exact fun slot s => ⟨ingressNoBuffer_drops, ingressNoBuffer_has⟩
  · intro p s
    exact ⟨fun v u q k rest => selectionComplete_takes, selectionComplete_idle, commit_none,
      fun c e => commit_frame, fun c => commit_message, fun c => commit_toIsland, fun c => commit_waits⟩
  · exact fun q session seq s => ⟨packetCancel_withdraws, packetCancel_late, packetCancel_committed⟩
  · intro a mask v s mirror aligned
    exact ⟨mirrorWrite_unused mirror aligned, mirrorWrite_staged mirror aligned, mirrorWrite_refused mirror aligned⟩

end Sys2Proof.Machine
end

section
/-! Accesses to the address map (O58): the answers that an access gives, image and ream writes. -/
namespace Sys2Proof.Machine

/-! ## Answers without a requester -/

/-- The answer of an access that neither the debug port nor a session made stands in the bus's registers only. -/
theorem answerAccess_none (sess req status : Nat) (words : List Nat) (s : State) : answerAccess 0 sess req status words s =
    { s with bus.status := status, bus.ans := BitVec.ofNat 32 (nth 0 words 0) } := rfl

/-- A write without a requester, answered. -/
theorem answerStaged_none (a : Nat) (mask v : Word) (status : Nat) (s : State) :
    answerStaged { addr := a, mask := mask, val := v } status s = { s with bus.status := status, bus.ans := 0 } := rfl

theorem raiseOnce_raised (code arg : Nat) (s : State) : OnlyRaised s (raiseOnce code arg s) := by
  unfold raiseOnce
  split
  · exact ⟨_, _, _, rfl⟩
  · obtain ⟨ev, md, ex, h⟩ := raise_raised code arg { s with evt.once := code :: s.evt.once }
    exact ⟨ev, md, ex, h⟩

@[simp] theorem raiseOnce_fl (code arg : Nat) (s : State) : (raiseOnce code arg s).fl = s.fl := by
  obtain ⟨_, _, _, h⟩ := raiseOnce_raised code arg s
  rw [h]

@[simp] theorem accessError_fl (sess req a : Nat) (s : State) : (accessError 0 sess req a s).fl = s.fl := by
  simp [accessError, answerAccess_none]

/-! ## REAM_STAT (Table 23.7) -/

theorem bitOf_toNat {n : Nat} (v : BitVec n) (k : Nat) : bitOf v.toNat k = v.getLsbD k := by
  rw [BitVec.getLsbD, Nat.testBit_eq_decide_div_mod_eq, bitOf]
  rfl

theorem reamStatClear_low (r : Fin 16) (v : Word) (s : State) : exec (.reamStatClear r 0 v) s =
    .next (settle { s with bus.reams := tmod {} s.bus.reams r fun (x : ReamStat) => { x with
      refused := x.refused && !v.getLsbD 30, skipped := x.skipped && !v.getLsbD 29 } }) := by
  rw [← bitOf_toNat, ← bitOf_toNat]
  rfl

theorem reamStatClear_high (r : Fin 16) (v : Word) (s : State) : exec (.reamStatClear r 1 v) s =
    .next (settle { s with bus.reams := tmod {} s.bus.reams r fun (x : ReamStat) => { x with
      disagree := x.disagree && !v.getLsbD 31 } }) := by
  rw [← bitOf_toNat]
  rfl

/-! ## Image writes (R486) -/

section
variable {a mask v : Word} {s : State}

theorem exec_imageWrite (image : inImage a.toNat = true) (aligned : a.toNat % 4 = 0) : exec (.imageWrite a mask v) s =
    .next (settle (imageWrite { addr := a.toNat, mask := mask, val := v } s)) := by
  show ok _ = _
  rw [if_pos (by simp [image, aligned])]
  rfl

theorem imageWrite_waits (image : inImage a.toNat = true) (aligned : a.toNat % 4 = 0)
    (mode : s.md.mode = .active ∨ s.md.mode = .hold) : exec (.imageWrite a mask v) s =
      .next (settle { s with bus.image := s.bus.image ++ [{ addr := a.toNat, mask := mask, val := v }] }) := by
  rw [exec_imageWrite image aligned, imageWrite, if_pos mode]

theorem imageWrite_refused (image : inImage a.toNat = true) (aligned : a.toNat % 4 = 0) (active : s.md.mode ≠ .active)
    (hold : s.md.mode ≠ .hold) : exec (.imageWrite a mask v) s =
      .next (settle { s with bus.status := 2, bus.ans := 0 }) := by
  rw [exec_imageWrite image aligned, imageWrite, if_neg (by tauto), answerStaged_none]

end

theorem rdLe_lt (m : Memory) (a n : Nat) : rdLe 0 m a n < 256 ^ n := by
  induction n generalizing a with
  | zero => simp [rdLe, rdBytes, leNat]
  | succ n ih =>
    have first := (tget 0 m a).isLt
    have rest := ih (a + 1)
    simp only [rdLe, rdBytes, leNat] at rest ⊢
    rw [Nat.pow_succ]
    omega

/-- A masked word keeps the width of what it lands on, as long as the mask has it too. -/
theorem maskWord_lt {n old mask : Nat} (val : Nat) (ho : old < 2 ^ n) (hm : mask < 2 ^ n) : maskWord old mask val < 2 ^ n :=
  Nat.or_lt_two_pow (Nat.xor_lt_two_pow ho (Nat.and_lt_two_pow _ hm)) (Nat.and_lt_two_pow _ hm)

theorem landImageOne_couched (a : Nat) (mask v : Word) (s : State) :
    (landImageOne s { addr := a, mask := mask, val := v }).exe.couched = wrLe 0 s.exe.couched a 4
      (maskWord (rdLe 0 s.exe.couched a 4) (mask.toNat &&& imageBits a) v.toNat) := by
  unfold landImageOne
  rw [answerStaged_none]
  dsimp only
  split <;> rfl

/-- A landed image write is read back, in the bits that its mask names. -/
theorem landImageOne_reads (a : Nat) (mask v : Word) (s : State) :
    rdLe 0 (landImageOne s { addr := a, mask := mask, val := v }).exe.couched a 4 =
      maskWord (rdLe 0 s.exe.couched a 4) (mask.toNat &&& imageBits a) v.toNat := by
  have fits : maskWord (rdLe 0 s.exe.couched a 4) (mask.toNat &&& imageBits a) v.toNat < 2 ^ 32 :=
    maskWord_lt v.toNat (rdLe_lt s.exe.couched a 4) (Nat.lt_of_le_of_lt Nat.and_le_left mask.isLt)
  rw [landImageOne_couched, rdLe_wrLe]
  exact Nat.mod_eq_of_lt fits

theorem landImageOne_keeps {a b : Nat} (mask v : Word) (s : State) (h : b < a ∨ a + 4 ≤ b) :
    tget 0 (landImageOne s { addr := a, mask := mask, val := v }).exe.couched b = tget 0 s.exe.couched b := by
  rw [landImageOne_couched]
  exact tget_wrBytes_outside 0 _ a _ b (by rwa [leBytes_length])

/-! ## Ream windows (R490 to R492) -/

section
variable {r : Fin 16} {off : Nat} {mask v : Word} {s : State}

/-- The address of an offset of ream `r`'s window. -/
def reamAddr (r off : Nat) : Nat := 0x58000000 + 0x800000 * r + off

theorem reamOf_reamAddr (r : Nat) (h : off < 0x800000) : reamOf (reamAddr r off) = (r, off) := by
  simp only [reamOf, reamAddr, Prod.mk.injEq]
  omega

theorem exec_reamWindowWrite (h : off < 0x800000) : exec (.reamWindowWrite r off mask v) s =
    .next (settle (reamWrite { addr := reamAddr r off, mask := mask, val := v } s)) := by
  show ok _ = _
  rw [if_pos h]
  rfl

theorem reamWindowWrite_staged (h : off < 0x800000) (takes : reamOk s r off = true)
    (room : (s.bus.staged.filter fun x => inReam x.addr).length < 8) : exec (.reamWindowWrite r off mask v) s =
      .next (settle { s with bus.staged := s.bus.staged ++ [{ addr := reamAddr r off, mask := mask, val := v }],
                             bus.reams := tmod {} s.bus.reams r fun x => { x with pending := true } }) := by
  rw [exec_reamWindowWrite h]
  simp only [reamWrite, reamOf_reamAddr _ h, takes, if_neg (Nat.not_le.mpr room), Bool.not_true, Bool.false_eq_true,
    if_false]

theorem reamWindowWrite_refused (h : off < 0x800000) (takes : reamOk s r off = true)
    (full : 8 ≤ (s.bus.staged.filter fun x => inReam x.addr).length) :
    ∃ t, exec (.reamWindowWrite r off mask v) s = .next t ∧ t.bus.staged = s.bus.staged ∧ t.bus.status = 2 ∧
      (tget {} t.bus.reams r).refused = true := by
  refine ⟨_, exec_reamWindowWrite h, ?_⟩
  simp [reamWrite, reamOf_reamAddr _ h, takes, full, reamRefuse, answerStaged_none]

theorem reamWindowWrite_error (h : off < 0x800000) (takes : reamOk s r off = false) :
    exec (.reamWindowWrite r off mask v) s = .next (settle (accessError 0 0 0 (reamAddr r off) s)) := by
  rw [exec_reamWindowWrite h]
  simp only [reamWrite, reamOf_reamAddr _ h, takes, Bool.not_false, if_true]

theorem reamWindowRead_error {silent : BitVec 16} (h : off < 0x800000) (takes : reamOk s r off = false) :
    exec (.reamWindowRead r off silent) s = .next (settle (accessError 0 0 0 (reamAddr r off) s)) := by
  show ok _ = _
  simp only [if_pos h, reamRead, takes, Bool.not_false, if_true]
  rfl

theorem reamWindowRead_answers {silent : BitVec 16} {x : Nat} {l : List Nat} (h : off < 0x800000)
    (takes : reamOk s r off = true) (family : reamFamily s r ≠ 2)
    (vals : (reamMembers s r).filterMap (memberWord s (reamFamily s r) off silent.toNat) = x :: l) :
    ∃ t, exec (.reamWindowRead r off silent) s = .next t ∧ t.bus.ans = BitVec.ofNat 32 x ∧ t.bus.status = 0 ∧
      (tget {} t.bus.reams r).readMembers = l.length + 1 ∧
      (tget {} t.bus.reams r).disagree = ((tget {} s.bus.reams r).disagree || l.any fun y => y != x) ∧
      t.bus.staged = s.bus.staged ∧ t.md = s.md ∧ t.exe = s.exe := by
  refine ⟨settle (answerAccess 0 0 0 0 [x] (reamRead r off silent.toNat s).2), ?_, ?_⟩
  · show ok _ = _
    simp only [if_pos h, reamRead, takes, if_neg family, vals, List.head?_cons, Bool.not_true, Bool.false_eq_true, if_false]
    rfl
  · simp [reamRead, takes, family, vals, answerAccess_none, nth]

end

end Sys2Proof.Machine
end

section
/-! Accesses to field block views and register writes (O58). -/
namespace Sys2Proof.Machine

/-! ## Field block views (R489) -/

section
variable {fb : Fin 16} {off : Fin 8} {write good : Bool} {v : Word} {s : State}

/-- The address of a register of block `fb`'s view. -/
def fbAddr (fb : Fin 16) (off : Fin 8) : Nat := 0x50000C00 + 32 * fb.val + 4 * off.val

theorem fbAddr_view (fb : Fin 16) (off : Fin 8) : inFbView (fbAddr fb off) = true ∧ fbAddr fb off % 4 = 0 ∧
    (fbAddr fb off - 0x50000C00) / 32 = fb.val ∧ fbAddr fb off % 32 = 4 * off.val := by
  have := fb.isLt
  have := off.isLt
  refine ⟨decide_eq_true ?_, ?_, ?_, ?_⟩ <;> unfold fbAddr <;> omega

/-- What an access that is not pending yet begins with. -/
def fbBegin (fb : Fin 16) (off : Fin 8) (write : Bool) (v : Word) (s : State) : State :=
  if write then fbWrite 0 0 0 (fbAddr fb off) v s else readWords 0 0 0 0 1 (fbAddr fb off) [] s

/-- The access that a requester-less read or write of a block's register makes. -/
def fbAccess (fb : Fin 16) (off : Fin 8) (write : Bool) (v : Word) (s : State) : FbAccess :=
  { fb := fb.val, off := 4 * off.val, write := write, val := if write then v else 0, since := s.clk.tick }

/-- A register past 0x17 is answered at once: a read with 0, a write with nothing. -/
theorem fbBegin_reserved (h : 0x18 ≤ 4 * off.val) : fbBegin fb off write v s =
    { s with bus.status := 0, bus.ans := 0 } := by
  obtain ⟨view, aligned, -, low⟩ := fbAddr_view fb off
  cases write with
  | false => simp [fbBegin, readWords, view, aligned, low, h, answerAccess_none, nth]
  | true => simp [fbBegin, fbWrite, low, h, answerAccess_none, nth]

/-- A block past the chain's end takes no access. -/
theorem fbBegin_error (h : 4 * off.val < 0x18) (past : s.fl.n ≤ fb.val) :
    fbBegin fb off write v s = accessError 0 0 0 (fbAddr fb off) s := by
  obtain ⟨view, aligned, block, low⟩ := fbAddr_view fb off
  cases write with
  | false => simp [fbBegin, readWords, view, aligned, low, block, Nat.not_le.mpr h, past]
  | true => simp [fbBegin, fbWrite, low, block, Nat.not_le.mpr h, past]

/-- The access of an enumerated block waits for its frame. -/
theorem fbBegin_sent (noAccess : s.fl.access = []) (h : 4 * off.val < 0x18) (enumerated : fb.val < s.fl.n) :
    fbBegin fb off write v s = { s with fl.access := [fbAccess fb off write v s] } := by
  obtain ⟨view, aligned, block, low⟩ := fbAddr_view fb off
  cases write with
  | false =>
    simp [fbBegin, readWords, view, aligned, low, block, Nat.not_le.mpr h, Nat.not_le.mpr enumerated, noAccess, fbAccess]
  | true => simp [fbBegin, fbWrite, low, block, Nat.not_le.mpr h, Nat.not_le.mpr enumerated, noAccess, fbAccess]

theorem fbBegin_eq (fb : Fin 16) (off : Fin 8) (write : Bool) (v : Word) (s : State) :
    (if write then fbWrite 0 0 0 (0x50000C00 + 32 * fb.val + 4 * off.val) v s
      else readWords 0 0 0 0 1 (0x50000C00 + 32 * fb.val + 4 * off.val) [] s) = fbBegin fb off write v s := rfl

/-- An access that ends where it begins. -/
theorem fieldBlockViewAccess_ends (noAccess : s.fl.access = []) (h : (fbBegin fb off write v s).fl.access = []) :
    exec (.fieldBlockViewAccess fb off write v good) s = .next (settle (fbBegin fb off write v s)) := by
  have begun : execFieldBlockViewAccess fb off write v good s = ok (fbBegin fb off write v s) := by
    simp only [execFieldBlockViewAccess, noAccess, List.any_nil, Bool.false_eq_true, if_false, fbBegin_eq, h, List.find?_nil]
  exact begun

/-- An access of an enumerated block: its frame returns at once, or the access stays pending. -/
theorem fieldBlockViewAccess_sent (noAccess : s.fl.access = []) (h : 4 * off.val < 0x18) (enumerated : fb.val < s.fl.n)
    (urg : s.fl.urg = []) (qimm : s.exe.qimm = []) : exec (.fieldBlockViewAccess fb off write v good) s =
      .next (settle (if good then fbAnswered (fbAccess fb off write v s)
          { s with fl.access := [fbAccess fb off write v s] }
        else { s with fl.access := [fbAccess fb off write v s] })) := by
  have begun : execFieldBlockViewAccess fb off write v good s = ok (if good then
      fbAnswered (fbAccess fb off write v s) { s with fl.access := [fbAccess fb off write v s] }
      else { s with fl.access := [fbAccess fb off write v s] }) := by
    simp only [execFieldBlockViewAccess, noAccess, List.any_nil, Bool.false_eq_true, if_false, fbBegin_eq,
      fbBegin_sent noAccess h enumerated, urg, qimm]
    cases write <;> simp [fbAccess]
  exact begun

/-- The frame meets its block: with power, on the chain, with a position on this unit's port. -/
def FrameMeets (fb : Nat) (s : State) : Prop :=
  (block fb (feelLimit fb s)).powered = true ∧ reached (myPort s) fb (feelLimit fb s) = true ∧
    ((block fb (feelLimit fb s)).pos (myPort s)).isSome = true

@[simp] theorem feelLimit_access (fb : Nat) (s : State) : (feelLimit fb s).fl.access = s.fl.access := rfl
@[simp] theorem feelLimit_exe (fb : Nat) (s : State) : (feelLimit fb s).exe = s.exe := rfl
@[simp] theorem myPort_feelLimit (fb : Nat) (s : State) : myPort (feelLimit fb s) = myPort s := rfl

theorem erase_access (x : FbAccess) (noAccess : s.fl.access = []) :
    { s with fl.access := ({ s with fl.access := [x] } : State).fl.access.erase x } = s := by
  rw [List.erase_cons_head, ← noAccess]

theorem fbAnswered_read {u : Nat} (noAccess : s.fl.access = []) (meets : FrameMeets fb.val s)
    (reg : (block fb (feelLimit fb s)).reg (4 * off.val) = some u) :
    fbAnswered (fbAccess fb off false v s) { s with fl.access := [fbAccess fb off false v s] } =
      { feelLimit fb s with bus.status := 0, bus.ans := BitVec.ofNat 32 u } := by
  obtain ⟨powered, reach, pos⟩ := meets
  unfold fbAnswered
  rw [erase_access _ noAccess]
  simp [fbAccess, powered, reach, Option.isSome_iff_ne_none.mp pos, reg, readWords, answerAccess_none, nth]

theorem fbAnswered_write (noAccess : s.fl.access = []) (meets : FrameMeets fb.val s)
    (status : regWriteStatus (block fb (feelLimit fb s)) (myPort s) (4 * off.val) = 1) :
    fbAnswered (fbAccess fb off true v s) { s with fl.access := [fbAccess fb off true v s] } =
      { setBlock fb ((block fb (feelLimit fb s)).clearDiag (drawLoads (feelLimit fb s)).1 v.toNat)
          (drawLoads (feelLimit fb s)).2 with bus.status := 0, bus.ans := 0 } := by
  obtain ⟨powered, reach, pos⟩ := meets
  unfold fbAnswered
  rw [erase_access _ noAccess]
  simp [fbAccess, powered, reach, Option.isSome_iff_ne_none.mp pos, status, regWrite, answerAccess_none, nth]

theorem fieldBlockViewAccess_error (noAccess : s.fl.access = []) (h : 4 * off.val < 0x18) (past : s.fl.n ≤ fb.val) :
    exec (.fieldBlockViewAccess fb off write v good) s = .next (settle (accessError 0 0 0 (fbAddr fb off) s)) := by
  rw [fieldBlockViewAccess_ends noAccess (by rw [fbBegin_error h past, accessError_fl, noAccess]), fbBegin_error h past]

theorem fieldBlockViewAccess_reserved (noAccess : s.fl.access = []) (h : 0x18 ≤ 4 * off.val) :
    exec (.fieldBlockViewAccess fb off write v good) s = .next (settle { s with bus.status := 0, bus.ans := 0 }) := by
  rw [fieldBlockViewAccess_ends noAccess (by rw [fbBegin_reserved h]; exact noAccess), fbBegin_reserved h]

theorem fieldBlockViewAccess_reads {u : Nat} (noAccess : s.fl.access = []) (urg : s.fl.urg = []) (qimm : s.exe.qimm = [])
    (h : 4 * off.val < 0x18) (enumerated : fb.val < s.fl.n) (meets : FrameMeets fb.val s)
    (reg : (block fb (feelLimit fb s)).reg (4 * off.val) = some u) :
    ∃ t, exec (.fieldBlockViewAccess fb off false v true) s = .next t ∧ t.bus.status = 0 ∧
      t.bus.ans = BitVec.ofNat 32 u ∧ t.fl.access = [] ∧ t.exe = s.exe := by
  refine ⟨_, fieldBlockViewAccess_sent noAccess h enumerated urg qimm, ?_⟩
  rw [if_pos rfl, fbAnswered_read noAccess meets reg]
  simp [noAccess]

theorem fieldBlockViewAccess_writes (noAccess : s.fl.access = []) (urg : s.fl.urg = []) (qimm : s.exe.qimm = [])
    (h : 4 * off.val < 0x18) (enumerated : fb.val < s.fl.n) (meets : FrameMeets fb.val s)
    (status : regWriteStatus (block fb (feelLimit fb s)) (myPort s) (4 * off.val) = 1) :
    ∃ t, exec (.fieldBlockViewAccess fb off true v true) s = .next t ∧ t.bus.status = 0 ∧ t.fl.access = [] ∧
      ∃ load, block fb t = (block fb (feelLimit fb s)).clearDiag load v.toNat := by
  refine ⟨_, fieldBlockViewAccess_sent noAccess h enumerated urg qimm, ?_⟩
  rw [if_pos rfl, fbAnswered_write noAccess meets status]
  refine ⟨?_, ?_, (drawLoads (feelLimit fb s)).1, ?_⟩
  · simp
  · rw [settle_fl]
    exact noAccess
  · rw [block, settle_fl]
    exact block_setBlock_same _ _ _

end

/-! ## Register writes (R484, Table 23.1) -/

section
variable {a mask v : Word} {e : Nat} {s : State}

theorem exec_registerWrite (a mask v : Word) (e : Nat) (s : State) : exec (.registerWrite a mask v e) s =
    .next (settle (writeWord { addr := a.toNat, mask := mask, val := v } e s)) := rfl

theorem registerWrite_misaligned (h : a.toNat % 4 ≠ 0) :
    exec (.registerWrite a mask v e) s = .next (settle (accessError 0 0 0 a.toNat s)) := by
  rw [exec_registerWrite, writeWord, if_pos h]

/-- An address of a program slot is of no other region that takes writes. -/
theorem inSlot_apart {a k : Nat} (h : inSlot a = some k) : inImage a = false ∧ inFbView a = false ∧ inReam a = false := by
  have low : a < 0x10200000 := by
    simp only [inSlot, inArr, decide_eq_true_eq] at h
    split at h
    · omega
    · split at h
      · omega
      · cases h
  refine ⟨decide_eq_false ?_, decide_eq_false ?_, decide_eq_false ?_⟩ <;> omega

theorem writeWord_slot {w : Staged} {k : Nat} (h : inSlot w.addr = some k) (aligned : w.addr % 4 = 0) :
    writeWord w e s = if k = s.exe.runSlot then accessError w.who w.sess w.req w.addr s
      else answerStaged w 0 (shadowWrite (w.addr % 0x100000 / 4) w.val w.mask s) := by
  obtain ⟨image, view, ream⟩ := inSlot_apart h
  simp [writeWord, aligned, image, view, ream, h]

theorem registerWrite_running (h : inSlot a.toNat = some s.exe.runSlot) (aligned : a.toNat % 4 = 0) :
    exec (.registerWrite a mask v e) s = .next (settle (accessError 0 0 0 a.toNat s)) := by
  rw [exec_registerWrite, writeWord_slot h aligned, if_pos rfl]

theorem registerWrite_shadow (aligned : a.toNat % 4 = 0) (h : inSlot a.toNat = some (1 - s.exe.runSlot))
    (slot : s.exe.runSlot ≤ 1) : exec (.registerWrite a mask v e) s =
      .next (settle { shadowWrite (a.toNat % 0x100000 / 4) v mask s with bus.status := 0, bus.ans := 0 }) := by
  rw [exec_registerWrite, writeWord_slot h aligned, if_neg (by omega), answerStaged_none]

/-- A write of a system register ahead of the field block views. -/
theorem writeWord_sys {o : Nat} (low : o < 0xC00) (aligned : o % 4 = 0) (known : (peekSys e o s).isSome = true) :
    writeWord { addr := 0x50000000 + o, mask := mask, val := v } e s =
      sysWrite o { addr := 0x50000000 + o, mask := mask, val := v } e s := by
  have image : inImage (0x50000000 + o) = false := decide_eq_false (by omega)
  have view : inFbView (0x50000000 + o) = false := decide_eq_false (by omega)
  have ream : inReam (0x50000000 + o) = false := decide_eq_false (by omega)
  have slot : inSlot (0x50000000 + o) = none := by
    rw [inSlot, if_neg (by simp [inArr]; omega), if_neg (by simp [inArr]; omega)]
  have arr : ∀ base stride n, base + stride * n ≤ 0x50000000 → inArr (0x50000000 + o) base stride n = false :=
    fun base stride n h => decide_eq_false (by omega)
  have sys : inArr (0x50000000 + o) 0x50000000 1 0x8000000 = true := decide_eq_true (by omega)
  have aligned' : (0x50000000 + o) % 4 = 0 := by omega
  have peek : peekWord e (0x50000000 + o) s = peekSys e o s := by
    simp [peekWord, aligned', image, sys, arr]
  obtain ⟨x, hx⟩ := Option.isSome_iff_exists.mp known
  simp [writeWord, aligned', image, view, ream, slot, peek, hx, arr, sys]

theorem registerWrite_sys {o : Nat} (addr : a.toNat = 0x50000000 + o) (low : o < 0xC00) (aligned : o % 4 = 0)
    (known : (peekSys e o s).isSome = true) : exec (.registerWrite a mask v e) s =
      .next (settle (sysWrite o { addr := a.toNat, mask := mask, val := v } e s)) := by
  rw [exec_registerWrite, addr, writeWord_sys low aligned known]

/-- A write under a full mask puts the value. -/
theorem maskWord_full (old : Nat) (v : Word) (h : old < 2 ^ 32) : maskWord old (0xFFFFFFFF : Word).toNat v.toNat = v.toNat := by
  have full : ∀ x, x < 2 ^ 32 → x &&& (0xFFFFFFFF : Word).toNat = x := fun x hx => by
    have := Nat.and_two_pow_sub_one_eq_mod x 32
    rw [Nat.mod_eq_of_lt hx] at this
    exact this
  rw [maskWord, full old h, full v.toNat v.isLt, Nat.xor_self, Nat.zero_or]

theorem registerWrite_rstCause : exec (.registerWrite 0x50000124 mask v e) s = .next (settle { s with
    md.rstCause := s.md.rstCause &&& (((mask &&& v).toNat % 64) ^^^ 63), bus.status := 0, bus.ans := 0 }) :=
  registerWrite_sys (o := 0x124) rfl (by decide) rfl rfl

theorem registerWrite_setSec : exec (.registerWrite 0x50000610 mask v e) s = .next (settle { s with
    rtc.setSec := maskWord s.rtc.setSec mask.toNat v.toNat, bus.status := 0, bus.ans := 0 }) :=
  registerWrite_sys (o := 0x610) rfl (by decide) rfl rfl

theorem registerWrite_alarm : exec (.registerWrite 0x50000620 0xFFFFFFFF v e) s = .next (settle { s with
    rtc.alm0 := v, bus.status := 0, bus.ans := 0 }) := by
  have written : BitVec.ofNat 32 (maskWord s.rtc.alm0.toNat (0xFFFFFFFF : Word).toNat v.toNat) = v := by
    rw [maskWord_full _ _ s.rtc.alm0.isLt, BitVec.ofNat_toNat, BitVec.setWidth_eq]
  rw [registerWrite_sys (o := 0x620) rfl (by decide) rfl rfl]
  show Host.Outcome.next (settle { s with
    rtc.alm0 := BitVec.ofNat 32 (maskWord s.rtc.alm0.toNat (0xFFFFFFFF : Word).toNat v.toNat),
    bus.status := 0, bus.ans := 0 }) = _
  rw [written]

theorem registerWrite_backup : exec (.registerWrite 0x50000640 0xFFFFFFFF v e) s = .next (settle { s with
    rtc.bkp := tset 0 s.rtc.bkp 0 v, bus.status := 0, bus.ans := 0 }) := by
  have written : BitVec.ofNat 32 (maskWord (tget 0 s.rtc.bkp 0).toNat (0xFFFFFFFF : Word).toNat v.toNat) = v := by
    rw [maskWord_full _ _ (tget 0 s.rtc.bkp 0).isLt, BitVec.ofNat_toNat, BitVec.setWidth_eq]
  rw [registerWrite_sys (o := 0x640) rfl (by decide) rfl rfl]
  show Host.Outcome.next (settle { s with
    rtc.bkp := tset 0 s.rtc.bkp 0 (BitVec.ofNat 32 (maskWord (tget 0 s.rtc.bkp 0).toNat (0xFFFFFFFF : Word).toNat v.toNat)),
    bus.status := 0, bus.ans := 0 }) = _
  rw [written]

theorem registerWrite_service : exec (.registerWrite 0x50000708 0xFFFFFFFF v e) s = .next (settle
    { (if v = 0xA55A then (if wdRuns false s then wdService false (s.clk.boundaryE + e) s else s)
        else raise 0x2004 0 (wdErr 24 s)) with bus.status := 0, bus.ans := 0 }) := by
  have key : ((0xFFFFFFFF &&& v).toNat = 0xA55A) = (v = 0xA55A) := by
    rw [show (0xFFFFFFFF &&& v : Word) = v from BitVec.allOnes_and]
    exact propext ⟨fun h => BitVec.eq_of_toNat_eq h, fun h => by rw [h]; rfl⟩
  rw [registerWrite_sys (o := 0x708) rfl (by decide) rfl rfl]
  simp only [sysWrite, wdWrite, key, answerStaged_none]
  simp [nowE]

end

/-- Settles O58: REAM_STAT, image writes, ream windows, field block views and registers, each by its own lemmas. -/
theorem addressSpace : Obligations.AddressSpace := by
  intro s
  refine ⟨fun r v => ⟨reamStatClear_low r v s, reamStatClear_high r v s⟩, ?_, ?_, ?_, ?_⟩
  · exact fun a mask v image aligned => ⟨imageWrite_waits image aligned, imageWrite_refused image aligned,
      landImageOne_reads _ mask v s, fun b => landImageOne_keeps mask v s⟩
  · exact fun r off mask v h => ⟨reamWindowWrite_staged h, reamWindowWrite_refused h, reamWindowWrite_error h,
      fun silent => reamWindowRead_error h, fun silent x l => reamWindowRead_answers h⟩
  · intro fb off v noAccess urg qimm
    refine ⟨fun past low => ⟨fieldBlockViewAccess_error noAccess low past, fieldBlockViewAccess_error noAccess low past⟩,
      fun h => ⟨fieldBlockViewAccess_reserved noAccess h, fieldBlockViewAccess_reserved noAccess h⟩, fun enumerated low => ?_⟩
    exact ⟨fieldBlockViewAccess_sent noAccess low enumerated urg qimm, fieldBlockViewAccess_sent noAccess low enumerated urg qimm,
      fun u => fieldBlockViewAccess_reads noAccess urg qimm low enumerated,
      fieldBlockViewAccess_writes noAccess urg qimm low enumerated⟩
  · exact fun a mask v e => ⟨registerWrite_misaligned, registerWrite_running, registerWrite_shadow, registerWrite_rstCause,
      registerWrite_setSec, registerWrite_alarm, registerWrite_backup, registerWrite_service⟩

end Sys2Proof.Machine
end

section
/-! SUPPORT. The rules of what the island does beside its states: sending over the sluice, the audit log, threading. -/

namespace Sys2Proof.Machine

/-! ## Sending (R30, R336, R339, R340)

What the island posts lengthens the upward mailbox; the rest that sending changes is the hold, the marks of what was sent,
and the legal status last sent. -/

/-- Messages held and posted, and extracts marked as sent. -/
def IslPosted (s t : State) : Prop :=
  ∃ more seq hold sent,
    t = { s with
      slu.up := s.slu.up ++ more, slu.upSeq := seq,
      isl.hold := hold, isl.auditSent := sent }

/-- What sending may change: messages posted, and what the island notes of the status that went. -/
def IslSent (s t : State) : Prop :=
  ∃ more seq hold sent last time first rejected,
    t = { s with
      slu.up := s.slu.up ++ more, slu.upSeq := seq,
      isl.hold := hold, isl.auditSent := sent, isl.lastStatus := last, isl.statusAt := time, isl.first := first,
      isl.rejected := rejected }

theorem IslPosted.refl (s : State) : IslPosted s s :=
  ⟨[], s.slu.upSeq, s.isl.hold, s.isl.auditSent, by simp only [List.append_nil]⟩

theorem IslPosted.trans {s t u : State} (h : IslPosted s t) (k : IslPosted t u) : IslPosted s u := by
  obtain ⟨more, _, _, _, rfl⟩ := h
  obtain ⟨more', seq, hold, sent, rfl⟩ := k
  exact ⟨more ++ more', seq, hold, sent, by simp only [List.append_assoc]⟩

theorem IslSent.trans {s t u : State} (h : IslSent s t) (k : IslSent t u) : IslSent s u := by
  obtain ⟨more, _, _, _, _, _, _, _, rfl⟩ := h
  obtain ⟨more', seq, hold, sent, last, time, first, rejected, rfl⟩ := k
  exact ⟨more ++ more', seq, hold, sent, last, time, first, rejected, by simp only [List.append_assoc]⟩

theorem IslPosted.sent {s t : State} (h : IslPosted s t) : IslSent s t := by
  obtain ⟨more, seq, hold, sent, rfl⟩ := h
  exact ⟨more, seq, hold, sent, _, _, _, _, rfl⟩

theorem IslSent.refl (s : State) : IslSent s s := (IslPosted.refl s).sent

theorem postMsg_posted (m : SluMsg) (s : State) : IslPosted s (postMsg m s) :=
  ⟨_, _, _, _, rfl⟩

theorem hold_posted (l : List SluMsg) (s : State) : IslPosted s { s with isl.hold := l } :=
  ⟨[], s.slu.upSeq, l, s.isl.auditSent, by simp only [List.append_nil]⟩

theorem auditSent_posted (n : Nat) (s : State) : IslPosted s { s with isl.auditSent := n } :=
  ⟨[], s.slu.upSeq, s.isl.hold, n, by simp only [List.append_nil]⟩

theorem postUp_posted (n : Nat) (s : State) : IslPosted s (postUp n s) := by
  induction n generalizing s with
  | zero => exact .refl s
  | succ n ih =>
    rw [postUp]
    split
    · next m rest _ =>
      split
      · exact .refl s
      · exact ((hold_posted rest s).trans (postMsg_posted m _)).trans (ih _)
    · exact .refl s

theorem holdMsg_posted (m : SluMsg) (s : State) : IslPosted s (holdMsg m s) :=
  (hold_posted _ s).trans (postUp_posted _ _)

theorem sendExtracts_posted (n : Nat) (s : State) : IslPosted s (sendExtracts n s) := by
  induction n generalizing s with
  | zero => exact .refl s
  | succ n ih =>
    rw [sendExtracts]
    split
    · exact .refl s
    · split
      · exact .refl s
      · exact ((auditSent_posted _ s).trans (holdMsg_posted _ _)).trans (ih _)

theorem statusGone_sent (s : State) : IslSent s (statusGone s) :=
  ⟨[], s.slu.upSeq, s.isl.hold, s.isl.auditSent, _, _, _, _, by rw [statusGone, List.append_nil]⟩

theorem sendStatus_sent (s : State) : IslSent s (sendStatus s) := by
  unfold sendStatus
  split
  · split
    · exact .refl s
    · exact ((postMsg_posted _ s).sent.trans (statusGone_sent _)).trans (auditSent_posted _ _).sent
  · split
    · exact .refl s
    · exact (statusGone_sent s).trans (holdMsg_posted _ _).sent

theorem islSettle_sent (s : State) : IslSent s (islSettle s) := by
  unfold islSettle
  split
  · exact .refl s
  · split
    · exact (sendStatus_sent s).trans (sendExtracts_posted _ _).sent
    · exact (sendExtracts_posted _ _).sent

/-- What sending leaves of the island and the downward mailbox. -/
theorem IslSent.keeps {s t : State} (h : IslSent s t) : t.slu.down = s.slu.down ∧ t.isl.st = s.isl.st := by
  obtain ⟨_, _, _, _, _, _, _, _, rfl⟩ := h
  exact ⟨rfl, rfl⟩

/-- A legal status has room: an upward slot for the first one, the hold for a later one. -/
def StatusRoom (s : State) : Prop :=
  (s.isl.first = false ∧ holdRoom s = true) ∨ (s.isl.first = true ∧ s.slu.up.length < 32)

/-- A status that has room goes now, and the next one is no longer the first. -/
theorem sendStatus_gone {s : State} (room : StatusRoom s) :
    (sendStatus s).isl.statusAt = s.isl.ms ∧ (sendStatus s).isl.first = false := by
  unfold sendStatus
  obtain ⟨later, room⟩ | ⟨first, room⟩ := room
  · obtain ⟨_, _, _, _, h⟩ := holdMsg_posted (statusMsg s) (statusGone s)
    simp only [later, Bool.false_eq_true, if_false, room, Bool.not_true, h]
    exact ⟨rfl, rfl⟩
  · rw [if_pos first, if_neg (by omega)]
    exact ⟨rfl, rfl⟩

/-! ## The audit log (R354) -/

/-- `n` records written. -/
def Audited (n : Nat) (s t : State) : Prop :=
  ∃ log, t = { s with isl.audit := log, isl.auditSeq := s.isl.auditSeq + n }

theorem Audited.refl (s : State) : Audited 0 s s := ⟨_, rfl⟩

theorem Audited.trans {m n : Nat} {s t u : State} (h : Audited m s t) (k : Audited n t u) : Audited (m + n) s u := by
  obtain ⟨_, rfl⟩ := h
  obtain ⟨log, rfl⟩ := k
  exact ⟨log, by simp only [Nat.add_assoc]⟩

theorem auditAdd_audited (cls : Nat) (counted : Bool) (param chan old new detail : Nat) (s : State) :
    Audited 1 s (auditAdd cls counted param chan old new detail s) := ⟨_, rfl⟩

/-- A record for each element of a list. -/
theorem foldl_audited {α : Type} {f : State → α → State} (one : ∀ s a, Audited 1 s (f s a)) (l : List α) (s : State) :
    Audited l.length s (l.foldl f s) := by
  induction l generalizing s with
  | nil => exact .refl s
  | cons a l ih =>
    rw [List.foldl_cons, List.length_cons, Nat.add_comm]
    exact (one s a).trans (ih _)

theorem noteMarginal_audited (s : State) : Audited (islMarginal s).length s (noteMarginal s) :=
  foldl_audited (fun s i => auditAdd_audited 0x14 false 0 0xFF 0 0 i s) _ s

/-! ## States (R341, R342) -/

/-- A state entered: its cause, the records, and an upload that leaving OPEN aborts. -/
def Entered (st : IslSt) (cause n : Nat) (s t : State) : Prop :=
  ∃ log upload next total data,
    t = { s with
      isl.st := st, isl.cause := cause, isl.audit := log, isl.auditSeq := s.isl.auditSeq + n, isl.upload := upload,
      isl.upNext := next, isl.upTotal := total, isl.upData := data }

theorem Entered.of_audited {st : IslSt} {cause n : Nat} {s t : State} {upload next total : Nat} {data : List Byte}
    (h : Audited n { s with
      isl.st := st, isl.cause := cause, isl.upload := upload, isl.upNext := next, isl.upTotal := total,
      isl.upData := data } t) : Entered st cause n s t := by
  obtain ⟨log, rfl⟩ := h
  exact ⟨log, upload, next, total, data, rfl⟩

/-- The records of a state entered. -/
def enterRecords (st was : IslSt) : Nat := if st = .fault ∨ st = .opened ∨ was = .opened then 1 else 0

/-- The record that `islEnter` writes of a state entered. -/
def noteState (st was : IslSt) (cause : Nat) (s : State) : State :=
  if st = .fault then auditAdd 0x12 false 0 0xFF 0 0 cause s
  else if st = .opened then auditAdd 0x10 false 0 0xFF 0 0 0 s
  else if was = .opened then auditAdd 0x11 false 0 0xFF 0 0 0 s
  else s

theorem noteState_audited (st was : IslSt) (cause : Nat) (s : State) :
    Audited (enterRecords st was) s (noteState st was cause s) := by
  unfold noteState enterRecords
  by_cases fault : st = .fault
  · rw [if_pos fault, if_pos (.inl fault)]
    exact auditAdd_audited ..
  by_cases opened : st = .opened
  · rw [if_neg fault, if_pos opened, if_pos (.inr (.inl opened))]
    exact auditAdd_audited ..
  by_cases left : was = .opened
  · rw [if_neg fault, if_neg opened, if_pos left, if_pos (.inr (.inr left))]
    exact auditAdd_audited ..
  · rw [if_neg fault, if_neg opened, if_neg left, if_neg (by simp [fault, opened, left])]
    exact .refl s

theorem islEnter_eq (st : IslSt) (cause : Nat) (s : State) : islEnter st cause s =
    noteState st s.isl.st cause (if s.isl.st = .opened ∧ st ≠ .opened ∧ s.isl.upload = 1 then
      { s with isl.st := st, isl.cause := cause, isl.upload := 3, isl.upNext := 0, isl.upTotal := 0, isl.upData := [] }
    else { s with isl.st := st, isl.cause := cause }) := rfl

theorem islEnter_entered (st : IslSt) (cause : Nat) (s : State) :
    Entered st cause (enterRecords st s.isl.st) s (islEnter st cause s) := by
  rw [islEnter_eq]
  split
  · exact .of_audited (noteState_audited ..)
  · exact .of_audited (upload := s.isl.upload) (noteState_audited ..)

/-- The pair state record formed anew, or not. -/
def Formed (s t : State) : Prop := ∃ record time, t = { s with isl.stateRec := record, isl.stateAt := time }

theorem formState_formed (s : State) : Formed s (formState s) := by
  unfold formState
  split
  · exact ⟨_, _, rfl⟩
  · exact ⟨s.isl.stateRec, s.isl.stateAt, rfl⟩

/-! ## What WD-M may show (R453) -/

/-- Display ports changed, with what they need drawn. -/
def Displayed (s t : State) : Prop := ∃ lds free, t = { s with isl.lds := lds, free := free }

theorem Displayed.refl (s : State) : Displayed s s := ⟨s.isl.lds, s.free, rfl⟩

theorem Displayed.trans {s t u : State} (h : Displayed s t) (k : Displayed t u) : Displayed s u := by
  obtain ⟨_, _, rfl⟩ := h
  obtain ⟨lds, free, rfl⟩ := k
  exact ⟨lds, free, rfl⟩

theorem freeBytes_displayed (n : Nat) (s : State) : Displayed s (freeBytes n s).2 := by
  induction n generalizing s with
  | zero => exact .refl s
  | succ n ih => exact Displayed.trans ⟨s.isl.lds, s.free + 1, rfl⟩ (ih _)

/-- The trail bytes are all that a frame draws. -/
theorem ldFrame_state (n a : Nat) (v : LdView) (s : State) : (ldFrame n a v s).2 = s ∨
    ∃ k, (ldFrame n a v s).2 = (freeBytes k s).2 := by
  cases template : ldTemplate (ldDialect s n) a with
  | none => exact .inl (by simp only [ldFrame, template])
  | some _ =>
    cases delim : fld (ldDialect s n) 0 1 == 2 with
    | false => exact .inl (by simp only [ldFrame, template, delim, Bool.false_eq_true, if_false])
    | true => exact .inr ⟨fld (ldDialect s n) 12 1, by simp only [ldFrame, template, delim, if_true]⟩

theorem ldFrame_displayed (n a : Nat) (v : LdView) (s : State) : Displayed s (ldFrame n a v s).2 := by
  obtain h | ⟨k, h⟩ := ldFrame_state n a v s
  · rw [h]
    exact .refl s
  · rw [h]
    exact freeBytes_displayed k s

theorem modLd_displayed (p : Nat) (f : Ld → Ld) (s : State) : Displayed s (modLd p f s) := ⟨_, s.free, rfl⟩

/-- What every step of a fold leaves so, the fold leaves so. -/
theorem foldl_displayed {α : Type} {f : State → α → State} (one : ∀ s a, Displayed s (f s a)) (l : List α) (s : State) :
    Displayed s (l.foldl f s) := by
  induction l generalizing s with
  | nil => exact .refl s
  | cons a l ih => exact (one s a).trans (ih _)

theorem buildWdm_displayed (s : State) : Displayed s (buildWdm s) := by
  refine foldl_displayed (fun s n => ?_) _ s
  split
  · exact .refl s
  · split
    · exact .refl s
    · dsimp only
      refine Displayed.trans ?_ (modLd_displayed ..)
      refine Displayed.trans ?_ (ldFrame_displayed ..)
      refine Displayed.trans ?_ (ldFrame_displayed ..)
      exact freeBytes_displayed 40 s

/-! ## Copies (R334, R335)

Whether a legal firmware copy passes hangs on the flash and the image alone. -/

section
variable {s t : State} (boot : s.boot = t.boot) (img : s.img = t.img)
include boot

theorem flBytes_congr (o n : Nat) : flBytes s o n = flBytes t o n := by rw [flBytes, flBytes, boot]

theorem recAt_congr (o : Nat) : recAt s o = recAt t o := by simp only [recAt, flLe, flBytes_congr boot]

theorem walkCopy_congr (area base cap len fuel o : Nat) (w : Walk) :
    walkCopy s area base cap len fuel o w = walkCopy t area base cap len fuel o w := by
  induction fuel generalizing o w with
  | zero => rfl
  | succ fuel ih => simp only [walkCopy, recAt_congr boot, flSize, boot, Rec.crcOk, Rec.payload, flBytes_congr boot, ih]

include img

theorem copyLen_congr (area c : Nat) : copyLen s area c = copyLen t area c := by
  simp only [copyLen, descOf, copyRange, img, flBytes_congr boot]

theorem copyWalk_congr (area c : Nat) : copyWalk s area c = copyWalk t area c := by
  simp only [copyWalk, copyLen_congr boot img, copyRange, img, walkCopy_congr boot]

theorem containerOk_congr (area c build : Nat) (w : Walk) : containerOk s area c build w = containerOk t area c build w := by
  have range : copyRange s area c = copyRange t area c := by rw [copyRange, copyRange, img]
  have desc : descOf s area c = descOf t area c := by rw [descOf, descOf, range, flBytes_congr boot]
  rw [containerOk, containerOk, copyLen_congr boot img, desc, range]

theorem legalFwGood_congr (bs : List Byte) : legalFwGood bs s = legalFwGood bs t := by
  have boot' : (legalScratch bs s).boot = (legalScratch bs t).boot := by simp only [legalScratch, boot]
  have img' : (legalScratch bs s).img = (legalScratch bs t).img := by simp only [legalScratch, img]
  simp only [legalFwGood, copyWalk_congr boot' img', containerOk_congr boot' img', Rec.payload, flBytes_congr boot']

end

end Sys2Proof.Machine
end

section
/-! SUPPORT. Threading and reset of the island. -/

namespace Sys2Proof.Machine

/-- What threading makes anew or keeps, and what stands in the downward mailbox. -/
structure ThreadView where
  boot : Nat
  ms : Nat
  ident : Bool
  params : List (Nat × Int)
  word : FuseWord
  count : Nat
  down : List SluMsg
  lost : Nat

/-- The view of a state. -/
def threadView (s : State) : ThreadView where
  boot := s.isl.boot
  ms := s.isl.ms
  ident := s.isl.ident
  params := s.isl.stParams
  word := s.isl.sealWord
  count := s.isl.count
  down := s.slu.down
  lost := s.slu.downLost

/-- The view once the island has threaded out of `s`. -/
def viewAnew (s : State) : ThreadView where
  boot := s.isl.boot + 1
  ms := 0
  ident := true
  params := []
  word := s.isl.sealWord
  count := s.isl.count
  down := s.slu.down
  lost := s.slu.downLost

section
variable {s t : State}

theorem IslSent.view (h : IslSent s t) : threadView t = threadView s := by
  obtain ⟨_, _, _, _, _, _, _, _, rfl⟩ := h
  rfl

theorem Audited.view {n : Nat} (h : Audited n s t) : threadView t = threadView s := by
  obtain ⟨_, rfl⟩ := h
  rfl

theorem Entered.view {st : IslSt} {cause n : Nat} (h : Entered st cause n s t) : threadView t = threadView s := by
  obtain ⟨_, _, _, _, _, rfl⟩ := h
  rfl

theorem Formed.view (h : Formed s t) : threadView t = threadView s := by
  obtain ⟨_, _, rfl⟩ := h
  rfl

theorem Displayed.view (h : Displayed s t) : threadView t = threadView s := by
  obtain ⟨_, _, rfl⟩ := h
  rfl

theorem IslSent.st (h : IslSent s t) : t.isl.st = s.isl.st ∧ t.isl.cause = s.isl.cause := by
  obtain ⟨_, _, _, _, _, _, _, _, rfl⟩ := h
  exact ⟨rfl, rfl⟩

theorem Entered.st {st : IslSt} {cause n : Nat} (h : Entered st cause n s t) : t.isl.st = st ∧ t.isl.cause = cause := by
  obtain ⟨_, _, _, _, _, rfl⟩ := h
  exact ⟨rfl, rfl⟩

theorem Formed.st (h : Formed s t) : t.isl.st = s.isl.st ∧ t.isl.cause = s.isl.cause := by
  obtain ⟨_, _, rfl⟩ := h
  exact ⟨rfl, rfl⟩

theorem Displayed.st (h : Displayed s t) : t.isl.st = s.isl.st ∧ t.isl.cause = s.isl.cause := by
  obtain ⟨_, _, rfl⟩ := h
  exact ⟨rfl, rfl⟩

end

/-- The state that the island threads into for a cause found, 0 for none. -/
def decideState (cause : Nat) (s : State) : State :=
  if cause ≠ 0 then islEnter .fault cause s
  else if s.isl.cal then islEnter .opened 0 s
  else if sealId s ≠ 0 then islEnter .sealed 0 s
  else islEnter .fault 2 s

theorem decideState_entered (cause : Nat) (s : State) :
    ∃ st c n, st ≠ .off ∧ Entered st c n s (decideState cause s) := by
  unfold decideState
  split
  · exact ⟨.fault, _, _, by decide, islEnter_entered ..⟩
  · split
    · exact ⟨.opened, _, _, by decide, islEnter_entered ..⟩
    · split
      · exact ⟨.sealed, _, _, by decide, islEnter_entered ..⟩
      · exact ⟨.fault, _, _, by decide, islEnter_entered ..⟩

/-- Threading: the RAM new, the records written, the state decided, the frames of WD-M built. -/
theorem islThread_eq (detail : Nat) (fails : Bool) (s : State) : ∃ u cause,
    islThread detail fails s = buildWdm (formState (decideState cause (noteMarginal (auditAdd 0x13 false 0 0xFF 0 0 detail u)))) ∧
    threadView u = viewAnew s ∧
    (legalFwGood s.isl.fwA s = false → legalFwGood s.isl.fwB s = false → cause = 8) := by
  refine ⟨_, _, rfl, rfl, fun badA badB => ?_⟩
  simp [threadCause, badA, badB]

theorem islThread_view (detail : Nat) (fails : Bool) (s : State) : threadView (islThread detail fails s) = viewAnew s := by
  obtain ⟨u, cause, h, anew, _⟩ := islThread_eq detail fails s
  obtain ⟨_, _, _, _, entered⟩ := decideState_entered cause (noteMarginal (auditAdd 0x13 false 0 0xFF 0 0 detail u))
  rw [h, (buildWdm_displayed _).view, (formState_formed _).view, entered.view, (noteMarginal_audited _).view,
    (auditAdd_audited ..).view, anew]

theorem islThread_on (detail : Nat) (fails : Bool) (s : State) : (islThread detail fails s).isl.st ≠ .off := by
  obtain ⟨u, cause, h, _, _⟩ := islThread_eq detail fails s
  obtain ⟨_, _, _, on, entered⟩ := decideState_entered cause (noteMarginal (auditAdd 0x13 false 0 0xFF 0 0 detail u))
  rwa [h, (buildWdm_displayed _).st.1, (formState_formed _).st.1, entered.st.1]

/-- With no legal firmware copy that passes, FAULT cause 8 (Table 15.8). -/
theorem islThread_noFw {s : State} (detail : Nat) (fails : Bool) (badA : legalFwGood s.isl.fwA s = false)
    (badB : legalFwGood s.isl.fwB s = false) :
    (islThread detail fails s).isl.st = .fault ∧ (islThread detail fails s).isl.cause = 8 := by
  obtain ⟨u, cause, h, _, noFw⟩ := islThread_eq detail fails s
  have entered := islEnter_entered .fault 8 (noteMarginal (auditAdd 0x13 false 0 0xFF 0 0 detail u))
  rw [h, (buildWdm_displayed _).st.1, (buildWdm_displayed _).st.2, (formState_formed _).st.1, (formState_formed _).st.2,
    noFw badA badB, decideState, if_pos (by decide)]
  exact entered.st

/-- The island has been reset out of `s` and has threaded. -/
structure IslandReset (s t : State) : Prop where
  view : threadView t = viewAnew (loseDown s)
  on : t.isl.st ≠ .off
  noFw : legalFwGood s.isl.fwA s = false → legalFwGood s.isl.fwB s = false → t.isl.st = .fault ∧ t.isl.cause = 8

theorem islReset_reset (detail : Nat) (fails : Bool) (s : State) : IslandReset s (islReset detail fails s) := by
  rw [islReset]
  generalize threading : ({ loseDown s with isl.st := .fault, isl.cause := 0 } : State) = r
  have good (bs : List Byte) : legalFwGood bs r = legalFwGood bs s := by
    refine legalFwGood_congr ?_ ?_ bs <;> rw [← threading] <;> rfl
  constructor
  · rw [islThread_view, ← threading]
    rfl
  · exact islThread_on detail fails r
  · intro badA badB
    refine islThread_noFw detail fails ?_ ?_
    · rw [good, ← threading]
      exact badA
    · rw [good, ← threading]
      exact badB

theorem IslandReset.sent {s t u : State} (h : IslandReset s t) (k : IslSent t u) : IslandReset s u where
  view := k.view.trans h.view
  on := by rw [k.st.1]; exact h.on
  noFw badA badB := by rw [k.st.1, k.st.2]; exact h.noFw badA badB

theorem IslandReset.displayed {s t u : State} (h : IslandReset s t) (k : Displayed t u) : IslandReset s u where
  view := k.view.trans h.view
  on := by rw [k.st.1]; exact h.on
  noFw badA badB := by rw [k.st.1, k.st.2]; exact h.noFw badA badB

/-- The island is off again or not, its events delivered: what a reset made stands. -/
theorem IslandReset.settled {s t : State} (h : IslandReset s t) : IslandReset s (settle t) where
  view := by rw [← h.view]; simp only [threadView, settle_isl, settle_slu]
  on := by rw [settle_isl]; exact h.on
  noFw := by rw [settle_isl]; exact h.noFw

end Sys2Proof.Machine
end

section
/-! The island's power, its states and the identification display: the first part of the statement O59. -/

namespace Sys2Proof.Machine

/-- The island threaded anew out of `s`, with what it held downward lost and counted (R31, R332, R335, R342). -/
def ThreadedAnew (s t : State) : Prop :=
  (t.isl.boot = s.isl.boot + 1 ∧ t.isl.ms = 0 ∧ t.isl.ident = true ∧ t.isl.stParams = [] ∧
    t.isl.st ≠ .off ∧ t.isl.sealWord = s.isl.sealWord ∧ t.isl.count = s.isl.count ∧
    (legalFwGood s.isl.fwA { loseDown s with isl.st := .fault, isl.cause := 0 } = false →
      legalFwGood s.isl.fwB { loseDown s with isl.st := .fault, isl.cause := 0 } = false →
      t.isl.st = .fault ∧ t.isl.cause = 8)) ∧
  t.slu.down = [] ∧ t.slu.downLost = satAdd (2 ^ 32 - 1) s.slu.downLost s.slu.down.length

theorem IslandReset.threadedAnew {s t : State} (h : IslandReset s t) : ThreadedAnew s t := by
  obtain ⟨view, on, noFw⟩ := h
  have good (bs : List Byte) : legalFwGood bs { loseDown s with isl.st := .fault, isl.cause := 0 } = legalFwGood bs s := by
    refine legalFwGood_congr ?_ ?_ bs <;> rfl
  simp only [threadView, viewAnew, loseDown, ThreadView.mk.injEq] at view
  obtain ⟨boot, ms, ident, params, word, count, down, lost⟩ := view
  rw [ThreadedAnew, good, good]
  exact ⟨⟨boot, ms, ident, params, on, word, count, noFw⟩, down, lost⟩

/-- A state alike in what threading reads of it may stand for another. -/
theorem IslandReset.of_same {s s' t : State} (h : IslandReset s' t) (view : viewAnew (loseDown s') = viewAnew (loseDown s))
    (boot : s'.boot = s.boot) (img : s'.img = s.img) (fwA : s'.isl.fwA = s.isl.fwA) (fwB : s'.isl.fwB = s.isl.fwB) :
    IslandReset s t := by
  obtain ⟨view', on, noFw⟩ := h
  rw [fwA, fwB, legalFwGood_congr boot img, legalFwGood_congr boot img] at noFw
  exact ⟨view'.trans view, on, noFw⟩

section
variable {s : State}

theorem exec_vmPowerGood (fails : Bool) (off : s.isl.st = .off) :
    exec (.vmPowerGood fails) s = .next (settle (islSettle (islReset 1 fails s))) := by
  show ok _ = _
  rw [if_pos off]
  rfl

theorem vmPowerGood_threads (fails : Bool) (off : s.isl.st = .off) :
    ∃ t, exec (.vmPowerGood fails) s = .next t ∧ ThreadedAnew s t :=
  ⟨_, exec_vmPowerGood fails off, ((islReset_reset 1 fails s).sent (islSettle_sent _)).settled.threadedAnew⟩

theorem exec_vmBrownOut (on : s.isl.st ≠ .off) : exec .vmBrownOut s = .next (settle { s with
    slu.down := [], slu.downLost := satAdd (2 ^ 32 - 1) s.slu.downLost s.slu.down.length,
    isl.st := .off, isl.cause := 0, isl.tap := false, isl.lds := [], isl.lanes := [] }) := by
  show ok _ = _
  rw [if_neg on]
  rfl

/-- The frames that WD-M's sequencer sends at an expiry. -/
def sendBuilt (built : Tbl Ld) (s : State) : State :=
  built.foldl (fun s e => if e.2.wdm = [] then s else modLd e.1 (fun d => { d with sent := e.2.wdm }) s) s

theorem sendBuilt_displayed (built : Tbl Ld) (s : State) : Displayed s (sendBuilt built s) := by
  refine foldl_displayed (fun s e => ?_) built s
  split
  · exact .refl s
  · exact modLd_displayed ..

theorem exec_wdMExpiry (on : s.isl.st ≠ .off) :
    let r := islReset 2 (Config.freeBool s.free) { s with free := s.free + 1 }
    exec .wdMExpiry s = .next (settle (islSettle (if s.slu.oper then sendBuilt s.isl.lds r else r))) := by
  show ok _ = _
  rw [if_neg on]
  rfl

theorem wdMExpiry_threads (on : s.isl.st ≠ .off) : ∃ t, exec .wdMExpiry s = .next t ∧ ThreadedAnew s t := by
  refine ⟨_, exec_wdMExpiry on, ?_⟩
  have reset := islReset_reset 2 (Config.freeBool s.free) { s with free := s.free + 1 }
  generalize islReset 2 (Config.freeBool s.free) { s with free := s.free + 1 } = r at reset ⊢
  have reset : IslandReset s r := reset.of_same rfl rfl rfl rfl rfl
  have shown : IslandReset s (if s.slu.oper then sendBuilt s.isl.lds r else r) := by
    split
    · exact reset.displayed (sendBuilt_displayed ..)
    · exact reset
  exact (shown.sent (islSettle_sent _)).settled.threadedAnew

theorem exec_identDisplayEnd (on : s.isl.st ≠ .off) (ident : s.isl.ident = true) (late : 3000 ≤ s.isl.ms) :
    exec .identDisplayEnd s = .next (settle (modIsl (fun i => { i with ident := false }) s)) := by
  show ok _ = _
  rw [if_pos ⟨on, ident, late⟩]
  rfl

/-! ## CAL_N (R342) and the causes of FAULT -/

theorem exec_calNAsserted_sealed (h : s.isl.st = .sealed) : exec .calNAsserted s =
    .next (settle (islSettle (islEnter .opened 0 (modIsl (fun i => { i with cal := true }) s)))) := by
  show ok _ = _
  simp only [modIsl, h]
  rfl

theorem calNAsserted_opens (h : s.isl.st = .sealed) : ∃ t, exec .calNAsserted s = .next t ∧ t.isl.st = .opened ∧
    t.isl.cal = true ∧ t.isl.auditSeq = s.isl.auditSeq + 1 ∧ t.isl.count = s.isl.count ∧
    t.isl.stParams = s.isl.stParams := by
  refine ⟨_, exec_calNAsserted_sealed h, ?_⟩
  rw [settle_isl]
  obtain ⟨_, _, _, _, _, entered⟩ := islEnter_entered .opened 0 (modIsl (fun i => { i with cal := true }) s)
  obtain ⟨_, _, _, _, _, _, _, _, sent⟩ := islSettle_sent (islEnter .opened 0 (modIsl (fun i => { i with cal := true }) s))
  rw [sent, entered]
  exact ⟨rfl, rfl, rfl, rfl, rfl⟩

theorem exec_calNAsserted_fault (h : s.isl.st = .fault) : exec .calNAsserted s =
    .next (settle (islSettle (islReset 3 (Config.freeBool s.free)
      { modIsl (fun i => { i with cal := true }) s with free := s.free + 1 }))) := by
  show ok _ = _
  simp only [modIsl, h]
  rfl

theorem calNAsserted_threads (h : s.isl.st = .fault) : ∃ t, exec .calNAsserted s = .next t ∧ ThreadedAnew s t := by
  refine ⟨_, exec_calNAsserted_fault h, ?_⟩
  have reset := islReset_reset 3 (Config.freeBool s.free)
    { modIsl (fun i => { i with cal := true }) s with free := s.free + 1 }
  generalize islReset 3 (Config.freeBool s.free)
    { modIsl (fun i => { i with cal := true }) s with free := s.free + 1 } = r at reset ⊢
  have reset : IslandReset s r := reset.of_same rfl rfl rfl rfl rfl
  exact (reset.sent (islSettle_sent _)).settled.threadedAnew

theorem exec_faultCause {c : Fin 9} (holds : causeHolds c s = true) (st : s.isl.st = .sealed ∨ s.isl.st = .opened) :
    exec (.faultCause c) s = .next (settle (islSettle (islEnter .fault c s))) := by
  have on : s.isl.st ≠ .off := by rintro h; simp [h] at st
  show ok _ = _
  rw [if_neg on, faultCause, if_pos ⟨holds, st⟩]
  rfl

theorem faultCause_faults {c : Fin 9} (holds : causeHolds c s = true) (st : s.isl.st = .sealed ∨ s.isl.st = .opened) :
    ∃ t, exec (.faultCause c) s = .next t ∧ t.isl.st = .fault ∧ t.isl.cause = c.val ∧
      t.isl.auditSeq = s.isl.auditSeq + 1 := by
  refine ⟨_, exec_faultCause holds st, ?_⟩
  rw [settle_isl]
  obtain ⟨_, _, _, _, _, entered⟩ := islEnter_entered .fault c s
  obtain ⟨_, _, _, _, _, _, _, _, sent⟩ := islSettle_sent (islEnter .fault c s)
  rw [sent, entered]
  exact ⟨rfl, rfl, rfl⟩

end

end Sys2Proof.Machine
end

section
/-! CAL_N released in OPEN: the commit (R346, R347), a part of the statement O59. -/

namespace Sys2Proof.Machine

/-! ## What the steps of a commit change -/

/-- `n` classes committed: their counter bits blown and their records written. -/
def Committed (n : Nat) (s t : State) : Prop :=
  ∃ log seq, t = { s with isl.audit := log, isl.auditSeq := seq, isl.count := s.isl.count + n }

theorem Committed.trans {m n : Nat} {s t u : State} (h : Committed m s t) (k : Committed n t u) : Committed (m + n) s u := by
  obtain ⟨_, _, rfl⟩ := h
  obtain ⟨log, seq, rfl⟩ := k
  exact ⟨log, seq, by simp only [Nat.add_assoc]⟩

theorem Audited.committed {n : Nat} {s t : State} (h : Audited n s t) : Committed 0 s t := by
  obtain ⟨log, rfl⟩ := h
  exact ⟨log, _, rfl⟩

/-- The records of the staged values, the counter bit, the counted record. -/
theorem commitClass_committed (s : State) (cls : Nat) : Committed 1 s (commitClass s cls) := by
  unfold commitClass
  dsimp only
  generalize records : List.foldl _ s (stagedOf s cls) = t
  have staged : Committed 0 s t := by
    rw [← records]
    exact (foldl_audited (fun s v => auditAdd_audited ..) _ s).committed
  have blown : Committed 1 s { t with isl.count := t.isl.count + 1 } := staged.trans ⟨t.isl.audit, t.isl.auditSeq, rfl⟩
  split
  · exact blown.trans (auditAdd_audited ..).committed
  · split
    · exact blown.trans (auditAdd_audited ..).committed
    · exact blown.trans (auditAdd_audited ..).committed

theorem foldl_committed (l : List Nat) (s : State) : Committed l.length s (l.foldl commitClass s) := by
  induction l generalizing s with
  | nil => exact ⟨s.isl.audit, s.isl.auditSeq, rfl⟩
  | cons c l ih =>
    rw [List.foldl_cons, List.length_cons, Nat.add_comm]
    exact (commitClass_committed s c).trans (ih _)

/-- The legal configuration and the pairing written. -/
def LegalWritten (s t : State) : Prop :=
  ∃ a b sel gen pref partner pub key,
    t = { s with
      isl.cfgA := a, isl.cfgB := b, isl.cfgSel := sel, isl.gen := gen, isl.fwPref := pref, isl.partner := partner,
      isl.partnerPub := pub, isl.pairKey := key }

theorem writeLegal_written (s : State) : LegalWritten s (writeLegal s) := by
  unfold writeLegal
  cases s.isl.stPair with
  | none => exact ⟨_, _, _, _, _, s.isl.partner, s.isl.partnerPub, s.isl.pairKey, rfl⟩
  | some p => exact ⟨_, _, _, _, _, _, _, _, rfl⟩

/-- The copy in use afterwards is the one written. -/
theorem legalCfg_writeLegal (s : State) : (legalCfg (writeLegal s)).params =
    s.isl.stParams.foldl (fun m e => tset none m e.1 (some e.2)) (legalCfg s).params := by
  have sel : 1 - s.isl.cfgSel = 0 ↔ s.isl.cfgSel ≠ 0 := by omega
  unfold writeLegal
  cases s.isl.stPair with
  | none => by_cases zero : s.isl.cfgSel = 0 <;> simp [legalCfg, modIsl, zero, sel]
  | some p => by_cases zero : s.isl.cfgSel = 0 <;> simp [legalCfg, modIsl, zero, sel]

theorem param_writeLegal {s : State} {id : Nat} {v : Int} (one : s.isl.stParams = [(id, v)]) :
    param (writeLegal s) id = v := by
  simp only [param, legalCfg_writeLegal, one, List.foldl_cons, List.foldl_nil, tget_tset_same]

theorem param_congr {s t : State} (h : legalCfg s = legalCfg t) : param s = param t := by
  funext id
  simp only [param, h]

/-! ## The commit -/

/-- CAL_N is no longer asserted. -/
def calReleased (s : State) : State := modIsl (fun i => { i with cal := false }) s

/-- The island sealed again after a commit. -/
def closeIsland (s : State) : State := formState (islEnter .sealed 0 (dropStaged s))

section
variable {s : State} {flash : Bool}

theorem exec_calNReleased (h : s.isl.st = .opened) (flash : Bool) : exec (.calNReleased flash) s =
    .next (settle (islSettle (islCommit flash (calReleased s)))) := by
  show ok _ = _
  simp only [calReleased, modIsl, h]
  rfl

theorem islCommit_unsealed (unsealed : sealId s = 0) (noSeal : s.isl.stSeal = none) :
    islCommit flash s = islEnter .fault 2 (dropStaged s) := by
  unfold islCommit
  rw [if_pos ⟨unsealed, by rw [noSeal]; rfl⟩]

theorem islCommit_exhausted (sealed : sealId s ≠ 0) (tooMany : 255 - auditCount s < (classesChanged s).length) :
    islCommit flash s = islEnter .sealed 0 (auditAdd 0x16 false 0 0xFF 0 0 0 (dropStaged s)) := by
  unfold islCommit
  rw [if_neg (fun h => sealed h.1), if_pos tooMany]

/-- The commit once its classes have their bits: the staged changes are dropped, and written before that unless the flash
fails. -/
theorem islCommit_fits (sealed : sealId s ≠ 0) (noSeal : s.isl.stSeal = none)
    (fits : (classesChanged s).length ≤ 255 - auditCount s) :
    islCommit flash s =
      let t := (classesChanged s).foldl commitClass s
      if classesChanged s ≠ [] ∧ flash then islEnter .fault 5 (dropStaged t)
      else closeIsland (if classesChanged s = [] then t else writeLegal t) := by
  obtain ⟨_, _, h⟩ := foldl_committed (classesChanged s) s
  unfold islCommit
  rw [if_neg (fun h => sealed h.1), if_neg (by omega)]
  have noSeal' : ((classesChanged s).foldl commitClass s).isl.stSeal = none := by rw [h]; exact noSeal
  simp only [noSeal', closeIsland]

/-- A staged value changes a class. -/
theorem classesChanged_ne_nil {e : Nat × Int} {l : List (Nat × Int)} (h : s.isl.stParams = e :: l) : classesChanged s ≠ [] := by
  cases cal : isCal e.1 <;> simp [classesChanged, h, cal]

/-- A release ends in what the commit makes of the island, but for what is sent. -/
theorem calNReleased_ends {u : State} (h : s.isl.st = .opened)
    (commit : islCommit flash (calReleased s) = u) :
    exec (.calNReleased flash) s = .next (settle (islSettle u)) ∧
      ∃ hold sent last time first rejected, (settle (islSettle u)).isl = { u.isl with
        hold := hold, auditSent := sent, lastStatus := last, statusAt := time, first := first, rejected := rejected } := by
  rw [exec_calNReleased h, commit, settle_isl]
  obtain ⟨_, _, hold, sent, last, time, first, rejected, h⟩ := islSettle_sent u
  exact ⟨rfl, hold, sent, last, time, first, rejected, by rw [h]⟩

theorem calNReleased_unsealed (h : s.isl.st = .opened) (unsealed : sealId s = 0) (noSeal : s.isl.stSeal = none)
    (flash : Bool) : ∃ t, exec (.calNReleased flash) s = .next t ∧ t.isl.st = .fault ∧ t.isl.cause = 2 ∧
      t.isl.count = s.isl.count := by
  obtain ⟨run, _, _, _, _, _, _, isl⟩ := calNReleased_ends h (islCommit_unsealed (flash := flash)
    (s := calReleased s) unsealed noSeal)
  refine ⟨_, run, ?_⟩
  obtain ⟨_, _, _, _, _, entered⟩ := islEnter_entered .fault 2 (dropStaged (calReleased s))
  rw [isl, entered]
  exact ⟨rfl, rfl, rfl⟩

theorem calNReleased_exhausted (h : s.isl.st = .opened) (sealed : sealId s ≠ 0)
    (tooMany : 255 - auditCount s < (classesChanged s).length) (flash : Bool) :
    ∃ t, exec (.calNReleased flash) s = .next t ∧ t.isl.st = .sealed ∧ t.isl.count = s.isl.count ∧
      t.isl.cfgSel = s.isl.cfgSel ∧ t.isl.stParams = [] := by
  obtain ⟨run, _, _, _, _, _, _, isl⟩ := calNReleased_ends h (islCommit_exhausted (flash := flash)
    (s := calReleased s) sealed tooMany)
  refine ⟨_, run, ?_⟩
  obtain ⟨_, audited⟩ := auditAdd_audited 0x16 false 0 0xFF 0 0 0 (dropStaged (calReleased s))
  obtain ⟨_, _, _, _, _, entered⟩ := islEnter_entered .sealed 0
    (auditAdd 0x16 false 0 0xFF 0 0 0 (dropStaged (calReleased s)))
  rw [isl, entered, audited]
  exact ⟨rfl, rfl, rfl, rfl⟩

theorem calNReleased_fails (h : s.isl.st = .opened) (sealed : sealId s ≠ 0) (noSeal : s.isl.stSeal = none)
    (fits : (classesChanged s).length ≤ 255 - auditCount s) (changed : classesChanged s ≠ []) :
    ∃ t, exec (.calNReleased true) s = .next t ∧ t.isl.st = .fault ∧ t.isl.cause = 5 ∧ t.isl.cfgSel = s.isl.cfgSel := by
  have commit := islCommit_fits (flash := true) (s := calReleased s) sealed noSeal fits
  have changed' : classesChanged (calReleased s) ≠ [] := changed
  obtain ⟨_, _, committed⟩ := foldl_committed (classesChanged (calReleased s))
    (calReleased s)
  dsimp only at commit
  rw [if_pos ⟨changed', rfl⟩, committed] at commit
  obtain ⟨run, _, _, _, _, _, _, isl⟩ := calNReleased_ends h commit
  refine ⟨_, run, ?_⟩
  rw [isl]
  obtain ⟨_, _, _, _, _, entered⟩ := islEnter_entered .fault 5 (dropStaged _)
  rw [entered]
  exact ⟨rfl, rfl, rfl⟩

theorem closeIsland_isl (s : State) : (closeIsland s).isl.st = .sealed ∧ (closeIsland s).isl.stParams = [] ∧
    (closeIsland s).isl.stPair = none ∧ (closeIsland s).isl.cal = s.isl.cal ∧ (closeIsland s).isl.count = s.isl.count ∧
    (closeIsland s).isl.cfgSel = s.isl.cfgSel ∧ legalCfg (closeIsland s) = legalCfg s := by
  obtain ⟨_, _, formed⟩ := formState_formed (islEnter .sealed 0 (dropStaged s))
  obtain ⟨_, _, _, _, _, entered⟩ := islEnter_entered .sealed 0 (dropStaged s)
  rw [closeIsland, formed, entered]
  exact ⟨rfl, rfl, rfl, rfl, rfl, rfl, rfl⟩

/-- What a commit without a fault leaves for the island to close on. -/
theorem commitWritten (s : State) :
    let t := (classesChanged s).foldl commitClass s
    let u := if classesChanged s = [] then t else writeLegal t
    u.isl.cal = s.isl.cal ∧ u.isl.count = s.isl.count + (classesChanged s).length ∧
      (∀ id v, s.isl.stParams = [(id, v)] → param u id = v) ∧ (classesChanged s = [] → u.isl.cfgSel = s.isl.cfgSel) := by
  obtain ⟨log, seq, committed⟩ := foldl_committed (classesChanged s) s
  rw [committed]
  dsimp only
  split
  · next empty => exact ⟨rfl, rfl, fun id v one => absurd empty (classesChanged_ne_nil one), fun _ => rfl⟩
  · next changed =>
    refine ⟨?_, ?_, fun id v one => param_writeLegal one, fun empty => absurd empty changed⟩ <;>
      obtain ⟨_, _, _, _, _, _, _, _, written⟩ :=
        writeLegal_written { s with
          isl.audit := log, isl.auditSeq := seq, isl.count := s.isl.count + (classesChanged s).length } <;>
      rw [written]

theorem calNReleased_writes (h : s.isl.st = .opened) (sealed : sealId s ≠ 0) (noSeal : s.isl.stSeal = none)
    (fits : (classesChanged s).length ≤ 255 - auditCount s) :
    ∃ t, exec (.calNReleased false) s = .next t ∧ t.isl.st = .sealed ∧
      t.isl.cal = false ∧ t.isl.count = s.isl.count + (classesChanged s).length ∧ t.isl.stParams = [] ∧ t.isl.stPair = none ∧
      (∀ id v, s.isl.stParams = [(id, v)] → param t id = v) ∧ (classesChanged s = [] → t.isl.cfgSel = s.isl.cfgSel) := by
  have commit := islCommit_fits (flash := false) (s := calReleased s) sealed noSeal fits
  obtain ⟨cal, count, written, sel⟩ := commitWritten (calReleased s)
  dsimp only at commit
  rw [if_neg (by simp)] at commit
  generalize (if classesChanged (calReleased s) = [] then _ else _ : State) = u
    at commit cal count written sel
  obtain ⟨st, params, pair, cal', count', sel', cfg⟩ := closeIsland_isl u
  obtain ⟨run, _, _, _, _, _, _, isl⟩ := calNReleased_ends h commit
  have param' : param (settle (islSettle (closeIsland u))) = param u := by
    refine param_congr (Eq.trans ?_ cfg)
    rw [legalCfg, isl]
    rfl
  refine ⟨_, run, ?_⟩
  rw [isl]
  exact ⟨st, cal'.trans cal, count'.trans count, params, pair, fun id v one => (congrFun param' id).trans (written id v one),
    fun empty => sel'.trans (sel empty)⟩

end

end Sys2Proof.Machine
end

section
/-! What the island takes from the sluice and posts into it: a part of the statement O59. -/

namespace Sys2Proof.Machine

/-! ## The head of the downward mailbox (R30) -/

section
variable {s : State} {m : SluMsg} {rest : List SluMsg}

theorem cleanDown_good (head : s.slu.down = m :: rest) (good : sluBadForm 1 6 m = false) (n : Nat) : cleanDown n s = s := by
  cases n with
  | zero => rfl
  | succ n => simp only [cleanDown, head, good, Bool.false_eq_true, if_false]

theorem headIs_head {code : Nat} (head : s.slu.down = m :: rest) (h : m.code = code) : headIs s code = some m := by
  simp only [headIs, head, h, if_true]

theorem popDown_down (head : s.slu.down = m :: rest) : (popDown s).slu.down = rest := by
  simp only [popDown, head, List.drop_succ_cons, List.drop_zero]

/-- The state after the island has taken something in and the events are delivered. -/
theorem islSettle_kept (u : State) : (settle (islSettle u)).slu.down = u.slu.down ∧
    ∃ hold sent last time first rejected, (settle (islSettle u)).isl = { u.isl with
      hold := hold, auditSent := sent, lastStatus := last, statusAt := time, first := first, rejected := rejected } := by
  rw [settle_isl, settle_slu]
  obtain ⟨_, _, hold, sent, last, time, first, rejected, h⟩ := islSettle_sent u
  rw [h]
  exact ⟨rfl, hold, sent, last, time, first, rejected, rfl⟩

end

/-! ## Pair offers (R349) -/

section
variable {s : State} {m : SluMsg} {rest : List SluMsg}

theorem exec_pairOfferImport (head : s.slu.down = m :: rest) (code : m.code = 6) (good : sluBadForm 1 6 m = false)
    (on : s.isl.st ≠ .off) (kind : m.data.headD 0 = 1) :
    exec .pairOfferImport s = .next (settle (islSettle (takeOffer m.data (popDown s)))) := by
  show execPairOfferImport s = _
  simp only [execPairOfferImport, if_neg on, cleanDown_good head good, headIs_head head code]
  rw [if_pos ⟨kind, on⟩]
  rfl

theorem pairOfferImport_stages (head : s.slu.down = m :: rest) (code : m.code = 6) (good : sluBadForm 1 6 m = false)
    (on : s.isl.st ≠ .off) (kind : m.data.headD 0 = 1) (st : s.isl.st = .opened ∨ s.isl.st = .fault)
    (length : m.data.length = 72) (nonzero : fld m.data 4 4 ≠ 0) (other : fld m.data 4 4 ≠ sealId s)
    (room : auditCount s < 255) : ∃ t, exec .pairOfferImport s = .next t ∧
      t.isl.stPair = some (fld m.data 4 4, m.data.drop 8) ∧ t.slu.down = rest := by
  have taken : takeOffer m.data (popDown s) =
      modIsl (fun i => { i with stPair := some (fld m.data 4 4, m.data.drop 8) }) (popDown s) := by
    rw [takeOffer, if_pos]
    exact ⟨st, length, nonzero, other, room⟩
  refine ⟨_, exec_pairOfferImport head code good on kind, ?_⟩
  rw [taken]
  obtain ⟨down, _, _, _, _, _, _, isl⟩ :=
    islSettle_kept (modIsl (fun i => { i with stPair := some (fld m.data 4 4, m.data.drop 8) }) (popDown s))
  rw [isl, down]
  exact ⟨rfl, popDown_down head⟩

end

/-! ## Pair states (R350) -/

/-- Every lane of a list changed by a function of its number. -/
def modLanes (f : Nat → IslLane → IslLane) (l : List Nat) (s : State) : State := l.foldl (fun s n => modIslLane n (f n) s) s

theorem modLanes_lanes (f : Nat → IslLane → IslLane) (l : List Nat) (s : State) :
    ∃ lanes, modLanes f l s = { s with isl.lanes := lanes } := by
  induction l generalizing s with
  | nil => exact ⟨s.isl.lanes, rfl⟩
  | cons k l ih =>
    obtain ⟨lanes, h⟩ := ih (modIslLane k (f k) s)
    exact ⟨lanes, h⟩

@[simp] theorem islLane_modIslLane (n k : Nat) (f : IslLane → IslLane) (s : State) :
    islLane (modIslLane k f s) n = if n = k then f (islLane s n) else islLane s n := by
  by_cases h : n = k
  · simp [islLane, modIslLane, h]
  · simp [islLane, modIslLane, h]

theorem islLane_modLanes {n : Nat} (f : Nat → IslLane → IslLane) {l : List Nat} (nodup : l.Nodup) (s : State) :
    islLane (modLanes f l s) n = if n ∈ l then f n (islLane s n) else islLane s n := by
  induction l generalizing s with
  | nil => simp [modLanes]
  | cons k l ih =>
    obtain ⟨out, nodup⟩ := List.nodup_cons.mp nodup
    have step : modLanes f (k :: l) s = modLanes f l (modIslLane k (f k) s) := rfl
    rw [step, ih nodup, islLane_modIslLane]
    by_cases h : n = k
    · simp [h, out]
    · simp [h]

/-- A lane with the zero and the tare that a pair state record brings it. -/
def broughtLane (data : List Byte) (n : Nat) (l : IslLane) : IslLane :=
  { l with z := toSigned 32 (fld data (16 + 4 * n) 4), t := toSigned 32 (fld data (48 + 4 * n) 4) }

section
variable {s : State} {m : SluMsg} {rest : List SluMsg}

theorem exec_pairStateImport (head : s.slu.down = m :: rest) (code : m.code = 6) (good : sluBadForm 1 6 m = false)
    (on : s.isl.st ≠ .off) (kind : m.data.headD 0 ≠ 1) :
    exec .pairStateImport s = .next (settle (islSettle (formState (takePairState m.data (popDown s))))) := by
  show execPairStateImport s = _
  simp only [execPairStateImport, if_neg on, cleanDown_good head good, headIs_head head code]
  rw [if_pos ⟨kind, on⟩]
  rfl

theorem takePairState_takes {data : List Byte} (st : s.isl.st = .sealed) (paired : islPaired s = true)
    (length : data.length = 96) (partner : fld data 4 4 = s.isl.partner)
    (tag : beNat (data.drop 80) = first16 (mac s.isl.pairKey (data.take 80)))
    (fresh : ∀ l, s.isl.lastImport = some l → l < fld data 8 6) :
    takePairState data s = modLanes (broughtLane data) (List.range 8)
      (modIsl (fun i => { i with lastImport := some (fld data 8 6), imported := true, impOper := true }) s) := by
  have fresh' : (match s.isl.lastImport with | some l => decide (l < fld data 8 6) | none => true) = true := by
    cases last : s.isl.lastImport with
    | none => rfl
    | some l => exact decide_eq_true (fresh l last)
  unfold takePairState
  dsimp only
  rw [if_pos]
  · rfl
  · simp only [st, paired, length, partner, tag, decide_true, beq_self_eq_true, Bool.and_self, Bool.true_and]
    exact fresh'

theorem pairStateImport_takes (head : s.slu.down = m :: rest) (code : m.code = 6) (good : sluBadForm 1 6 m = false)
    (on : s.isl.st ≠ .off) (kind : m.data.headD 0 ≠ 1) (st : s.isl.st = .sealed) (paired : islPaired s = true)
    (length : m.data.length = 96) (partner : fld m.data 4 4 = s.isl.partner)
    (tag : beNat (m.data.drop 80) = first16 (mac s.isl.pairKey (m.data.take 80)))
    (fresh : ∀ l, s.isl.lastImport = some l → l < fld m.data 8 6) :
    ∃ t, exec .pairStateImport s = .next t ∧ t.isl.imported = true ∧
      t.isl.lastImport = some (fld m.data 8 6) ∧ t.slu.down = rest ∧
      ∀ n, n < 8 → (islLane t n).z = (toSigned 32 (fld m.data (16 + 4 * n) 4) : Rat) ∧
        (islLane t n).t = toSigned 32 (fld m.data (48 + 4 * n) 4) := by
  refine ⟨_, exec_pairStateImport head code good on kind, ?_⟩
  have taken : takePairState m.data (popDown s) = _ := takePairState_takes st paired length partner tag fresh
  have lane (n : Nat) := islLane_modLanes (n := n) (broughtLane m.data) (List.nodup_range (n := 8))
    (modIsl (fun i => { i with lastImport := some (fld m.data 8 6), imported := true, impOper := true }) (popDown s))
  obtain ⟨lanes, brought⟩ := modLanes_lanes (broughtLane m.data) (List.range 8)
    (modIsl (fun i => { i with lastImport := some (fld m.data 8 6), imported := true, impOper := true }) (popDown s))
  rw [← taken] at brought lane
  generalize takePairState m.data (popDown s) = u at brought lane ⊢
  obtain ⟨_, _, formed⟩ := formState_formed u
  obtain ⟨down, _, _, _, _, _, _, isl⟩ := islSettle_kept (formState u)
  have lane' (n : Nat) : islLane (settle (islSettle (formState u))) n = islLane u n := by
    rw [islLane, isl, formed]
    rfl
  refine ⟨?_, ?_, ?_, fun n hn => ?_⟩
  · rw [isl, formed, brought]
    rfl
  · rw [isl, formed, brought]
    rfl
  · rw [down, formed, brought]
    exact popDown_down head
  · rw [lane', lane, if_pos (List.mem_range.mpr hn)]
    exact ⟨rfl, rfl⟩

theorem pairStateImport_rejected (head : s.slu.down = m :: rest) (code : m.code = 6) (good : sluBadForm 1 6 m = false)
    (on : s.isl.st ≠ .off) (kind : m.data.headD 0 ≠ 1) (st : s.isl.st = .opened) :
    ∃ t, exec .pairStateImport s = .next t ∧ t.isl.imported = s.isl.imported ∧ t.isl.lanes = s.isl.lanes ∧
      t.slu.down = rest := by
  refine ⟨_, exec_pairStateImport head code good on kind, ?_⟩
  have rejected : takePairState m.data (popDown s) = modIsl (fun i => { i with rejected := true }) (popDown s) := by
    have st' : (popDown s).isl.st = .opened := st
    unfold takePairState
    simp [st']
  rw [rejected]
  obtain ⟨_, _, formed⟩ := formState_formed (modIsl (fun i => { i with rejected := true }) (popDown s))
  obtain ⟨down, _, _, _, _, _, _, isl⟩ := islSettle_kept (formState (modIsl (fun i => { i with rejected := true }) (popDown s)))
  rw [isl, down, formed]
  exact ⟨rfl, rfl, popDown_down head⟩

end

/-! ## Legal firmware chunks (R341) -/

section
variable {offset total : BitVec 32} {data : List Byte}

/-- The bytes of a chunk's message. -/
def chunkBytes (offset total : BitVec 32) (data : List Byte) : List Byte :=
  leBytes 4 offset.toNat ++ leBytes 4 total.toNat ++ data

theorem fld_leBytes (n x : Nat) (bs : List Byte) : fld (leBytes n x ++ bs) 0 n = x % 256 ^ n := by
  rw [fld, List.drop_zero, List.take_left' (leBytes_length n x), leNat_leBytes]

theorem fld_append (bs cs : List Byte) (o n : Nat) : fld (bs ++ cs) (bs.length + o) n = fld cs o n := by
  rw [fld, fld, List.drop_append, List.drop_eq_nil_of_le (by omega)]
  simp

theorem chunk_offset : fld (chunkBytes offset total data) 0 4 = offset.toNat := by
  rw [chunkBytes, List.append_assoc, fld_leBytes]
  exact Nat.mod_eq_of_lt offset.isLt

theorem chunk_total : fld (chunkBytes offset total data) 4 4 = total.toNat := by
  have h := fld_append (leBytes 4 offset.toNat) (leBytes 4 total.toNat ++ data) 0 4
  rw [leBytes_length, fld_leBytes] at h
  rw [chunkBytes, List.append_assoc]
  exact h.trans (Nat.mod_eq_of_lt total.isLt)

theorem chunk_body : (chunkBytes offset total data).drop 8 = data := by
  rw [chunkBytes, List.drop_left' (by simp)]

variable {s : State}

/-- The island with what has come of an upload in its other copy. -/
def takeBytes (got : List Byte) (total : Nat) (s : State) : State :=
  modIsl (fun i => { i with
    upload := 1, upData := got, upNext := got.length, upTotal := total, stFw := false,
    fwA := if i.fwRun = 0 then i.fwA else got, fwB := if i.fwRun = 0 then got else i.fwB }) s

/-- A whole upload judged. -/
def judged (got : List Byte) (s : State) : State :=
  { s with isl.upload := if legalFwGood got s then 2 else 3, isl.stFw := legalFwGood got s }

/-- A chunk that begins the upload or carries it on. -/
def ChunkNext (offset total : BitVec 32) (i : Isl) : Prop :=
  offset = 0 ∨ (i.upload = 1 ∧ offset.toNat = i.upNext ∧ total.toNat = i.upTotal)

theorem takeChunk_takes (st : s.isl.st = .opened) (room : auditCount s < 255) (low : 1 ≤ data.length)
    (high : data.length ≤ 112) (least : 64 ≤ total.toNat) (most : total.toNat ≤ 524288)
    (next : ChunkNext offset total s.isl) {got : List Byte} (begun : (if offset = 0 then [] else s.isl.upData) ++ data = got)
    (within : got.length ≤ total.toNat) : takeChunk (chunkBytes offset total data) s =
      if got.length < total.toNat then takeBytes got total.toNat s
      else judged got (takeBytes got total.toNat s) := by
  have zero : offset.toNat = 0 ↔ offset = 0 := by
    rw [← BitVec.toNat_inj]
    rfl
  have counts : ¬ (offset = 0 ∧ auditCount s = 255) := by omega
  have carried : ¬ (¬ offset = 0 ∧ (¬ s.isl.upload = 1 ∨ ¬ offset.toNat = s.isl.upNext ∨ ¬ total.toNat = s.isl.upTotal)) := by
    rintro ⟨later, gap⟩
    obtain h | ⟨uploading, place, whole⟩ := next
    · exact later h
    · omega
  have takes : ¬ ((!(IslSt.opened == .opened || IslSt.opened == .fault && s.isl.cause == 8 && s.isl.cal)) = true ∨
      data.length = 0 ∨ 112 < data.length ∨ total.toNat < 64 ∨ 524288 < total.toNat) := by
    rintro (shut | form)
    · exact absurd shut Bool.false_ne_true
    · omega
  have other : (!(IslSt.opened == .fault && s.isl.cause == 8 && s.isl.cal)) = true := rfl
  unfold takeChunk
  simp only [chunk_offset, chunk_total, chunk_body, zero, ne_eq, st, begun]
  rw [if_neg takes, if_neg counts, if_neg carried, if_neg (by omega)]
  simp only [other, Bool.true_and, beq_iff_eq]
  show (if _ then takeBytes got total.toNat s else if legalFwGood got (takeBytes got total.toNat s) = true
    then modIsl (fun i => { i with upload := 2, stFw := true }) (takeBytes got total.toNat s)
    else modIsl (fun i => { i with upload := 3 }) (takeBytes got total.toNat s)) = _
  rw [judged]
  cases legalFwGood got (takeBytes got total.toNat s) <;> rfl

/-- One message, in an empty mailbox, is all that the island takes. -/
theorem drainDown_one {m : SluMsg} (head : s.slu.down = [m]) (good : sluBadForm 1 6 m = false)
    (left : (takeHead 0 s).slu.down = []) (n : Nat) : drainDown (n + 1) s = takeHead 0 s := by
  have shut : drainDown n (takeHead 0 s) = takeHead 0 s := by
    cases n with
    | zero => rfl
    | succ n => rw [drainDown, if_pos left]
  rw [drainDown, if_neg (by simp [head]), cleanDown_good head good, shut]

/-- A chunk's message. -/
def chunkMsg (offset total : BitVec 32) (data : List Byte) (s : State) : SluMsg :=
  { code := 5, lane := 0xFF, seq := s.slu.downSeq, data := chunkBytes offset total data }

/-- The next downward message has been numbered. -/
def downNumbered (s : State) : State := { s with slu.downSeq := (s.slu.downSeq + 1) % 65536 }

/-- A chunk posted into an empty mailbox. -/
def chunkPosted (offset total : BitVec 32) (data : List Byte) (s : State) : State :=
  { downNumbered s with slu.down := [chunkMsg offset total data s] }

theorem sluDown_chunk (empty : s.slu.down = []) :
    (sluDown 5 0xFF (chunkBytes offset total data) s).2 = chunkPosted offset total data s := by
  rw [sluDown, if_neg (by simp [empty]), empty]
  rfl

theorem chunkMsg_good (short : data.length ≤ 112) : sluBadForm 1 6 (chunkMsg offset total data s) = false := by
  have length : (chunkMsg offset total data s).data.length ≤ 120 := by
    simp only [chunkMsg, chunkBytes, List.length_append, leBytes_length]
    omega
  rw [sluBadForm, decide_eq_false_iff_not]
  rintro (code | code | long | reserved)
  · exact absurd code (by simp [chunkMsg])
  · exact absurd code (by simp [chunkMsg])
  · omega
  · exact reserved rfl

theorem popDown_chunkPosted (empty : s.slu.down = []) : popDown (chunkPosted offset total data s) = downNumbered s :=
  calc popDown (chunkPosted offset total data s) = { downNumbered s with slu.down := [] } := rfl
    _ = { downNumbered s with slu.down := s.slu.down } := by rw [empty]
    _ = downNumbered s := rfl

theorem takeHead_chunkPosted (empty : s.slu.down = []) : takeHead 0 (chunkPosted offset total data s) =
    islSettle (takeChunk (chunkBytes offset total data) (downNumbered s)) := by
  rw [← popDown_chunkPosted (offset := offset) (total := total) (data := data) empty]
  rfl

theorem exec_legalFirmwareChunk (on : s.isl.st ≠ .off) (empty : s.slu.down = []) (short : data.length ≤ 112) {u : State}
    (taken : takeChunk (chunkBytes offset total data) (downNumbered s) = u) (left : u.slu.down = []) :
    exec (.legalFirmwareChunk offset total data) s = .next (settle (islSettle u)) := by
  have head : takeHead 0 (chunkPosted offset total data s) = islSettle u := by rw [takeHead_chunkPosted empty, taken]
  have kept : (islSettle u).slu.down = [] := (islSettle_sent u).keeps.1.trans left
  have on' : (chunkPosted offset total data s).isl.st ≠ .off := on
  show execLegalFirmwareChunk offset total data s = _
  unfold execLegalFirmwareChunk
  rw [← chunkBytes, sluDown_chunk empty]
  dsimp only
  rw [if_neg on', drainDown_one rfl (chunkMsg_good short) (by rw [head]; exact kept), head]
  rfl

theorem legalFirmwareChunk_takes {got : List Byte} (begun : (if offset = 0 then [] else s.isl.upData) ++ data = got)
    (st : s.isl.st = .opened) (empty : s.slu.down = []) (room : auditCount s < 255)
    (low : 1 ≤ data.length) (high : data.length ≤ 112) (least : 64 ≤ total.toNat) (most : total.toNat ≤ 524288)
    (next : ChunkNext offset total s.isl) :
    (got.length < total.toNat → exec (.legalFirmwareChunk offset total data) s =
      .next (settle (islSettle (takeBytes got total.toNat (downNumbered s))))) ∧
    (got.length = total.toNat → exec (.legalFirmwareChunk offset total data) s =
      .next (settle (islSettle (judged got (takeBytes got total.toNat (downNumbered s)))))) := by
  have on : s.isl.st ≠ .off := by rw [st]; decide
  have takes := takeChunk_takes (s := downNumbered s) st room low high least most next begun
  refine ⟨fun more => ?_, fun whole => ?_⟩
  · refine exec_legalFirmwareChunk on empty high ?_ empty
    rw [takes (Nat.le_of_lt more), if_pos more]
  · refine exec_legalFirmwareChunk on empty high ?_ empty
    rw [takes (Nat.le_of_eq whole), if_neg (Nat.not_lt.mpr (Nat.le_of_eq whole.symm))]

end

/-! ## Status and posting (R30, R31, R339) -/

section
variable {s : State}

theorem legalStatusSend_sends (on : s.isl.st ≠ .off) (due : s.isl.statusAt + 1000 ≤ s.isl.ms) (room : StatusRoom s) :
    ∃ t, exec .legalStatusSend s = .next t ∧ t.isl.statusAt = s.isl.ms ∧ t.isl.first = false ∧ t.isl.st = s.isl.st := by
  have formed : Formed s (if s.isl.stateAt + 1000 ≤ s.isl.ms then formState s else s) := by
    split
    · exact formState_formed s
    · exact ⟨s.isl.stateRec, s.isl.stateAt, rfl⟩
  have run : exec .legalStatusSend s = ok (let s := if s.isl.stateAt + 1000 ≤ s.isl.ms then formState s else s
      if s.isl.statusAt + 1000 ≤ s.isl.ms then sendExtracts 1025 (sendStatus s) else islSettle s) := by
    show ok _ = _
    rw [if_neg on]
  generalize (if s.isl.stateAt + 1000 ≤ s.isl.ms then formState s else s) = u at formed run
  obtain ⟨record, time, formed⟩ := formed
  have due' : u.isl.statusAt + 1000 ≤ u.isl.ms := by rw [formed]; exact due
  have gone := sendStatus_gone (s := u) (by rw [formed]; exact room)
  have st := (sendStatus_sent u).keeps.2
  obtain ⟨_, _, _, _, posted⟩ := sendExtracts_posted 1025 (sendStatus u)
  dsimp only at run
  rw [if_pos due', posted] at run
  refine ⟨_, run, ?_⟩
  rw [settle_isl]
  refine ⟨gone.1.trans ?_, gone.2, st.trans ?_⟩ <;> rw [formed]

theorem upwardPost_posts {m : SluMsg} {rest : List SluMsg} (on : s.isl.st ≠ .off) (later : s.isl.first = false)
    (hold : s.isl.hold = m :: rest) (room : s.slu.up.length < 32) :
    ∃ t, exec .upwardPost s = .next t ∧ s.slu.up ++ [{ m with seq := s.slu.upSeq }] <+: t.slu.up := by
  have run : exec .upwardPost s = .next (settle (islSettle (postUp 97 s))) := by
    show ok _ = _
    rw [if_neg on]
    rfl
  have first : postUp 97 s = postUp 96 (postMsg m { s with isl.hold := rest }) := by
    rw [postUp, hold]
    simp only [later, Bool.false_eq_true, false_or, Nat.not_le.mpr room, if_false]
  refine ⟨_, run, ?_⟩
  rw [settle_slu, first]
  obtain ⟨more, _, _, _, _, _, _, _, sent⟩ :=
    (postUp_posted 96 (postMsg m { s with isl.hold := rest })).sent.trans (islSettle_sent _)
  rw [sent]
  exact ⟨more, rfl⟩

end

end Sys2Proof.Machine
end

section
/-! The service port (R345, R347, R360, R361, R362, R375), and the statement O59. -/

namespace Sys2Proof.Machine

/-! ## Commands answered in every state but FAULT cause 8 -/

section
variable {s : State} (on : s.isl.st ≠ .off) (notRom : ¬ (s.isl.st = .fault ∧ s.isl.cause = 8))
include on notRom

theorem svcRead_answers (cmd : Nat) (f : State → Nat × List Byte) : svcRead cmd f s = svcReply cmd (f s).1 (f s).2 s := by
  rw [svcRead, if_neg (by tauto)]

theorem svcStage_refused (shut : s.isl.st ≠ .opened) (cmd : Nat) (f : State → Nat × State) :
    svcStage cmd f s = svcReply cmd 1 [] s := by
  rw [svcStage, if_neg (by tauto), if_pos shut]

theorem exec_svcAuditRead (seq : BitVec 32) : exec (.svcAuditRead seq) s = .next (settle (svcReply 2 0
    (((s.isl.audit.filter fun r => decide (seq.toNat ≤ r.seq)).take 2).flatMap auditBytes) s)) := by
  show ok (svcRead 2 _ s) = _
  rw [svcRead_answers on notRom]
  rfl

theorem exec_paramRead_some {id : BitVec 16} {v : Int} (h : readParam s id.toNat = some v) :
    exec (.paramRead id) s = .next (settle (svcReply 3 0 (s32 v) s)) := by
  show ok (svcRead 3 _ s) = _
  rw [svcRead_answers on notRom, h]
  rfl

theorem exec_paramRead_none {id : BitVec 16} (h : readParam s id.toNat = none) :
    exec (.paramRead id) s = .next (settle (svcReply 3 2 [] s)) := by
  show ok (svcRead 3 _ s) = _
  rw [svcRead_answers on notRom, h]
  rfl

theorem exec_verifyRec {bs : List Byte} (sealed : sealId s ≠ 0) (length : bs.length = 56) :
    exec (.verifyRec bs) s = .next (settle (svcReply 9 0
      [if beNat (bs.drop 48) = first8 (mac s.isl.wmKey (bs.take 48)) ∧ fld bs 44 4 = sealId s then 1 else 0] s)) := by
  show ok (svcRead 9 _ s) = _
  rw [svcRead_answers on notRom, if_neg sealed, if_neg (not_not_intro length)]
  simp only [Bool.and_eq_true, beq_iff_eq]
  rfl

/-- Outside OPEN nothing is staged (R345). -/
theorem exec_staging_refused (shut : s.isl.st ≠ .opened) (id : BitVec 16) (v : BitVec 32) (c : Fin 4) (load sid : BitVec 32) :
    exec (.paramWrite id v) s = .next (settle (svcReply 4 1 [] s)) ∧
    exec (.calZero c) s = .next (settle (svcReply 5 1 [] s)) ∧
    exec (.calSpan c load) s = .next (settle (svcReply 6 1 [] s)) ∧
    exec (.svcSeal sid) s = .next (settle (svcReply 7 1 [] s)) ∧
    exec .discard s = .next (settle (svcReply 8 1 [] s)) ∧
    exec .fwConfirm s = .next (settle (svcReply 10 1 [] s)) := by
  have refused := svcStage_refused on notRom shut
  refine ⟨?_, ?_, ?_, ?_, ?_, ?_⟩
  · exact congrArg ok (refused 4 _)
  · exact congrArg ok (refused 5 _)
  · exact congrArg ok (refused 6 _)
  · exact congrArg ok (refused 7 _)
  · show execDiscard s = _
    rw [execDiscard, if_neg shut, svcRead_answers on notRom]
    rfl
  · exact congrArg ok (refused 10 _)

end

section
variable {s : State}

theorem exec_svcIdent (on : s.isl.st ≠ .off) :
    exec .svcIdent s = .next (settle (svcReply 1 0 (statusFixed s s.isl.first) s)) := by
  show ok _ = _
  rw [if_neg on]
  rfl

/-! ## Commands that stage in OPEN -/

/-- What the island keeps of its answer once it has settled. -/
theorem svcReply_settled (cmd status : Nat) (u : State) : ∃ hold sent last time first rejected,
    (settle (islSettle (svcReply cmd status [] u))).isl = { u.isl with
      reply := [BitVec.ofNat 8 (cmd + 0x80), BitVec.ofNat 8 status], hold := hold, auditSent := sent, lastStatus := last,
      statusAt := time, first := first, rejected := rejected } := by
  obtain ⟨_, hold, sent, last, time, first, rejected, isl⟩ := islSettle_kept (svcReply cmd status [] u)
  exact ⟨hold, sent, last, time, first, rejected, isl⟩

theorem exec_discard (st : s.isl.st = .opened) : exec .discard s =
    .next (settle (islSettle (svcReply 8 0 [] (modIsl (fun i => { i with upload := 0 }) (dropStaged s))))) := by
  show ok _ = _
  rw [if_pos st]
  rfl

theorem discard_drops (st : s.isl.st = .opened) : ∃ t, exec .discard s = .next t ∧ t.isl.stParams = [] ∧
    t.isl.stSeal = none ∧ t.isl.stPair = none ∧ t.isl.stFw = false ∧ t.isl.upload = 0 ∧ t.isl.reply = [0x88, 0] ∧
    t.isl.count = s.isl.count := by
  refine ⟨_, exec_discard st, ?_⟩
  obtain ⟨_, _, _, _, _, _, isl⟩ := svcReply_settled 8 0 (modIsl (fun i => { i with upload := 0 }) (dropStaged s))
  rw [isl]
  exact ⟨rfl, rfl, rfl, rfl, rfl, rfl, rfl⟩

theorem svcStage_stages (st : s.isl.st = .opened) (room : auditCount s < 255) {cmd status : Nat} {f : State → Nat × State}
    {u : State} (h : f s = (status, u)) : svcStage cmd f s = islSettle (svcReply cmd status [] u) := by
  rw [svcStage, if_neg (by simp [st]), if_neg (not_not_intro st), if_neg (by omega), h]

/-- Values staged. -/
def stageParams (l : List (Nat × Int)) (s : State) : State := modIsl (fun i => { i with stParams := i.stParams ++ l }) s

/-- The values `l` are staged, and the command answers `code` and 0. -/
def StagedParams (code : Byte) (l : List (Nat × Int)) (s t : State) : Prop :=
  t.isl.stParams = s.isl.stParams ++ l ∧ t.isl.reply = [code, 0] ∧ t.isl.st = .opened ∧ t.isl.count = s.isl.count

theorem stageParams_staged (st : s.isl.st = .opened) (cmd : Nat) (l : List (Nat × Int)) :
    StagedParams (BitVec.ofNat 8 (cmd + 0x80)) l s (settle (islSettle (svcReply cmd 0 [] (stageParams l s)))) := by
  obtain ⟨_, _, _, _, _, _, isl⟩ := svcReply_settled cmd 0 (stageParams l s)
  rw [StagedParams, isl]
  exact ⟨rfl, rfl, st, rfl⟩

section
variable (st : s.isl.st = .opened) (room : auditCount s < 255)
include st room

theorem paramWrite_stages {id : BitVec 16} {v : BitVec 32} {lo hi d : Int} (range : paramRange id.toNat = some (lo, hi, d))
    (source : ∀ n, laneParam id.toNat = some (n, 0) → sourceOk v.toInt = true) (low : lo ≤ v.toInt) (high : v.toInt ≤ hi)
    (sound : paramSetOk (stagedParam (stageParams [(id.toNat, v.toInt)] s)) = true) :
    ∃ t, exec (.paramWrite id v) s = .next t ∧ StagedParams 0x84 [(id.toNat, v.toInt)] s t := by
  refine ⟨_, congrArg ok (svcStage_stages st room ?_), stageParams_staged st 4 _⟩
  simp only [range]
  rw [if_pos]
  · rfl
  · refine ⟨low, high, ?_, sound⟩
    split
    · next n lane => exact source n lane
    · rfl

theorem paramWrite_unknown {id : BitVec 16} (v : BitVec 32) (range : paramRange id.toNat = none) :
    ∃ t, exec (.paramWrite id v) s = .next t ∧ t.isl.stParams = s.isl.stParams ∧ t.isl.reply = [0x84, 2] := by
  refine ⟨_, congrArg ok (svcStage_stages (u := s) (status := 2) st room ?_), ?_⟩
  · simp only [range]
  · obtain ⟨_, _, _, _, _, _, isl⟩ := svcReply_settled 4 2 s
    rw [isl]
    exact ⟨rfl, rfl⟩

section
variable {c : Fin 4} {zid sid lid : Nat} {mean spread : Int} (ids : calIds s c = some (zid, sid, lid))
  (raw : rawMean s c = some (mean, spread))
include ids raw

theorem calZero_stages (fine : stagedParam s lid = 0 ∨
    spread * (stagedParam s lid).natAbs ≤ (stagedParam s sid).natAbs) :
    ∃ t, exec (.calZero c) s = .next t ∧ StagedParams 0x85 [(zid, mean)] s t := by
  refine ⟨_, congrArg ok (svcStage_stages st room ?_), stageParams_staged st 5 _⟩
  simp only [ids, raw]
  rw [if_neg (by omega)]
  rfl

theorem calSpan_stages {load : BitVec 32} (pos : 0 < load.toInt)
    (tenth : 10 * load.toInt ≤ (mean - stagedParam s zid).natAbs)
    (fine : spread * load.toInt ≤ (mean - stagedParam s zid).natAbs) : ∃ t, exec (.calSpan c load) s = .next t ∧
      StagedParams 0x86 [(sid, mean - stagedParam s zid), (lid, load.toInt)] s t := by
  refine ⟨_, congrArg ok (svcStage_stages st room ?_), stageParams_staged st 6 _⟩
  simp only [ids, raw]
  rw [if_neg (by omega)]
  rfl

end

theorem svcSeal_stages {id : BitVec 32} (unsealed : sealId s = 0) (low : id ≠ 0) (high : id ≠ 0xFFFFFFFF) :
    ∃ t, exec (.svcSeal id) s = .next t ∧ t.isl.stSeal = some id.toNat ∧ t.isl.reply = [0x87, 0] ∧
      t.isl.sealWord = s.isl.sealWord := by
  refine ⟨_, congrArg ok (svcStage_stages (status := 0)
    (u := modIsl (fun i => { i with stSeal := some id.toNat }) s) st room ?_), ?_⟩
  · rw [if_neg (not_not_intro unsealed), if_neg (by tauto)]
  · obtain ⟨_, _, _, _, _, _, isl⟩ := svcReply_settled 7 0 (modIsl (fun i => { i with stSeal := some id.toNat }) s)
    rw [isl]
    exact ⟨rfl, rfl, rfl⟩

theorem fwConfirm_stages (fallback : s.isl.fwRun ≠ s.isl.fwPref) :
    ∃ t, exec .fwConfirm s = .next t ∧ t.isl.stConfirm = true ∧ t.isl.reply = [0x8A, 0] := by
  refine ⟨_, congrArg ok (svcStage_stages (status := 0)
    (u := modIsl (fun i => { i with stConfirm := true }) s) st room ?_), ?_⟩
  · rw [if_neg fallback]
  · obtain ⟨_, _, _, _, _, _, isl⟩ := svcReply_settled 10 0 (modIsl (fun i => { i with stConfirm := true }) s)
    rw [isl]
    exact ⟨rfl, rfl⟩

end

end

/-- Settles O59: each clause by the theorem of its command; what the island sends when it settles leaves the rest of it as
the command made it. -/
theorem islandStates : Obligations.IslandStates := by
  unfold Obligations.IslandStates
  intro s
  refine ⟨fun f => vmPowerGood_threads f, exec_vmBrownOut, wdMExpiry_threads, exec_identDisplayEnd, calNAsserted_opens,
    calNAsserted_threads, fun c => faultCause_faults, fun st sealed noSeal => ⟨fun flash tooMany => ?_, ?_, ?_⟩,
    calNReleased_unsealed, fun offset total data st empty room low high least most next => ?_,
    fun m rest head code good on => ⟨?_, ?_, ?_⟩, legalStatusSend_sends, fun m rest => upwardPost_posts, exec_svcIdent,
    fun on notRom => ⟨exec_svcAuditRead on notRom, fun id v => exec_paramRead_some on notRom,
      fun id => exec_paramRead_none on notRom, fun bs => exec_verifyRec on notRom, exec_staging_refused on notRom⟩,
    discard_drops, fun st room => ⟨?_, ?_, ?_, ?_, fwConfirm_stages st room⟩⟩
  · exact calNReleased_exhausted st sealed tooMany flash
  · exact calNReleased_writes st sealed noSeal
  · exact calNReleased_fails st sealed noSeal
  · exact legalFirmwareChunk_takes rfl st empty room low high least most next
  · exact pairOfferImport_stages head code good on
  · exact pairStateImport_takes head code good on
  · exact pairStateImport_rejected head code good on
  · exact fun id v lo hi d => paramWrite_stages st room
  · exact fun id v => paramWrite_unknown st room v
  · exact fun c zid sid lid mean spread ids raw =>
      ⟨calZero_stages st room ids raw, fun load => calSpan_stages st room ids raw⟩
  · exact fun id => svcSeal_stages st room

end Sys2Proof.Machine
end

section
/-! SUPPORT. The bits of the model's masks: a mask read by `bitOf` after bits were set, cleared or picked. -/

namespace Sys2Proof.Machine

theorem bitOf_eq_testBit (x k : Nat) : bitOf x k = x.testBit k := by
  rw [Nat.testBit_eq_decide_div_mod_eq, bitOf]
  rfl

/-- Adding a power of two to a number without that bit sets it. -/
theorem testBit_add_two_pow {m k : Nat} (h : m.testBit k = false) (j : Nat) :
    (m + 2 ^ k).testBit j = (m.testBit j || decide (j = k)) := by
  induction k generalizing m j with
  | zero =>
    rw [Nat.testBit_zero, decide_eq_false_iff_not] at h
    cases j with
    | zero => simp; omega
    | succ j => simp [Nat.testBit_add_one, show (m + 1) / 2 = m / 2 by omega]
  | succ k ih =>
    have half : (m + 2 ^ (k + 1)) / 2 = m / 2 + 2 ^ k := by omega
    cases j with
    | zero => simp [Nat.pow_succ]
    | succ j => simpa [Nat.testBit_add_one, half] using ih (by simpa [Nat.testBit_add_one] using h) j

@[simp] theorem bitOf_setBit (m k j : Nat) : bitOf (setBit m k) j = (bitOf m j || decide (j = k)) := by
  unfold setBit
  split
  · next h =>
    by_cases hj : j = k
    · simp [hj, h]
    · simp [hj]
  · next h =>
    rw [Bool.not_eq_true, bitOf_eq_testBit] at h
    rw [bitOf_eq_testBit, bitOf_eq_testBit, testBit_add_two_pow h]

theorem bitOf_setBit_same (m k : Nat) : bitOf (setBit m k) k = true := by simp

@[simp] theorem bitOf_clrBit (m k j : Nat) : bitOf (clrBit m k) j = (bitOf m j && !decide (j = k)) := by
  unfold clrBit
  split
  · next h =>
    rw [bitOf_eq_testBit] at h
    have sum : m - 2 ^ k + 2 ^ k = m := Nat.sub_add_cancel (Nat.ge_two_pow_of_testBit h)
    have clear : (m - 2 ^ k).testBit k = false := by
      have := Nat.testBit_two_pow_add_eq (m - 2 ^ k) k
      rw [Nat.add_comm, sum, h] at this
      simpa using this.symm
    have set := testBit_add_two_pow clear j
    rw [sum] at set
    rw [bitOf_eq_testBit, bitOf_eq_testBit, set]
    by_cases hj : j = k
    · simp [hj, clear]
    · simp [hj]
  · next h =>
    by_cases hj : j = k
    · simpa [hj] using h
    · simp [hj]

theorem maskOf_succ (n : Nat) (f : Nat → Bool) : maskOf (n + 1) f = maskOf n f + b2n (f n) * 2 ^ n := by
  simp [maskOf, List.range_succ]

theorem maskOf_lt (n : Nat) (f : Nat → Bool) : maskOf n f < 2 ^ n := by
  induction n with
  | zero => exact Nat.one_pos
  | succ n ih =>
    rw [maskOf_succ, Nat.pow_succ]
    cases f n <;> simp [b2n] <;> omega

/-- The bits of a mask built by a test are the test's answers. -/
theorem bitOf_maskOf {n k : Nat} (f : Nat → Bool) (h : k < n) : bitOf (maskOf n f) k = f k := by
  induction n with
  | zero => omega
  | succ n ih =>
    have clear : (maskOf n f).testBit n = false := Nat.testBit_lt_two_pow (maskOf_lt n f)
    have next : bitOf (maskOf (n + 1) f) k = (bitOf (maskOf n f) k || (f n && decide (k = n))) := by
      rw [maskOf_succ, bitOf_eq_testBit, bitOf_eq_testBit]
      cases f n
      · simp [b2n]
      · simp [b2n, testBit_add_two_pow clear]
    rw [next]
    by_cases hk : k = n
    · subst hk
      simp [bitOf_eq_testBit, clear]
    · rw [ih (by omega)]
      simp [hk]

/-- Within its width `w`, a mask ANDed with the complement of `v` keeps the bits that `v` does not name. -/
theorem bitOf_cleared {w n : Nat} (x v : Nat) (h : n < w) :
    bitOf (x &&& ((v % 2 ^ w) ^^^ (2 ^ w - 1))) n = (bitOf x n && !bitOf v n) := by
  simp [bitOf_eq_testBit, Nat.testBit_two_pow_sub_one, h]

/-- The complement within two bits written as a difference. -/
theorem bitOf_cleared_sub {w n : Nat} (x v : Nat) (h : n < w) :
    bitOf (x &&& (2 ^ w - (v % 2 ^ w + 1))) n = (bitOf x n && !bitOf v n) := by
  have low : v % 2 ^ w < 2 ^ w := Nat.mod_lt v (Nat.two_pow_pos w)
  simp [bitOf_eq_testBit, Nat.testBit_two_pow_sub_succ low, h]

end Sys2Proof.Machine
end

section
/-! Latching reads and write-ones-to-clear registers (R39, R64, R70, R420, R426, R427): the statement O30. -/

namespace Sys2Proof.Machine

variable {s : State}

/-- An aligned address of the system registers ahead of the field block views is read as such a register. -/
theorem peekWord_sys {e o : Nat} (low : o < 0xC00) (aligned : o % 4 = 0) :
    peekWord e (0x50000000 + o) s = peekSys e o s := by
  have image : inImage (0x50000000 + o) = false := decide_eq_false (by omega)
  have below : ∀ base stride n, base + stride * n ≤ 0x50000000 → inArr (0x50000000 + o) base stride n = false :=
    fun base stride n h => decide_eq_false (by omega)
  have sys : inArr (0x50000000 + o) 0x50000000 1 0x8000000 = true := decide_eq_true (by omega)
  have aligned' : (0x50000000 + o) % 4 = 0 := by omega
  simp [peekWord, aligned', image, below, sys]

/-- A read of such a register answers it and has its side effect. -/
theorem readOnce_sys {who sess req e o v : Nat} (low : o < 0xC00) (aligned : o % 4 = 0) (known : peekSys e o s = some v) :
    readOnce who sess req e (0x50000000 + o) s =
      answerAccess who sess req 0 [v] (readEffect (0x50000000 + o) s) := by
  have view : inFbView (0x50000000 + o) = false := decide_eq_false (by omega)
  have ream : inReam (0x50000000 + o) = false := decide_eq_false (by omega)
  have stable : drawsFree (0x50000000 + o) = false := by
    simp only [drawsFree, inArr, Bool.or_eq_false_iff, decide_eq_false_iff_not]
    omega
  rw [readOnce, peekWord_sys low aligned, known]
  simp [view, ream, stable]

theorem exec_tickNowLoRead (s : State) : exec .tickNowLoRead s = .next (settle { s with
    clk.tickHi := s.clk.tick / 2 ^ 32 % 65536, bus.ans := BitVec.ofNat 32 s.clk.tick, bus.status := 0 }) := rfl

theorem exec_rtcSecRead (s : State) : exec .rtcSecRead s = .next (settle { s with
    rtc.latSub := s.rtc.sub, rtc.latDate := rtcDate s.rtc.cal, rtc.latTime := rtcTime s.rtc.cal,
    bus.ans := BitVec.ofNat 32 s.rtc.sec, bus.status := 0 }) := rfl

/-- TICK_NOW_LO latches, TICK_NOW_HI answers what was latched, the peek alias of TICK_NOW_LO latches nothing (R39). -/
theorem readOnce_tickNow (who sess req e : Nat) (s : State) :
    readOnce who sess req e 0x50000100 s = answerAccess who sess req 0 [s.clk.tick % 2 ^ 32]
      { s with clk.tickHi := s.clk.tick / 2 ^ 32 % 65536 } ∧
    readOnce who sess req e 0x50000104 s = answerAccess who sess req 0 [s.clk.tickHi] s ∧
    readOnce who sess req e 0x50000180 s = answerAccess who sess req 0 [s.clk.tick % 2 ^ 32] s :=
  ⟨readOnce_sys (o := 0x100) (by decide) (by decide) rfl, readOnce_sys (o := 0x104) (by decide) (by decide) rfl,
    readOnce_sys (o := 0x180) (by decide) (by decide) rfl⟩

theorem exec_almStatClear (v : Word) (s : State) : exec (.almStatClear v) s = .next (settle { s with
    rtc.fired := s.rtc.fired &&& (3 - v.toNat % 4), rtc.pin := s.rtc.pin && !v.getLsbD 3 }) := by
  rw [← bitOf_toNat]
  rfl

/-- Bits 0 and 1 of ALM_STAT are cleared by ones (R426). -/
theorem almStat_cleared (x : Nat) (v : Word) {n : Nat} (h : n < 2) :
    bitOf (x &&& (3 - v.toNat % 4)) n = (bitOf x n && !v.getLsbD n) := by
  rw [show 3 - v.toNat % 4 = 2 ^ 2 - (v.toNat % 2 ^ 2 + 1) by omega, bitOf_cleared_sub x v.toNat h, bitOf_toNat]

theorem exec_bkCtlClear (v : Word) (s : State) : exec (.bkCtlClear v) s = .next (settle { s with
    rtc.swFirst := if v.getLsbD 0 then 0 else s.rtc.swFirst, rtc.swCnt := if v.getLsbD 0 then 0 else s.rtc.swCnt,
    rtc.bkLow := s.rtc.bkLow && !v.getLsbD 1 }) := by
  show execBkCtlClear v s = _
  rw [execBkCtlClear, bitOf_toNat, bitOf_toNat]
  cases v.getLsbD 0 <;> cases v.getLsbD 1 <;> simp [ok]

theorem exec_rstCauseClear (v : Word) (s : State) : exec (.rstCauseClear v) s =
    .next (settle { s with md.rstCause := s.md.rstCause &&& ((v.toNat % 2 ^ 6) ^^^ (2 ^ 6 - 1)) }) := rfl

theorem exec_wakeCauseClear (v : Word) (s : State) : exec (.wakeCauseClear v) s =
    .next (settle { s with md.wakeCause := s.md.wakeCause &&& ((v.toNat % 2 ^ 5) ^^^ (2 ^ 5 - 1)) }) := rfl

/-- Settles O30: the reads answer and latch by the register's address, and a write of ones ANDs the complement. -/
theorem timeRegisters : Obligations.TimeRegisters := by
  unfold Obligations.TimeRegisters
  intro s
  refine ⟨exec_tickNowLoRead s, fun who sess req e => readOnce_tickNow who sess req e s, exec_rtcSecRead s,
    fun v => ⟨_, exec_almStatClear v s, fun n => almStat_cleared _ v⟩, fun v => exec_bkCtlClear v s,
    fun v => ⟨_, exec_rstCauseClear v s, fun n h => ?_⟩, fun v => ⟨_, exec_wakeCauseClear v s, fun n h => ?_⟩⟩
  · rw [bitOf_cleared _ _ h, bitOf_toNat]
  · rw [bitOf_cleared _ _ h, bitOf_toNat]

end Sys2Proof.Machine
end

section
/-! SUPPORT. Pending urgent frames (R250): what a merge into them changes, and when all of a block's outputs wait. -/

namespace Sys2Proof.Machine

/-- `t` is `s` but for the urgent frames that wait and the bits that QIMM handed over. -/
def OnlyUrgent (s t : State) : Prop := ∃ urg qimm, t = { s with fl.urg := urg, exe.qimm := qimm }

namespace OnlyUrgent

variable {s t u : State}

theorem refl (s : State) : OnlyUrgent s s := ⟨s.fl.urg, s.exe.qimm, rfl⟩

theorem trans (h : OnlyUrgent s t) (g : OnlyUrgent t u) : OnlyUrgent s u := by
  obtain ⟨_, _, rfl⟩ := h
  obtain ⟨_, _, rfl⟩ := g
  exact ⟨_, _, rfl⟩

theorem foldl {β : Type} {f : State → β → State} (h : ∀ s x, OnlyUrgent s (f s x)) (l : List β) (s : State) :
    OnlyUrgent s (l.foldl f s) := by
  induction l generalizing s with
  | nil => exact refl s
  | cons x l ih => exact (h s x).trans (ih _)

theorem eq (h : OnlyUrgent s t) : t = { s with fl.urg := t.fl.urg, exe.qimm := t.exe.qimm } := by
  obtain ⟨_, _, rfl⟩ := h; rfl
theorem md (h : OnlyUrgent s t) : t.md = s.md := by obtain ⟨_, _, rfl⟩ := h; rfl
theorem chain (h : OnlyUrgent s t) : t.fl.n = s.fl.n := by obtain ⟨_, _, rfl⟩ := h; rfl
theorem outByte (h : OnlyUrgent s t) (hold : Bool) (fb : Nat) : outByte t hold fb = outByte s hold fb := by
  obtain ⟨_, _, rfl⟩ := h; rfl

end OnlyUrgent

variable {s : State}

theorem pendUrgent_only (couch : Bool) (fb mask val : Nat) (s : State) : OnlyUrgent s (pendUrgent couch fb mask val s) := by
  unfold pendUrgent
  split <;> exact ⟨_, s.exe.qimm, rfl⟩

theorem absorbQimm_only (s : State) : OnlyUrgent s (absorbQimm s) := by
  refine .trans ⟨s.fl.urg, [], rfl⟩ (.foldl (fun s qv => ?_) s.exe.qimm _)
  split
  · exact pendUrgent_only _ _ _ _ s
  · exact .refl s

/-- A frame waits that commands all eight outputs of block `fb` to `v`. -/
def WholePending (fb v : Nat) (s : State) : Prop :=
  ∃ x ∈ s.fl.urg, x.fb = fb ∧ ∀ j, j < 8 → bitOf x.mask j = true ∧ bitOf x.val j = bitOf v j

theorem bitOf_wholeMask {j : Nat} (h : j < 8) : bitOf 255 j = true := by
  rw [bitOf_eq_testBit, show 255 = 2 ^ 8 - 1 from rfl, Nat.testBit_two_pow_sub_one, decide_eq_true h]

/-- A waiting frame after a command for block `fb` has come. -/
def mergeUrgent (couch : Bool) (fb mask val : Nat) (u : Urgent) : Urgent :=
  if u.fb = fb then { u with mask := u.mask ||| mask, val := withMask u.val mask val, couch := u.couch && couch } else u

theorem mergeUrgent_whole {fb : Nat} {u : Urgent} (couch : Bool) (v : Nat) (hu : u.fb = fb) :
    (mergeUrgent couch fb 255 v u).fb = fb ∧ ∀ j, j < 8 →
      bitOf (mergeUrgent couch fb 255 v u).mask j = true ∧ bitOf (mergeUrgent couch fb 255 v u).val j = bitOf v j := by
  rw [mergeUrgent, if_pos hu]
  refine ⟨hu, fun j hj => ⟨?_, ?_⟩⟩
  · have whole := bitOf_wholeMask hj
    rw [bitOf_eq_testBit] at whole ⊢
    rw [Nat.testBit_or, whole, Bool.or_true]
  · simp only [withMask, bitOf_maskOf _ hj, bitOf_wholeMask hj, if_true]

theorem mergeUrgent_other {fb : Nat} {u : Urgent} (couch : Bool) (mask val : Nat) (other : u.fb ≠ fb) :
    mergeUrgent couch fb mask val u = u := if_neg other

theorem pendUrgent_merges {fb : Nat} (couch : Bool) (mask val : Nat) (waits : (s.fl.urg.any fun u => u.fb == fb) = true) :
    (pendUrgent couch fb mask val s).fl.urg = s.fl.urg.map (mergeUrgent couch fb mask val) := by
  rw [pendUrgent, if_pos waits]
  rfl

theorem pendUrgent_adds {fb : Nat} (couch : Bool) (mask val : Nat) (none : (s.fl.urg.any fun u => u.fb == fb) ≠ true) :
    (pendUrgent couch fb mask val s).fl.urg =
      s.fl.urg ++ [{ fb := fb, mask := mask, val := val, couch := couch }] := by
  rw [pendUrgent, if_neg none]

/-- A command for all of a block's outputs waits once it is pended: merged into the block's frame, or in one of its own. -/
theorem pendUrgent_whole (couch : Bool) (fb v : Nat) (s : State) : WholePending fb v (pendUrgent couch fb 255 v s) := by
  by_cases waits : (s.fl.urg.any fun u => u.fb == fb) = true
  · obtain ⟨u, mem, hu⟩ := List.any_eq_true.mp waits
    rw [WholePending, pendUrgent_merges couch 255 v waits]
    exact ⟨_, List.mem_map_of_mem mem, mergeUrgent_whole couch v (by simpa using hu)⟩
  · rw [WholePending, pendUrgent_adds couch 255 v waits]
    exact ⟨_, List.mem_append_right _ (List.mem_singleton.mpr rfl), rfl, fun j hj => ⟨bitOf_wholeMask hj, rfl⟩⟩

/-- A command for another block leaves it waiting. -/
theorem pendUrgent_keeps_whole {f fb v : Nat} (couch : Bool) (mask val : Nat) (other : f ≠ fb) (h : WholePending f v s) :
    WholePending f v (pendUrgent couch fb mask val s) := by
  obtain ⟨x, mem, hx, bits⟩ := h
  refine ⟨x, ?_, hx, bits⟩
  by_cases waits : (s.fl.urg.any fun u => u.fb == fb) = true
  · rw [pendUrgent_merges couch mask val waits]
    exact List.mem_map.mpr ⟨x, mem, mergeUrgent_other couch mask val (by rw [hx]; exact other)⟩
  · rw [pendUrgent_adds couch mask val waits]
    exact List.mem_append_left _ mem

/-- The outputs of the first `n` blocks pended, as a couch on completion does (R45). -/
def pendOutputs (n : Nat) (s : State) : State :=
  (List.range n).foldl (fun s fb => pendUrgent true fb 255 (outByte s false fb) s) s

theorem pendOutputs_succ (n : Nat) (s : State) : pendOutputs (n + 1) s =
    pendUrgent true n 255 (outByte (pendOutputs n s) false n) (pendOutputs n s) := by
  simp [pendOutputs, List.range_succ]

theorem pendOutputs_only (n : Nat) (s : State) : OnlyUrgent s (pendOutputs n s) :=
  .foldl (fun s _ => pendUrgent_only _ _ _ _ s) _ s

/-- Each of these blocks gets a frame with the sheet's outputs. -/
theorem pendOutputs_whole {n fb : Nat} (h : fb < n) (s : State) : WholePending fb (outByte s false fb) (pendOutputs n s) := by
  induction n with
  | zero => omega
  | succ n ih =>
    rw [pendOutputs_succ, (pendOutputs_only n s).outByte]
    by_cases last : fb = n
    · subst last
      exact pendUrgent_whole _ _ _ _
    · exact pendUrgent_keeps_whole _ _ _ last (ih (by omega))

end Sys2Proof.Machine
end

section
/-! Couch on completion (R44, R45, R171): the statement O41. -/

namespace Sys2Proof.Machine

variable {e : Nat} {s : State}

/-- The couch that a completed cycle makes in E-clock `e`, before its outputs are pended. -/
def completionCouch (e : Nat) (s : State) : State :=
  couch (if e = 0 then s.clk.tick else s.clk.tick + 1) e false { s with clk.lateRun := 0 }

theorem midCouch_waits (h : mayCouch s = false) : midCouch e s = s := by
  simp [midCouch, h]

/-- So late in the tick no urgent frame could end before the next sweep. -/
theorem midCouch_late (may : mayCouch s = true) (late : s.clk.tickLen < e + 384) : midCouch e s = completionCouch e s := by
  simp [midCouch, may, late, completionCouch]

theorem midCouch_early (may : mayCouch s = true) (early : e + 384 ≤ s.clk.tickLen) :
    midCouch e s = pendOutputs (completionCouch e s).fl.n (absorbQimm (completionCouch e s)) := by
  simp [midCouch, may, Nat.not_lt.mpr early, completionCouch, pendOutputs]

theorem midCouch_early_only (may : mayCouch s = true) (early : e + 384 ≤ s.clk.tickLen) :
    OnlyUrgent (completionCouch e s) (midCouch e s) := by
  rw [midCouch_early may early]
  exact (absorbQimm_only _).trans (pendOutputs_only _ _)

theorem midCouch_early_whole (may : mayCouch s = true) (early : e + 384 ≤ s.clk.tickLen) {fb : Nat}
    (h : fb < (completionCouch e s).fl.n) :
    WholePending fb (outByte (completionCouch e s) false fb) (midCouch e s) := by
  rw [midCouch_early may early, ← (absorbQimm_only _).outByte]
  exact pendOutputs_whole h _

/-- `t` is the couched state `c`, but urgent frames for every block wait where in a tick of `len` E-clocks they can end in
time (R45). -/
def OutputsPended (e len : Nat) (c t : State) : Prop :=
  t = { c with fl.urg := t.fl.urg, exe.qimm := t.exe.qimm } ∧
    (len < e + 384 → t.fl.urg = c.fl.urg) ∧
    (e + 384 ≤ len → ∀ fb, fb < c.fl.n → WholePending fb (outByte c false fb) t)

theorem midCouch_pends (may : mayCouch s = true) :
    OutputsPended e s.clk.tickLen (completionCouch e s) (midCouch e s) := by
  refine ⟨?_, fun late => by rw [midCouch_late may late], fun early fb h => midCouch_early_whole may early h⟩
  rcases Nat.lt_or_ge s.clk.tickLen (e + 384) with late | early
  · rw [midCouch_late may late]
  · exact (midCouch_early_only may early).eq

theorem exec_cycleComplete (e : Nat) (s : State) : exec (.cycleComplete e) s = .next (settle (midCouch e s)) := rfl

theorem exec_feltCopyEnd (e : Nat) (s : State) :
    exec (.feltCopyEnd e) s = .next (settle (midCouch e { s with felt.copying := false })) := rfl

end Sys2Proof.Machine

namespace Sys2Proof

open Machine

/-- Settles O41: both commands end in the same couch, after which `midCouch_pends` says which outputs wait. -/
theorem couchOnCompletion : Obligations.CouchOnCompletion := by
  unfold Obligations.CouchOnCompletion
  intro e s c sheet couched
  have couches (u : State) (same : sheet u = completionCouch e u) (len : u.clk.tickLen = s.clk.tickLen)
      (may : mayCouch u = true) : couched u (midCouch e u) := by
    show OutputsPended e s.clk.tickLen (sheet u) (midCouch e u)
    rw [same, ← len]
    exact midCouch_pends may
  refine ⟨fun may => ⟨_, exec_cycleComplete e s, couches s rfl rfl may⟩, fun not => ?_,
    fun may => ⟨_, exec_feltCopyEnd e s, couches c rfl rfl may⟩, fun not => ?_⟩
  · rw [exec_cycleComplete, midCouch_waits not]
  · rw [exec_feltCopyEnd, midCouch_waits not]

end Sys2Proof
end

section
/-! SUPPORT. What the sample point keeps (R165): the strands' verification, halts and the trial leave the latched and the
couched image, the clock and the mode as they were. -/

namespace Sys2Proof.Machine

/-- `t` has the images, the clock and the mode of `s`. -/
structure ImagesKept (s t : State) : Prop where
  latched : t.exe.latched = s.exe.latched
  couched : t.exe.couched = s.exe.couched
  sampled : t.exe.sampled = s.exe.sampled
  clk : t.clk = s.clk
  md : t.md = s.md

namespace ImagesKept

variable {s t u : State}

theorem refl (s : State) : ImagesKept s s := ⟨rfl, rfl, rfl, rfl, rfl⟩

theorem trans (h : ImagesKept s t) (g : ImagesKept t u) : ImagesKept s u :=
  ⟨g.latched.trans h.latched, g.couched.trans h.couched, g.sampled.trans h.sampled, g.clk.trans h.clk, g.md.trans h.md⟩

theorem foldl {β : Type} {f : State → β → State} (h : ∀ s x, ImagesKept s (f s x)) (l : List β) (s : State) :
    ImagesKept s (l.foldl f s) := by
  induction l generalizing s with
  | nil => exact refl s
  | cons x l ih => exact (h s x).trans (ih _)

end ImagesKept

/-- `t` is `s` with another trial. -/
def OnlyTrial (s t : State) : Prop := ∃ trial, t = { s with trial := trial }

namespace OnlyTrial

variable {s t u : State}

theorem refl (s : State) : OnlyTrial s s := ⟨s.trial, rfl⟩

theorem trans (h : OnlyTrial s t) (g : OnlyTrial t u) : OnlyTrial s u := by
  obtain ⟨_, rfl⟩ := h
  obtain ⟨_, rfl⟩ := g
  exact ⟨_, rfl⟩

theorem images (h : OnlyTrial s t) : ImagesKept s t := by
  obtain ⟨_, rfl⟩ := h
  exact ⟨rfl, rfl, rfl, rfl, rfl⟩

end OnlyTrial

theorem trialSettle_only (fuel : Nat) (s : State) : OnlyTrial s (trialSettle fuel s) := by
  induction fuel generalizing s with
  | zero => exact .refl s
  | succ fuel ih =>
    unfold trialSettle
    dsimp only
    split
    · exact .refl s
    · split
      · split
        · exact .trans ⟨_, rfl⟩ (ih _)
        · exact ⟨_, rfl⟩
      · split
        · split
          · exact .trans ⟨_, rfl⟩ (ih _)
          · exact ⟨_, rfl⟩
        · exact .refl s

theorem trialRewind_only (s : State) : OnlyTrial s (trialRewind s) := ⟨_, rfl⟩

theorem setStrand_images (k : Nat) (x : Strand) (s : State) : ImagesKept s (setStrand k x s) := ⟨rfl, rfl, rfl, rfl, rfl⟩

theorem countBroke_images (s : State) : ImagesKept s (countBroke s) := ⟨rfl, rfl, rfl, rfl, rfl⟩

theorem countOvf_images (rd wr : BlockSet) (s : State) : ImagesKept s (countOvf rd wr s) := by
  unfold countOvf
  split
  · exact ⟨rfl, rfl, rfl, rfl, rfl⟩
  · exact .refl s

theorem verifyWalk_images (k fuel : Nat) (s : State) : ImagesKept s (verifyWalk k fuel s) := by
  induction fuel generalizing s with
  | zero => exact .refl s
  | succ fuel ih =>
    unfold verifyWalk
    dsimp only
    split
    · exact setStrand_images _ _ s
    · split
      · exact .refl s
      · split
        · exact (setStrand_images _ _ s).trans ((countOvf_images _ _ _).trans (ih _))
        · exact countBroke_images s

theorem sampleStrand_images (s : State) (k : Nat) : ImagesKept s (sampleStrand s k) := by
  unfold sampleStrand
  dsimp only
  split
  · split
    · exact (countBroke_images s).trans (setStrand_images _ _ _)
    · exact setStrand_images _ _ s
  · exact setStrand_images _ _ s
  · exact .refl s

/-- A halt changes the debug block and raises an event that is no fault. -/
theorem haltPipe_images (k cause index : Nat) (s : State) : ImagesKept s (haltPipe k cause index s) := by
  unfold haltPipe
  rw [raise_calm _ _ _ (by decide)]
  exact ⟨rfl, rfl, rfl, rfl, rfl⟩

theorem sampleHalts_images (s : State) : ImagesKept s (sampleHalts s) := by
  unfold sampleHalts
  extract_lets due forgot _ full halted
  split
  · exact .refl s
  · have forgets : ImagesKept s forgot := .foldl (fun s k => setStrand_images k _ s) _ s
    have asFull : ImagesKept forgot full := ⟨rfl, rfl, rfl, rfl, rfl⟩
    have halts : ImagesKept full halted := .foldl (fun s k => by
      split
      · exact .refl s
      · exact haltPipe_images _ _ _ s) _ _
    exact forgets.trans (asFull.trans (halts.trans ⟨rfl, rfl, rfl, rfl, rfl⟩))

/-- The state in which the strands come to the sample point: the image is latched. -/
def withSample (img : Memory) (s : State) : State :=
  { s with exe.changed := changedBlocks s.exe.latched img, exe.latched := img, exe.sampled := true }

theorem sampleCore_images {img : Memory} {s : State} (runs : engineRuns s = true) (first : s.exe.sampled = false) :
    ImagesKept (withSample img s) (sampleCore img s) := by
  rw [sampleCore, if_neg (by simp [runs, first])]
  extract_lets _ latched halted verified
  have halts : ImagesKept latched halted := (ImagesKept.foldl sampleStrand_images _ _).trans (sampleHalts_images _)
  have verifies : ImagesKept halted verified := .foldl (fun s k => by
    split
    · exact .refl s
    · split
      · exact ⟨rfl, rfl, rfl, rfl, rfl⟩
      · exact verifyWalk_images _ _ s) _ _
  split
  · have begun : OnlyTrial verified { verified with trial.started := true } := ⟨_, rfl⟩
    exact halts.trans (verifies.trans (begun.trans ((trialRewind_only _).trans (trialSettle_only _ _))).images)
  · exact halts.trans verifies

end Sys2Proof.Machine
end

section
/-! The sample point and the dispatch of tasks (R42, R122, R124, R165): the statement O40. -/

namespace Sys2Proof.Machine

variable {s : State}

/-! ## The sample point -/

theorem samplePoint_samples (runs : engineRuns s = true) (fresh : s.exe.sampled = false) (first : s.exe.first = s.clk.tick) :
    exec .samplePoint s = .next (settle { sampleCore (sampleImage s) s with exe.iPut := [] }) := by
  show execSamplePoint s = _
  rw [execSamplePoint, if_pos (by simp [runs, fresh, first])]
  rfl

theorem samplePoint_idle (h : s.exe.sampled = true ∨ s.exe.first ≠ s.clk.tick) :
    exec .samplePoint s = .next (settle s) := by
  show execSamplePoint s = _
  rw [execSamplePoint, if_neg]
  · rfl
  · rcases h with h | h <;> simp [h]

theorem samplePoint_latches (runs : engineRuns s = true) (fresh : s.exe.sampled = false) (first : s.exe.first = s.clk.tick) :
    ∃ t, exec .samplePoint s = .next t ∧ t.exe.latched = sampleImage s ∧ t.exe.sampled = true ∧ t.exe.iPut = [] ∧
      t.exe.couched = s.exe.couched ∧ t.clk = s.clk ∧ t.md = s.md := by
  obtain ⟨latched, couched, sampled, clk, md⟩ := sampleCore_images (img := sampleImage s) runs fresh
  refine ⟨_, samplePoint_samples runs fresh first, ?_⟩
  rw [settle_exe, settle_clk, settle_md]
  exact ⟨latched, sampled, rfl, couched, clk, md⟩

/-! ## Dispatch -/

/-- Pipe 0 is free for a task: it runs in a cycle, is not halted, in no interlock block and alive. -/
structure Pipe0Free (s : State) : Prop where
  runs : engineRuns s = true
  going : pipeHalted s 0 = false
  unlocked : pipe0Locked s = false
  alive : s.exe.dead.contains 0 = false

/-- A run of the task that `g` triggers, with the registers of the trigger (R124). -/
def Started (s : State) (g : Trigger) (r : TaskRun) : Prop :=
  r.task = g.task ∧ r.pos = (taskRange (running s) g.task).1 ∧ r.tick = s.clk.tick ∧
    r.run = { regs := { a := g.a, l := g.l } }

/-- A task that has networks starts above the runs there are; its trigger is no longer pending, and a live trial mirrors
it (R177). -/
theorem startTask_starts {g : Trigger} (nets : (taskRange (running s) g.task).2 ≠ 0) : ∃ r trial, Started s g r ∧
    startTask g s = { s with exe.pend := s.exe.pend.filter fun u => u.task != g.task, exe.tasks := r :: s.exe.tasks,
                             trial := trial } := by
  unfold startTask
  extract_lets _ _ _ _ _ run _ begun _ _ mirrored
  rw [if_neg nets]
  have starts {t : State} (h : OnlyTrial begun t) : ∃ r trial, Started s g r ∧ t = { s with
      exe.pend := s.exe.pend.filter fun u => u.task != g.task, exe.tasks := r :: s.exe.tasks, trial := trial } := by
    obtain ⟨trial, rfl⟩ := h
    exact ⟨run, trial, ⟨rfl, rfl, rfl, rfl⟩, rfl⟩
  have mirrors : OnlyTrial begun mirrored := ⟨_, rfl⟩
  split
  · split
    · exact starts mirrors
    · split
      · exact starts (mirrors.trans ((trialRewind_only _).trans (trialSettle_only _ _)))
      · exact starts (mirrors.trans (.trans ⟨_, rfl⟩ (trialSettle_only _ _)))
  · exact starts (.refl _)

theorem startTask_empty {g : Trigger} (empty : (taskRange (running s) g.task).2 = 0) :
    startTask g s = { s with exe.pend := s.exe.pend.filter fun u => u.task != g.task } := by
  rw [startTask]
  exact if_pos empty

/-- A single pending trigger is dispatched to an idle pipe 0. -/
theorem dispatchTop_single {g : Trigger} (free : Pipe0Free s) (idle : s.exe.tasks = []) (pend : s.exe.pend = [g]) :
    dispatchTop s = startTask g s := by
  obtain ⟨runs, going, unlocked, alive⟩ := free
  have top : topTrigger s = some g := by simp [topTrigger, pend]
  have prio : pipe0Prio s = -1 := by simp [pipe0Prio, idle]
  rw [dispatchTop, if_neg (by rw [runs, going, unlocked, alive]; simp), top]
  simp only [prio]
  rw [if_pos (by omega)]

theorem dispatchTop_starts {g : Trigger} (free : Pipe0Free s) (idle : s.exe.tasks = []) (pend : s.exe.pend = [g])
    (nets : (taskRange (running s) g.task).2 ≠ 0) :
    ∃ r, Started s g r ∧ (dispatchTop s).exe.tasks = [r] ∧ (dispatchTop s).exe.pend = [] := by
  obtain ⟨r, _, started, starts⟩ := startTask_starts nets
  rw [dispatchTop_single free idle pend, starts, idle, pend]
  exact ⟨r, started, rfl, by simp⟩

theorem dispatchTop_halted (halted : pipeHalted s 0 = true) (all : s.dbg.s0Only = false) : dispatchTop s = s := by
  rw [dispatchTop, if_pos (by simp [halted, all])]

theorem exec_eventTaskDispatch (s : State) : exec .eventTaskDispatch s = .next (settle (dispatchTop s)) := rfl

theorem eventTaskDispatch_starts {g : Trigger} (free : Pipe0Free s) (idle : s.exe.tasks = []) (pend : s.exe.pend = [g])
    (nets : (taskRange (running s) g.task).2 ≠ 0) : ∃ t r, exec .eventTaskDispatch s = .next t ∧ t.exe.tasks = [r] ∧
      r.task = g.task ∧ r.pos = (taskRange (running s) g.task).1 ∧ r.run.regs.a = g.a ∧ r.run.regs.l = g.l ∧
      r.tick = s.clk.tick ∧ t.exe.pend = [] := by
  obtain ⟨r, ⟨task, pos, tick, run⟩, tasks, pending⟩ := dispatchTop_starts free idle pend nets
  refine ⟨_, r, exec_eventTaskDispatch s, ?_⟩
  rw [settle_exe, run]
  exact ⟨tasks, task, pos, rfl, rfl, tick, pending⟩

/-- The tick task's trigger, with the tick number in A (R42). -/
def tickTrigger (s : State) : Trigger := { task := 16, a := BitVec.ofNat 32 s.clk.tick, l := 0 }

theorem exec_tickTaskDispatch (runs : engineRuns s = true) (nets : (running s).tickCount ≠ 0)
    (going : pipeHalted s 0 = false) (pend : s.exe.pend = []) : exec .tickTaskDispatch s =
      .next (settle (dispatchTop { s with exe.pend := [tickTrigger s] })) := by
  have active : s.md.mode = .active := by
    simp only [engineRuns, Bool.and_eq_true, beq_iff_eq] at runs
    exact runs.1
  show execTickTaskDispatch s = _
  rw [execTickTaskDispatch, if_neg (by simp [runs, nets, going]), addTrigger, if_neg (not_not_intro active),
    if_neg (by simp [pend]), pend]
  rfl

theorem tickTaskDispatch_starts (free : Pipe0Free s) (nets : (running s).tickCount ≠ 0) (idle : s.exe.tasks = [])
    (pend : s.exe.pend = []) : ∃ t r, exec .tickTaskDispatch s = .next t ∧ t.exe.tasks = [r] ∧ r.task = 16 ∧
      r.pos = (running s).tickFirst ∧ r.tick = s.clk.tick ∧ r.run.regs.a = BitVec.ofNat 32 s.clk.tick ∧
      r.run.regs.l = 0 ∧ r.run.opened = false ∧ t.exe.pend = [] := by
  obtain ⟨runs, going, unlocked, alive⟩ := free
  obtain ⟨r, ⟨task, pos, tick, run⟩, tasks, pending⟩ := dispatchTop_starts (s := { s with exe.pend := [tickTrigger s] })
    ⟨runs, going, unlocked, alive⟩ idle rfl nets
  refine ⟨_, r, exec_tickTaskDispatch runs nets going pend, ?_⟩
  rw [settle_exe, run]
  exact ⟨tasks, task, pos, tick, rfl, rfl, rfl, pending⟩

/-- A halt of the whole of pipe 0 keeps every task (R474). -/
theorem dispatch_halted (halted : pipeHalted s 0 = true) (all : s.dbg.s0Only = false) :
    exec .tickTaskDispatch s = .next (settle s) ∧ exec .eventTaskDispatch s = .next (settle s) := by
  refine ⟨?_, ?_⟩
  · show execTickTaskDispatch s = _
    rw [execTickTaskDispatch, if_pos (by simp [halted, all])]
    rfl
  · rw [exec_eventTaskDispatch, dispatchTop_halted halted all]

/-- Settles O40: the sample point keeps the image that it latched, and a single trigger on an idle pipe 0 starts its task. -/
theorem sampleAndDispatch : Obligations.SampleAndDispatch := by
  unfold Obligations.SampleAndDispatch
  intro s
  exact ⟨samplePoint_latches, samplePoint_idle,
    fun runs nets going unlocked alive => tickTaskDispatch_starts ⟨runs, going, unlocked, alive⟩ nets,
    fun g runs going unlocked alive => eventTaskDispatch_starts ⟨runs, going, unlocked, alive⟩,
    dispatch_halted⟩

end Sys2Proof.Machine
end

section
/-! SUPPORT. Short frames as they are received (R192, R193), the phase of a heartbeat (R36), readiness (R204), and the
wake causes that a frame brings (R72). -/

namespace Sys2Proof.Machine

section
variable {typ : Nat} {w : FeltWire} {payload : List Byte} {s : State}

/-- A short frame that its command is for ends the partner's silence and has its effect. -/
theorem takeFrame_arrives (h : Arrives typ w payload s) (low : 1 ≤ typ) (high : typ ≤ 9) (effect : State → State) :
    takeFrame typ w payload effect s = .next (settle (effect (feltHeard w s))) := by
  obtain ⟨on, good, rfl⟩ := h
  rw [takeFrame, if_neg (by simp [on]), if_neg (by simp [good]), if_neg (by omega)]
  extract_lets heard
  rw [if_pos rfl]
  rfl

/-- A short frame with a bad CRC is counted and discarded (R193). -/
theorem takeFrame_bad (on : feltOn s = true) (bad : frameGood w payload = false) (effect : State → State) :
    takeFrame typ w payload effect s = .next (settle { s with felt.crcShort := satInc 65535 s.felt.crcShort }) := by
  rw [takeFrame, if_neg (by simp [on]), if_pos (by simp [bad])]
  rfl

end

/-! ## The phase of a heartbeat (R36) -/

theorem divFree_state (num : Int) (den : Nat) (s : State) : ∃ free, (divFree num den s).2 = { s with free := free } := by
  unfold divFree
  split
  · exact ⟨s.free, rfl⟩
  · exact ⟨_, rfl⟩

/-- A quotient that comes out whole draws no free value. -/
theorem divFree_whole {num q : Int} {den : Nat} (s : State) (pos : 0 < den) (h : num = den * q) :
    divFree num den s = (q, s) := by
  have nonzero : (den : Int) ≠ 0 := by omega
  rw [divFree, h, if_pos (Int.mul_emod_right _ _), Int.mul_ediv_cancel_left _ nonzero]

/-- A remainder counted to the nearer multiple lies within half the divisor. -/
theorem nearer_le_half {x len : Int} (low : 0 ≤ x) (high : x < len) :
    2 * (if 2 * x ≤ len then x else x - len).natAbs ≤ len.toNat := by
  split <;> omega

/-- The phase error is counted to the nearer boundary, and the one before it is kept. -/
theorem measurePhase_measures {s : State} (arrive : Nat) (ticks : 0 < s.clk.tickLen) : ∃ e free,
    measurePhase arrive s = { s with clk.phasePrev := s.clk.phaseErr, clk.phaseErr := e, free := free } ∧
      2 * e.natAbs ≤ s.clk.tickLen := by
  obtain ⟨free, drawn⟩ := divFree_state ((s.felt.delayNs : Int) * 2) 5 s
  have positive : (0 : Int) < s.clk.tickLen := by omega
  unfold measurePhase
  generalize divFree ((s.felt.delayNs : Int) * 2) 5 s = r at drawn
  obtain ⟨d, u⟩ := r
  obtain rfl : u = _ := drawn
  exact ⟨_, free, rfl, nearer_le_half (Int.emod_nonneg _ positive.ne') (Int.emod_lt_of_pos _ positive)⟩

/-! ## Readiness (R204) -/

/-- `t` has the clock and the felt link of `s`, readiness aside. -/
def ReadyAside (s t : State) : Prop := t.clk = s.clk ∧ ∃ ready, t.felt = { s.felt with ready := ready }

theorem ReadyAside.refl (s : State) : ReadyAside s s := ⟨rfl, s.felt.ready, rfl⟩

theorem ReadyAside.silence {s t : State} (h : ReadyAside s t) : t.felt.silence = s.felt.silence := by
  obtain ⟨_, _, felt⟩ := h
  rw [felt]

theorem ReadyAside.partnerMode {s t : State} (h : ReadyAside s t) : t.felt.partnerMode = s.felt.partnerMode := by
  obtain ⟨_, _, felt⟩ := h
  rw [felt]

theorem notReady_readyAside (row : Nat) (s : State) : ReadyAside s (notReady row s) := by
  unfold notReady
  split
  · exact .refl s
  · split <;> exact ⟨raise_clk _ _ _, false, raise_felt _ _ _⟩

@[simp] theorem wdDormant_clk (on : Bool) (s : State) : (wdDormant on s).clk = s.clk := rfl
@[simp] theorem wdDormant_felt (on : Bool) (s : State) : (wdDormant on s).felt = s.felt := rfl

@[simp] theorem setMode_clk (m : Mode) (s : State) : (setMode m s).clk = s.clk := by
  obtain ⟨_, _, _, entered⟩ := setMode_raised m s
  rw [entered]
@[simp] theorem setMode_felt (m : Mode) (s : State) : (setMode m s).felt = s.felt := by
  obtain ⟨_, _, _, entered⟩ := setMode_raised m s
  rw [entered]

theorem enterDormant_readyAside (s : State) : ReadyAside s (enterDormant s) :=
  ⟨setMode_clk _ _, false, setMode_felt _ _⟩

/-! ## Wake causes (R72) -/

theorem setCause_eq (k : Nat) (s : State) : setCause k s = { s with md.wakeCause := setBit s.md.wakeCause k } := by
  unfold setCause setBit
  split <;> rfl

/-- The causes below `n` that a mask names, merged into WAKE_CAUSE. -/
def mergeCauses (m n : Nat) (s : State) : State :=
  (List.range n).foldl (fun s k => if bitOf m k then setCause k s else s) s

theorem mergeCauses_merges (m n : Nat) (s : State) : ∃ c, mergeCauses m n s = { s with md.wakeCause := c } ∧
    ∀ k, bitOf c k = (bitOf s.md.wakeCause k || (decide (k < n) && bitOf m k)) := by
  induction n with
  | zero => exact ⟨s.md.wakeCause, rfl, by simp⟩
  | succ n ih =>
    obtain ⟨c, merged, bits⟩ := ih
    have next : mergeCauses m (n + 1) s = if bitOf m n then setCause n (mergeCauses m n s) else mergeCauses m n s := by
      simp [mergeCauses, List.range_succ]
    have below {k : Nat} (h : k ≠ n) : decide (k < n + 1) = decide (k < n) := decide_eq_decide.mpr (by omega)
    cases named : bitOf m n with
    | true =>
      refine ⟨setBit c n, by rw [next, named, if_pos rfl, setCause_eq, merged], fun k => ?_⟩
      by_cases last : k = n
      · simp [last, named]
      · rw [bitOf_setBit, bits, below last, decide_eq_false last, Bool.or_false]
    | false =>
      refine ⟨c, by rw [next, named, merged]; rfl, fun k => ?_⟩
      by_cases last : k = n
      · simp [bits, last, named]
      · rw [bits, below last]

theorem takeCauses_merges (m : Nat) (s : State) : ∃ c, takeCauses m s = { s with md.wakeCause := c } ∧
    ∀ k, k < 5 → bitOf c k = (bitOf s.md.wakeCause k || bitOf m k) := by
  obtain ⟨c, merged, bits⟩ := mergeCauses_merges m 5 s
  exact ⟨c, merged, fun k h => by simp [bits, h]⟩

@[simp] theorem signalWake_md (s : State) : (signalWake s).md = s.md := by
  unfold signalWake
  split <;> rfl

theorem startWake_idle {s : State} (idle : s.md.wakeStep = 0) : startWake s = { s with md.wakeStep := 1 } := if_pos idle

end Sys2Proof.Machine
end

section
/-! Short frames of the felt link, its training and its silence (R36, R72, R86, R87, R185, R190 to R194, R199, R203): the
statement O46. -/

namespace Sys2Proof.Machine

/-! ## Training and silence (R190, R194, R207) -/

section
variable {s : State}

theorem feltLinkTrained_trains (on : feltOn s = true) (untrained : s.felt.trained = false) :
    ∃ t, exec .feltLinkTrained s = .next t ∧ t.felt.trained = true ∧ t.felt.lane0 = true ∧ t.felt.lane1 = true ∧
      t.felt.wasTrained = true ∧ t.felt.lostTicks = 0 ∧ t.md = s.md ∧ (slaved s = true → t.clk.loopOn = true) ∧
      (slaved s = false → t.clk = s.clk) := by
  have told (again : Bool) (u : State) : ∃ ev, (if again then raise 0x0907 1 u else u) = { u with evt := ev } := by
    split
    · exact ⟨_, raise_calm _ _ u (by decide)⟩
    · exact ⟨u.evt, rfl⟩
  refine ⟨_, rfl, ?_⟩
  rw [settle_felt, settle_md, settle_clk, if_neg (by simp [on, untrained])]
  extract_lets again _ trained _ looped
  obtain ⟨ev, same⟩ := told again looped
  have loops : looped.felt = trained.felt ∧ looped.md = s.md ∧ (slaved s = true → looped.clk.loopOn = true) ∧
      (slaved s = false → looped.clk = s.clk) := by
    by_cases free : (trained.clk.loopOn || !slaved trained) = true
    · have asIs : looped = trained := if_pos free
      rw [asIs]
      refine ⟨rfl, rfl, fun slave => ?_, fun _ => rfl⟩
      have slave : slaved trained = true := slave
      simpa [slave] using free
    · have begun : looped = { trained with clk.loopOn := true, clk.loopN := 0 } := if_neg free
      rw [begun]
      refine ⟨rfl, rfl, fun _ => rfl, fun slave => ?_⟩
      have slave : slaved trained = false := slave
      simp [slave] at free
  obtain ⟨felt, md, loop, still⟩ := loops
  rw [same]
  exact ⟨congrArg Felt.trained felt, congrArg Felt.lane0 felt, congrArg Felt.lane1 felt, congrArg Felt.wasTrained felt,
    congrArg Felt.lostTicks felt, md, loop, still⟩

theorem feltSyncLoss_trained (on : feltOn s = true) (trained : s.felt.trained = true) :
    exec (.feltSyncLoss 0) s = .next (settle (raise 0x0907 0
      { s with felt.lane0 := false, felt.trained := false, felt.lostTicks := 0 })) ∧
    exec (.feltSyncLoss 1) s = .next (settle (raise 0x0907 0
      { s with felt.lane1 := false, felt.trained := false, felt.lostTicks := 0 })) := by
  have lost (lane : Fin 2) : exec (.feltSyncLoss lane) s = .next (settle (raise 0x0907 0
      { (if lane.val = 0 then { s with felt.lane0 := false } else { s with felt.lane1 := false }) with
        felt.trained := false, felt.lostTicks := 0 })) := by
    show execFeltSyncLoss lane s = _
    rw [execFeltSyncLoss, if_neg (by simp [on]), trained]
    rfl
  exact ⟨lost 0, lost 1⟩

theorem feltSyncLoss_untrained (on : feltOn s = true) (untrained : s.felt.trained = false) :
    exec (.feltSyncLoss 0) s = .next (settle { s with felt.lane0 := false }) := by
  show execFeltSyncLoss 0 s = _
  rw [execFeltSyncLoss, if_neg (by simp [on]), untrained]
  rfl

theorem heartbeatMissed_counts (on : feltOn s = true) (below : ¬ (s.md.mode = .standby ∧ s.felt.silence = 2)) :
    exec .heartbeatMissed s = .next (settle { s with felt.silence := min 15 (s.felt.silence + 1) }) := by
  show execHeartbeatMissed s = _
  rw [execHeartbeatMissed, if_neg (by simp [on])]
  extract_lets _ silent
  rw [if_neg]
  · rfl
  · rintro ⟨standby, third, -⟩
    have third : min 15 (s.felt.silence + 1) = 3 := third
    exact below ⟨standby, by omega⟩

/-- The third in a row without a complete witness ends readiness. -/
theorem heartbeatMissed_third (on : feltOn s = true) (standby : s.md.mode = .standby) (second : s.felt.silence = 2)
    (witness : s.felt.witness = false) (ready : s.felt.ready = true) :
    exec .heartbeatMissed s = .next (settle (raise 0x0909 3 { s with felt.silence := 3, felt.ready := false })) := by
  have third : min 15 (s.felt.silence + 1) = 3 := by rw [second]; rfl
  show execHeartbeatMissed s = _
  rw [execHeartbeatMissed, if_neg (by simp [on]), third]
  rw [if_pos ⟨standby, rfl, by simp [witness]⟩, notReady, if_neg (by simp [ready])]
  rfl

end

/-! ## Heartbeats (R36, R194) -/

section
variable {s : State} {w : FeltWire} {mode flags gapRun : Byte} {consistent : BitVec 48} {arrive : BitVec 20}

/-- What a heartbeat tells of the partner. -/
def partnerTold (mode flags : Byte) (consistent : BitVec 48) (gapRun : Byte) (s : State) : State :=
  { s with felt.partnerMode := some mode.toNat, felt.partnerFlags := flags.toNat,
           felt.partnerTick := consistent.toNat, felt.partnerGap := gapRun.toNat }

/-- The phase measured by a unit that slaves its tick (R36). -/
def phaseMeasured (arrive : Nat) (s : State) : State := if s.clk.loopOn && slaved s then measurePhase arrive s else s

/-- What a heartbeat does once the phase is measured: readiness, the return request, and DORMANT beside the partner. -/
def heartbeatDone (mode flags : Byte) (s : State) : State :=
  let s := if inPhase s then s else notReady 3 s
  let s := { s with felt.returnAsked := s.md.mode == Mode.active && bitOf flags.toNat 3 && mode == 4 }
  if s.md.dormMark && s.md.mode == Mode.standby && mode == 5 then enterDormant s else s

theorem exec_heartbeat (h : Arrives 1 w (heartbeatData mode.toNat flags.toNat consistent.toNat gapRun.toNat) s) :
    exec (.heartbeat mode flags consistent gapRun arrive w) s = .next (settle (heartbeatDone mode flags
      (phaseMeasured arrive.toNat (partnerTold mode flags consistent gapRun (feltHeard w s))))) := by
  show execHeartbeat mode flags consistent gapRun arrive w s = _
  rw [execHeartbeat, takeFrame_arrives h (by decide) (by decide)]
  delta heartbeatDone phaseMeasured partnerTold
  rfl

theorem heartbeat_bad (on : feltOn s = true)
    (bad : frameGood w (heartbeatData mode.toNat flags.toNat consistent.toNat gapRun.toNat) = false) :
    exec (.heartbeat mode flags consistent gapRun arrive w) s =
      .next (settle { s with felt.crcShort := satInc 65535 s.felt.crcShort }) := by
  show execHeartbeat mode flags consistent gapRun arrive w s = _
  rw [execHeartbeat, takeFrame_bad on bad]

theorem heartbeatDone_calm (phase : inPhase s = true) (unmarked : s.md.dormMark = false) : heartbeatDone mode flags s =
    { s with felt.returnAsked := decide (s.md.mode = .active) && bitOf flags.toNat 3 && decide (mode = 4) } := by
  rw [heartbeatDone, if_pos phase]
  extract_lets
  rw [if_neg (by simp [unmarked])]
  rfl

theorem heartbeat_told (h : Arrives 1 w (heartbeatData mode.toNat flags.toNat consistent.toNat gapRun.toNat) s)
    (free : s.clk.loopOn = false ∨ slaved s = false) (phase : inPhase s = true) (unmarked : s.md.dormMark = false) :
    exec (.heartbeat mode flags consistent gapRun arrive w) s = .next (settle { feltHeard w s with
      felt.partnerMode := some mode.toNat, felt.partnerFlags := flags.toNat, felt.partnerTick := consistent.toNat,
      felt.partnerGap := gapRun.toNat,
      felt.returnAsked := decide (s.md.mode = .active) && bitOf flags.toNat 3 && decide (mode = 4) }) := by
  have unmeasured : phaseMeasured arrive.toNat (partnerTold mode flags consistent gapRun (feltHeard w s)) =
      partnerTold mode flags consistent gapRun (feltHeard w s) := by
    refine if_neg (show ¬ (s.clk.loopOn && slaved s) = true from ?_)
    rcases free with h | h <;> simp [h]
  have phase : inPhase (partnerTold mode flags consistent gapRun (feltHeard w s)) = true := phase
  rw [exec_heartbeat h, unmeasured, heartbeatDone_calm phase unmarked]
  rfl

/-- What a heartbeat does after the phase leaves the clock and what it told. -/
theorem heartbeatDone_keeps (mode flags : Byte) (s : State) : (heartbeatDone mode flags s).clk = s.clk ∧
    (heartbeatDone mode flags s).felt.silence = s.felt.silence ∧
    (heartbeatDone mode flags s).felt.partnerMode = s.felt.partnerMode := by
  unfold heartbeatDone
  extract_lets phased _ asked
  have aside : ReadyAside s phased := by
    simp only [phased]
    split
    · exact .refl s
    · exact notReady_readyAside 3 s
  have same {t : State} (h : ReadyAside asked t) : t.clk = s.clk ∧ t.felt.silence = s.felt.silence ∧
      t.felt.partnerMode = s.felt.partnerMode :=
    ⟨h.1.trans aside.1, h.silence.trans aside.silence, h.partnerMode.trans aside.partnerMode⟩
  split
  · exact same (enterDormant_readyAside asked)
  · exact same (.refl asked)

theorem heartbeat_measures (h : Arrives 1 w (heartbeatData mode.toNat flags.toNat consistent.toNat gapRun.toNat) s)
    (loop : s.clk.loopOn = true) (slave : slaved s = true) (ticks : 0 < s.clk.tickLen) :
    ∃ t, exec (.heartbeat mode flags consistent gapRun arrive w) s = .next t ∧ t.felt.silence = 0 ∧
      t.felt.partnerMode = some mode.toNat ∧ t.clk.phasePrev = s.clk.phaseErr ∧
      2 * t.clk.phaseErr.natAbs ≤ s.clk.tickLen := by
  obtain ⟨e, free, measured, near⟩ := measurePhase_measures
    (s := partnerTold mode flags consistent gapRun (feltHeard w s)) arrive.toNat ticks
  refine ⟨_, exec_heartbeat h, ?_⟩
  have phase : phaseMeasured arrive.toNat (partnerTold mode flags consistent gapRun (feltHeard w s)) = _ :=
    if_pos (show (s.clk.loopOn && slaved s) = true by simp [loop, slave])
  obtain ⟨clk, silence, partner⟩ := heartbeatDone_keeps mode flags
    (measurePhase arrive.toNat (partnerTold mode flags consistent gapRun (feltHeard w s)))
  rw [settle_felt, settle_clk, phase, clk, silence, partner, measured]
  exact ⟨rfl, rfl, rfl, near⟩

end

/-! ## Copies and edits (R185, R199, R203) -/

section
variable {s : State} {w : FeltWire}

/-- The base moved to the copy of tick `t`: the pages written since then stay dirty (R199). -/
def baseMoved (t : Nat) (s : State) : State :=
  { s with felt.base := some t, felt.pages := s.felt.pages.filter fun e => decide (t + 1 < e.2) }

/-- The acknowledgement of the copy last sent moves the base; without marks it does nothing else. -/
theorem exec_acknowledge {couch : BitVec 48} {c : Copy} (h : Arrives 2 w (leBytes 6 couch.toNat) s)
    (last : s.felt.lastCopy = some c) (inTime : c.tick = couch.toNat) (noSwap : s.felt.swapMark = none)
    (noDorm : s.felt.dormMark = false) :
    exec (.acknowledge couch w) s = .next (settle (baseMoved couch.toNat (feltHeard w s))) := by
  show execAcknowledge couch w s = _
  rw [execAcknowledge, takeFrame_arrives h (by decide) (by decide)]
  extract_lets couched timely _ based _ kept
  have hTimely : timely = true := by simp [timely, couched, feltHeard, last, inTime]
  have hBased : based = baseMoved couch.toNat (feltHeard w s) := if_pos hTimely
  have hKept : kept = based := if_neg (by simp [hBased, baseMoved, feltHeard, noSwap])
  rw [if_neg (by simp [hKept, hBased, baseMoved, feltHeard, noDorm]), hKept, hBased]

theorem acknowledge_moves {couch : BitVec 48} {c : Copy} (h : Arrives 2 w (leBytes 6 couch.toNat) s)
    (last : s.felt.lastCopy = some c) (inTime : c.tick = couch.toNat) (noSwap : s.felt.swapMark = none)
    (noDorm : s.felt.dormMark = false) :
    ∃ t, exec (.acknowledge couch w) s = .next t ∧ t.felt.base = some couch.toNat ∧ t.felt.silence = 0 ∧
      ∀ e ∈ s.felt.pages, (e ∈ t.felt.pages ↔ couch.toNat + 1 < e.2) := by
  refine ⟨_, exec_acknowledge h last inTime noSwap noDorm, ?_⟩
  rw [settle_felt]
  exact ⟨rfl, rfl, fun e mem => by simp [baseMoved, feltHeard, mem]⟩

theorem exec_fullRequest (h : Arrives 3 w [] s) :
    exec (.fullRequest w) s = .next (settle { feltHeard w s with felt.fullNext := true }) := by
  show execFullRequest w s = _
  rw [execFullRequest, takeFrame_arrives h (by decide) (by decide)]

theorem fullRequest_bad (on : feltOn s = true) (bad : frameGood w [] = false) :
    exec (.fullRequest w) s = .next (settle { s with felt.crcShort := satInc 65535 s.felt.crcShort }) := by
  show execFullRequest w s = _
  rw [execFullRequest, takeFrame_bad on bad]

theorem exec_editReport {id : Word} {digest : BitVec 256} (h : Arrives 5 w (editData id.toNat digest.toNat) s) :
    exec (.editReport id digest w) s = .next (settle { feltHeard w s with
      felt.reportId := id.toNat, felt.reportDigest := digest.toNat }) := by
  show execEditReport id digest w s = _
  rw [execEditReport, takeFrame_arrives h (by decide) (by decide)]

/-! ## Step 10 of threading (R86, R87) -/

theorem releaseReport_completes {count : Byte} (h : Arrives 4 w [count] s) (threading : s.md.mode = .thread)
    (waits : s.nego.waitRelease = true) : ∃ t, exec (.releaseReport count w) s = .next t ∧
      t.nego.waitRelease = false ∧ t.md.thStat = 11 ∧ bitOf t.nego.parts 5 = true ∧ t.fl.foreign = false := by
  refine ⟨_, Eq.trans (b := execReleaseReport count w s) rfl (takeFrame_arrives h (by decide) (by decide) _), ?_⟩
  rw [settle_nego, settle_md, settle_fl]
  extract_lets _ noted _ home
  have here : home = { noted with fl.foreign := false } := if_pos threading
  have nego : home.nego = noted.nego := by rw [here]
  have foreign : home.fl.foreign = false := by rw [here]
  have completes : home.md.mode = .thread ∧ home.nego.waitRelease = true := by
    rw [here]
    exact ⟨threading, waits⟩
  rw [if_pos completes]
  refine ⟨rfl, rfl, ?_, foreign⟩
  show bitOf home.nego.parts 5 = true
  rw [nego]
  exact bitOf_setBit_same s.nego.parts 5

theorem negotiationFrame_cfg {d : BitVec 256} (h : Arrives 7 w (negoData (.cfg d)) s) (threading : s.md.mode = .thread)
    (before : s.md.thStat ≠ 10) : ∃ t, exec (.negotiationFrame (.cfg d) w) s = .next t ∧ t.nego.cfg = d.toNat ∧
      bitOf t.nego.parts 1 = true ∧ t.md = s.md := by
  refine ⟨_, Eq.trans (b := execNegotiationFrame (.cfg d) w s) rfl (takeFrame_arrives h (by decide) (by decide) _), ?_⟩
  have heard : (feltHeard w s).md.mode = .thread := threading
  rw [settle_nego, settle_md, if_pos heard, negotiate, if_pos (.inr (.inl before))]
  exact ⟨rfl, bitOf_setBit_same s.nego.parts 1, rfl⟩

/-! ## Wakes (R72) -/

theorem wakeFrame_wakes {causes : Byte} (h : Arrives 6 w [causes] s) (dormant : s.md.mode = .dormant)
    (asleep : s.md.wakeStep = 0) : ∃ t, exec (.wakeFrame causes w) s = .next t ∧ t.md.wakeStep = 1 ∧
      t.md.mode = .dormant ∧
      ∀ k, k < 5 → bitOf t.md.wakeCause k = (bitOf s.md.wakeCause k || causes.getLsbD k) := by
  obtain ⟨c, merged, bits⟩ := takeCauses_merges causes.toNat (feltHeard w s)
  refine ⟨_, Eq.trans (b := execWakeFrame causes w s) rfl (takeFrame_arrives h (by decide) (by decide) _), ?_⟩
  have heard : (feltHeard w s).md.mode = .dormant := dormant
  rw [settle_md, if_pos heard]
  extract_lets taken
  have told : (if taken.md.prev = .standby then taken else signalWake taken).md = taken.md := by
    split
    · rfl
    · exact signalWake_md taken
  have woken : taken.md = { s.md with wakeCause := c } := congrArg State.md merged
  rw [startWake_idle (by rw [told, woken]; exact asleep), told, woken]
  refine ⟨rfl, dormant, fun k hk => ?_⟩
  rw [← bitOf_toNat]
  exact bits k hk

/-! ## The one-way delay (R191) -/

theorem probe_echoes {id : Word} (h : Arrives 8 w (leBytes 4 id.toNat) s) (sends : receiving s = false) :
    ∃ turn, exec (.probe id w) s = .next (settle (sendShort 0x09 (echoData id.toNat turn)
      { feltHeard w s with felt.turn := turn, free := s.free + 1 })) := by
  refine ⟨(drawNat (2 ^ 32) s).1, ?_⟩
  show execProbe id w s = _
  rw [execProbe, takeFrame_arrives h (by decide) (by decide)]
  have sends : ¬ receiving (feltHeard w s) = true := by rw [Bool.not_eq_true]; exact sends
  rw [if_neg sends]
  rfl

theorem echo_measures {id turn : Word} {roundE : BitVec 32} {n : Nat}
    (h : Arrives 9 w (echoData id.toNat turn.toNat) s) (threading : s.md.mode = .thread)
    (asked : s.felt.probeId = id.toNat) (trip : (roundE.toNat : Int) - turn.toNat = 4 * (n : Int)) :
    exec (.echo id turn roundE w) s = .next (settle { feltHeard w s with felt.delayNs := 5 * n }) := by
  show execEcho id turn roundE w s = _
  rw [execEcho, takeFrame_arrives h (by decide) (by decide)]
  rw [if_pos ⟨asked, .inr threading⟩, trip, divFree_whole (q := 5 * n) _ (by decide) (by push_cast; ring)]
  rfl

end

/-- Settles O46: each clause by the theorem of its command. -/
theorem feltFrames : Obligations.FeltFrames := by
  unfold Obligations.FeltFrames
  intro w s on
  refine ⟨feltLinkTrained_trains on, feltSyncLoss_trained on, feltSyncLoss_untrained on, fun mode flags consistent gapRun arrive =>
    ⟨heartbeat_told, heartbeat_measures, heartbeat_bad on⟩, heartbeatMissed_counts on, heartbeatMissed_third on,
    fun couch c => acknowledge_moves, exec_fullRequest, fullRequest_bad on,
    fun count => releaseReport_completes, fun id digest => exec_editReport, fun causes => wakeFrame_wakes,
    fun d => negotiationFrame_cfg, fun id => probe_echoes, fun id turn roundE n arrives threading asked trip =>
      echo_measures arrives threading asked trip⟩

end Sys2Proof.Machine
end

section
/-! SUPPORT. What a returned sweep leaves at the controller (R246, R249): which operations leave the field link alone, and
what each block's part of the sweep writes. -/

namespace Sys2Proof.Machine

/-! ## The field link left alone -/

theorem foldl_keeps {β γ : Type} (g : State → γ) {f : State → β → State} (h : ∀ s x, g (f s x) = g s) (l : List β)
    (s : State) : g (l.foldl f s) = g s := by
  induction l generalizing s with
  | nil => rfl
  | cons x l ih => exact (ih _).trans (h s x)

/-- A step taken under a condition keeps what it keeps when taken. -/
theorem ite_keeps {γ : Type} (g : State → γ) {c : Prop} [Decidable c] {s t : State} (h : g t = g s) :
    g (if c then t else s) = g s := by
  split
  · exact h
  · rfl

@[simp] theorem addTrigger_fl (task : Nat) (a : Word) (l : BitVec 3) (s : State) : (addTrigger task a l s).fl = s.fl := by
  unfold addTrigger
  split
  · rfl
  · split
    · exact raise_fl _ _ _
    · rfl

@[simp] theorem dispatchEntry_fl (fb v : Nat) (s : State) : (dispatchEntry fb v s).fl = s.fl := by
  unfold dispatchEntry
  split
  · exact foldl_keeps State.fl (fun s _ => ite_keeps State.fl (addTrigger_fl _ _ _ s)) _ s
  · rfl

@[simp] theorem startTask_fl (g : Trigger) (s : State) : (startTask g s).fl = s.fl := by
  by_cases empty : (taskRange (running s) g.task).2 = 0
  · rw [startTask_empty empty]
  · obtain ⟨_, _, _, starts⟩ := startTask_starts empty
    rw [starts]

@[simp] theorem dispatchTop_fl (s : State) : (dispatchTop s).fl = s.fl := by
  unfold dispatchTop
  split
  · rfl
  · split
    · exact ite_keeps State.fl (startTask_fl _ s)
    · rfl

@[simp] theorem resetEng_fl (e : Nat) (s : State) : (resetEng e s).fl = s.fl := by
  unfold resetEng
  extract_lets idle forgot
  have kept : forgot.fl = s.fl := by
    simp only [forgot]
    split <;> rfl
  split <;> exact kept

@[simp] theorem syncEngs_fl (s : State) : (syncEngs s).fl = s.fl := by
  refine foldl_keeps State.fl (fun s r => ?_) _ s
  unfold syncEng
  extract_lets up
  split
  · rfl
  · exact resetEng_fl _ s

theorem klpSend_fl (lane typ form seq : Nat) (data : List Byte) (s : State) :
    (klpSend lane typ form seq data s).fl = s.fl := by
  obtain ⟨_, _, sent, _⟩ := Frame.klpSend_sr lane typ form seq data s
  rw [sent]

@[simp] theorem sendSyncs_fl (cause : Nat) (s : State) : (sendSyncs cause s).fl = s.fl := by
  unfold sendSyncs
  extract_lets sessions sent
  refine (raise_fl _ _ _).trans (foldl_keeps State.fl (fun s i => ?_) _ s)
  rw [klpSend_fl]
  rfl

@[simp] theorem announce_fl (s : State) : (announce s).fl = s.fl := by
  unfold announce
  split <;> rfl

@[simp] theorem lpownNow_fl (s : State) : (lpownNow s).fl = s.fl := by
  unfold lpownNow
  extract_lets all may _ raised
  have kept : raised.fl = s.fl := syncEngs_fl _
  split
  · split
    · exact (sendSyncs_fl _ raised).trans kept
    · exact kept
  · split
    · rfl
    · exact ite_keeps State.fl (syncEngs_fl _)

@[simp] theorem lpownReturn_fl (s : State) : (lpownReturn s).fl = s.fl := by
  unfold lpownReturn
  extract_lets now
  split
  · exact (announce_fl now).trans (lpownNow_fl s)
  · exact lpownNow_fl s

/-- `t` is `s` but for the mode block and the felt link. -/
def OnlyWoken (s t : State) : Prop := ∃ md felt, t = { s with md := md, felt := felt }

namespace OnlyWoken

theorem refl (s : State) : OnlyWoken s s := ⟨s.md, s.felt, rfl⟩

theorem trans {s t u : State} (h : OnlyWoken s t) (g : OnlyWoken t u) : OnlyWoken s u := by
  obtain ⟨_, _, rfl⟩ := h
  obtain ⟨_, _, rfl⟩ := g
  exact ⟨_, _, rfl⟩

end OnlyWoken

theorem setCause_woken (k : Nat) (s : State) : OnlyWoken s (setCause k s) := by
  rw [setCause_eq]
  exact ⟨_, s.felt, rfl⟩

theorem signalWake_woken (s : State) : OnlyWoken s (signalWake s) := by
  unfold signalWake
  split
  · exact ⟨s.md, _, rfl⟩
  · exact .refl s

theorem startWake_woken (s : State) : OnlyWoken s (startWake s) := by
  unfold startWake
  split
  · exact ⟨_, s.felt, rfl⟩
  · exact .refl s

theorem wake_woken (k : Nat) (s : State) : OnlyWoken s (wake k s) := by
  unfold wake
  split
  · exact .refl s
  · split
    · refine (setCause_woken k s).trans ?_
      unfold beginWake
      extract_lets told
      split
      · exact signalWake_woken _
      · exact (signalWake_woken _).trans (startWake_woken told)
    · split
      · exact .trans ⟨_, s.felt, rfl⟩ (setCause_woken k _)
      · split
        · exact (setCause_woken k s).trans (signalWake_woken _)
        · exact .refl s

theorem wakeEdges_woken (w : Sweep) (s : State) : OnlyWoken s (wakeEdges w s) := by
  unfold wakeEdges
  split
  · exact .refl s
  · extract_lets hit
    split
    · exact wake_woken 3 s
    · exact .refl s

/-! ## The chain -/

/-- `t` has the chain of `s`, its blocks, and the same sweep under way. -/
structure ChainKept (s t : State) : Prop where
  boot : t.boot = s.boot
  img : t.img = s.img
  n : t.fl.n = s.fl.n
  sweep : t.fl.sweep = s.fl.sweep
  lostRun : t.fl.lostRun = s.fl.lostRun
  blocks : t.fl.blocks = s.fl.blocks

namespace ChainKept

variable {s t u : State}

theorem refl (s : State) : ChainKept s s := ⟨rfl, rfl, rfl, rfl, rfl, rfl⟩

theorem trans (h : ChainKept s t) (g : ChainKept t u) : ChainKept s u :=
  ⟨g.boot.trans h.boot, g.img.trans h.img, g.n.trans h.n, g.sweep.trans h.sweep, g.lostRun.trans h.lostRun,
    g.blocks.trans h.blocks⟩

theorem of_raised (h : OnlyRaised s t) : ChainKept s t := by
  obtain ⟨_, _, _, rfl⟩ := h
  exact ⟨rfl, rfl, rfl, rfl, rfl, rfl⟩

theorem of_woken (h : OnlyWoken s t) : ChainKept s t := by
  obtain ⟨_, _, rfl⟩ := h
  exact ⟨rfl, rfl, rfl, rfl, rfl, rfl⟩

theorem posOf (h : ChainKept s t) (fb : Nat) : posOf t fb = posOf s fb := by
  unfold Machine.posOf isHome cf cfgRec
  rw [h.boot, h.img, h.n]

end ChainKept

theorem countRefusals_chain (w : Sweep) (s : State) : ChainKept s (countRefusals w s) := by
  unfold countRefusals
  split
  · exact ⟨rfl, rfl, rfl, rfl, rfl, rfl⟩
  · extract_lets next _ counted
    have kept : ChainKept s counted := ⟨rfl, rfl, rfl, rfl, rfl, rfl⟩
    split
    · exact kept.trans (.trans (t := { counted with fl.relAll := true }) ⟨rfl, rfl, rfl, rfl, rfl, rfl⟩
        (.of_raised (raise_raised _ _ _)))
    · exact kept

/-! ## One block's part of a returned sweep -/

theorem OnlyRaised.refl (s : State) : OnlyRaised s s := ⟨s.evt, s.md, s.exe, rfl⟩

theorem OnlyRaised.trans {s t u : State} (h : OnlyRaised s t) (g : OnlyRaised t u) : OnlyRaised s u := by
  obtain ⟨_, _, _, rfl⟩ := h
  obtain ⟨_, _, _, rfl⟩ := g
  exact ⟨_, _, _, rfl⟩

/-- An event raised under a condition. -/
theorem raiseIf_raised (c : Prop) [Decidable c] (code arg : Nat) (s : State) :
    OnlyRaised s (if c then raise code arg s else s) := by
  split
  · exact raise_raised _ _ s
  · exact .refl s

theorem slotEvents_raised (fb old new : Nat) (s : State) : OnlyRaised s (slotEvents fb old new s) :=
  (raiseIf_raised _ _ _ _).trans ((raiseIf_raised _ _ _ _).trans ((raiseIf_raised _ _ _ _).trans (raiseIf_raised _ _ _ _)))

/-- The frame shows the block at position `p`, owned, foreign or absent. -/
def Sweep.shows (w : Sweep) (p : Nat) : Bool := bitOf w.own p || bitOf w.foreign p || bitOf w.absent p

/-- The controller has taken block `fb`'s slot at position `p`. -/
def SlotTaken (w : Sweep) (p fb : Nat) (l : Fl) : Prop :=
  tget 0 l.slots fb = tget 0 w.ins p ∧ bitOf l.fresh fb = true ∧ bitOf l.owned fb = bitOf w.own p

theorem takeSlot_shown {w : Sweep} {s : State} {fb : Nat} (shown : w.shows (posOf s fb) = true) :
    ∃ u told own foreign, OnlyRaised s u ∧ takeSlot w s fb = { u with
      fl.slots := tset 0 u.fl.slots fb (tget 0 w.ins (posOf s fb)), fl.fresh := setBit u.fl.fresh fb,
      fl.known := setBit u.fl.known fb,
      fl.owned := if bitOf w.own (posOf s fb) then setBit u.fl.owned fb else clrBit u.fl.owned fb,
      fl.told := told, fl.seenOwn := own, fl.seenForeign := foreign } := by
  unfold takeSlot
  extract_lets p owned seen _ v evented report reported
  have seen : seen = true := shown
  rw [if_neg (by simp [seen])]
  exact ⟨reported, _, _, _, (slotEvents_raised _ _ _ _).trans (raiseIf_raised _ _ _ _), rfl⟩

theorem takeSlot_unshown {w : Sweep} {s : State} {fb : Nat} (unshown : w.shows (posOf s fb) = false) :
    takeSlot w s fb = { s with
      fl.owned := clrBit s.fl.owned fb, fl.told := clrBit s.fl.told fb, fl.seenOwn := clrBit s.fl.seenOwn fb,
      fl.seenForeign := clrBit s.fl.seenForeign fb } := by
  unfold takeSlot
  extract_lets p owned seen
  have unseen : seen = false := unshown
  exact if_pos (by simp [unseen])

theorem takeSlot_chain (w : Sweep) (s : State) (fb : Nat) : ChainKept s (takeSlot w s fb) := by
  cases h : w.shows (posOf s fb) with
  | true =>
    obtain ⟨u, _, _, _, raised, taken⟩ := takeSlot_shown h
    rw [taken]
    exact (ChainKept.of_raised raised).trans ⟨rfl, rfl, rfl, rfl, rfl, rfl⟩
  | false =>
    rw [takeSlot_unshown h]
    exact ⟨rfl, rfl, rfl, rfl, rfl, rfl⟩

theorem takeSlot_takes {w : Sweep} {s : State} {fb : Nat} (shown : w.shows (posOf s fb) = true) :
    SlotTaken w (posOf s fb) fb (takeSlot w s fb).fl := by
  obtain ⟨u, _, _, _, _, taken⟩ := takeSlot_shown shown
  rw [taken]
  refine ⟨tget_tset_same _ _ _ _, bitOf_setBit_same _ _, ?_⟩
  cases own : bitOf w.own (posOf s fb) <;> simp

/-- Another block's part leaves what was taken. -/
theorem takeSlot_keeps_taken {w : Sweep} {s : State} {fb f p : Nat} (other : f ≠ fb) (h : SlotTaken w p f s.fl) :
    SlotTaken w p f (takeSlot w s fb).fl := by
  obtain ⟨slot, fresh, owned⟩ := h
  cases shown : w.shows (posOf s fb) with
  | true =>
    obtain ⟨_, _, _, _, ⟨_, _, _, rfl⟩, taken⟩ := takeSlot_shown shown
    rw [taken]
    refine ⟨(tget_tset_ne _ _ _ other).trans slot, by simp [fresh], ?_⟩
    cases own : bitOf w.own (posOf s fb) <;> simp [owned, other]
  | false =>
    rw [takeSlot_unshown shown]
    exact ⟨slot, fresh, by simp [owned, other]⟩

/-- The parts of the first `n` blocks. -/
def takeSlots (w : Sweep) (n : Nat) (s : State) : State := (List.range n).foldl (takeSlot w) s

theorem takeSlots_succ (w : Sweep) (n : Nat) (s : State) : takeSlots w (n + 1) s = takeSlot w (takeSlots w n s) n := by
  simp [takeSlots, List.range_succ]

theorem takeSlots_chain (w : Sweep) (n : Nat) (s : State) : ChainKept s (takeSlots w n s) := by
  induction n with
  | zero => exact .refl s
  | succ n ih =>
    rw [takeSlots_succ]
    exact ih.trans (takeSlot_chain w _ n)

theorem takeSlots_takes {w : Sweep} {n fb : Nat} {s : State} (h : fb < n) (shown : w.shows (posOf s fb) = true) :
    SlotTaken w (posOf s fb) fb (takeSlots w n s).fl := by
  induction n with
  | zero => omega
  | succ n ih =>
    rw [takeSlots_succ]
    by_cases last : fb = n
    · subst last
      have same := (takeSlots_chain w fb s).posOf fb
      rw [← same] at shown ⊢
      exact takeSlot_takes shown
    · exact takeSlot_keeps_taken last (ih (by omega))

/-! ## A good returned sweep -/

/-- `b` has what the returned sweep left in `a`. -/
structure InputsKept (a b : Fl) : Prop where
  sweep : b.sweep = a.sweep
  lostRun : b.lostRun = a.lostRun
  blocks : b.blocks = a.blocks
  slots : b.slots = a.slots
  fresh : b.fresh = a.fresh
  owned : b.owned = a.owned

namespace InputsKept

theorem of_eq {a b : Fl} (h : b = a) : InputsKept a b := by
  subst h
  exact ⟨rfl, rfl, rfl, rfl, rfl, rfl⟩

theorem trans {a b c : Fl} (h : InputsKept a b) (g : InputsKept b c) : InputsKept a c :=
  ⟨g.sweep.trans h.sweep, g.lostRun.trans h.lostRun, g.blocks.trans h.blocks, g.slots.trans h.slots,
    g.fresh.trans h.fresh, g.owned.trans h.owned⟩

theorem taken {a b : Fl} {w : Sweep} {p fb : Nat} (h : InputsKept a b) (taken : SlotTaken w p fb a) :
    SlotTaken w p fb b := by
  unfold SlotTaken
  rw [h.slots, h.fresh, h.owned]
  exact taken

end InputsKept

/-- The controller after a good sweep: none under way, none lost in a row, and every block's part taken; what follows
(R85, R249, R257) leaves that. -/
theorem takeSweep_parts (w : Sweep) (rttNs : Nat) (s : State) : ∃ begun : State,
    ChainKept { s with fl.sweep := none, fl.lostRun := 0 } begun ∧
      InputsKept (takeSlots w begun.fl.n begun).fl (takeSweep w rttNs s).fl := by
  unfold takeSweep
  extract_lets _ all _ begun taken th _ counted strange off late _ noted foreign _ ended
  have chain : ChainKept { s with fl.sweep := none, fl.lostRun := 0 } begun :=
    .trans (t := { s with fl.sweep := none, fl.lostRun := 0, felt.witness := all }) ⟨rfl, rfl, rfl, rfl, rfl, rfl⟩
      ((ChainKept.of_woken (wakeEdges_woken w _)).trans (countRefusals_chain w _))
  have strangers : InputsKept taken.fl strange.fl := by
    simp only [strange]
    split
    · have counts : InputsKept taken.fl counted.fl := ⟨rfl, rfl, rfl, rfl, rfl, rfl⟩
      exact counts.trans (.of_eq (ite_keeps State.fl (raise_fl _ _ _)))
    · exact .of_eq rfl
  have lates : late.fl = strange.fl := ite_keeps State.fl (raise_fl _ _ _)
  have notes : InputsKept late.fl noted.fl := ⟨rfl, rfl, rfl, rfl, rfl, rfl⟩
  have foreigns : foreign.fl = noted.fl := ite_keeps State.fl (raise_fl _ _ _)
  have ends : InputsKept foreign.fl ended.fl := ⟨rfl, rfl, rfl, rfl, rfl, rfl⟩
  have kept : InputsKept taken.fl ended.fl :=
    strangers.trans (.trans (.of_eq lates) (notes.trans (.trans (.of_eq foreigns) ends)))
  exact ⟨begun, chain, kept.trans (.of_eq (ite_keeps State.fl (dispatchEntry_fl _ _ ended)))⟩

theorem takeSweep_takes (w : Sweep) (rttNs : Nat) (s : State) : (takeSweep w rttNs s).fl.sweep = none ∧
    (takeSweep w rttNs s).fl.lostRun = 0 ∧ (takeSweep w rttNs s).fl.blocks = s.fl.blocks ∧
    ∀ fb, fb < s.fl.n → w.shows (posOf s fb) = true → SlotTaken w (posOf s fb) fb (takeSweep w rttNs s).fl := by
  obtain ⟨begun, chain, kept⟩ := takeSweep_parts w rttNs s
  have slots := takeSlots_chain w begun.fl.n begun
  have parts := chain.trans slots
  refine ⟨kept.sweep.trans parts.sweep, kept.lostRun.trans parts.lostRun, kept.blocks.trans parts.blocks,
    fun fb h shown => kept.taken ?_⟩
  have same : posOf begun fb = posOf s fb := chain.posOf fb
  rw [← same] at shown ⊢
  exact takeSlots_takes (by rw [chain.n]; exact h) shown

end Sys2Proof.Machine
end

section
/-! The field-link controller (R40, R245, R249, R250, R251, R257): the statement O29. -/

namespace Sys2Proof.Machine

variable {s : State} {ft : Byte} {good : Bool}

/-! ## Carriers (R40, R249) -/

theorem carrierDeparture_leaves {k : Fin 38} (blocks : s.fl.n ≠ 0) (count : k.val < carrierCount s.clk.tickSel)
    (runs : carriersRun s = true) : exec (.carrierDeparture k) s = .next (settle { s with
      fl.carrier := some { k := k, places := [], passed := 0, bad := false }, fl.left := carrierFrame k s.fl.n }) :=
  congrArg ok (if_pos ⟨blocks, count, runs⟩)

theorem exec_carrierReturn {c : Carrier} (left : s.fl.carrier = some c) :
    exec (.carrierReturn ⟨ft, good⟩) s = .next (settle (
      if !knownFt ft.toNat then countFt s
      else if good && !c.bad && ft.toNat == 0xC0 + c.k then
        dispatchTop ((List.range s.fl.n).foldl (fun s p => dispatchEntry (fbAt s p) (tget 0 c.places p) s)
          { s with fl.carrier := none })
      else raise 0x1102 0 { s with fl.carrier := none, fl.carrierBad := satInc 255 s.fl.carrierBad })) := by
  show execCarrierReturn ⟨ft, good⟩ s = _
  rw [execCarrierReturn, left]
  rfl

theorem carrierReturn_unlisted {c : Carrier} (left : s.fl.carrier = some c) (unlisted : knownFt ft.toNat = false) :
    exec (.carrierReturn ⟨ft, good⟩) s = .next (settle { s with fl.unknownFt := satInc 15 s.fl.unknownFt }) := by
  rw [exec_carrierReturn left, if_pos (by simp [unlisted])]
  rfl

theorem carrierReturn_bad {c : Carrier} (left : s.fl.carrier = some c) (known : knownFt ft.toNat = true)
    (bad : good = false ∨ c.bad = true ∨ ft.toNat ≠ 0xC0 + c.k) : exec (.carrierReturn ⟨ft, good⟩) s =
      .next (settle (raise 0x1102 0 { s with fl.carrier := none, fl.carrierBad := satInc 255 s.fl.carrierBad })) := by
  rw [exec_carrierReturn left, if_neg (by simp [known]), if_neg]
  rcases bad with h | h | h <;> simp [h]

theorem carrierReturn_good {c : Carrier} (left : s.fl.carrier = some c) (known : knownFt ft.toNat = true)
    (whole : c.bad = false) (same : ft.toNat = 0xC0 + c.k) : exec (.carrierReturn ⟨ft, true⟩) s =
      .next (settle (dispatchTop ((List.range s.fl.n).foldl
        (fun s p => dispatchEntry (fbAt s p) (tget 0 c.places p) s) { s with fl.carrier := none }))) := by
  rw [exec_carrierReturn left, if_neg (by simp [known]), if_pos (by simp [whole, same])]

/-! ## Urgent frames (R250, R251) -/

theorem urgentFrameSend_leaves {e : Nat} {u : Urgent} {us : List Urgent} (urg : (absorbQimm s).fl.urg = u :: us)
    (active : s.md.mode = .active) (may : mayStart (absorbQimm s) e 384 = true) :
    exec (.urgentFrameSend e) s = .next (settle { absorbQimm s with
      fl.urg := us, fl.fly := (absorbQimm s).fl.fly ++ [u], fl.busyTill := e + 384,
      fl.left := urgentFrame (posOf (absorbQimm s) u.fb) u.mask u.val }) := by
  have runs : (absorbQimm s).md.mode = .active := by rw [(absorbQimm_only s).md, active]
  show execUrgentFrameSend e s = _
  rw [execUrgentFrameSend, if_neg (by simp [may, runs]), urg]
  rfl

theorem urgentFrameSend_waits {e : Nat} (late : mayStart (absorbQimm s) e 384 = false) :
    exec (.urgentFrameSend e) s = .next (settle (absorbQimm s)) := by
  show execUrgentFrameSend e s = _
  rw [execUrgentFrameSend, if_pos (by simp [late])]
  rfl

section
variable {u : Urgent} {us : List Urgent} (fly : s.fl.fly = u :: us)
include fly

theorem exec_urgentFrameReturn : exec (.urgentFrameReturn ⟨ft, good⟩) s = .next (settle (
    if !knownFt ft.toNat then countFt s
    else if good && u.applied && !u.bad && ft.toNat == urgentFt s u then { s with fl.fly := us }
    else raise 0x1103 0 { s with fl.fly := us, fl.urgentBad := satInc 255 s.fl.urgentBad })) := by
  show execUrgentFrameReturn ⟨ft, good⟩ s = _
  rw [execUrgentFrameReturn, fly]
  rfl

theorem urgentFrameReturn_unlisted (unlisted : knownFt ft.toNat = false) :
    exec (.urgentFrameReturn ⟨ft, good⟩) s = .next (settle { s with fl.unknownFt := satInc 15 s.fl.unknownFt }) := by
  rw [exec_urgentFrameReturn fly, if_pos (by simp [unlisted])]
  rfl

theorem urgentFrameReturn_marked (applied : u.applied = true) (whole : u.bad = false)
    (marked : ft.toNat = 0x60 + posOf s u.fb) (known : knownFt ft.toNat = true) :
    exec (.urgentFrameReturn ⟨ft, true⟩) s = .next (settle { s with fl.fly := us }) := by
  rw [exec_urgentFrameReturn fly, if_neg (by simp [known]), if_pos (by simp [applied, whole, marked, urgentFt])]

theorem urgentFrameReturn_bad (known : knownFt ft.toNat = true) (bad : u.applied = false ∨ u.bad = true ∨ good = false) :
    exec (.urgentFrameReturn ⟨ft, good⟩) s =
      .next (settle (raise 0x1103 0 { s with fl.fly := us, fl.urgentBad := satInc 255 s.fl.urgentBad })) := by
  rw [exec_urgentFrameReturn fly, if_neg (by simp [known]), if_neg]
  rcases bad with h | h | h <;> simp [h]

end

/-! ## Sweeps (R245, R246, R257) -/

section
variable {w : Sweep} {rttNs : BitVec 16} (sent : s.fl.sweep = some w)
include sent

theorem sweepReturn_unlisted (unlisted : knownFt ft.toNat = false) : exec (.sweepReturn ⟨ft, good⟩ rttNs) s =
    .next (settle { s with fl.unknownFt := satInc 15 s.fl.unknownFt }) := by
  show execSweepReturn ⟨ft, good⟩ rttNs s = _
  rw [execSweepReturn, sent]
  exact congrArg ok (if_pos (by simp [unlisted]))

variable (plain : w.measure = false)
include plain

theorem exec_sweepReturn (known : knownFt ft.toNat = true) : exec (.sweepReturn ⟨ft, good⟩ rttNs) s = .next (settle (
    if good && !w.bad && ft == 0x10 && decide (rttNs.toNat ≤ s.fl.rtt + 2000) then
      dispatchTop (lpownReturn (takeSweep w rttNs.toNat s))
    else sweepFails s)) := by
  show execSweepReturn ⟨ft, good⟩ rttNs s = _
  rw [execSweepReturn, sent]
  refine congrArg ok ((if_neg (by simp [known])).trans ?_)
  exact if_neg (by simp [plain])

theorem sweepReturn_takes (whole : w.bad = false) (inTime : rttNs.toNat ≤ s.fl.rtt + 2000) :
    ∃ t, exec (.sweepReturn ⟨0x10, true⟩ rttNs) s = .next t ∧ t.fl.sweep = none ∧ t.fl.lostRun = 0 ∧
      t.fl.blocks = s.fl.blocks ∧ ∀ fb, fb < s.fl.n →
        (bitOf w.own (posOf s fb) || bitOf w.foreign (posOf s fb) || bitOf w.absent (posOf s fb)) = true →
        tget 0 t.fl.slots fb = tget 0 w.ins (posOf s fb) ∧ bitOf t.fl.fresh fb = true ∧
        bitOf t.fl.owned fb = bitOf w.own (posOf s fb) := by
  refine ⟨_, exec_sweepReturn sent plain (by decide), ?_⟩
  rw [if_pos (by simp [whole, inTime]), settle_fl, dispatchTop_fl, lpownReturn_fl]
  exact takeSweep_takes w rttNs.toNat s

theorem sweepReturn_bad (known : knownFt ft.toNat = true)
    (bad : good = false ∨ w.bad = true ∨ ft ≠ 0x10 ∨ s.fl.rtt + 2000 < rttNs.toNat) :
    exec (.sweepReturn ⟨ft, good⟩ rttNs) s = .next (settle (sweepFails s)) := by
  rw [exec_sweepReturn sent plain known, if_neg]
  rcases bad with h | h | h | h
  · simp [h]
  · simp [h]
  · simpa using fun _ _ sync => absurd sync h
  · simp [Nat.not_le.mpr h]

theorem exec_sweepLost : exec .sweepLost s = .next (settle (sweepFails s)) := by
  show execSweepLost s = _
  rw [execSweepLost, sent]
  exact congrArg ok (if_neg (by simp [plain]))

end

/-- A sweep lost or bad, before its event: none is under way, and it is counted (R257). -/
def sweepCounted (s : State) : State :=
  { s with fl.sweep := none, fl.sweepBad := satInc 255 s.fl.sweepBad, fl.lostRun := min 15 (s.fl.lostRun + 1),
           felt.witness := false }

theorem sweepFails_eq (s : State) : sweepFails s = if s.fl.lostRun + 1 = lossLimit s then
    raiseAs 0x46 0x1101 (s.fl.lostRun + 1) 255 (sweepCounted s) else raise 0x1101 (s.fl.lostRun + 1) (sweepCounted s) := rfl

theorem sweepFails_fl (s : State) : (sweepFails s).fl = (sweepCounted s).fl := by
  rw [sweepFails_eq]
  split
  · obtain ⟨_, _, _, raised⟩ := raiseAs_raised 0x46 0x1101 (s.fl.lostRun + 1) 255 (sweepCounted s)
    rw [raised]
  · exact raise_fl _ _ _

/-- At loss_limit the loss is a fault of the next boundary. -/
theorem sweepFails_fault (going : s.md.mode ≠ .thread) (limit : s.fl.lostRun + 1 = lossLimit s) :
    (sweepFails s).md.pendF = s.md.pendF ++ [0x1101] := by
  rw [sweepFails_eq, if_pos limit, raiseAs]
  extract_lets noted
  have still : noted.mode ≠ .thread := going
  rw [if_pos rfl]
  exact congrArg (fun raised : State => raised.md.pendF) (if_neg still)

theorem sweepFails_calm (other : s.fl.lostRun + 1 ≠ lossLimit s) : (sweepFails s).md = s.md := by
  rw [sweepFails_eq, if_neg other, raise_calm _ _ _ (by decide)]
  rfl

theorem sweepFails_counts (going : s.md.mode ≠ .thread) (few : s.fl.lostRun < 15) :
    (sweepFails s).fl.sweep = none ∧ (sweepFails s).fl.lostRun = s.fl.lostRun + 1 ∧
      (sweepFails s).fl.sweepBad = satInc 255 s.fl.sweepBad ∧ (sweepFails s).fl.slots = s.fl.slots ∧
      (s.fl.lostRun + 1 = lossLimit s → (sweepFails s).md.pendF = s.md.pendF ++ [0x1101]) ∧
      (s.fl.lostRun + 1 ≠ lossLimit s → (sweepFails s).md = s.md) := by
  rw [sweepFails_fl]
  exact ⟨rfl, Nat.min_eq_right (by omega), rfl, rfl, sweepFails_fault going, sweepFails_calm⟩

/-- Settles O29: each clause by the theorem of its command. -/
theorem linkController : Obligations.LinkController := by
  unfold Obligations.LinkController
  intro ft s unlisted
  exact ⟨fun k => carrierDeparture_leaves, fun c good => carrierReturn_unlisted, fun c good => carrierReturn_bad,
    fun c => carrierReturn_good, fun e u us => urgentFrameSend_leaves, fun e => urgentFrameSend_waits,
    fun u us good => urgentFrameReturn_unlisted, fun u us => urgentFrameReturn_marked,
    fun u us good => urgentFrameReturn_bad, fun w rttNs good => sweepReturn_unlisted,
    fun w rttNs sent plain whole _ => sweepReturn_takes sent plain whole, fun w rttNs good => sweepReturn_bad,
    fun w => exec_sweepLost, sweepFails_counts⟩

end Sys2Proof.Machine
end

section
/-! SUPPORT. What a fault and the end of ACTIVE leave of the mode block and of the engine (R60, R61, R527); and the statements
O8 and O39. -/

namespace Sys2Proof.Machine

/-! ## Entry to HOLD/F (R60, R527) -/

/-- The mode block with the fault latch set: an earlier fault keeps its code. -/
def latchedMd (code : Nat) (m : Md) : Md := { m with fault := true, faultEvt := if m.fault then m.faultEvt else code }

/-- The mode block in HOLD/F. -/
def heldMd (code : Nat) (m : Md) : Md := latchedMd code { m with prev := m.mode, mode := .hold }

/-- The cycle engine stopped. -/
def stoppedExe (x : Exe) : Exe := (stopEngine { State.reset with exe := x }).exe

theorem latchedMd_eq (code : Nat) (m : Md) :
    latchedMd code m = if m.fault then m else { m with fault := true, faultEvt := code } := by
  obtain ⟨_, _, fault⟩ := m
  cases fault <;> rfl

theorem enterHoldF_md (code : Nat) (s : State) : (enterHoldF code s).md = heldMd code s.md := by
  have told : (if s.md.mode = .thread then note 0x0305 0x49 s.md.rstCause 255 0 (utcNow s) s else s).md = s.md :=
    ite_keeps State.md rfl
  rw [heldMd, latchedMd_eq, ← told]
  exact apply_ite State.md _ _ _

theorem enterHoldF_exe (code : Nat) (s : State) : (enterHoldF code s).exe = stoppedExe s.exe := by
  have told : (if s.md.mode = .thread then note 0x0305 0x49 s.md.rstCause 255 0 (utcNow s) s else s).exe = s.exe :=
    ite_keeps State.exe rfl
  rw [← told]
  exact (apply_ite State.exe _ _ _).trans (ite_self _)

theorem enterHoldF_felt (code : Nat) (s : State) : (enterHoldF code s).felt = s.felt := by
  obtain ⟨_, _, _, raised⟩ := enterHoldF_raised code s
  rw [raised]

/-- A class F event in THREAD enters HOLD/F at once. -/
theorem raise_thread {code : Nat} (arg : Nat) {s : State} (cls : classOf code = 0x46) (threading : s.md.mode = .thread) :
    raise code arg s = enterHoldF code (note code 0x46 arg 255 0 (utcNow s) s) := by
  simp only [raise, raiseL, raiseAs, cls]
  exact if_pos threading

/-- Settles O8: in THREAD by `raise_thread`, elsewhere by `raise_fault`, and by `raise_calm` for the other classes. -/
theorem faultEvents : Obligations.FaultEvents := by
  unfold Obligations.FaultEvents
  intro code arg s
  refine ⟨fun cls threading => ?_, fun cls going => ?_, fun calm => ?_⟩
  · rw [raise_thread arg cls threading, enterHoldF_md, enterHoldF_exe]
    exact ⟨rfl, rfl, fun first => by simp [heldMd, latchedMd, note, first], rfl⟩
  · rw [raise_fault code arg s cls going]
  · rw [raise_calm code arg s calm]

/-! ## The end of ACTIVE -/

theorem trialToStaged_only (s : State) : OnlyTrial s (trialToStaged s) := by
  unfold trialToStaged
  split
  · exact ⟨_, rfl⟩
  · exact .refl s

theorem trialToStaged_md (s : State) : (trialToStaged s).md = s.md := by
  obtain ⟨_, staged⟩ := trialToStaged_only s
  rw [staged]

theorem trialToStaged_felt (s : State) : (trialToStaged s).felt = s.felt := by
  obtain ⟨_, staged⟩ := trialToStaged_only s
  rw [staged]

theorem leaveActive_md (s : State) : (leaveActive s).md = { s.md with handOver := false } :=
  (modWd_md _ _ _).trans (trialToStaged_md _)

theorem leaveActive_lpown (s : State) : (leaveActive s).felt.lpown = false :=
  congrArg Felt.lpown ((modWd_felt _ _ _).trans (trialToStaged_felt _))

/-! ## The faults of a boundary (R61, R527) -/

theorem lowest_cons {c : Nat} {l : List Nat} (more : l ≠ []) : lowest (c :: l) = min c (lowest l) := by
  cases l with
  | nil => contradiction
  | cons d l => rfl

theorem lowest_mem {l : List Nat} (some : l ≠ []) : lowest l ∈ l := by
  induction l with
  | nil => contradiction
  | cons c l ih =>
    by_cases more : l = []
    · simp [more, lowest]
    · rw [lowest_cons more]
      rcases min_choice c (lowest l) with first | rest
      · simp [first]
      · simp [rest, ih more]

theorem lowest_le {l : List Nat} {c : Nat} (h : c ∈ l) : lowest l ≤ c := by
  induction l with
  | nil => cases h
  | cons d l ih =>
    by_cases more : l = []
    · subst more
      rw [List.mem_singleton] at h
      exact h.symm.le
    · rw [lowest_cons more]
      rcases List.mem_cons.mp h with first | rest
      · exact first ▸ min_le_left d (lowest l)
      · exact (min_le_right d (lowest l)).trans (ih rest)

/-- Outside DORMANT and HOLD/F the unit enters HOLD/F, having left ACTIVE if it was there. -/
theorem takeFaults_enters {s : State} (faults : s.md.pendF ≠ []) (awake : s.md.mode ≠ .dormant)
    (sound : ¬ (s.md.mode = .hold ∧ s.md.fault = true)) : ∃ u, takeFaults s = enterHoldF (lowest s.md.pendF) u ∧
      u.md.pendF = [] ∧ u.md.faultNow = true ∧ u.md.fault = s.md.fault ∧ u.md.faultEvt = s.md.faultEvt ∧
      (s.md.mode = .active → u.felt.lpown = false) := by
  have due : ¬ (s.md.pendF.isEmpty = true) := by simpa using faults
  unfold takeFaults
  rw [if_neg due]
  extract_lets c src taken latched left
  rw [if_neg awake, if_neg sound]
  refine ⟨_, rfl, ?_⟩
  show left.md.pendF = [] ∧ left.md.faultNow = true ∧ left.md.fault = s.md.fault ∧ left.md.faultEvt = s.md.faultEvt ∧
    (s.md.mode = .active → left.felt.lpown = false)
  by_cases active : s.md.mode = .active
  · rw [show left = leaveActive taken from if_pos active, leaveActive_md, leaveActive_lpown]
    exact ⟨rfl, rfl, rfl, rfl, fun _ => rfl⟩
  · rw [show left = taken from if_neg active]
    exact ⟨rfl, rfl, rfl, rfl, fun h => absurd h active⟩

/-- In DORMANT the latch is set and the unit stays there. -/
theorem takeFaults_dormant {s : State} (faults : s.md.pendF ≠ []) (dormant : s.md.mode = .dormant) :
    (takeFaults s).md = latchedMd (lowest s.md.pendF) { s.md with pendF := [], faultNow := true } := by
  have due : ¬ (s.md.pendF.isEmpty = true) := by simpa using faults
  unfold takeFaults
  rw [if_neg due]
  extract_lets c src taken
  rw [if_pos dormant, latchedMd_eq]
  exact apply_ite State.md _ _ _

/-- Settles O39. -/
theorem boundaryFaults : Obligations.BoundaryFaults := by
  unfold Obligations.BoundaryFaults
  intro s faults
  refine ⟨fun awake sound => ?_, fun dormant => ?_, lowest_mem faults, fun _ => lowest_le⟩
  · obtain ⟨u, enters, none, now, fault, evt, lpown⟩ := takeFaults_enters faults awake sound
    rw [enters, enterHoldF_md, enterHoldF_exe, enterHoldF_felt]
    exact ⟨rfl, rfl, none, by simp [heldMd, latchedMd, fault, evt], rfl, now, lpown⟩
  · rw [takeFaults_dormant faults dormant]
    exact ⟨dormant, rfl, rfl⟩

end Sys2Proof.Machine
end

section
/-! SUPPORT. An edit ring entry that waits alone in HOLD (R23 to R25): what it is when it is taken, and what its taking
leaves. -/

namespace Sys2Proof.Machine

/-! ## Answers of HMP touch nothing else -/

/-- `t` is `s` but for the HMP server. -/
def OnlyHmp (s t : State) : Prop := ∃ hmp, t = { s with hmp := hmp }

theorem OnlyHmp.refl (s : State) : OnlyHmp s s := ⟨s.hmp, rfl⟩

theorem OnlyHmp.trans {s t u : State} (h : OnlyHmp s t) (g : OnlyHmp t u) : OnlyHmp s u := by
  obtain ⟨_, rfl⟩ := h
  obtain ⟨_, rfl⟩ := g
  exact ⟨_, rfl⟩

theorem OnlyHmp.foldl {β : Type} {f : State → β → State} (h : ∀ s x, OnlyHmp s (f s x)) (l : List β) (s : State) :
    OnlyHmp s (l.foldl f s) := by
  induction l generalizing s with
  | nil => exact .refl s
  | cons x l ih => exact (h s x).trans (ih _)

theorem OnlyHmp.ite {s t u : State} {c : Prop} [Decidable c] (h : OnlyHmp s t) (g : OnlyHmp s u) :
    OnlyHmp s (if c then t else u) := by
  split
  · exact h
  · exact g

theorem OnlyHmp.ring {s t : State} (h : OnlyHmp s t) : t.ring = s.ring := by obtain ⟨_, rfl⟩ := h; rfl
theorem OnlyHmp.exe {s t : State} (h : OnlyHmp s t) : t.exe = s.exe := by obtain ⟨_, rfl⟩ := h; rfl
theorem OnlyHmp.trial {s t : State} (h : OnlyHmp s t) : t.trial = s.trial := by obtain ⟨_, rfl⟩ := h; rfl

theorem hmpAnswer_only (who req status : Nat) (result : List Byte) (s : State) :
    OnlyHmp s (hmpAnswer who req status result s) := ⟨_, rfl⟩

/-! ## What settling keeps of the configuration -/

section
variable {s t : State} (img : s.img = t.img)
include img

theorem cfgRec_congr (typ inst : Nat) : cfgRec s typ inst = cfgRec t typ inst := by rw [cfgRec, cfgRec, img]

theorem cf_congr (typ inst o n d : Nat) : cf s typ inst o n d = cf t typ inst o n d := by
  rw [cf, cf, cfgRec_congr img]

theorem paired_congr : paired s = paired t := by rw [paired, paired, cf_congr img]

theorem checkCtx_congr : checkCtx s = checkCtx t := by
  simp only [checkCtx, reamFamily, mappedQ, chainBlocks, outBase, cf_congr img]
  rfl

end

/-! ## An entry that waits alone -/

/-- The entry that a command of this kind leaves, where none waits before it. -/
def soleEntry (kind : Nat) (auth : Bool) (arg off : Nat) (s : State) : RingEntry :=
  { kind := kind, flags := b2n auth, arg := arg, stageOff := off, seq := s.ring.put % 65536 }

/-- The state that such a command leaves. -/
def soleWaits (kind : Nat) (auth : Bool) (arg off : Nat) (s : State) : State :=
  settle { s with ring.slots := tset {} s.ring.slots (s.ring.put % 64) (soleEntry kind auth arg off s),
                  ring.put := s.ring.put + 1 }

section
variable {kind arg off : Nat} {auth : Bool} {s : State}

theorem settle_enterRing (empty : s.ring.put = s.ring.take) :
    settle (enterRing kind auth arg off s) = soleWaits kind auth arg off s := by
  rw [enterRing_room (by omega)]
  rfl

@[simp] theorem soleWaits_md : (soleWaits kind auth arg off s).md = s.md := settle_md _
@[simp] theorem soleWaits_exe : (soleWaits kind auth arg off s).exe = s.exe := settle_exe _
@[simp] theorem soleWaits_trial : (soleWaits kind auth arg off s).trial = s.trial := settle_trial _
@[simp] theorem soleWaits_img : (soleWaits kind auth arg off s).img = s.img := settle_img _
@[simp] theorem soleWaits_felt : (soleWaits kind auth arg off s).felt = s.felt := settle_felt _
@[simp] theorem soleWaits_put : (soleWaits kind auth arg off s).ring.put = s.ring.put + 1 := by simp [soleWaits]
@[simp] theorem soleWaits_take : (soleWaits kind auth arg off s).ring.take = s.ring.take := by simp [soleWaits]
@[simp] theorem soleWaits_running : running (soleWaits kind auth arg off s) = running s := by simp [running]
@[simp] theorem soleWaits_shadow : shadow (soleWaits kind auth arg off s) = shadow s := by simp [shadow]
@[simp] theorem soleWaits_paired : paired (soleWaits kind auth arg off s) = paired s := paired_congr soleWaits_img
@[simp] theorem soleWaits_checkCtx : checkCtx (soleWaits kind auth arg off s) = checkCtx s := checkCtx_congr soleWaits_img

@[simp] theorem soleWaits_pairGuard : pairGuard (soleWaits kind auth arg off s) = pairGuard s := by
  simp [pairGuard, partnerReady]

theorem soleWaits_entry (empty : s.ring.put = s.ring.take) :
    ringEntry (soleWaits kind auth arg off s) s.ring.take = soleEntry kind auth arg off s := by
  simp [ringEntry, soleWaits, ← empty]

end

@[simp] theorem bitOf_b2n (b : Bool) : bitOf (b2n b) 0 = b := by cases b <;> rfl

/-- Where one entry waits, taking the ring's entries takes it. -/
theorem takeEntries_single {s : State} (one : s.ring.put = s.ring.take + 1) :
    takeEntries s = { takeEntry s s.ring.take with ring.take := (takeEntry s s.ring.take).ring.take + 1 } := by
  unfold takeEntries
  extract_lets n idx first order taken
  have count : n = 1 := by simp only [n]; omega
  have sole : idx = [s.ring.take] := by simp [idx, count]
  have alone : order = [s.ring.take] := by
    simp only [order, first, sole, List.find?_cons, List.find?_nil]
    split
    · next i h =>
      split at h
      · simp only [Option.some.injEq] at h
        simp [← h]
      · cases h
    · rfl
  have took : taken = takeEntry s s.ring.take := by simp only [taken, alone, List.foldl_cons, List.foldl_nil]
  show { taken with ring.take := taken.ring.take + n } = _
  rw [took, count]

theorem entryDone_only (i status : Nat) (s : State) : ∃ hmp, entryDone i status s =
    { s with ring.slots := tmod {} s.ring.slots (i % 64) fun e => { e with status := status }, hmp := hmp } := by
  obtain ⟨hmp, answered⟩ := OnlyHmp.foldl (f := fun s (p : Nat × Nat × Nat) => hmpAnswer p.1 p.2.1 0 [BitVec.ofNat 8 status] s)
    (fun s p => hmpAnswer_only p.1 p.2.1 0 [BitVec.ofNat 8 status] s) (s.hmp.posts.filter fun p => p.2.2 == i)
    { s with ring.slots := tmod {} s.ring.slots (i % 64) fun e => { e with status := status } }
  unfold entryDone
  extract_lets _ written done
  exact ⟨_, by rw [show done = _ from answered]⟩

/-- The sole entry of `s` has been taken: its status is `status`, and the state is otherwise that which its effect `w` left. -/
structure SoleTaken (status : Nat) (w s t : State) : Prop where
  status : (ringEntry t s.ring.take).status = status
  taken : t.ring.take = s.ring.take + 1 ∧ t.ring.put = s.ring.put + 1
  md : t.md = w.md
  exe : t.exe = w.exe
  trial : t.trial = w.trial

/-- The boundary that takes a sole entry writes back the status that its effect gives. -/
theorem soleTaken {kind arg off status : Nat} {auth : Bool} {s v : State} (swap : Bool)
    (empty : s.ring.put = s.ring.take)
    (applied : applyEntry (soleEntry kind auth arg off s) (soleWaits kind auth arg off s) = (status, swap, v))
    (ring : (if swap then commitSwap v else v).ring = (soleWaits kind auth arg off s).ring) :
    SoleTaken status (if swap then commitSwap v else v) s (takeEntries (soleWaits kind auth arg off s)) := by
  rw [takeEntries_single (by simp [empty]), soleWaits_take, takeEntry, soleWaits_entry empty, applied]
  obtain ⟨_, done⟩ := entryDone_only s.ring.take status (if swap then commitSwap v else v)
  dsimp only
  rw [done]
  exact ⟨by simp [ringEntry], by simp [ring], rfl, rfl, rfl⟩

end Sys2Proof.Machine
end

section
/-! Edit ring entries taken in HOLD (R59 to R63, R174, R181, R182): the statement O44. -/

namespace Sys2Proof.Machine

variable {s : State}

theorem raise_calm_md {code : Nat} (arg : Nat) (s : State) (calm : classOf code ≠ 0x46) : (raise code arg s).md = s.md := by
  rw [raise_calm code arg s calm]

theorem raise_calm_exe {code : Nat} (arg : Nat) (s : State) (calm : classOf code ≠ 0x46) : (raise code arg s).exe = s.exe := by
  rw [raise_calm code arg s calm]

/-! ## Mode requests (R59 to R63) -/

theorem modeRequest_clears (fault : s.md.fault = true) (sound : s.md.faultNow = false) : modeRequest true 0x202 s =
    (1, toMode .hold { s with md.fault := false, md.faultEvt := 0, clk.lateHold := false }) := by
  simp [modeRequest, bitOf, fault, sound]

/-- A request to leave HOLD/F that is not authorised, or that falls where a fault is taken, is refused (R61). -/
theorem modeRequest_keepsFault {auth : Bool} (h : s.md.faultNow = true ∨ (s.md.fault = true ∧ auth = false)) :
    modeRequest auth 0x202 s = refuseMode (requestRow 2 s) s := by
  rcases h with now | ⟨fault, unauthorised⟩
  · simp [modeRequest, now]
  · cases now : s.md.faultNow <;> simp [modeRequest, now, fault, unauthorised]

/-- HOLD without a fault or a release under way. -/
def FreeHold (s : State) : Prop :=
  s.md.mode = .hold ∧ s.md.faultNow = false ∧ s.md.fault = false ∧ s.felt.rel = none

theorem modeRequest_active (free : FreeHold s) : modeRequest false 3 s =
    if (running s).valid ∧ !(paired s && s.felt.partnerMode == some 3) then
      (1, { dropDormant s with md.stepDown := some .active, felt.wantStandby := false })
    else refuseMode 8 s := by
  obtain ⟨hold, now, fault, rel⟩ := free
  simp [modeRequest, hold, now, fault, rel, Mode.code]

theorem modeRequest_dormant (free : FreeHold s) : modeRequest false 5 s = (1, dormantRequest s) := by
  obtain ⟨hold, now, fault, rel⟩ := free
  simp [modeRequest, hold, now, fault, rel, Mode.code]

theorem dormantRequest_hold (hold : s.md.mode = .hold) : (dormantRequest s).ring = s.ring ∧
    (dormantRequest s).md.dormReq = true ∧ (dormantRequest s).md.laneReq = 0 ∧ (dormantRequest s).exe.rfl = true ∧
    (dormantRequest s).md.mode = .hold := by
  simp [dormantRequest, hold]

section
variable (hold : s.md.mode = .hold) (empty : s.ring.put = s.ring.take)
include hold empty

/-- A mode request waits in the ring, and the boundary that takes it writes back what `modeRequest` answers. -/
theorem modeRequest_taken {auth : Bool} {arg : Word} {n status : Nat} {v : State} (value : arg.toNat = n)
    (answer : modeRequest auth n (soleWaits 1 auth n 0 s) = (status, v)) (ring : v.ring = (soleWaits 1 auth n 0 s).ring) :
    ∃ u, exec (.modeRequest auth arg) s = .next u ∧ SoleTaken status v s (takeEntries u) := by
  subst value
  refine ⟨_, congrArg Host.Outcome.next (settle_enterRing empty), soleTaken false empty ?_ ring⟩
  simp [applyEntry, soleEntry, hold, answer]

/-- A mode request that is refused leaves the mode block as it was. -/
theorem modeRequest_taken_refused {auth : Bool} {arg : Word} {n row : Nat} (value : arg.toNat = n)
    (answer : modeRequest auth n (soleWaits 1 auth n 0 s) = refuseMode row (soleWaits 1 auth n 0 s)) :
    ∃ u, exec (.modeRequest auth arg) s = .next u ∧
      (ringEntry (takeEntries u) s.ring.take).status = 2 ∧
      ((takeEntries u).ring.take = s.ring.take + 1 ∧ (takeEntries u).ring.put = s.ring.put + 1) ∧
      (takeEntries u).md = s.md := by
  obtain ⟨u, runs, taken⟩ := modeRequest_taken hold empty value answer (raise_ring _ _ _)
  exact ⟨u, runs, taken.status, taken.taken, by rw [taken.md, raise_calm_md _ _ (by decide), soleWaits_md]⟩

theorem modeRequest_clears_taken (fault : s.md.fault = true) (sound : s.md.faultNow = false) :
    ∃ u, exec (.modeRequest true 0x202) s = .next u ∧
      (ringEntry (takeEntries u) s.ring.take).status = 1 ∧
      ((takeEntries u).ring.take = s.ring.take + 1 ∧ (takeEntries u).ring.put = s.ring.put + 1) ∧
      (takeEntries u).md = { s.md with fault := false, faultEvt := 0, prev := .hold } ∧ (takeEntries u).exe = s.exe := by
  obtain ⟨u, runs, taken⟩ := modeRequest_taken (auth := true) (arg := 0x202) (n := 0x202) hold empty rfl
    (modeRequest_clears (by simpa using fault) (by simpa using sound)) (by simp [toMode, note])
  refine ⟨u, runs, taken.status, taken.taken, ?_, ?_⟩
  · rw [taken.md]
    simp [toMode, note, hold]
  · rw [taken.exe]
    simp [toMode, note]

theorem modeRequest_active_taken (free : FreeHold s) (alone : paired s = false) (valid : (running s).valid = true) :
    ∃ u, exec (.modeRequest false 3) s = .next u ∧
      (ringEntry (takeEntries u) s.ring.take).status = 1 ∧
      ((takeEntries u).ring.take = s.ring.take + 1 ∧ (takeEntries u).ring.put = s.ring.put + 1) ∧
      (takeEntries u).md = { s.md with stepDown := some .active, dormReq := false, heldWake := false } := by
  have waits : FreeHold (soleWaits 1 false 3 0 s) := by simpa [FreeHold] using free
  obtain ⟨u, runs, taken⟩ := modeRequest_taken (auth := false) (arg := 3) (n := 3) hold empty rfl
    ((modeRequest_active waits).trans (if_pos (by simp [valid, alone]))) (by simp [dropDormant])
  refine ⟨u, runs, taken.status, taken.taken, ?_⟩
  rw [taken.md]
  simp [dropDormant]

theorem modeRequest_dormant_taken (free : FreeHold s) :
    ∃ u, exec (.modeRequest false 5) s = .next u ∧
      (ringEntry (takeEntries u) s.ring.take).status = 1 ∧
      ((takeEntries u).ring.take = s.ring.take + 1 ∧ (takeEntries u).ring.put = s.ring.put + 1) ∧
      (takeEntries u).md.dormReq = true ∧ (takeEntries u).md.laneReq = 0 ∧ (takeEntries u).exe.rfl = true ∧
      (takeEntries u).md.mode = .hold := by
  have waits : FreeHold (soleWaits 1 false 5 0 s) := by simpa [FreeHold] using free
  obtain ⟨ring, asked, lanes, flush, stays⟩ := dormantRequest_hold waits.1
  obtain ⟨u, runs, taken⟩ := modeRequest_taken (auth := false) (arg := 5) (n := 5) hold empty rfl (modeRequest_dormant waits) ring
  exact ⟨u, runs, taken.status, taken.taken, by rw [taken.md]; exact asked, by rw [taken.md]; exact lanes,
    by rw [taken.exe]; exact flush, by rw [taken.md]; exact stays⟩

end

/-! ## Edits (R174, R181, R182) -/

theorem setShadow_eq (p : Prog) (s : State) : ∃ p0 p1, setShadow p s = { s with exe.prog0 := p0, exe.prog1 := p1 } := by
  unfold setShadow
  split
  · exact ⟨s.exe.prog0, p, rfl⟩
  · exact ⟨p, s.exe.prog1, rfl⟩

/-- A staged edit whose layout and program pass their checks (R173, R174): in HOLD no online limit applies. -/
theorem editStaged_stages {id off : Nat} (hold : s.md.mode = .hold) (idle : s.trial.st = .idle)
    (layout : editLayoutOk (shadow s) id off = true)
    (checks : failedChecks (checkCtx s) (stagedProg (shadow s) off).1 (stagedProg (shadow s) off).2 = []) :
    ∃ q trial, editStaged id off s = (1, setShadow q { s with trial := trial }) ∧ trial.st = .staged ∧
      trial.editId = id ∧ trial.cycles = 0 := by
  rw [editStaged, if_neg (by simp [idle]), if_neg (by simp [layout])]
  simp only [checks, hold]
  exact ⟨_, _, rfl, rfl, rfl, rfl⟩

theorem editStaged_refused {id off : Nat} (idle : s.trial.st = .idle) (layout : editLayoutOk (shadow s) id off = false) :
    editStaged id off s = (2, raise 0x0804 1 s) := by
  rw [editStaged, if_neg (by simp [idle]), if_pos (by simp [layout])]
  rfl

theorem trialDiscard_discards {id : Nat} (staged : s.trial.st ≠ .idle) (named : s.trial.editId = id) :
    ∃ v, trialDiscard id s = (1, v) ∧ v.ring = s.ring ∧ v.trial = trialIdle s.trial ∧ v.exe = s.exe :=
  ⟨_, if_neg (by simp [staged, named]), raise_ring _ _ _, raise_trial _ _ _, raise_calm_exe _ _ (by decide)⟩

/-- A discard drops the copy held for its edit; nothing else is done for its entry. -/
theorem applyEntry_discard {e : RingEntry} (kind : e.kind = 5) (awake : s.md.mode ≠ .standby) : ∃ v,
    applyEntry e s = ((trialDiscard e.arg s).1, false, v) ∧ OnlyHmp (trialDiscard e.arg s).2 v := by
  simp only [applyEntry, kind, awake]
  exact ⟨_, rfl, .ite ⟨_, rfl⟩ (.refl _)⟩

theorem swapSlots_ring (s : State) : (swapSlots s).ring = s.ring := raise_ring _ _ _

theorem swapSlots_trial (s : State) : (swapSlots s).trial =
    { trialIdle s.trial with lastEdit := s.trial.editId, persist := some s.trial.editId } := raise_trial _ _ _

theorem swapSlots_exe (s : State) : (swapSlots s).exe =
    { s.exe with runSlot := 1 - s.exe.runSlot, couched := carryInst (running s) (shadow s) s.exe.couched,
                 ledger := [], nextFull := 2 } := raise_calm_exe _ _ (by decide)

/-- In HOLD a commit swaps the slots; no copy carries its mark (R182, R206). -/
theorem commitSwap_hold (hold : s.md.mode = .hold) : commitSwap s = swapSlots s := by
  have stays : (swapSlots s).md = s.md := raise_calm_md _ _ (by decide)
  rw [commitSwap]
  exact if_neg (by simp [stays, hold])

theorem swapIf_ring {swap : Bool} (hold : s.md.mode = .hold) : (if swap then commitSwap s else s).ring = s.ring :=
  ite_keeps State.ring (by rw [commitSwap_hold hold, swapSlots_ring])

theorem trialCommit_staged {id : Nat} {guard : Bool} (hold : s.md.mode = .hold) (staged : s.trial.st = .staged)
    (named : s.trial.editId = id) : trialCommit id true guard s = (1, true, s) := by
  simp [trialCommit, staged, hold, named]

theorem trialCommit_unauthorised {id : Nat} {guard : Bool} : trialCommit id false guard s = (2, false, s) := rfl

theorem acceptAnyway_accepts {id : Nat} (failed : s.trial.st = .failed) (compared : s.trial.k ≤ s.trial.compared)
    (named : s.trial.editId = id) : acceptAnyway id true true s = (1, true, s) := by
  simp [acceptAnyway, failed, compared, named]

theorem acceptAnyway_early {id : Nat} {guard : Bool} (early : s.trial.compared < s.trial.k) :
    acceptAnyway id true guard s = (2, false, s) := by
  simp [acceptAnyway, Nat.not_le.mpr early]

section
variable (hold : s.md.mode = .hold) (empty : s.ring.put = s.ring.take)
include hold empty

theorem editStaged_taken {id off : Word} {status : Nat} {v : State}
    (answer : editStaged id.toNat off.toNat (soleWaits 2 false id.toNat off.toNat s) = (status, v))
    (ring : v.ring = (soleWaits 2 false id.toNat off.toNat s).ring) (stays : v.md.mode = .hold) :
    ∃ u, exec (.editStaged false id off) s = .next u ∧ SoleTaken status v s (takeEntries u) := by
  refine ⟨_, congrArg Host.Outcome.next (settle_enterRing empty), soleTaken false empty ?_ ring⟩
  simp [applyEntry, soleEntry, hold, answer, stays]

theorem editStaged_taken_staged {id off : Word} (idle : s.trial.st = .idle)
    (layout : editLayoutOk (shadow s) id.toNat off.toNat = true)
    (checks : failedChecks (checkCtx s) (stagedProg (shadow s) off.toNat).1 (stagedProg (shadow s) off.toNat).2 = []) :
    ∃ u, exec (.editStaged false id off) s = .next u ∧
      (ringEntry (takeEntries u) s.ring.take).status = 1 ∧
      ((takeEntries u).ring.take = s.ring.take + 1 ∧ (takeEntries u).ring.put = s.ring.put + 1) ∧
      (takeEntries u).trial.st = .staged ∧ (takeEntries u).trial.editId = id.toNat ∧ (takeEntries u).trial.cycles = 0 ∧
      (takeEntries u).exe.runSlot = s.exe.runSlot ∧ (takeEntries u).exe.couched = s.exe.couched := by
  obtain ⟨q, trial, answer, st, name, cycles⟩ := editStaged_stages (s := soleWaits 2 false id.toNat off.toNat s)
    (id := id.toNat) (off := off.toNat) (by simpa using hold) (by simpa using idle) (by simpa using layout)
    (by simpa using checks)
  obtain ⟨_, _, shadowed⟩ := setShadow_eq q { soleWaits 2 false id.toNat off.toNat s with trial := trial }
  obtain ⟨u, runs, taken⟩ := editStaged_taken hold empty answer (by rw [shadowed]) (by rw [shadowed]; simpa using hold)
  refine ⟨u, runs, taken.status, taken.taken, ?_⟩
  rw [taken.trial, taken.exe, shadowed]
  exact ⟨st, name, cycles, by simp⟩

theorem editStaged_taken_refused {id off : Word} (idle : s.trial.st = .idle)
    (layout : editLayoutOk (shadow s) id.toNat off.toNat = false) :
    ∃ u, exec (.editStaged false id off) s = .next u ∧
      (ringEntry (takeEntries u) s.ring.take).status = 2 ∧
      ((takeEntries u).ring.take = s.ring.take + 1 ∧ (takeEntries u).ring.put = s.ring.put + 1) ∧
      (takeEntries u).trial = s.trial ∧ (takeEntries u).exe = s.exe := by
  obtain ⟨u, runs, taken⟩ := editStaged_taken hold empty
    (editStaged_refused (s := soleWaits 2 false id.toNat off.toNat s) (by simpa using idle) (by simpa using layout))
    (raise_ring _ _ _) (by rw [raise_calm_md _ _ (by decide)]; simpa using hold)
  exact ⟨u, runs, taken.status, taken.taken, by rw [taken.trial, raise_trial, soleWaits_trial],
    by rw [taken.exe, raise_calm_exe _ _ (by decide), soleWaits_exe]⟩

/-- A commit: the boundary that takes it swaps where its answer says so. -/
theorem trialCommit_taken {auth : Bool} {id : Word} {status : Nat} (swap : Bool)
    (answer : ∀ guard, trialCommit id.toNat auth guard (soleWaits 4 auth id.toNat 0 s) =
      (status, swap, soleWaits 4 auth id.toNat 0 s)) :
    ∃ u, exec (.trialCommit auth id) s = .next u ∧ SoleTaken status
      (if swap then commitSwap (soleWaits 4 auth id.toNat 0 s) else soleWaits 4 auth id.toNat 0 s) s (takeEntries u) := by
  refine ⟨_, congrArg Host.Outcome.next (settle_enterRing empty), soleTaken swap empty ?_ (swapIf_ring (by simpa using hold))⟩
  simp [applyEntry, soleEntry, hold, answer]

theorem acceptAnyway_taken {id : Word} {status : Nat} (swap : Bool)
    (answer : acceptAnyway id.toNat true (pairGuard s) (soleWaits 6 true id.toNat 0 s) =
      (status, swap, soleWaits 6 true id.toNat 0 s)) :
    ∃ u, exec (.acceptAnyway true id) s = .next u ∧ SoleTaken status
      (if swap then commitSwap (soleWaits 6 true id.toNat 0 s) else soleWaits 6 true id.toNat 0 s) s (takeEntries u) := by
  refine ⟨_, congrArg Host.Outcome.next (settle_enterRing empty), soleTaken swap empty ?_ (swapIf_ring (by simpa using hold))⟩
  simp [applyEntry, soleEntry, hold, answer]

theorem trialDiscard_taken {id : Word} (staged : s.trial.st ≠ .idle) (named : s.trial.editId = id.toNat) :
    ∃ u, exec (.trialDiscard false id) s = .next u ∧
      (ringEntry (takeEntries u) s.ring.take).status = 1 ∧
      ((takeEntries u).ring.take = s.ring.take + 1 ∧ (takeEntries u).ring.put = s.ring.put + 1) ∧
      (takeEntries u).trial.st = .idle ∧ (takeEntries u).exe = s.exe := by
  obtain ⟨w, discards, ring, trial, exe⟩ := trialDiscard_discards (s := soleWaits 5 false id.toNat 0 s) (id := id.toNat)
    (by simpa using staged) (by simpa using named)
  obtain ⟨v, applied, only⟩ := applyEntry_discard (s := soleWaits 5 false id.toNat 0 s)
    (e := soleEntry 5 false id.toNat 0 s) rfl (by simp [hold])
  rw [show (soleEntry 5 false id.toNat 0 s).arg = id.toNat from rfl, discards] at applied only
  have taken := soleTaken false empty applied (only.ring.trans ring)
  refine ⟨_, congrArg Host.Outcome.next (settle_enterRing empty), taken.status, taken.taken, ?_, ?_⟩
  · rw [taken.trial, if_neg (by decide), only.trial, trial]
    rfl
  · rw [taken.exe, if_neg (by decide), only.exe, exe, soleWaits_exe]

end

/-- What a swap leaves of the program slots and of the trial (R182). -/
theorem SoleTaken.swapped {status : Nat} {x t : State} (hold : s.md.mode = .hold)
    (taken : SoleTaken status (commitSwap x) s t)
    (exe : x.exe = s.exe) (trial : x.trial = s.trial) (stays : x.md = s.md) :
    t.exe.runSlot = 1 - s.exe.runSlot ∧ t.trial.st = .idle ∧ t.trial.lastEdit = s.trial.editId ∧
      t.trial.persist = some s.trial.editId ∧ t.exe.nextFull = 2 ∧ t.exe.ledger = [] := by
  rw [taken.exe, taken.trial, commitSwap_hold (by rw [stays, hold]), swapSlots_exe, swapSlots_trial, exe, trial]
  exact ⟨rfl, rfl, rfl, rfl, rfl, rfl⟩

/-- Settles O44: each request by the theorem of its answer. -/
theorem ringEntriesInHold : Obligations.RingEntriesInHold := by
  unfold Obligations.RingEntriesInHold
  intro id off s hold empty
  refine ⟨modeRequest_clears_taken hold empty, ?_, ?_, ?_, ?_, ?_, editStaged_taken_staged hold empty,
    editStaged_taken_refused hold empty, ?_, ?_, trialDiscard_taken hold empty, ?_, ?_⟩
  · intro fault
    exact modeRequest_taken_refused (n := 0x202) hold empty rfl (modeRequest_keepsFault (.inr ⟨by simpa using fault, rfl⟩))
  · intro now
    exact modeRequest_taken_refused (n := 0x202) hold empty rfl (modeRequest_keepsFault (.inl (by simpa using now)))
  · intro free alone valid
    exact modeRequest_active_taken hold empty ⟨hold, free⟩ alone valid
  · intro free noProgram
    have waits : FreeHold (soleWaits 1 false 3 0 s) := by simpa [FreeHold] using And.intro hold free
    exact modeRequest_taken_refused (n := 3) hold empty rfl
      ((modeRequest_active waits).trans (if_neg (by simp [noProgram])))
  · intro free
    exact modeRequest_dormant_taken hold empty ⟨hold, free⟩
  · intro staged named
    obtain ⟨u, runs, taken⟩ := trialCommit_taken (auth := true) hold empty true
      (fun _ => trialCommit_staged (by simpa using hold) (by simpa using staged) (by simpa using named))
    obtain ⟨slot, idle, last, persist, full, ledger⟩ := SoleTaken.swapped hold taken soleWaits_exe soleWaits_trial soleWaits_md
    exact ⟨u, runs, taken.status, taken.taken, slot, idle, last.trans named, persist.trans (congrArg some named), full, ledger⟩
  · obtain ⟨u, runs, taken⟩ := trialCommit_taken (auth := false) (id := id) hold empty false
      (fun guard => trialCommit_unauthorised)
    exact ⟨u, runs, taken.status, taken.taken, taken.trial.trans soleWaits_trial, taken.exe.trans soleWaits_exe⟩
  · intro failed named compared guard
    obtain ⟨u, runs, taken⟩ := acceptAnyway_taken (id := id) hold empty true
      (by rw [guard]; exact acceptAnyway_accepts (by simpa using failed) (by simpa using compared) (by simpa using named))
    obtain ⟨slot, idle, _⟩ := SoleTaken.swapped hold taken soleWaits_exe soleWaits_trial soleWaits_md
    exact ⟨u, runs, taken.status, taken.taken, slot, idle⟩
  · intro early
    obtain ⟨u, runs, taken⟩ := acceptAnyway_taken (id := id) hold empty false (acceptAnyway_early (by simpa using early))
    exact ⟨u, runs, taken.status, taken.taken, taken.trial.trans soleWaits_trial, taken.exe.trans soleWaits_exe⟩

end Sys2Proof.Machine
end

section
/-! SUPPORT. What threading keeps of the state that a reset leaves (R64, R65): RST_CAUSE, the tick, the boot count, the island,
the sluice's messages, the backup domain's time, the straps and the banks. -/

namespace Sys2Proof.Machine

/-- What neither a raised event nor a step of threading changes. -/
structure ResetView where
  rstCause : Nat
  wakeCause : Nat
  tick : Nat
  lpown : Bool
  bootCnt : Nat
  isl : Isl
  sec : Nat
  down : List SluMsg
  up : List SluMsg
  pending : List Instr
  unitId : Nat
  e0Strap : Nat
  banks : List Bool

def resetView (s : State) : ResetView where
  rstCause := s.md.rstCause
  wakeCause := s.md.wakeCause
  tick := s.clk.tick
  lpown := s.felt.lpown
  bootCnt := s.ret.bootCnt
  isl := s.isl
  sec := s.rtc.sec
  down := s.slu.down
  up := s.slu.up
  pending := s.pending
  unitId := s.boot.unitId
  e0Strap := s.boot.e0Strap
  banks := s.boot.banks

/-- No cycle runs, and no watchdog's expiry holds the unit. -/
def Stopped (s : State) : Prop := s.exe.inCycle = false ∧ s.wd.hold = false ∧ s.wd.pulse = false

/-- `t` keeps what a reset left of `s`. -/
structure ResetKept (s t : State) : Prop where
  view : resetView t = resetView s
  stopped : Stopped s → Stopped t

namespace ResetKept

variable {s t u : State}

theorem refl (s : State) : ResetKept s s := ⟨rfl, id⟩

theorem trans (h : ResetKept s t) (g : ResetKept t u) : ResetKept s u := ⟨g.view.trans h.view, g.stopped ∘ h.stopped⟩

theorem foldl {β : Type} {f : State → β → State} (h : ∀ s x, ResetKept s (f s x)) (l : List β) (s : State) :
    ResetKept s (l.foldl f s) := by
  induction l generalizing s with
  | nil => exact refl s
  | cons x l ih => exact (h s x).trans (ih _)

theorem ite {c : Prop} [Decidable c] (h : ResetKept s t) (g : ResetKept s u) : ResetKept s (if c then t else u) := by
  split
  · exact h
  · exact g

end ResetKept

/-! ## Events -/

theorem note_kept (code cls arg lane flags utc : Nat) (s : State) : ResetKept s (note code cls arg lane flags utc s) := ⟨rfl, id⟩

theorem enterHoldF_kept (code : Nat) (s : State) : ResetKept s (enterHoldF code s) := by
  have md := enterHoldF_md code s
  have exe := enterHoldF_exe code s
  obtain ⟨_, _, _, entered⟩ := enterHoldF_raised code s
  rw [entered] at md exe ⊢
  dsimp only at md exe
  subst md exe
  exact ⟨rfl, fun ⟨_, hold, pulse⟩ => ⟨rfl, hold, pulse⟩⟩

theorem raiseAs_kept (cls code arg lane : Nat) (s : State) : ResetKept s (raiseAs cls code arg lane s) := by
  unfold raiseAs
  extract_lets noted
  exact .trans (note_kept _ _ _ _ _ _ s) (.ite (.ite (enterHoldF_kept code noted) ⟨rfl, id⟩) (.refl noted))

theorem raise_kept (code arg : Nat) (s : State) : ResetKept s (raise code arg s) := raiseAs_kept _ _ _ _ _

theorem flushEvents_kept (s : State) : ResetKept s (flushEvents s) := by
  obtain ⟨_, _, _, _, _, _, _, _, delivered, _⟩ := Frame.flushEvents_dl s
  rw [delivered]
  exact ⟨rfl, id⟩

theorem flushEarly_kept (s : State) : ResetKept s (flushEarly s) := by
  refine .trans (t := { s with evt.early := [] }) ⟨rfl, id⟩ (.foldl (fun s e => ?_) _ _)
  obtain ⟨_, _, _, _, _, _, _, _, delivered, _⟩ := Frame.deliver_dl e s
  rw [delivered]
  exact ⟨rfl, id⟩

theorem settle_kept (s : State) : ResetKept s (settle s) := by
  obtain ⟨_, _, _, _, _, _, _, _, delivered, _⟩ := settle_delivered s
  rw [delivered]
  exact ⟨rfl, id⟩

/-! ## The boot ROM (R77 to R80, R95 to R105) -/

theorem addReport_kept (r : Report) (s : State) : ResetKept s (addReport r s) := ⟨rfl, id⟩

theorem fuseCommon_kept (cause : Nat) (temp : Int) (s : State) : ResetKept s (fuseCommon cause temp s) := by
  unfold fuseCommon
  extract_lets f ws un marginal unresolved
  have read : ResetKept s unresolved :=
    .trans (.foldl (fun s _ => raise_kept _ _ s) ws s) (.foldl (fun s i => raise_kept _ i s) un marginal)
  clear_value unresolved
  exact read.trans ⟨rfl, id⟩

theorem fuseBoot_kept (temp : Int) (s : State) : ResetKept s (fuseBoot temp s) := by
  unfold fuseBoot
  extract_lets f read
  have kept : ResetKept s read := fuseCommon_kept 0 temp s
  clear_value read
  exact kept.trans ⟨rfl, id⟩

theorem walkEvents_kept (w : Walk) (s : State) : ResetKept s (walkEvents w s) :=
  .trans (t := { s with boot.skipped := satAdd 65535 s.boot.skipped w.skipped }) ⟨rfl, id⟩
    (.foldl (fun s _ => raise_kept _ _ s) _ _)

theorem takeArea_kept (s : State) (r : Rec) : ResetKept s (takeArea s r) := ⟨rfl, id⟩

theorem readKeys_kept (s : State) : ResetKept s (readKeys s) := ⟨rfl, id⟩

theorem reachFlash_kept (o : Nat) (s : State) : ResetKept s (reachFlash o s) := ⟨rfl, id⟩

theorem takeDirectory_kept (dirOff dirLen : Nat) (w : Walk) (s : State) : ResetKept s (takeDirectory dirOff dirLen w s) := by
  unfold takeDirectory
  extract_lets areas img store img2 key k good
  have stored : ResetKept areas store := by
    simp only [store]
    split
    · exact ⟨rfl, id⟩
    · exact .refl areas
  have keyed : ResetKept store key := by
    simp only [key]
    split
    · exact ⟨rfl, id⟩
    · exact .refl store
  exact .trans (.foldl takeArea_kept _ s) (.trans stored (.trans keyed (.ite (readKeys_kept key) ⟨rfl, id⟩)))

/-- Step 4 keeps it, whatever the header and the directory are. -/
theorem readHeader_kept (s : State) : ResetKept s (readHeader s).2 := by
  unfold readHeader
  extract_lets boot sized boot2 reached mirror h told boot3 used off len least w walked
  have unreadable : ResetKept s sized := ⟨rfl, id⟩
  have first : ResetKept s reached := unreadable.trans ⟨rfl, id⟩
  clear_value reached sized
  have noted : ResetKept s told := first.trans (.ite (raise_kept _ _ reached) (.refl reached))
  clear_value told
  have journal : ResetKept s used := noted.trans ⟨rfl, id⟩
  clear_value used
  have read : ResetKept s walked := journal.trans (walkEvents_kept w used)
  split
  · exact unreadable
  · split
    · exact first
    · split
      · exact journal
      · split
        · exact read
        · exact read.trans (takeDirectory_kept off len w walked)

theorem tryCopy_kept (d : Nat × Nat) (area c : Nat) (s : State) : ResetKept s (tryCopy d area c s).2.2 := by
  unfold tryCopy
  generalize checkCopy s d.1 d.2 area c = checked
  obtain ⟨step, w⟩ := checked
  exact .trans ((reachFlash_kept _ s).trans (walkEvents_kept w _))
    (.ite (.foldl (fun s f => raise_kept _ _ s) _ _) (.refl _))

theorem copyFails_kept (area c step : Nat) (s : State) : ResetKept s (copyFails area c step s) :=
  (raise_kept _ _ s).trans (addReport_kept _ _)

theorem chooseCopy_kept (d : Nat × Nat) (area : Nat) (s : State) : ResetKept s (chooseCopy d area s).2.2 := by
  unfold chooseCopy
  extract_lets c
  have first := tryCopy_kept d area c s
  generalize tryCopy d area c s = tried at first ⊢
  obtain ⟨step, w, t⟩ := tried
  dsimp only at first ⊢
  split
  · exact first
  · exact first.trans ((copyFails_kept area c step t).trans (tryCopy_kept d area (1 - c) _))

theorem startFirmware_kept (s : State) : ResetKept s (startFirmware s) := by
  unfold startFirmware
  extract_lets flushed alarmed
  have raised : ResetKept s alarmed :=
    (flushEarly_kept s).trans ((flushEvents_kept _).trans (.foldl (fun s n => raise_kept _ n s) _ flushed))
  clear_value alarmed
  exact raised.trans ⟨rfl, fun ⟨idle, _⟩ => ⟨idle, rfl, rfl⟩⟩

theorem noFirmware_kept (s : State) : ResetKept s (noFirmware s) :=
  .trans (t := { s with boot.recovery := true }) ⟨rfl, id⟩ (raise_kept _ _ _)

theorem noHeader_kept (s : State) : ResetKept s (noHeader s) :=
  .trans (t := { s with boot.fwFall := true }) ⟨rfl, id⟩ ((copyFails_kept _ _ _ _).trans (noFirmware_kept _))

end Sys2Proof.Machine
end

section
/-! SUPPORT. Threading keeps what a reset left (R64, R65): the boot ROM, the firmware's steps, a reset as a whole. -/

namespace Sys2Proof.Machine

theorem bootRom_kept (temp : Int) (s : State) : ResetKept s (bootRom temp s) := by
  unfold bootRom
  extract_lets _ fused at3
  have atFuses : ResetKept s fused := .trans (t := { s with md.thStat := 3 }) ⟨rfl, id⟩ (fuseBoot_kept temp _)
  clear_value fused
  have header := (atFuses.trans (u := { fused with md.thStat := 4 }) ⟨rfl, id⟩).trans (readHeader_kept _)
  split
  next t read =>
    rw [read] at header
    exact header.trans (noHeader_kept t)
  next d t read =>
    rw [read] at header
    dsimp only at header
    extract_lets _ t5
    have firmware : ResetKept s (chooseCopy d 1 t5).2.2 := (header.trans (u := t5) ⟨rfl, id⟩).trans (chooseCopy_kept d 1 t5)
    clear_value t5
    split
    next fall u chosen =>
      rw [chosen] at firmware
      dsimp only at firmware
      exact (firmware.trans (u := { u with boot.fwFall := fall }) ⟨rfl, id⟩).trans (noFirmware_kept _)
    next c w fall u chosen =>
      rw [chosen] at firmware
      dsimp only at firmware
      extract_lets _ _ u2
      have config : ResetKept s (chooseCopy d 2 u2).2.2 := (firmware.trans (u := u2) ⟨rfl, id⟩).trans (chooseCopy_kept d 2 u2)
      clear_value u2
      split
      next fall v chosen =>
        rw [chosen] at config
        dsimp only at config
        exact ((config.trans (u := { v with boot.cfgFall := fall }) ⟨rfl, id⟩).trans (raise_kept _ _ _)).trans
          (startFirmware_kept _)
      next c w fall v chosen =>
        rw [chosen] at config
        dsimp only at config
        extract_lets _ _ v2
        have program : ResetKept s (chooseCopy d 3 v2).2.2 := (config.trans (u := v2) ⟨rfl, id⟩).trans (chooseCopy_kept d 3 v2)
        clear_value v2
        split
        next got fall x chosen =>
        rw [chosen] at program
        dsimp only at program
        extract_lets _ x2 _ x3 _
        have kept : ResetKept s x2 := program.trans ⟨rfl, id⟩
        clear_value x2
        have loaded : ResetKept s x3 := by
          dsimp only [x3]
          split
          next c w =>
            exact (kept.trans (.ite (.trans (t := { x2 with boot.progUnsigned := true }) ⟨rfl, id⟩ (raise_kept _ _ _))
              (.refl x2))).trans ⟨rfl, id⟩
          next => exact kept.trans (note_kept ..)
        clear_value x3
        exact (loaded.trans (u := { x3 with md.thStat := 6 }) ⟨rfl, id⟩).trans (startFirmware_kept _)

/-! ## The firmware's steps -/

theorem modWd_kept (c : Bool) (f : Wd → Wd) (s : State) : ResetKept s (modWd c f s) := .ite ⟨rfl, id⟩ ⟨rfl, id⟩

theorem modHSess_kept (who : Nat) (f : HSess → HSess) (s : State) : ResetKept s (modHSess who f s) := ⟨rfl, id⟩

theorem sendResp_kept (who : Nat) (r : HResp) (s : State) : ResetKept s (sendResp who r s) := by
  unfold sendResp
  extract_lets bulk counted
  have first : ResetKept s counted := modHSess_kept who _ s
  clear_value counted
  exact first.trans ⟨rfl, id⟩

theorem hmpAnswer_kept (who req status : Nat) (result : List Byte) (s : State) :
    ResetKept s (hmpAnswer who req status result s) := by
  unfold hmpAnswer
  extract_lets r
  exact (sendResp_kept who r s).trans (modHSess_kept who _ _)

theorem answerAccess_kept (who sess req status : Nat) (words : List Nat) (s : State) :
    ResetKept s (answerAccess who sess req status words s) := by
  unfold answerAccess
  extract_lets v _ answered
  have first : ResetKept s answered := ⟨rfl, id⟩
  clear_value answered
  exact first.trans (.ite ⟨rfl, id⟩ (.ite (hmpAnswer_kept ..) (.refl _)))

theorem wdServe_kept (c : Bool) (t : Nat) (s : State) : ResetKept s (wdServe c t s) :=
  (modWd_kept c _ s).trans (.foldl (fun s _ => answerAccess_kept _ _ _ 0 _ s) (wdOf c s).held _)

theorem wdEnable_kept (c : Bool) (t : Nat) (s : State) : ResetKept s (wdEnable c t s) :=
  .ite (.refl s) ((modWd_kept c _ s).trans (wdServe_kept c t _))

theorem wdRefuseKey_kept (c : Bool) (s : State) : ResetKept s (wdRefuseKey c s) :=
  .trans (t := wdErr 8 s) ⟨rfl, id⟩ (raise_kept _ _ _)

theorem wdLock_kept (c : Bool) (t : Nat) (s : State) : ResetKept s (wdLock c t s) := by
  unfold wdLock
  extract_lets w locked
  have first : ResetKept s locked := by
    refine .ite (.refl s) ?_
    split
    · exact .ite ((modWd_kept c _ s).trans (wdRefuseKey_kept c _)) (wdEnable_kept c t s)
    · exact wdEnable_kept c t s
  exact first.trans (modWd_kept c _ _)

theorem wdRecord_kept (t : Nat) (s : State) : ResetKept s (wdRecord t s) := by
  unfold wdRecord
  extract_lets lock wdS wdC lockedS
  have both : ResetKept s wdC := (modWd_kept false _ s).trans (modWd_kept true _ wdS)
  clear_value wdC
  have first : ResetKept s lockedS := both.trans (.ite (wdLock_kept false t wdC) (.refl wdC))
  exact first.trans (.ite (wdLock_kept true t lockedS) (.refl lockedS))

theorem validate_kept (s : State) : ResetKept s (validate s).2 := by
  unfold validate
  split
  · exact .refl s
  · have noted := ResetKept.foldl (f := fun s f => note f.1 0x46 f.2 255 0 (utcNow s) s)
      (fun s f => note_kept f.1 0x46 f.2 255 0 (utcNow s) s) (cfgFaults s) s
    exact noted.trans (enterHoldF_kept _ _)

theorem sw_kept (w : Sw) (s : State) : ResetKept s { s with sw := w } := ⟨rfl, id⟩

theorem switchReset_kept (s : State) : ResetKept s (switchReset s) :=
  (sw_kept {} s).trans (.foldl (fun s _ => sw_kept _ s) _ _)

theorem restoreRows_kept (s : State) : ResetKept s (restoreRows s) := by
  refine .trans (t := { s with ret.bad := 0 }) ⟨rfl, id⟩ (.foldl (fun s r => ?_) _ _)
  dsimp only
  split
  · exact ⟨rfl, id⟩
  · exact .trans (t := { s with ret.bad := s.ret.bad + 1 }) ⟨rfl, id⟩ (raise_kept _ _ _)

theorem vbakCheck_kept (low : Bool) (s : State) : ResetKept s (vbakCheck low s) :=
  .ite (.trans (t := { s with rtc.bkLow := true }) ⟨rfl, id⟩ (raise_kept _ _ _)) (.refl s)

theorem baselineKeys_kept (means : List Nat) (s : State) : ResetKept s (baselineKeys means s) := ⟨rfl, id⟩

theorem setBlock_kept (fb : Nat) (b : Block) (s : State) : ResetKept s (setBlock fb b s) := ⟨rfl, id⟩

theorem probeSetup_kept (round fb : Nat) (s : State) : ResetKept s (probeSetup round fb s) :=
  .trans (t := { s with fl.align := tset 0 s.fl.align fb (alignOf (posOf s fb) round) }) ⟨rfl, id⟩ (setBlock_kept _ _ _)

theorem enumerateChain_kept (t : Thr) (s : State) : ResetKept s (enumerateChain t s) := by
  unfold enumerateChain
  extract_lets l k fl found
  have first : ResetKept s found :=
    .trans (t := { s with fl.found := k }) ⟨rfl, id⟩ (.foldl (fun _ _ => setBlock_kept _ _ _) _ _)
  clear_value found
  refine first.trans (.ite (raise_kept _ _ _) (.ite (raise_kept _ _ _) (.ite (raise_kept _ _ _) (.ite (raise_kept _ _ _) ?_))))
  exact .trans (t := { found with fl.n := k }) ⟨rfl, id⟩ (.foldl (fun _ _ => probeSetup_kept _ _ _) _ _)

theorem firmwareSteps_kept (t : Thr) (s : State) : ResetKept s (firmwareSteps t s) := by
  unfold firmwareSteps
  have valid := validate_kept s
  split
  next good u checked =>
  rw [checked] at valid
  refine .ite valid ?_
  extract_lets _ _ swept _ at7 _ restored
  have first : ResetKept s swept :=
    ((valid.trans (u := { u with clk.nextSel := cf u 0x12 0 0 1 1, clk.lateLimit := lateLimit u, rtc.charger := chargerMode u })
      ⟨rfl, id⟩).trans (wdRecord_kept 0 _)).trans (switchReset_kept _)
  clear_value swept
  have tested : ResetKept s at7 := first.trans ⟨rfl, id⟩
  clear_value at7
  have rows := (tested.trans (u := holdSheet { at7 with md.thStat := 8 }) ⟨rfl, id⟩).trans (restoreRows_kept _)
  have measured : ResetKept s restored := (rows.trans (baselineKeys_kept _ _)).trans (vbakCheck_kept t.vbakLow _)
  clear_value restored
  exact .ite (tested.trans (raise_kept _ _ _))
    ((measured.trans (u := { restored with md.thStat := 9 }) ⟨rfl, id⟩).trans (enumerateChain_kept t _))

/-! ## A reset as a whole -/

theorem thread_kept (t : Thr) (s : State) : ResetKept s (thread t s) := by
  unfold thread
  extract_lets rom fw
  have booted : ResetKept s rom := bootRom_kept t.temp.toInt s
  clear_value rom
  have ran : ResetKept s fw := booted.trans (firmwareSteps_kept t rom)
  clear_value fw
  exact .ite booted (.ite (ran.trans ⟨rfl, id⟩) ran)

theorem noteThread_kept (old : Nat) (s : State) : ResetKept s (noteThread old s) := note_kept ..

/-- Threading after a reset keeps what the reset left. -/
theorem resetThread_kept (on : Bool) (cause : Nat) (t : Thr) (s : State) (runs : (s.md.testHold && !on) = false) :
    ResetKept (resetCore on cause s) (resetThread on cause t s) := by
  unfold resetThread
  rw [runs, if_neg Bool.false_ne_true]
  generalize resetCore on cause s = r
  exact (noteThread_kept _ r).trans (thread_kept t _)

end Sys2Proof.Machine
end

section
/-! The resets (R64, R65, R498, R505, R518): the statement O35. -/

namespace Sys2Proof.Machine

/-! ## What a reset leaves -/

theorem resetCore_stopped (on : Bool) (cause : Nat) (s : State) : Stopped (resetCore on cause s) := ⟨rfl, rfl, rfl⟩

/-- What a reset keeps, counts and starts again, in any state that keeps what it left. -/
theorem resetCore_keeps {on : Bool} {cause : Nat} {s t : State} (kept : ResetKept (resetCore on cause s) t) :
    t.md.rstCause = s.md.rstCause ||| cause ∧ t.clk.tick = 0 ∧ t.exe.inCycle = false ∧ t.felt.lpown = false ∧
      t.wd.hold = false ∧ t.wd.pulse = false ∧ t.ret.bootCnt = s.ret.bootCnt + 1 ∧ t.isl = s.isl ∧
      t.rtc.sec = s.rtc.sec ∧ t.slu.down = s.slu.down ∧ t.slu.up = s.slu.up ∧ t.pending = s.pending := by
  obtain ⟨view, stopped⟩ := kept
  obtain ⟨idle, hold, pulse⟩ := stopped (resetCore_stopped on cause s)
  exact ⟨congrArg ResetView.rstCause view, congrArg ResetView.tick view, idle, congrArg ResetView.lpown view, hold, pulse,
    congrArg ResetView.bootCnt view, congrArg ResetView.isl view, congrArg ResetView.sec view, congrArg ResetView.down view,
    congrArg ResetView.up view, congrArg ResetView.pending view⟩

/-- What a reset leaves of the wake causes, the straps and the banks. -/
theorem resetCore_pins {on : Bool} {cause : Nat} {s t : State} (kept : ResetKept (resetCore on cause s) t) :
    t.md.wakeCause = (if on then 0 else s.md.wakeCause) ∧ t.boot.unitId = s.boot.unitId ∧
      t.boot.e0Strap = s.boot.e0Strap ∧ t.boot.banks = s.boot.banks :=
  have view := kept.view
  ⟨congrArg ResetView.wakeCause view, congrArg ResetView.unitId view, congrArg ResetView.e0Strap view,
    congrArg ResetView.banks view⟩

/-- The settled state of a reset that no TEST_EN holds. -/
theorem settled_reset_kept {on : Bool} (cause : Nat) (t : Thr) {s : State} (runs : (s.md.testHold && !on) = false) :
    ResetKept (resetCore on cause s) (settle (resetThread on cause t s)) :=
  (resetThread_kept on cause t s runs).trans (settle_kept _)

/-- TEST_EN high holds the core die in the reset that a power-on has begun. -/
theorem held_reset_kept (cause : Nat) (s : State) :
    ResetKept (resetCore true cause s) (settle { resetCore true cause s with md.testHold := true }) :=
  .trans (t := { resetCore true cause s with md.testHold := true }) ⟨rfl, id⟩ (settle_kept _)

/-! ## Power-good (R505) -/

theorem nth_eq_getD {α : Type} (d : α) (l : List α) (i : Nat) : nth d l i = l.getD i d := by
  induction l generalizing i with
  | nil => rfl
  | cons a l ih =>
    cases i with
    | zero => rfl
    | succ i => exact ih i

theorem nth_map_range {α : Type} (d : α) (f : Nat → α) {n i : Nat} (inside : i < n) : nth d ((List.range n).map f) i = f i := by
  simp [nth_eq_getD, inside]

/-- The unit as the pins and the banks are read at power-good. -/
def poweredUp (pins : Straps) (banks : List (BitVec 12)) (s : State) : State :=
  senseBanks (banks.map BitVec.toNat) { s with boot.unitId := b2n pins.unitId, boot.e0Strap := pins.e0.toNat }

theorem senseBanks_high (mv : List Nat) (s : State) {i : Nat} (bank : i < 5) (high : 3000 < nth 0 mv i) :
    nth false (senseBanks mv s).boot.banks i = true := by
  simp [senseBanks, nth_map_range _ _ bank, high]

theorem senseBanks_low (mv : List Nat) (s : State) {i : Nat} (bank : i < 5) (low : nth 0 mv i < 2000) :
    nth false (senseBanks mv s).boot.banks i = false := by
  simp [senseBanks, nth_map_range _ _ bank]
  omega

theorem exec_powerOnReset (pins : Straps) (banks : List (BitVec 12)) (t : Thr) {s : State} (off : s.md.mode = .backup) :
    exec (.powerOnReset pins banks t) s = .next (settle (if pins.testEn then
      { resetCore true 1 (poweredUp pins banks s) with md.testHold := true }
      else resetThread true 1 t (poweredUp pins banks s))) := by
  change execPowerOnReset pins banks t s = _
  rw [execPowerOnReset, if_pos (.inl off)]
  rfl

/-- A power-on reset leaves what `resetCore` does, whether TEST_EN then holds the core die or it threads. -/
theorem exec_powerOnReset_kept (pins : Straps) (banks : List (BitVec 12)) (thr : Thr) {s : State} (off : s.md.mode = .backup) :
    ∃ t, exec (.powerOnReset pins banks thr) s = .next t ∧ ResetKept (resetCore true 1 (poweredUp pins banks s)) t ∧
      (pins.testEn = true → t.md = { (resetCore true 1 (poweredUp pins banks s)).md with testHold := true }) := by
  rw [exec_powerOnReset pins banks thr off]
  cases pins.testEn with
  | true => exact ⟨_, rfl, held_reset_kept 1 _, fun _ => settle_md _⟩
  | false => exact ⟨_, rfl, settled_reset_kept (on := true) 1 thr (Bool.and_false _), nofun⟩

/-! ## RESET_N (R64, R518) and the end of an expiry's pulse (R449) -/

theorem resetThread_testHold (cause : Nat) (t : Thr) {s : State} (held : s.md.testHold = true) :
    resetThread false cause t s = s := by
  rw [resetThread, held]
  rfl

theorem exec_resetN_long {ns : Nat} (t : Thr) {s : State} (long : 1000 ≤ ns) (powered : s.md.mode ≠ .backup) :
    exec (.resetN ns t) s = .next (settle (resetThread false 2 t s)) := by
  change execResetN ns t s = _
  rw [execResetN, if_neg (by simp [powered]; omega), if_pos long]
  rfl

theorem exec_resetN_none {ns : Nat} (t : Thr) {s : State} (none : s.md.mode = .backup ∨ ns ≤ 500) :
    exec (.resetN ns t) s = .next (settle s) := by
  change execResetN ns t s = _
  rw [execResetN, if_pos none]
  rfl

theorem exec_wdxPulseEnd (t : Thr) (s : State) :
    exec (.wdxPulseEnd t) s = .next (settle (if s.wd.pulse then resetThread false 0 t s else s)) := rfl

/-- Settles O35: a reset threads, and neither threading nor the events delivered afterwards change what it keeps
(`resetThread_kept`, `settle_kept`). -/
theorem resets : Obligations.Resets := by
  unfold Obligations.Resets
  intro thr s kept
  refine ⟨fun unitId testEn e0 banks off => ?_, fun ns long powered runs => ?_, fun ns long held => ?_,
    fun ns short => exec_resetN_none thr (.inr short), fun pulse runs => ?_, fun pulse => ?_⟩
  · obtain ⟨t, done, reset, held⟩ := exec_powerOnReset_kept ⟨unitId, e0, testEn⟩ banks thr off
    obtain ⟨wake, unit, strap, same⟩ := resetCore_pins reset
    have keeps := resetCore_keeps reset
    refine ⟨t, done, keeps, wake, unit, strap, fun high => ?_, fun i bank => ?_⟩
    · have md := held high
      exact ⟨congrArg Md.mode md, congrArg Md.testHold md, by simp [ticking, md]⟩
    · rw [same]
      exact ⟨senseBanks_high _ _ bank, senseBanks_low _ _ bank⟩
  · have reset := settled_reset_kept (on := false) 2 thr (s := s) (by simp [runs])
    obtain ⟨wake, unit, -, -⟩ := resetCore_pins reset
    exact ⟨_, exec_resetN_long thr long powered, resetCore_keeps reset, wake, unit⟩
  · by_cases powered : s.md.mode = .backup
    · exact exec_resetN_none thr (.inl powered)
    · rw [exec_resetN_long thr long powered, resetThread_testHold 2 thr held]
  · rw [exec_wdxPulseEnd, if_pos pulse]
    exact ⟨_, rfl, resetCore_keeps (settled_reset_kept (on := false) 0 thr (s := s) (by simp [runs]))⟩
  · rw [exec_wdxPulseEnd, pulse]
    rfl

end Sys2Proof.Machine
end

section
/-! SUPPORT. Lane domains: LANE_PWR, the engines of a domain that comes on, its flush, and the entry to DORMANT (R66 to R72,
R300); and the statement O49. -/

namespace Sys2Proof.Machine

/-! ## Events of a lane -/

theorem raiseL_calm {code : Nat} (arg lane : Nat) (s : State) (calm : classOf code ≠ 0x46) :
    raiseL code arg lane s = { s with evt := (raiseL code arg lane s).evt } := by
  simp only [raiseL, raiseAs, if_neg calm]
  rfl

theorem settle_dom (s : State) (l : Nat) : (lane (settle s) l).dom = (lane s l).dom := by
  obtain ⟨_, _, _, _, _, _, _, _, delivered, lanes⟩ := settle_delivered s
  obtain ⟨_, same⟩ := lanes l
  rw [lane, lane, delivered]
  dsimp only
  rw [same]

/-! ## LANE_PWR (R66, R107, R488) -/

theorem bitOf_usedLanes (s : State) (l : Fin 8) : bitOf (usedLanes s) l = laneUsed s l := bitOf_maskOf _ l.isLt

theorem bitOf_maskWord (old mask v k : Nat) : bitOf (maskWord old mask v) k = if bitOf mask k then bitOf v k else bitOf old k := by
  simp only [maskWord, bitOf_eq_testBit, Nat.testBit_or, Nat.testBit_xor, Nat.testBit_and]
  cases mask.testBit k <;> simp

/-- A write of LANE_PWR notes the unused lanes that it asks for, and asks for the used ones. -/
theorem lanePwrWrite_only (v : Nat) {s : State} (powered : s.md.mode ≠ .backup) :
    ∃ ev, lanePwrWrite v s = { s with evt := ev, md.laneReq := v % 256 &&& usedLanes s } := by
  have noted : ∀ (l : List Nat) (s : State), ∃ ev, l.foldl (fun s n =>
      if bitOf v n && !laneUsed s n then raiseL 0x0506 n n s else s) s = { s with evt := ev } := by
    intro l
    induction l with
    | nil => exact fun s => ⟨s.evt, rfl⟩
    | cons n l ih =>
      intro s
      obtain ⟨ev, step⟩ : ∃ ev, (if bitOf v n && !laneUsed s n then raiseL 0x0506 n n s else s) = { s with evt := ev } := by
        split
        · exact ⟨_, raiseL_calm n n s (by decide)⟩
        · exact ⟨s.evt, rfl⟩
      obtain ⟨later, rest⟩ := ih { s with evt := ev }
      exact ⟨later, by rw [List.foldl_cons, step, rest]⟩
  obtain ⟨ev, told⟩ := noted (List.range 8) s
  refine ⟨ev, ?_⟩
  rw [lanePwrWrite, if_neg powered, told]
  rfl

/-- A staged write of LANE_PWR changes the lanes asked for, the staged writes and the events. -/
theorem lanePwrStage_only (mask v : Nat) {s : State} (powered : s.md.mode ≠ .backup) : ∃ ev bus, lanePwrStage mask v s =
    { s with evt := ev, bus := bus, md.laneReq := maskWord s.md.laneReq mask v % 256 &&& usedLanes s } := by
  obtain ⟨ev, written⟩ := lanePwrWrite_only (maskWord s.md.laneReq mask v) powered
  refine ⟨ev, (lanePwrStage mask v s).bus, ?_⟩
  rw [lanePwrStage, written]

theorem bitOf_laneReq (s : State) (x : Nat) (l : Fin 8) : bitOf (x % 256 &&& usedLanes s) l = (bitOf x l && laneUsed s l) := by
  have low := Nat.testBit_mod_two_pow x 8 l
  rw [← bitOf_usedLanes, bitOf_eq_testBit, Nat.testBit_and, show (256 : Nat) = 2 ^ 8 from rfl, low, bitOf_eq_testBit, bitOf_eq_testBit]
  simp

theorem exec_lanePwrWrite (v : Byte) (s : State) : exec (.lanePwrWrite v) s = .next (settle (lanePwrStage 0xFF v.toNat s)) := rfl

theorem exec_laneCtlWrite (n : Fin 8) (on : Bool) (s : State) :
    exec (.laneCtlWrite n on) s = .next (settle (lanePwrStage (2 ^ n.val) (b2n on * 2 ^ n.val) s)) := rfl

theorem bitOf_lanePwr (old : Nat) (v : Byte) (l : Fin 8) : bitOf (maskWord old 0xFF v.toNat) l = v.getLsbD l := by
  rw [bitOf_maskWord, bitOf_wholeMask l.isLt, if_pos rfl, bitOf_toNat]

theorem bitOf_two_pow (n k : Nat) : bitOf (2 ^ n) k = decide (k = n) := by
  rw [bitOf_eq_testBit, Nat.testBit_two_pow]
  simp [eq_comm]

theorem bitOf_laneCtl_same (old : Nat) (on : Bool) (n : Nat) : bitOf (maskWord old (2 ^ n) (b2n on * 2 ^ n)) n = on := by
  rw [bitOf_maskWord, bitOf_two_pow]
  cases on <;> simp [b2n, bitOf_eq_testBit]

theorem bitOf_laneCtl_ne (old v : Nat) {n l : Nat} (other : l ≠ n) : bitOf (maskWord old (2 ^ n) v) l = bitOf old l := by
  rw [bitOf_maskWord, bitOf_two_pow, decide_eq_false other]
  rfl

/-! ## A domain that comes on (R66, R260) -/

/-- What starting an engine from reset keeps. -/
def domainView (s : State) : Tbl Lane × Md × Exe := (s.lanes, s.md, s.exe)

theorem modEng_keeps (e : Nat) (f : Eng → Eng) (s : State) : domainView (modEng e f s) = domainView s := rfl

theorem resetEng_keeps (e : Nat) (s : State) : domainView (resetEng e s) = domainView s := by
  unfold resetEng
  extract_lets idle forgot
  have kept : domainView forgot = domainView s := by
    simp only [forgot]
    split <;> rfl
  split <;> exact kept

theorem syncEngs_keeps (s : State) : domainView (syncEngs s) = domainView s := by
  refine foldl_keeps domainView (fun s r => ?_) _ s
  unfold syncEng
  extract_lets up
  split
  · rfl
  · rw [modEng_keeps, resetEng_keeps]

theorem exec_laneDomainOn {n : Fin 8} {s : State} (powering : (lane s n).dom = .powering) (runs : ticking s = true) :
    ∃ t, exec (.laneDomainOn n) s = .next (settle t) ∧
      domainView t = domainView (modLane n.val (fun x => { x with dom := .on }) s) := by
  change ∃ t, execLaneDomainOn n s = _ ∧ _
  rw [execLaneDomainOn, if_pos ⟨powering, runs⟩]
  exact ⟨_, rfl, (syncEngs_keeps _).trans (foldl_keeps domainView (fun s e => resetEng_keeps e s) _ _)⟩

/-! ## The flush of a closing domain (R300) -/

/-- The flush is done, and CLOSE_DROP counts the packets removed. -/
theorem closeFlush_lane (n : Nat) (s : State) : lane (closeFlush n s) n =
    { lane (flushLane n s).2 n with
      flushed := true, closeDrop := satAdd (2 ^ 32 - 1) (lane (flushLane n s).2 n).closeDrop (flushLane n s).1 } := by
  unfold closeFlush
  generalize flushLane n s = emptied
  obtain ⟨c, t⟩ := emptied
  dsimp only
  have quiet : ∀ u : State, lane (if c = 0 then u else raiseL 0x1303 c n u) n = lane u n := by
    intro u
    split
    · rfl
    · rw [raiseL_calm c n u (by decide)]
      rfl
  rw [quiet, lane_modLane_same]

theorem exec_closeFlush (n : Fin 8) (s : State) : exec (.closeFlush n) s = atBoundary (fun s =>
    if (lane s n.val).dom = .closing ∧ !(lane s n.val).flushed ∧ (drainTicks s ≤ (lane s n.val).closeN ∨ !laneHolds s n.val) then
      closeFlush n.val s else s) s := rfl

/-- At a tick boundary a command acts, and the moment lasts. -/
theorem atBoundary_at (f : State → State) {s : State} (at' : s.evt.atBnd = true) :
    atBoundary f s = .next { settle (f s) with evt.atBnd := true } := if_pos at'

/-- Between two boundaries such a command has nothing to do. -/
theorem atBoundary_between (f : State → State) {s : State} (between : s.evt.atBnd = false) :
    atBoundary f s = .next (settle s) := if_neg (by simp [between])

/-- A closing domain that is empty or at its limit is flushed. -/
theorem exec_closeFlush_due {n : Fin 8} {s : State} (at' : s.evt.atBnd = true) (closing : (lane s n).dom = .closing)
    (waits : (lane s n).flushed = false) (due : drainTicks s ≤ (lane s n).closeN ∨ laneHolds s n = false) :
    exec (.closeFlush n) s = .next { settle (closeFlush n s) with evt.atBnd := true } := by
  rw [exec_closeFlush, atBoundary_at _ at', if_pos ⟨closing, by simp [waits], by simpa using due⟩]

/-- Any other domain is left as it is. -/
theorem exec_closeFlush_none {n : Fin 8} {s : State} (at' : s.evt.atBnd = true)
    (none : (lane s n).dom ≠ .closing ∨ (lane s n).flushed = true ∨ ((lane s n).closeN < drainTicks s ∧ laneHolds s n = true)) :
    exec (.closeFlush n) s = .next { settle s with evt.atBnd := true } := by
  rw [exec_closeFlush, atBoundary_at _ at', if_neg]
  rintro ⟨closing, waits, due⟩
  rcases none with other | done | ⟨early, holds⟩
  · exact other closing
  · simp [done] at waits
  · rcases due with late | empty
    · exact absurd late (Nat.not_le_of_lt early)
    · simp [holds] at empty

/-! ## DORMANT (R68, R69) -/

theorem exec_dormantEntry (s : State) :
    exec .dormantEntry s = atBoundary (fun s => if ticking s then dormantEntry s else s) s := rfl

/-- No entry: another mode, none asked for, a flush still to come, or a domain that is not off. -/
theorem dormantEntry_none {s : State}
    (none : s.md.mode ≠ .hold ∨ s.md.dormReq = false ∨ s.exe.rfl = true ∨ (∃ l, l < 8 ∧ (lane s l).dom ≠ .off)) :
    dormantEntry s = s := by
  refine if_pos ?_
  simpa [List.any_eq_true] using none

/-- The entry: a wake held meanwhile begins its sequence instead. -/
theorem dormantEntry_ready {s : State} (hold : s.md.mode = .hold) (asked : s.md.dormReq = true) (flushed : s.exe.rfl = false)
    (off : ∀ l, l < 8 → (lane s l).dom = .off) : dormantEntry s =
      if s.md.heldWake then startWake (signalWake { s with md.dormReq := false, md.heldWake := false }) else enterDormant s := by
  refine if_neg ?_
  simpa [List.any_eq_true, hold, asked, flushed] using off

theorem enterDormant_md {s : State} (hold : s.md.mode = .hold) : (enterDormant s).md =
    { s.md with mode := .dormant, prev := .hold, dormReq := false, dormMark := false, mSlow := true } := by
  have entered : ∀ u : State, u.md.mode = .hold → (wdDormant true (setMode .dormant u)).md =
      { u.md with mode := .dormant, prev := .hold } := by
    intro u holds
    rw [setMode, if_neg (by simp [holds]), ← holds]
    rfl
  exact entered _ hold

theorem setMode_exe (m : Mode) (s : State) : (setMode m s).exe = s.exe := by
  unfold setMode
  split <;> rfl

theorem wdDormant_exe (on : Bool) (s : State) : (wdDormant on s).exe = s.exe := rfl

theorem enterDormant_exe (s : State) : (enterDormant s).exe = s.exe := by
  rw [enterDormant, wdDormant_exe, setMode_exe]

/-! ## Wakes (R69 to R72) -/

theorem startWake_begins (s : State) : (startWake s).md.wakeStep ≠ 0 := by
  unfold startWake
  split
  · exact Nat.one_ne_zero
  · assumption

theorem startWake_felt (s : State) : (startWake s).felt = s.felt := ite_keeps State.felt rfl

theorem startWake_exe (s : State) : (startWake s).exe = s.exe := ite_keeps State.exe rfl

theorem startWake_md (s : State) :
    (startWake s).md = { s.md with wakeStep := if s.md.wakeStep = 0 then 1 else s.md.wakeStep } := by
  unfold startWake
  split <;> rfl

theorem signalWake_exe (s : State) : (signalWake s).exe = s.exe := ite_keeps State.exe rfl

theorem signalWake_out {s : State} (pair : paired s = true) : (signalWake s).felt.wakeOut = s.md.wakeCause := by
  rw [signalWake, if_pos pair]
  rfl

theorem exec_wake {s : State} (k : Fin 5) (runs : ticking s = true) : exec (.wake k) s = .next (settle (wake k.val s)) := by
  change execWake k s = _
  rw [execWake, if_pos runs]
  rfl

theorem wake_unlisted {k : Nat} {s : State} (source : k ≠ 4) (unlisted : bitOf (wakeSrc s) k = false) : wake k s = s :=
  if_pos ⟨source, by simp [unlisted]⟩

theorem wake_listed {k : Nat} {s : State} (listed : k = 4 ∨ bitOf (wakeSrc s) k = true) : wake k s =
    if s.md.mode = .dormant then beginWake (setCause k s)
    else if s.md.dormReq then setCause k { s with md.heldWake := true }
    else if s.md.mode = .standby ∧ s.md.dormMark then signalWake (setCause k s)
    else s := by
  refine if_neg ?_
  rintro ⟨source, unlisted⟩
  simp [listed.resolve_left source] at unlisted

/-- A unit that need not only pass a wake on tells its partner and begins its sequence. -/
theorem beginWake_begins {s : State} (own : paired s = false ∨ s.md.prev ≠ .standby ∨ s.felt.trained = false) :
    beginWake s = startWake (signalWake s) := by
  refine if_neg ?_
  have trained : (signalWake s).felt.trained = s.felt.trained := ite_keeps (fun s => s.felt.trained) rfl
  rw [signalWake_md, trained]
  have pair : paired (signalWake s) = paired s := ite_keeps paired rfl
  rw [pair]
  rcases own with h | h | h <;> simp [h]

/-- A wake in DORMANT adds its cause, tells a partner, and begins the sequence. -/
theorem wake_dormant {k : Nat} {s : State} (listed : k = 4 ∨ bitOf (wakeSrc s) k = true) (dormant : s.md.mode = .dormant)
    (own : paired s = false ∨ s.md.prev ≠ .standby ∨ s.felt.trained = false) (idle : s.md.wakeStep = 0) :
    (wake k s).md = { s.md with wakeCause := setBit s.md.wakeCause k, wakeStep := 1 } ∧
      (paired s = true → (wake k s).felt.wakeOut = setBit s.md.wakeCause k) := by
  have told : wake k s = startWake (signalWake { s with md.wakeCause := setBit s.md.wakeCause k }) := by
    rw [wake_listed listed, if_pos dormant, setCause_eq]
    exact beginWake_begins own
  rw [told, startWake_md, startWake_felt, signalWake_md]
  exact ⟨by rw [if_pos idle], fun pair => signalWake_out (s := { s with md.wakeCause := setBit s.md.wakeCause k }) pair⟩

/-- Between the request and the entry to DORMANT a wake is held. -/
theorem wake_held {k : Nat} {s : State} (listed : k = 4 ∨ bitOf (wakeSrc s) k = true) (awake : s.md.mode ≠ .dormant)
    (asked : s.md.dormReq = true) :
    (wake k s).md = { s.md with heldWake := true, wakeCause := setBit s.md.wakeCause k } := by
  rw [wake_listed listed, if_neg awake, if_pos asked, setCause_eq]

/-! ## The statement -/

/-- Settles O49, clause by clause from the rules above. -/
theorem laneDomains : Obligations.LaneDomains := by
  unfold Obligations.LaneDomains
  intro n s x
  refine ⟨fun v powered => ?_, fun on powered => ?_, fun powering runs => ?_, fun at' => ⟨fun closing waits due => ?_,
    fun none => ?_, fun runs hold asked flushed off => ⟨fun calm => ?_, fun held => ?_⟩, fun none => ?_⟩, fun between => ?_,
    fun e runs => congrArg (fun t => Host.Outcome.next (settle t)) (if_pos runs),
    fun e stands => congrArg (fun t => Host.Outcome.next (settle t)) (if_neg stands), fun u => ?_,
    fun k runs listed => ⟨fun dormant own idle => ?_, fun awake asked => ?_⟩, fun k source unlisted => ?_⟩
  · obtain ⟨ev, bus, written⟩ := lanePwrStage_only 0xFF v.toNat powered
    refine ⟨_, exec_lanePwrWrite v s, ?_⟩
    rw [settle_md, settle_exe, written]
    exact ⟨rfl, rfl, rfl, fun l => by rw [bitOf_laneReq, bitOf_lanePwr]⟩
  · obtain ⟨ev, bus, written⟩ := lanePwrStage_only (2 ^ n.val) (b2n on * 2 ^ n.val) powered
    refine ⟨_, exec_laneCtlWrite n on s, ?_⟩
    rw [settle_md, written]
    refine ⟨rfl, by rw [bitOf_laneReq, bitOf_laneCtl_same], fun l other => ?_⟩
    rw [bitOf_laneReq, bitOf_laneCtl_ne _ _ (Fin.val_ne_of_ne other)]
  · obtain ⟨t, done, same⟩ := exec_laneDomainOn powering runs
    have lanes : t.lanes = _ := congrArg Prod.fst same
    have md : t.md = s.md := congrArg (fun v => v.2.1) same
    have exe : t.exe = s.exe := congrArg (fun v => v.2.2) same
    have brought : ∀ l, lane t l = lane (modLane n.val (fun x => { x with dom := .on }) s) l := fun l => by
      rw [lane, lanes]
      rfl
    refine ⟨_, done, ?_, fun l other => ?_, by rw [settle_md, md], by rw [settle_exe, exe]⟩
    · rw [settle_dom, brought, lane_modLane_same]
    · rw [settle_dom, brought, lane_modLane_ne _ _ (Fin.val_ne_of_ne other)]
  · simp only [exec_closeFlush_due at' closing waits due, closeFlush_lane, and_self]
  · exact exec_closeFlush_none at' none
  · rw [exec_dormantEntry, atBoundary_at _ at', if_pos runs, dormantEntry_ready hold asked flushed off, calm]
    refine ⟨_, rfl, ?_⟩
    dsimp only
    rw [settle_md, settle_exe, settle_wd, if_neg Bool.false_ne_true, enterDormant_md hold, enterDormant_exe]
    exact ⟨rfl, rfl, rfl, rfl, rfl, rfl, rfl⟩
  · rw [exec_dormantEntry, atBoundary_at _ at', if_pos runs, dormantEntry_ready hold asked flushed off, held]
    refine ⟨_, rfl, ?_⟩
    dsimp only
    rw [settle_md, settle_exe, settle_felt, if_pos rfl, startWake_exe, startWake_felt, signalWake_exe]
    have md := startWake_md (signalWake { s with md.dormReq := false, md.heldWake := false })
    rw [signalWake_md] at md
    have begins := startWake_begins (signalWake { s with md.dormReq := false, md.heldWake := false })
    rw [md] at begins ⊢
    exact ⟨hold, rfl, rfl, begins, rfl, rfl, fun pair =>
      signalWake_out (s := { s with md.dormReq := false, md.heldWake := false }) pair⟩
  · rw [exec_dormantEntry, atBoundary_at _ at', dormantEntry_none none, ite_self]
  · rw [exec_closeFlush, exec_dormantEntry, atBoundary_between _ between, atBoundary_between _ between]
    exact ⟨rfl, rfl⟩
  · refine ⟨settle (modCv u.val (fun x => { x with p := none }) s), rfl, ?_, fun w other => ?_⟩
    · rw [cvUnit, settle_cv, ← cvUnit, cvUnit_modCv_same]
    · rw [cvUnit, settle_cv, ← cvUnit, cvUnit_modCv_ne _ _ other]
  · obtain ⟨md, told⟩ := wake_dormant listed dormant own idle
    refine ⟨_, exec_wake k runs, ?_⟩
    rw [settle_md, settle_felt, md]
    exact ⟨rfl, bitOf_setBit_same _ _, dormant, told⟩
  · refine ⟨_, exec_wake k runs, ?_⟩
    rw [settle_md, wake_held listed awake asked]
    exact ⟨rfl, bitOf_setBit_same _ _, rfl, rfl⟩
  · by_cases runs : ticking s = true
    · rw [exec_wake k runs, wake_unlisted source unlisted]
    · exact congrArg (fun t => Host.Outcome.next (settle t)) (if_neg runs)

end Sys2Proof.Machine
end

section
/-! SUPPORT. HMP requests that are taken (R398, R400, R402), their answers, and the slot writes that follow one another
(R110, R112, R408). -/

namespace Sys2Proof.Machine

/-! ## A request taken -/

section
variable {r : HReq} {opn : Nat} {args : List Byte} {x : HSess} {s : State}

/-- A request that passes every check executes its op, which answers to its session. -/
theorem hmpRequest_asks (asks : Asks r opn args x s) (plainOp inRecovery : Bool) (op : Nat → Nat → State → State) :
    hmpRequest r opn args plainOp inRecovery op s = op x.num (opn * 2 ^ 32 + r.reqId.toNat) (asked r x s) := by
  obtain ⟨serves, normal, udp, kind, good, tag, formed, opens, fresh, unkept⟩ := asks
  have isRequest : r.kindOk = true := by simp [HReq.kindOk, udp, kind]
  have notPlain : r.plain = false := by simp [HReq.plain, kind]
  have isNew : x.kept.find? (fun k => k.req == r.reqId.toNat) = none := by simpa [List.find?_eq_none] using unkept
  have counted : takeSeq false r.hd.counter.toNat s.clk.tick x = some { x with
      top := r.hd.counter.toNat, seen := (x.top :: x.seen).filter fun y => decide (r.hd.counter.toNat ≤ y + 64),
      idle := s.clk.tick } := by
    simp only [takeSeq, takeCounter, if_pos fresh]
    rfl
  unfold hmpRequest
  simp only [udp, serves, isRequest, notPlain, good, opens, tag, counted, isNew, formed]
  simp only [Bool.not_true, Bool.or_self, Bool.false_eq_true, if_false, false_and, Nat.add_zero]
  exact if_neg fun refused => Bool.false_ne_true (normal.symm.trans refused.1)

theorem asks_normal (asks : Asks r opn args x s) : s.boot.recovery = false := by
  obtain ⟨-, normal, -⟩ := asks
  exact normal

theorem asks_udp (asks : Asks r opn args x s) : r.bulk = false := by
  obtain ⟨-, -, udp, -⟩ := asks
  exact udp

theorem asks_num (asks : Asks r opn args x s) : x.num < 2 ^ 32 := by
  obtain ⟨-, -, -, -, -, -, -, opens, -, -⟩ := asks
  have num := List.find?_some opens
  rw [beq_iff_eq] at num
  rw [num]
  exact r.hd.session.isLt

end

/-! ## Answers -/

/-- The sessions after some were answered: one that `who` does not name is as it was, and none has changed its number or its
key record. -/
structure SessKept (who : Nat) (before after : List HSess) : Prop where
  others : ∀ y ∈ before, y.num ≠ who → y ∈ after
  same : ∀ y ∈ after, ∃ z ∈ before, z.num = y.num ∧ z.inst = y.inst

theorem SessKept.map {who : Nat} (l : List HSess) {f : HSess → HSess} (num : ∀ x, (f x).num = x.num)
    (inst : ∀ x, (f x).inst = x.inst) : SessKept (who % 2 ^ 32) l (l.map fun x => if x.num = who % 2 ^ 32 then f x else x) where
  others y hy other := List.mem_map.mpr ⟨y, hy, if_neg other⟩
  same y hy := by
    obtain ⟨z, hz, rfl⟩ := List.mem_map.mp hy
    refine ⟨z, hz, ?_⟩
    split
    · exact ⟨(num z).symm, (inst z).symm⟩
    · exact ⟨rfl, rfl⟩

theorem SessKept.trans {who : Nat} {l m n : List HSess} (h : SessKept who l m) (g : SessKept who m n) : SessKept who l n where
  others y hy other := g.others y (h.others y hy other) other
  same y hy := by
    obtain ⟨z, hz, num, inst⟩ := g.same y hy
    obtain ⟨w, hw, num', inst'⟩ := h.same z hz
    exact ⟨w, hw, num'.trans num, inst'.trans inst⟩

theorem sendResp_sess (who : Nat) (r : HResp) (s : State) : SessKept (who % 2 ^ 32) s.hmp.sess (sendResp who r s).hmp.sess :=
  SessKept.map _ (by intro; rfl) (by intro; rfl)

/-- An answer is the server's last, and is sent and kept in its session. -/
theorem hmpAnswer_eq (who req status : Nat) (result : List Byte) (s : State) : ∃ sess sent,
    hmpAnswer who req status result s = { s with
      hmp.sess := sess, hmp.sent := sent,
      hmp.answer := some { op := req / 2 ^ 32, req := req % 2 ^ 32, status := status, result := result } } ∧
    SessKept (who % 2 ^ 32) s.hmp.sess sess :=
  ⟨_, _, rfl, (sendResp_sess who _ s).trans (SessKept.map _ (by intro; rfl) (by intro; rfl))⟩

section
variable (who req status : Nat) (result : List Byte) (s : State)

@[simp] theorem hmpAnswer_boot : (hmpAnswer who req status result s).boot = s.boot := rfl
@[simp] theorem hmpAnswer_md : (hmpAnswer who req status result s).md = s.md := rfl
@[simp] theorem hmpAnswer_exe : (hmpAnswer who req status result s).exe = s.exe := rfl
@[simp] theorem hmpAnswer_trial : (hmpAnswer who req status result s).trial = s.trial := rfl
@[simp] theorem hmpAnswer_write : (hmpAnswer who req status result s).hmp.write = s.hmp.write := rfl
@[simp] theorem hmpAnswer_held : (hmpAnswer who req status result s).hmp.held = s.hmp.held := rfl
@[simp] theorem hmpAnswer_waits : (hmpAnswer who req status result s).hmp.waits = s.hmp.waits := rfl

theorem hmpAnswer_answer (opn : Nat) (id : Word) : (hmpAnswer who (opn * 2 ^ 32 + id.toNat) status result s).hmp.answer =
    some { op := opn, req := id.toNat, status := status, result := result } := by
  obtain ⟨_, _, answered, -⟩ := hmpAnswer_eq who (opn * 2 ^ 32 + id.toNat) status result s
  have op : (opn * 2 ^ 32 + id.toNat) / 2 ^ 32 = opn := by omega
  have req : (opn * 2 ^ 32 + id.toNat) % 2 ^ 32 = id.toNat := by omega
  rw [answered, op, req]

theorem hmpAnswer_sess : SessKept (who % 2 ^ 32) s.hmp.sess (hmpAnswer who req status result s).hmp.sess := by
  obtain ⟨_, _, answered, kept⟩ := hmpAnswer_eq who req status result s
  rw [answered]
  exact kept

end

/-! ## Slot writes one after another (R110, R112, R408) -/

section
variable {s : State}

theorem abandonWrite_none (idle : s.hmp.write = none) : abandonWrite s = s := by
  rw [abandonWrite, idle]

/-- An abandoned write ends, and only its event is left of it. -/
theorem abandonWrite_some {w : SlotWrite} (ongoing : s.hmp.write = some w) :
    ∃ ev, abandonWrite s = { s with evt := ev, hmp.write := none } := by
  rw [abandonWrite, ongoing]
  exact ⟨_, raise_calm 0x0507 w.area (endWrite s) (by decide)⟩

theorem waits_empty (empty : s.hmp.waits = []) : { s with hmp.waits := [] } = s := by
  rw [← empty]

/-- Where no write waits, none begins. -/
theorem nextWrite_none (empty : s.hmp.waits = []) : nextWrite s = s := by
  rw [nextWrite, empty, nextOf, waits_empty empty, ite_self]

/-- With no write in progress and none waiting, a new one begins at once. -/
theorem nextWrite_begins (idle : s.hmp.write = none) (empty : s.hmp.waits = []) (who req : Nat) (w : SlotWrite) :
    nextWrite { s with hmp.waits := s.hmp.waits ++ [(who, req, w)] } = { beginWrite who req w s with hmp.waits := [] } := by
  have begun : ∀ l : List (Nat × Nat × SlotWrite), l = [(who, req, w)] →
      nextWrite { s with hmp.waits := l } = { beginWrite who req w { s with hmp.waits := [] } with hmp.waits := [] } := by
    rintro l rfl
    simp only [nextWrite, nextOf, idle]
    rfl
  rw [begun _ (by rw [empty]; rfl), waits_empty empty]

end

/-! ## The flash (R92) -/

theorem tget_tclear {α : Type} (d : α) (m : Tbl α) {lo n a : Nat} (low : lo ≤ a) (high : a < lo + n) :
    tget d (tclear lo n m) a = d := by
  induction m with
  | nil => rfl
  | cons e m ih =>
    simp only [tclear, List.filter_cons] at ih ⊢
    split
    next outside =>
      have other : e.1 ≠ a := by
        simp only [Bool.or_eq_true, decide_eq_true_eq] at outside
        omega
      rw [tget, if_neg other, ih]
    next => exact ih

/-- A programmed byte is the AND of the old and the new one. -/
theorem flProgram_byte (o : Nat) (bs : List Byte) (s : State) {i : Nat} (inside : i < bs.length) :
    tget 0xFF (flProgram o bs s).boot.flash (o + i) = tget 0xFF s.boot.flash (o + i) &&& nth 0xFF bs i := by
  have upTo : ∀ n j, tget 0xFF ((List.range n).foldl (fun m i =>
      tset 0xFF m (o + i) (tget 0xFF m (o + i) &&& nth 0xFF bs i)) s.boot.flash) (o + j) =
        if j < n then tget 0xFF s.boot.flash (o + j) &&& nth 0xFF bs j else tget 0xFF s.boot.flash (o + j) := by
    intro n
    induction n with
    | zero => exact fun j => (if_neg (Nat.not_lt_zero j)).symm
    | succ n ih =>
      intro j
      rw [List.range_succ, List.foldl_append, List.foldl_cons, List.foldl_nil, tget_tset, ih n, ih j, if_neg (Nat.lt_irrefl n)]
      by_cases last : j = n
      · subst last
        simp
      · have earlier : (j < n + 1) = (j < n) := by simp only [eq_iff_iff]; omega
        simp [last, earlier]
  rw [flProgram]
  exact (upTo bs.length i).trans (if_pos inside)

end Sys2Proof.Machine
end

section
/-! SUPPORT. The HMP ops that control the unit, each where it is taken (R60, R110, R112, R406 to R412). -/

namespace Sys2Proof.Machine

/-! ## The state in which an op runs -/

section
variable (r : HReq) (x : HSess) (s : State)

@[simp] theorem asked_md : (asked r x s).md = s.md := rfl
@[simp] theorem asked_boot : (asked r x s).boot = s.boot := rfl
@[simp] theorem asked_img : (asked r x s).img = s.img := rfl
@[simp] theorem asked_write : (asked r x s).hmp.write = s.hmp.write := rfl
@[simp] theorem asked_waits : (asked r x s).hmp.waits = s.hmp.waits := rfl
@[simp] theorem asked_copyRange (area c : Nat) : copyRange (asked r x s) area c = copyRange s area c := rfl
@[simp] theorem asked_freeCopy (area : Nat) : freeCopy (asked r x s) area = freeCopy s area := rfl

end

section
variable {r : HReq} {x : HSess} {s : State}

/-- A command that is an HMP request executes its op where the request is taken. -/
theorem exec_asks {i : Instr} {opn : Nat} {args : List Byte} {plainOp inRecovery : Bool} {op : Nat → Nat → State → State}
    (asks : Asks r opn args x s) (isRequest : exec i s = ok (hmpRequest r opn args plainOp inRecovery op s)) :
    exec i s = .next (settle (op x.num (opn * 2 ^ 32 + r.reqId.toNat) (asked r x s))) := by
  rw [isRequest, hmpRequest_asks asks]
  rfl

/-! ## Mode and edits (R60, R406) -/

theorem postEntry_room {u : State} (room : u.ring.put < u.ring.take + 64) (who req : Nat) (e : RingEntry) :
    postEntry who req e u = { u with
      ring.slots := tset {} u.ring.slots (u.ring.put % 64) { e with seq := u.ring.put % 65536, status := 0 },
      ring.put := u.ring.put + 1, hmp.posts := u.hmp.posts ++ [(who, req, u.ring.put)] } := by
  rw [postEntry, ringPut, if_neg (Nat.not_le_of_lt room)]

theorem exec_hmpMode {target clear : Byte} (asks : Asks r 0x0020 [target, clear] x s) (known : clear.toNat < 2)
    (awake : s.md.mode ≠ .dormant) : exec (.hmpMode r target clear) s = .next (settle (postEntry x.num
      (0x0020 * 2 ^ 32 + r.reqId.toNat)
      { kind := 1, flags := 1, arg := target.toNat + b2n r.force * 256 + clear.toNat * 512 } (asked r x s))) := by
  rw [exec_asks (i := .hmpMode r target clear) asks rfl]
  dsimp only
  rw [if_neg (Nat.not_le_of_lt known), asked_md, if_neg awake]

/-- In DORMANT a request for ACTIVE wakes the unit toward that mode. -/
theorem exec_hmpMode_dormant {target clear : Byte} (asks : Asks r 0x0020 [target, clear] x s) (known : clear.toNat < 2)
    (asleep : s.md.mode = .dormant) (active : target = 3) : exec (.hmpMode r target clear) s =
      .next (settle (hmpAnswer x.num (0x0020 * 2 ^ 32 + r.reqId.toNat) 0 []
        (wake 4 { asked r x s with md.wakeTarget := some 3 }))) := by
  subst active
  rw [exec_asks (i := .hmpMode r 3 clear) asks rfl]
  dsimp only
  rw [if_neg (Nat.not_le_of_lt known), asked_md, if_pos asleep, if_pos (.inr rfl)]
  rfl

theorem exec_hmpEditRing {kind : Byte} {arg off : Word}
    (asks : Asks r 0x0022 ([kind] ++ beBytes 3 r.zeros.toNat ++ beBytes 4 arg.toNat ++ beBytes 4 off.toNat) x s)
    (zeros : r.zeros = 0) (awake : s.md.mode ≠ .dormant) : exec (.hmpEditRing r kind arg off) s =
      .next (settle (postEntry x.num (0x0022 * 2 ^ 32 + r.reqId.toNat)
        { kind := kind.toNat, flags := 1, arg := arg.toNat, stageOff := off.toNat } (asked r x s))) := by
  rw [exec_asks (i := .hmpEditRing r kind arg off) asks rfl]
  rw [if_neg (not_not_intro zeros), asked_md, if_neg awake]

/-! ## HMP_RESET (R407) -/

/-- Outside ACTIVE a reset is taken at once, after its answer. -/
theorem exec_hmpReset {thr : Thr} (asks : Asks r 0x0021 [] x s) (idle : s.hmp.write = none) (inactive : s.md.mode ≠ .active) :
    exec (.hmpReset r thr) s = .next (settle (resetThread false 16 thr
      (hmpAnswer x.num (0x0021 * 2 ^ 32 + r.reqId.toNat) 0 [] (asked r x s)))) := by
  have accepted : ∀ u : State, u.md.mode ≠ .active → u.hmp.write = none →
      resetRequest 16 r.force thr u = (true, resetThread false 16 thr u) := by
    intro u other none
    rw [resetRequest, if_neg (fun ⟨active, _⟩ => other active), if_neg (fun ⟨active, _⟩ => other active), abandonWrite_none none]
  have answered := accepted (hmpAnswer x.num (0x0021 * 2 ^ 32 + r.reqId.toNat) 0 [] (asked r x s))
    (by simpa using inactive) (by simpa using idle)
  have first := accepted (asked r x s) inactive idle
  have ongoing : ¬ ((asked r x s).hmp.write.isSome = true ∧ (!r.force) = true) := by simp [idle]
  rw [exec_asks (i := .hmpReset r thr) asks rfl, if_neg ongoing, first, answered, if_pos rfl]

/-! ## SHADOW_WRITE (R173) -/

theorem shadow_setShadow (p : Prog) (s : State) : shadow (setShadow p s) = p := by
  unfold setShadow shadow
  split <;> simp_all

theorem running_setShadow (p : Prog) (s : State) : running (setShadow p s) = running s := by
  unfold setShadow running
  split <;> simp_all

theorem setShadow_trial (p : Prog) (s : State) : (setShadow p s).trial = s.trial := by
  obtain ⟨_, _, replaced⟩ := setShadow_eq p s
  rw [replaced]

/-- The mask of byte `k` of a word, and a byte at its place. -/
theorem byteAt_getLsbD (b k j : Nat) (inside : j < 32) :
    (BitVec.ofNat 32 (b * 256 ^ k)).getLsbD j = (decide (8 * k ≤ j) && b.testBit (j - 8 * k)) := by
  rw [BitVec.getLsbD_ofNat, decide_eq_true inside, Bool.true_and, show (256 : Nat) = 2 ^ 8 from rfl, ← Nat.pow_mul,
    Nat.testBit_mul_two_pow]

/-- Byte `k` of `v` written over a word under its mask leaves `v` in its bits and the word in the others. -/
theorem byteWrite_getLsbD (w v : Word) {k j : Nat} (inside : j < 32) :
    ((w &&& ~~~BitVec.ofNat 32 (255 * 256 ^ k)) |||
      (BitVec.ofNat 32 (v.toNat / 256 ^ k % 256 * 256 ^ k) &&& BitVec.ofNat 32 (255 * 256 ^ k))).getLsbD j =
      if j / 8 = k then v.getLsbD j else w.getLsbD j := by
  have full : (255 : Nat) = 2 ^ 8 - 1 := rfl
  have scale : (256 : Nat) ^ k = 2 ^ (8 * k) := by rw [Nat.pow_mul]
  simp only [BitVec.getLsbD_or, BitVec.getLsbD_and, BitVec.getLsbD_not, byteAt_getLsbD _ k j inside, inside, decide_true, Bool.true_and]
  rw [full, Nat.testBit_two_pow_sub_one, scale, show (256 : Nat) = 2 ^ 8 from rfl, Nat.testBit_mod_two_pow,
    Nat.testBit_div_two_pow]
  by_cases here : j / 8 = k
  · have low : 8 * k ≤ j := by omega
    have high : j - 8 * k < 8 := by omega
    simp [here, low, high, BitVec.getLsbD]
  · have other : ¬ (8 * k ≤ j ∧ j - 8 * k < 8) := by omega
    by_cases low : 8 * k ≤ j
    · simp [here, low, show ¬ j - 8 * k < 8 from fun high => other ⟨low, high⟩]
    · simp [here, low]

/-- A word of the shadow slot being written: what stays, and the word as far as it is written. -/
structure ShadowWritten (i : Nat) (word : Word) (s t : State) : Prop where
  running : running t = running s
  trial : t.trial = s.trial
  invalid : (shadow t).valid = false
  word : pw (shadow t) i = word
  others : ∀ j, j ≠ i → pw (shadow t) j = pw (shadow s) j

theorem shadowWrite_idle (idle : s.trial.st = .idle) (i : Nat) (v mask : Word) :
    ShadowWritten i ((pw (shadow s) i &&& ~~~mask) ||| (v &&& mask)) s (shadowWrite i v mask s) := by
  rw [shadowWrite, if_neg (not_not_intro idle)]
  extract_lets p
  refine ⟨running_setShadow _ s, setShadow_trial _ s, ?_, ?_, fun j other => ?_⟩ <;> rw [shadow_setShadow]
  · exact tget_tset_same _ _ _ _
  · exact tget_tset_ne _ _ _ other

theorem ShadowWritten.trans {t u : State} {i : Nat} {w w' : Word} (h : ShadowWritten i w s t) (g : ShadowWritten i w' t u) :
    ShadowWritten i w' s u where
  running := g.running.trans h.running
  trial := g.trial.trans h.trial
  invalid := g.invalid
  word := g.word
  others j other := (g.others j other).trans (h.others j other)

/-- Byte `k` of `v` written to word `i` of the shadow slot. -/
def shadowByte (i k : Nat) (v : Word) (s : State) : State :=
  shadowWrite i (BitVec.ofNat 32 (v.toNat / 256 ^ k % 256 * 256 ^ k)) (BitVec.ofNat 32 (255 * 256 ^ k)) s

theorem shadowByte_idle (idle : s.trial.st = .idle) (i k : Nat) (v : Word) : ∃ word,
    ShadowWritten i word s (shadowByte i k v s) ∧
      ∀ j, j < 32 → word.getLsbD j = if j / 8 = k then v.getLsbD j else (pw (shadow s) i).getLsbD j :=
  ⟨_, shadowWrite_idle idle i _ _, fun _ inside => byteWrite_getLsbD _ v inside⟩

/-- Four bytes from a word's address are written to that word. -/
theorem shadowBytes_aligned {off : Nat} (aligned : off % 4 = 0) (v : Word) (s : State) :
    shadowBytes off (leBytes 4 v.toNat) s =
      shadowByte (off / 4) 3 v (shadowByte (off / 4) 2 v (shadowByte (off / 4) 1 v (shadowByte (off / 4) 0 v s))) := by
  have word : ∀ k, k < 4 → (off + k) / 4 = off / 4 ∧ (off + k) % 4 = k := by omega
  obtain ⟨w0, b0⟩ := word 0 (by decide)
  obtain ⟨w1, b1⟩ := word 1 (by decide)
  obtain ⟨w2, b2⟩ := word 2 (by decide)
  obtain ⟨w3, b3⟩ := word 3 (by decide)
  simp only [shadowBytes, shadowByte, leBytes, List.zipIdx, List.foldl, Nat.zero_add, w0, w1, w2, w3, b0, b1, b2, b3,
    BitVec.toNat_ofNat, Nat.div_div_eq_div_mul]
  norm_num

/-- Four bytes from a word's address make that word. -/
theorem shadowBytes_word (idle : s.trial.st = .idle) {off : Nat} (aligned : off % 4 = 0) (v : Word) :
    ShadowWritten (off / 4) v s (shadowBytes off (leBytes 4 v.toNat) s) := by
  rw [shadowBytes_aligned aligned]
  obtain ⟨x0, byte0, bits0⟩ := shadowByte_idle idle (off / 4) 0 v
  obtain ⟨x1, byte1, bits1⟩ := shadowByte_idle (byte0.trial ▸ idle) (off / 4) 1 v
  have upTo1 := byte0.trans byte1
  obtain ⟨x2, byte2, bits2⟩ := shadowByte_idle (upTo1.trial ▸ idle) (off / 4) 2 v
  have upTo2 := upTo1.trans byte2
  obtain ⟨x3, byte3, bits3⟩ := shadowByte_idle (upTo2.trial ▸ idle) (off / 4) 3 v
  have whole : x3 = v := by
    refine BitVec.eq_of_getLsbD_eq fun j inside => ?_
    rw [bits3 j inside, upTo2.word, bits2 j inside, upTo1.word, bits1 j inside, byte0.word, bits0 j inside]
    split_ifs
    · rfl
    · rfl
    · rfl
    · rfl
    · omega
  rw [whole] at byte3
  exact upTo2.trans byte3

section
variable {off : Word} {data : List Byte} (asks : Asks r 0x0023 (beBytes 4 off.toNat ++ data) x s)
include asks

theorem exec_shadowWrite (fits : off.toNat + data.length ≤ 0x100000) : exec (.shadowWrite r off data) s = .next (settle
    (if s.trial.st ≠ .idle then hmpAnswer x.num (0x0023 * 2 ^ 32 + r.reqId.toNat) 2 [] { asked r x s with trial.writeIgn := true }
    else hmpAnswer x.num (0x0023 * 2 ^ 32 + r.reqId.toNat) 0 [] (shadowBytes off.toNat data (asked r x s)))) := by
  rw [exec_asks (i := .shadowWrite r off data) asks rfl, if_neg (Nat.not_lt_of_le fits)]
  rfl

end

/-! ## Writing slots (R110 to R112, R408) -/

theorem asked_served {opn : Nat} {args : List Byte} (asks : Asks r opn args x s) (awake : s.md.mode ≠ .dormant) (area : Nat) :
    slotServed area (asked r x s) = true := by
  simp [slotServed, awake, asks_normal asks]

/-- SLOT_BEGIN with no write in progress and none waiting begins one at once. -/
theorem exec_slotBegin {area : Byte} {len hold : Word}
    (asks : Asks r 0x0030 ([area] ++ beBytes 3 r.zeros.toNat ++ beBytes 4 len.toNat ++ beBytes 4 hold.toNat) x s)
    (zeros : r.zeros = 0) (first : 1 ≤ area.toNat) (last : area.toNat ≤ 3) (awake : s.md.mode ≠ .dormant)
    (long : 64 ≤ len.toNat) (fits : len.toNat ≤ (copyRange s area.toNat (freeCopy s area.toNat)).2)
    (idle : s.hmp.write = none) (empty : s.hmp.waits = []) : exec (.slotBegin r area len hold) s = .next (settle
      { beginWrite x.num (0x0030 * 2 ^ 32 + r.reqId.toNat)
          { area := area.toNat, copy := freeCopy s area.toNat, len := len.toNat, next := 0,
            hold := if area.toNat = 3 then hold.toNat else 0, eraseOk := r.flashOk, owner := x.num } (asked r x s) with
        hmp.waits := [] }) := by
  have named : ¬ (area.toNat = 0 ∨ 3 < area.toNat ∨ r.zeros ≠ 0) := by
    rintro (none | other | bits)
    · omega
    · omega
    · exact bits zeros
  have sized : ¬ (len.toNat < 64 ∨ (copyRange s area.toNat (freeCopy s area.toNat)).2 < len.toNat) := by omega
  rw [exec_asks (i := .slotBegin r area len hold) asks rfl]
  dsimp only
  rw [if_neg named, asked_served asks awake, if_neg (by decide), asked_copyRange,
    asked_freeCopy, if_neg sized, if_neg (by simp [idle]), nextWrite_begins (s := asked r x s) idle empty,
    Nat.mod_eq_of_lt (asks_num asks)]

/-- An erase that succeeds begins the write and leaves its copy erased. -/
theorem beginWrite_erased {w : SlotWrite} (good : w.eraseOk = true) (who opn : Nat) (id : Word) (u : State) :
    (beginWrite who (opn * 2 ^ 32 + id.toNat) w u).hmp.write = some w ∧
      (beginWrite who (opn * 2 ^ 32 + id.toNat) w u).hmp.answer =
        some { op := opn, req := id.toNat, status := 0, result := [] } ∧
      (beginWrite who (opn * 2 ^ 32 + id.toNat) w u).boot.flash =
        tclear (copyRange u w.area w.copy).1 (copyRange u w.area w.copy).2 u.boot.flash := by
  unfold beginWrite
  extract_lets range _ begun
  rw [if_pos good, hmpAnswer_answer, hmpAnswer_write, hmpAnswer_boot]
  exact ⟨rfl, rfl, rfl⟩

/-- An erase that fails ends the write at once. -/
theorem beginWrite_failed {w : SlotWrite} (bad : w.eraseOk = false) (who opn : Nat) (id : Word) (u : State) :
    (beginWrite who (opn * 2 ^ 32 + id.toNat) w u).hmp.write = none ∧
      (beginWrite who (opn * 2 ^ 32 + id.toNat) w u).hmp.answer =
        some { op := opn, req := id.toNat, status := 5, result := [] } := by
  unfold beginWrite
  extract_lets range _ begun
  obtain ⟨_, ended⟩ := abandonWrite_some (s := begun) (w := w) rfl
  rw [if_neg (by simp [bad]), hmpAnswer_answer, hmpAnswer_write, ended]
  exact ⟨rfl, rfl⟩

/-- The session's own write of an area. -/
theorem ownWrite_mine {u : State} {w : SlotWrite} (ongoing : u.hmp.write = some w) (owner : w.owner = x.num)
    (num : x.num < 2 ^ 32) : ownWrite w.area x.num u = .inl w := by
  rw [ownWrite, ongoing]
  dsimp only
  rw [if_neg (not_not_intro rfl), if_pos (owner.trans (Nat.mod_eq_of_lt num).symm)]

section
variable {w : SlotWrite} (ongoing : s.hmp.write = some w) (owner : w.owner = x.num) {area : Byte} (named : area.toNat = w.area)
include ongoing owner named

theorem asked_ownWrite (num : x.num < 2 ^ 32) : ownWrite area.toNat x.num (asked r x s) = .inl w := by
  rw [named]
  exact ownWrite_mine ongoing owner num

/-- SLOT_CHUNK at the next offset programs it. -/
theorem exec_slotChunk {off : Word} {data : List Byte}
    (asks : Asks r 0x0031 ([area] ++ beBytes 3 r.zeros.toNat ++ beBytes 4 off.toNat ++ data) x s) (zeros : r.zeros = 0)
    (awake : s.md.mode ≠ .dormant) (next : off.toNat = w.next) (fits : w.next + data.length ≤ w.len)
    (short : data.length ≤ 1024) (good : r.flashOk = true) : exec (.slotChunk r area off data) s =
      .next (settle (hmpAnswer x.num (0x0031 * 2 ^ 32 + r.reqId.toNat) 0 []
        (flProgram ((copyRange s w.area w.copy).1 + w.next) data
          { asked r x s with hmp.write := some { w with next := w.next + data.length } }))) := by
  rw [exec_asks (i := .slotChunk r area off data) asks rfl, if_neg (not_not_intro zeros),
    asked_served asks awake, if_neg (by decide),
    asked_ownWrite ongoing owner named (asks_num asks)]
  dsimp only
  rw [if_neg, if_neg (by simp [good]), asked_copyRange]
  rw [asks_udp asks, if_neg Bool.false_ne_true]
  omega

/-- One at another offset is refused. -/
theorem exec_slotChunk_misplaced {off : Word} {data : List Byte}
    (asks : Asks r 0x0031 ([area] ++ beBytes 3 r.zeros.toNat ++ beBytes 4 off.toNat ++ data) x s) (zeros : r.zeros = 0)
    (awake : s.md.mode ≠ .dormant) (other : off.toNat ≠ w.next) : exec (.slotChunk r area off data) s =
      .next (settle (hmpAnswer x.num (0x0031 * 2 ^ 32 + r.reqId.toNat) 1 [] (asked r x s))) := by
  rw [exec_asks (i := .slotChunk r area off data) asks rfl, if_neg (not_not_intro zeros),
    asked_served asks awake, if_neg (by decide),
    asked_ownWrite ongoing owner named (asks_num asks)]
  dsimp only
  rw [if_pos (.inl other)]

section
variable (asks : Asks r 0x0032 [area] x s) (awake : s.md.mode ≠ .dormant) (whole : w.next = w.len)
include asks awake whole

/-- SLOT_COMMIT of a whole copy: its read-back decides. -/
theorem exec_slotCommit : exec (.slotCommit r area) s = .next (settle
    (if !readBack (asked r x s) w.area w.copy then
      nextWrite (hmpAnswer x.num (0x0032 * 2 ^ 32 + r.reqId.toNat) 5 [] (abandonWrite (asked r x s)))
    else if w.hold ≠ 0 then
      let (g, v) := drawNat (2 ^ 32) (asked r x s)
      nextWrite (hmpAnswer x.num (0x0032 * 2 ^ 32 + r.reqId.toNat) 0 (beBytes 4 g) { endWrite v with hmp.held := some w })
    else
      let v := preferCopy w.area w.copy (endWrite (asked r x s))
      nextWrite (hmpAnswer x.num (0x0032 * 2 ^ 32 + r.reqId.toNat) 0 (beBytes 4 (curGen v)) v))) := by
  rw [exec_asks (i := .slotCommit r area) asks rfl, asked_served asks awake, if_neg (by decide),
    asked_ownWrite ongoing owner named (asks_num asks)]
  dsimp only
  rw [if_neg (not_not_intro whole)]

end

theorem exec_slotAbort (asks : Asks r 0x0033 [area] x s) : exec (.slotAbort r area) s = .next (settle
    (nextWrite (hmpAnswer x.num (0x0033 * 2 ^ 32 + r.reqId.toNat) 0 [] (abandonWrite (asked r x s))))) := by
  rw [exec_asks (i := .slotAbort r area) asks rfl, asked_ownWrite ongoing owner named (asks_num asks)]

end

/-- A write abandoned and answered, where none waits: it ends, and the flash stays. -/
theorem abandoned_answered {w : SlotWrite} (ongoing : s.hmp.write = some w) (empty : s.hmp.waits = []) (opn status : Nat) :
    let t := nextWrite (hmpAnswer x.num (opn * 2 ^ 32 + r.reqId.toNat) status [] (abandonWrite (asked r x s)))
    t.hmp.write = none ∧ t.hmp.answer = some { op := opn, req := r.reqId.toNat, status := status, result := [] } ∧
      t.boot = s.boot := by
  obtain ⟨_, ended⟩ := abandonWrite_some (s := asked r x s) ongoing
  intro t
  have answered : t = _ := nextWrite_none (by rw [hmpAnswer_waits, ended]; exact empty)
  rw [answered, hmpAnswer_write, hmpAnswer_answer, hmpAnswer_boot, ended]
  exact ⟨rfl, rfl, rfl⟩

end

/-! ## Sessions that close (R401, R410) -/

/-- Each session after is one of those before, but for what it answered and was asked. -/
def SessFrom (before after : List HSess) : Prop := ∀ y ∈ after, ∃ z ∈ before, z.num = y.num ∧ z.inst = y.inst

theorem SessFrom.refl (l : List HSess) : SessFrom l l := fun y hy => ⟨y, hy, rfl, rfl⟩

theorem SessFrom.trans {l m n : List HSess} (h : SessFrom l m) (g : SessFrom m n) : SessFrom l n := by
  intro y hy
  obtain ⟨z, hz, num, inst⟩ := g y hy
  obtain ⟨w, hw, num', inst'⟩ := h z hz
  exact ⟨w, hw, num'.trans num, inst'.trans inst⟩

theorem abandonWrite_sess (s : State) : (abandonWrite s).hmp.sess = s.hmp.sess := by
  unfold abandonWrite
  split
  · rw [raise_hmp]
    rfl
  · rfl

theorem abandonWrite_waits (s : State) : (abandonWrite s).hmp.waits = s.hmp.waits := by
  unfold abandonWrite
  split
  · rw [raise_hmp]
    rfl
  · rfl

theorem beginWrite_sess (who req : Nat) (w : SlotWrite) (s : State) :
    SessFrom s.hmp.sess (beginWrite who req w s).hmp.sess := by
  unfold beginWrite
  extract_lets range _ begun
  split
  · exact (hmpAnswer_sess who req 0 [] (flErase range.1 range.2 begun)).same
  · have answered := (hmpAnswer_sess who req 5 [] (abandonWrite begun)).same
    rwa [abandonWrite_sess] at answered

theorem nextOf_sess (l : List (Nat × Nat × SlotWrite)) (s : State) : SessFrom s.hmp.sess (nextOf l s).hmp.sess := by
  induction l generalizing s with
  | nil => exact .refl _
  | cons e l ih =>
    obtain ⟨who, req, w⟩ := e
    rw [nextOf]
    split
    · exact .refl _
    · exact .trans (beginWrite_sess who req w { s with hmp.waits := l }) (ih _)

theorem nextWrite_sess (s : State) : SessFrom s.hmp.sess (nextWrite s).hmp.sess := by
  unfold nextWrite
  split
  · exact .refl _
  · exact nextOf_sess _ s

theorem hSess_isNone {s : State} {num : Nat} : (hSess s num).isNone = true ↔ ∀ x ∈ s.hmp.sess, x.num ≠ num := by
  simp [hSess, List.find?_eq_none]

/-- A closed session is gone, and none has come. -/
theorem closeHSess_sess (num : Nat) (s : State) :
    ∀ y ∈ (closeHSess num s).hmp.sess, ∃ z ∈ s.hmp.sess, z.num = y.num ∧ z.inst = y.inst ∧ z.num ≠ num := by
  unfold closeHSess
  split
  next gone => exact fun y hy => ⟨y, hy, rfl, rfl, hSess_isNone.mp gone y hy⟩
  next =>
    extract_lets owns mine hmp closed ended
    have left : SessFrom closed.hmp.sess ended.hmp.sess := by
      simp only [ended]
      split
      · have next := nextWrite_sess (abandonWrite closed)
        rwa [abandonWrite_sess] at next
      · exact .refl _
    rw [raise_hmp]
    intro y hy
    obtain ⟨z, hz, num', inst⟩ := left y hy
    obtain ⟨hz, other⟩ := List.mem_filter.mp hz
    exact ⟨z, hz, num', inst, by simpa using other⟩

/-- With no write waiting, the other sessions are as they were. -/
theorem closeHSess_others {num : Nat} {s : State} (empty : s.hmp.waits = []) :
    (closeHSess num s).hmp.waits = [] ∧ ∀ y ∈ s.hmp.sess, y.num ≠ num → y ∈ (closeHSess num s).hmp.sess := by
  unfold closeHSess
  split
  · exact ⟨empty, fun y hy _ => hy⟩
  · extract_lets owns mine hmp closed ended
    have none : closed.hmp.waits = [] := by simp [closed, empty]
    obtain ⟨waits, sess⟩ : ended.hmp.waits = [] ∧ ended.hmp.sess = closed.hmp.sess := by
      simp only [ended]
      split
      · rw [nextWrite_none ((abandonWrite_waits closed).trans none), abandonWrite_sess, abandonWrite_waits]
        exact ⟨none, rfl⟩
      · exact ⟨none, rfl⟩
    rw [raise_hmp, waits, sess]
    exact ⟨rfl, fun y hy other => List.mem_filter.mpr ⟨hy, by simpa using other⟩⟩

/-- After a list of sessions has been closed, each that is left was there and is none of them. -/
theorem closeAll_sess (l : List HSess) (s : State) :
    ∀ y ∈ (l.foldl (fun s x => closeHSess x.num s) s).hmp.sess,
      ∃ z ∈ s.hmp.sess, z.num = y.num ∧ z.inst = y.inst ∧ ∀ x ∈ l, z.num ≠ x.num := by
  induction l generalizing s with
  | nil => exact fun y hy => ⟨y, hy, rfl, rfl, fun _ none => absurd none List.not_mem_nil⟩
  | cons x l ih =>
    intro y hy
    obtain ⟨z, hz, num, inst, others⟩ := ih (closeHSess x.num s) y hy
    obtain ⟨v, hv, num', inst', other⟩ := closeHSess_sess x.num s z hz
    exact ⟨v, hv, num'.trans num, inst'.trans inst, List.forall_mem_cons.mpr ⟨other, fun u hu => num' ▸ others u hu⟩⟩

/-- With no write waiting, a session that is none of them is as it was. -/
theorem closeAll_others (l : List HSess) {s : State} (empty : s.hmp.waits = []) {y : HSess} (ongoing : y ∈ s.hmp.sess)
    (other : ∀ x ∈ l, x.num ≠ y.num) : y ∈ (l.foldl (fun s x => closeHSess x.num s) s).hmp.sess := by
  induction l generalizing s with
  | nil => exact ongoing
  | cons x l ih =>
    obtain ⟨first, rest⟩ := List.forall_mem_cons.mp other
    obtain ⟨still, kept⟩ := closeHSess_others (num := x.num) empty
    exact ih still (kept y ongoing (Ne.symm first)) rest

end Sys2Proof.Machine
end

section
/-! SUPPORT. The HMP ops on keys and fuses (R410 to R412); and the statement O56. -/

namespace Sys2Proof.Machine

section
variable {r : HReq} {x : HSess} {s : State}

/-! ## Keys (R410) -/

/-- The sessions in which an op runs: its own, as it was asked, and the others as they were. -/
theorem asked_sess {y : HSess} (num : x.num < 2 ^ 32) (ongoing : y ∈ (asked r x s).hmp.sess) :
    (y ∈ s.hmp.sess ∧ y.num ≠ x.num) ∨ (y.num = x.num ∧ y.inst = x.inst) := by
  obtain ⟨z, hz, rfl⟩ := List.mem_map.mp ongoing
  rw [Nat.mod_eq_of_lt num]
  split
  next mine => exact .inr ⟨rfl, rfl⟩
  next other => exact .inl ⟨hz, other⟩

theorem asked_sess_other {y : HSess} (num : x.num < 2 ^ 32) (ongoing : y ∈ s.hmp.sess) (other : y.num ≠ x.num) :
    y ∈ (asked r x s).hmp.sess :=
  List.mem_map.mpr ⟨y, ongoing, if_neg (by rwa [Nat.mod_eq_of_lt num])⟩

/-- The requester's session is of the key record that it was opened with. -/
theorem asked_hSess {y : HSess} (num : x.num < 2 ^ 32) (found : hSess (asked r x s) x.num = some y) : y.inst = x.inst := by
  have named : y.num = x.num := by simpa using List.find?_some found
  rcases asked_sess num (List.mem_of_find?_eq_some found) with ⟨-, other⟩ | ⟨-, inst⟩
  · exact absurd named other
  · exact inst

/-- The sector rewritten, its keys read again. -/
def rekeyed (o : Nat) (recs : List Byte) (s : State) : State := readKeys (flProgram o recs (flErase o 4096 s))

theorem rekeyed_hmp (o : Nat) (recs : List Byte) (s : State) : (rekeyed o recs s).hmp = s.hmp := rfl

/-- Every session of key record `k` closed. -/
def closeKeyed (k : Nat) (s : State) : State :=
  (s.hmp.sess.filter fun x => x.inst == k).foldl (fun s x => closeHSess x.num s) s

theorem closeKeyed_closes (k : Nat) (s : State) : ∀ y ∈ (closeKeyed k s).hmp.sess, y.inst ≠ k := by
  intro y hy keyed
  obtain ⟨z, hz, -, inst, others⟩ := closeAll_sess _ s y hy
  exact others z (List.mem_filter.mpr ⟨hz, by simp [inst, keyed]⟩) rfl

theorem closeKeyed_keeps {k : Nat} {s : State} (empty : s.hmp.waits = []) {y : HSess} (ongoing : y ∈ s.hmp.sess)
    (apart : ∀ z ∈ s.hmp.sess, z.inst = k → z.num ≠ y.num) : y ∈ (closeKeyed k s).hmp.sess := by
  refine closeAll_others _ empty ongoing fun z hz => ?_
  obtain ⟨hz, keyed⟩ := List.mem_filter.mp hz
  exact apart z hz (by simpa using keyed)

theorem exec_keyWrite {sector mask : Byte} {hmpId klpId : Word} {hmpKey klpKey : BitVec 256}
    (asks : Asks r 0x0050 ([sector, mask] ++ beBytes 2 r.zeros.toNat ++ beBytes 4 hmpId.toNat ++ beBytes 32 hmpKey.toNat ++
      beBytes 4 klpId.toNat ++ beBytes 32 klpKey.toNat) x s) (zeros : r.zeros = 0) (good : r.flashOk = true)
    (first : sector.toNat ≤ 1) (masked : mask.toNat ≤ 3) (two : 8192 ≤ s.img.keyLen) (other : x.inst ≠ sector.toNat) :
    ∃ o recs, exec (.keyWrite r sector mask hmpId hmpKey klpId klpKey) s = .next (settle
      (hmpAnswer x.num (0x0050 * 2 ^ 32 + r.reqId.toNat) 0 [] (raise 0x1804 (sector.toNat * 256 + mask.toNat)
        (closeKeyed sector.toNat (rekeyed o recs (asked r x s)))))) := by
  have named : ¬ (1 < sector.toNat ∨ 3 < mask.toNat ∨ r.zeros.toNat % 65536 ≠ 0) := by
    rw [zeros]
    simp [first, masked]
  rw [exec_asks (i := .keyWrite r sector mask hmpId hmpKey klpId klpKey) asks rfl]
  dsimp only
  rw [asked_boot, asks_normal asks, if_neg Bool.false_ne_true, if_neg named, if_neg, if_pos good, if_pos good]
  · exact ⟨_, _, rfl⟩
  · rw [Nat.mod_eq_of_lt (asks_num asks), asked_img, decide_eq_false (Nat.not_lt_of_le two), Bool.false_or]
    split
    next y found => simp [asked_hSess (asks_num asks) found, other]
    next => exact Bool.false_ne_true

/-! ## Fuses (R411, R412) -/

theorem fuseStat_congr {s t : State} (boot : s.boot = t.boot) : fuseStat s = fuseStat t := by
  rw [fuseStat, fuseStat, boot]

theorem answered_boot (who req status : Nat) (result : List Byte) (s : State) :
    (settle (hmpAnswer who req status result s)).boot = s.boot := by
  rw [settle_boot, hmpAnswer_boot]

theorem fuseOp_held (irrev : r.irrev = true) (hold : s.md.mode = .hold) : fuseOp r (asked r x s) = true := by
  simp [fuseOp, irrev, hold]

theorem fuseOp_refused (refused : s.md.mode ≠ .hold ∨ r.irrev = false) : fuseOp r (asked r x s) = false := by
  rcases refused with mode | irrev
  · simp [fuseOp, mode]
  · simp [fuseOp, irrev]

/-- The boot block with the customer key fused. -/
def custFused (ws : List FuseWord) (b : Boot) : Boot :=
  { b with fuses := { b.fuses with customer := ws }, custKey := custState ws, lastRead := fuseTable { b.fuses with customer := ws } }

theorem exec_fuseCustkey {hash tight : BitVec 256} (asks : Asks r 0x0051 (beBytes 32 hash.toNat) x s) (irrev : r.irrev = true)
    (hold : s.md.mode = .hold) (blank : s.boot.custKey = 0) : ∃ u : State,
    u.boot = custFused (hashWords hash.toNat tight.toNat) s.boot ∧ exec (.fuseCustkey r hash tight) s = .next (settle
      (hmpAnswer x.num (0x0051 * 2 ^ 32 + r.reqId.toNat) (if u.boot.custKey = 2 then 5 else 0) (beBytes 4 (fuseStat u)) u)) := by
  rw [exec_asks (i := .fuseCustkey r hash tight) asks rfl, fuseOp_held irrev hold, asked_boot, blank, if_neg (by decide)]
  refine ⟨_, ?_, rfl⟩
  rw [foldl_keeps State.boot fun s w => ite_keeps State.boot (raise_boot ..), raise_boot]
  rfl

theorem exec_fuseCustkey_refused {hash tight : BitVec 256} (asks : Asks r 0x0051 (beBytes 32 hash.toNat) x s)
    (refused : s.md.mode ≠ .hold ∨ r.irrev = false) : exec (.fuseCustkey r hash tight) s =
      .next (settle (hmpAnswer x.num (0x0051 * 2 ^ 32 + r.reqId.toNat) 2 [] (asked r x s))) := by
  rw [exec_asks (i := .fuseCustkey r hash tight) asks rfl, fuseOp_refused refused, if_pos]
  rfl

/-- The boot block with the debug lock fused. -/
def lockFused (tight : Bool) (b : Boot) : Boot :=
  { b with
    fuses := { b.fuses with debugLock := { normal := 1, tight := b2n tight } }, debugLock := true,
    lastRead := fuseTable { b.fuses with debugLock := { normal := 1, tight := b2n tight } } }

theorem exec_fuseDebuglock {tight : Bool} (asks : Asks r 0x0052 [] x s) (irrev : r.irrev = true) (hold : s.md.mode = .hold) :
    ∃ u : State, u.boot = lockFused tight s.boot ∧ exec (.fuseDebuglock r tight) s = .next (settle
      (hmpAnswer x.num (0x0052 * 2 ^ 32 + r.reqId.toNat) 0 (beBytes 4 (fuseStat u)) u)) := by
  rw [exec_asks (i := .fuseDebuglock r tight) asks rfl, fuseOp_held irrev hold, if_neg (by decide)]
  exact ⟨_, raise_boot _ _ _, rfl⟩

end

/-! ## What each op leaves -/

section
variable {r : HReq} {x : HSess} {s : State}

/-- In DORMANT a request for ACTIVE begins the wake toward it. -/
theorem hmpMode_wakes {target clear : Byte} (asks : Asks r 0x0020 [target, clear] x s) (asleep : s.md.mode = .dormant)
    (active : target = 3) (known : clear.toNat < 2) (idle : s.md.wakeStep = 0) (alone : paired s = false) :
    ∃ t, exec (.hmpMode r target clear) s = .next t ∧
      t.hmp.answer = some { op := 0x0020, req := r.reqId.toNat, status := 0, result := [] } ∧
      t.md.wakeStep = 1 ∧ t.md.wakeTarget = some 3 ∧ bitOf t.md.wakeCause 4 = true := by
  obtain ⟨md, -⟩ := wake_dormant (k := 4) (s := { asked r x s with md.wakeTarget := some 3 }) (.inl rfl) asleep (.inl alone) idle
  refine ⟨_, exec_hmpMode_dormant asks known asleep active, ?_⟩
  rw [settle_hmp_answer, hmpAnswer_answer, settle_md, hmpAnswer_md, md]
  exact ⟨rfl, rfl, rfl, bitOf_setBit_same _ _⟩

/-- A reset of a state that differs from `s` in the HMP server only. -/
theorem reset_after_answer {u : State} (thr : Thr) (answered : OnlyHmp s u) (runs : s.md.testHold = false) :
    let t := settle (resetThread false 16 thr u)
    t.md.rstCause = s.md.rstCause ||| 16 ∧ t.clk.tick = 0 ∧ t.ret.bootCnt = s.ret.bootCnt + 1 ∧ t.exe.inCycle = false ∧
      t.isl = s.isl := by
  obtain ⟨hmp, only⟩ := answered
  have md : u.md = s.md := by rw [only]
  have ret : u.ret = s.ret := by rw [only]
  have isl : u.isl = s.isl := by rw [only]
  clear only
  obtain ⟨cause, tick, idle, -, -, -, boot, island, -⟩ := resetCore_keeps
    (settled_reset_kept (on := false) 16 thr (s := u) (by simp [md, runs]))
  rw [md] at cause
  rw [ret] at boot
  exact ⟨cause, tick, boot, idle, island.trans isl⟩

theorem hmpReset_resets {thr : Thr} (asks : Asks r 0x0021 [] x s) (idle : s.hmp.write = none) (inactive : s.md.mode ≠ .active)
    (runs : s.md.testHold = false) : ∃ t, exec (.hmpReset r thr) s = .next t ∧
      t.md.rstCause = s.md.rstCause ||| 16 ∧ t.clk.tick = 0 ∧ t.ret.bootCnt = s.ret.bootCnt + 1 ∧ t.exe.inCycle = false ∧
      t.isl = s.isl :=
  have taken : OnlyHmp s (asked r x s) := ⟨_, rfl⟩
  ⟨_, exec_hmpReset asks idle inactive, reset_after_answer thr (taken.trans (hmpAnswer_only ..)) runs⟩

theorem shadowWrite_word {off v : Word} {data : List Byte} (asks : Asks r 0x0023 (beBytes 4 off.toNat ++ data) x s)
    (fits : off.toNat + data.length ≤ 0x100000) (idle : s.trial.st = .idle) (aligned : off.toNat % 4 = 0)
    (bytes : data = leBytes 4 v.toNat) : ∃ t, exec (.shadowWrite r off data) s = .next t ∧
      t.hmp.answer = some { op := 0x0023, req := r.reqId.toNat, status := 0, result := [] } ∧
      pw (shadow t) (off.toNat / 4) = v ∧ (shadow t).valid = false ∧ running t = running s ∧
      ∀ i, i ≠ off.toNat / 4 → pw (shadow t) i = pw (shadow s) i := by
  have written := shadowBytes_word (s := asked r x s) idle aligned v
  rw [← bytes] at written
  have shown : ∀ t : State, shadow (settle (hmpAnswer x.num (0x0023 * 2 ^ 32 + r.reqId.toNat) 0 [] t)) = shadow t ∧
      running (settle (hmpAnswer x.num (0x0023 * 2 ^ 32 + r.reqId.toNat) 0 [] t)) = running t := fun t => by
    simp only [shadow, running, settle_exe, hmpAnswer_exe, and_self]
  refine ⟨_, exec_shadowWrite asks fits, ?_⟩
  rw [if_neg (not_not_intro idle), settle_hmp_answer, hmpAnswer_answer]
  obtain ⟨shadowed, ran⟩ := shown (shadowBytes off.toNat data (asked r x s))
  rw [shadowed, ran]
  exact ⟨rfl, written.word, written.invalid, written.running, written.others⟩

theorem shadowWrite_refused {off : Word} {data : List Byte} (asks : Asks r 0x0023 (beBytes 4 off.toNat ++ data) x s)
    (fits : off.toNat + data.length ≤ 0x100000) (busy : s.trial.st ≠ .idle) : ∃ t,
      exec (.shadowWrite r off data) s = .next t ∧
      t.hmp.answer = some { op := 0x0023, req := r.reqId.toNat, status := 2, result := [] } ∧ t.exe = s.exe ∧
      t.trial = { s.trial with writeIgn := true } := by
  refine ⟨_, exec_shadowWrite asks fits, ?_⟩
  rw [if_pos busy, settle_hmp_answer, hmpAnswer_answer, settle_exe, settle_trial, hmpAnswer_exe, hmpAnswer_trial]
  exact ⟨rfl, rfl, rfl⟩

section
variable {area : Byte} {len hold : Word}
  (asks : Asks r 0x0030 ([area] ++ beBytes 3 r.zeros.toNat ++ beBytes 4 len.toNat ++ beBytes 4 hold.toNat) x s)
  (zeros : r.zeros = 0) (first : 1 ≤ area.toNat) (last : area.toNat ≤ 3) (awake : s.md.mode ≠ .dormant)
  (long : 64 ≤ len.toNat) (fits : len.toNat ≤ (copyRange s area.toNat (freeCopy s area.toNat)).2)
  (idle : s.hmp.write = none) (empty : s.hmp.waits = [])
include asks zeros first last awake long fits idle empty

theorem slotBegin_begins (good : r.flashOk = true) : ∃ t, exec (.slotBegin r area len hold) s = .next t ∧
    t.hmp.answer = some { op := 0x0030, req := r.reqId.toNat, status := 0, result := [] } ∧
    t.hmp.write = some {
      area := area.toNat, copy := freeCopy s area.toNat, len := len.toNat, next := 0,
      hold := if area.toNat = 3 then hold.toNat else 0, owner := x.num } ∧
    ∀ a, (copyRange s area.toNat (freeCopy s area.toNat)).1 ≤ a →
      a < (copyRange s area.toNat (freeCopy s area.toNat)).1 + (copyRange s area.toNat (freeCopy s area.toNat)).2 →
      tget 0xFF t.boot.flash a = 0xFF := by
  refine ⟨_, exec_slotBegin asks zeros first last awake long fits idle empty, ?_⟩
  obtain ⟨write, answer, flash⟩ := beginWrite_erased
    (w := { area := area.toNat, copy := freeCopy s area.toNat, len := len.toNat, next := 0,
            hold := if area.toNat = 3 then hold.toNat else 0, eraseOk := r.flashOk, owner := x.num })
    good x.num 0x0030 r.reqId (asked r x s)
  rw [settle_hmp_answer, settle_hmp_write, settle_boot]
  dsimp only
  rw [answer, write, flash, good]
  exact ⟨rfl, rfl, fun a low high => tget_tclear _ _ low high⟩

theorem slotBegin_fails (bad : r.flashOk = false) : ∃ t, exec (.slotBegin r area len hold) s = .next t ∧
    t.hmp.answer = some { op := 0x0030, req := r.reqId.toNat, status := 5, result := [] } ∧ t.hmp.write = none := by
  refine ⟨_, exec_slotBegin asks zeros first last awake long fits idle empty, ?_⟩
  obtain ⟨write, answer⟩ := beginWrite_failed
    (w := { area := area.toNat, copy := freeCopy s area.toNat, len := len.toNat, next := 0,
            hold := if area.toNat = 3 then hold.toNat else 0, eraseOk := r.flashOk, owner := x.num })
    bad x.num 0x0030 r.reqId (asked r x s)
  rw [settle_hmp_answer, settle_hmp_write]
  exact ⟨answer, write⟩

end

section
variable {w : SlotWrite} (ongoing : s.hmp.write = some w) (owner : w.owner = x.num) {area : Byte} (named : area.toNat = w.area)
include ongoing owner named

theorem slotChunk_programs {off : Word} {data : List Byte}
    (asks : Asks r 0x0031 ([area] ++ beBytes 3 r.zeros.toNat ++ beBytes 4 off.toNat ++ data) x s) (zeros : r.zeros = 0)
    (awake : s.md.mode ≠ .dormant) (next : off.toNat = w.next) (fits : w.next + data.length ≤ w.len)
    (short : data.length ≤ 1024) (good : r.flashOk = true) : ∃ t, exec (.slotChunk r area off data) s = .next t ∧
      t.hmp.answer = some { op := 0x0031, req := r.reqId.toNat, status := 0, result := [] } ∧
      t.hmp.write = some { w with next := w.next + data.length } ∧
      ∀ i, i < data.length → tget 0xFF t.boot.flash ((copyRange s w.area w.copy).1 + w.next + i) =
        tget 0xFF s.boot.flash ((copyRange s w.area w.copy).1 + w.next + i) &&& nth 0xFF data i := by
  refine ⟨_, exec_slotChunk ongoing owner named asks zeros awake next fits short good, ?_⟩
  rw [settle_hmp_answer, settle_hmp_write, settle_boot, hmpAnswer_answer, hmpAnswer_write, hmpAnswer_boot]
  exact ⟨rfl, rfl, fun i inside => flProgram_byte _ _ _ inside⟩

theorem slotChunk_refused {off : Word} {data : List Byte}
    (asks : Asks r 0x0031 ([area] ++ beBytes 3 r.zeros.toNat ++ beBytes 4 off.toNat ++ data) x s) (zeros : r.zeros = 0)
    (awake : s.md.mode ≠ .dormant) (other : off.toNat ≠ w.next) : ∃ t, exec (.slotChunk r area off data) s = .next t ∧
      t.hmp.answer = some { op := 0x0031, req := r.reqId.toNat, status := 1, result := [] } ∧
      t.hmp.write = s.hmp.write ∧ t.boot.flash = s.boot.flash := by
  refine ⟨_, exec_slotChunk_misplaced ongoing owner named asks zeros awake other, ?_⟩
  rw [settle_hmp_answer, settle_hmp_write, settle_boot, hmpAnswer_answer, hmpAnswer_write, hmpAnswer_boot]
  exact ⟨rfl, rfl, rfl⟩

section
variable (asks : Asks r 0x0032 [area] x s) (awake : s.md.mode ≠ .dormant) (whole : w.next = w.len) (empty : s.hmp.waits = [])
include asks awake whole empty

/-- A copy that an edit holds waits for it. -/
theorem slotCommit_holds (good : readBack (asked r x s) w.area w.copy = true) (held : w.hold ≠ 0) :
    ∃ t g, exec (.slotCommit r area) s = .next t ∧ t.hmp.write = none ∧ t.hmp.held = some w ∧
      t.hmp.answer = some { op := 0x0032, req := r.reqId.toNat, status := 0, result := beBytes 4 g } ∧
      t.boot.flash = s.boot.flash := by
  have committed := exec_slotCommit ongoing owner named asks awake whole
  rw [good, if_neg (by decide), if_pos held] at committed
  obtain ⟨g, v, drawn, only⟩ : ∃ g v, drawNat (2 ^ 32) (asked r x s) = (g, v) ∧ ∃ free, v = { asked r x s with free := free } :=
    ⟨_, _, rfl, _, rfl⟩
  obtain ⟨free, rfl⟩ := only
  rw [drawn] at committed
  dsimp only at committed
  rw [nextWrite_none (by rw [hmpAnswer_waits]; exact empty)] at committed
  refine ⟨_, g, committed, ?_⟩
  rw [settle_hmp_write, settle_hmp_held, settle_hmp_answer, settle_boot, hmpAnswer_write, hmpAnswer_held, hmpAnswer_answer,
    hmpAnswer_boot]
  exact ⟨rfl, rfl, rfl, rfl⟩

theorem slotCommit_fails (bad : readBack (asked r x s) w.area w.copy = false) : ∃ t,
    exec (.slotCommit r area) s = .next t ∧ t.hmp.write = none ∧
      t.hmp.answer = some { op := 0x0032, req := r.reqId.toNat, status := 5, result := [] } ∧ t.boot.flash = s.boot.flash := by
  have committed := exec_slotCommit ongoing owner named asks awake whole
  rw [bad, if_pos (by decide)] at committed
  obtain ⟨ended, answer, boot⟩ := abandoned_answered (r := r) (x := x) ongoing empty 0x0032 5
  refine ⟨_, committed, ?_⟩
  rw [settle_hmp_write, settle_hmp_answer, settle_boot, ended, answer, boot]
  exact ⟨rfl, rfl, rfl⟩

end

theorem slotAbort_ends (asks : Asks r 0x0033 [area] x s) (empty : s.hmp.waits = []) : ∃ t,
    exec (.slotAbort r area) s = .next t ∧ t.hmp.write = none ∧
      t.hmp.answer = some { op := 0x0033, req := r.reqId.toNat, status := 0, result := [] } ∧ t.boot.flash = s.boot.flash := by
  obtain ⟨ended, answer, boot⟩ := abandoned_answered (r := r) (x := x) ongoing empty 0x0033 0
  refine ⟨_, exec_slotAbort ongoing owner named asks, ?_⟩
  rw [settle_hmp_write, settle_hmp_answer, settle_boot, ended, answer, boot]
  exact ⟨rfl, rfl, rfl⟩

end

/-- A key sector rewritten closes the sessions of its keys, and no other. -/
theorem keyWrite_closes {sector mask : Byte} {hmpId klpId : Word} {hmpKey klpKey : BitVec 256}
    (asks : Asks r 0x0050 ([sector, mask] ++ beBytes 2 r.zeros.toNat ++ beBytes 4 hmpId.toNat ++ beBytes 32 hmpKey.toNat ++
      beBytes 4 klpId.toNat ++ beBytes 32 klpKey.toNat) x s) (zeros : r.zeros = 0) (good : r.flashOk = true)
    (first : sector.toNat ≤ 1) (masked : mask.toNat ≤ 3) (two : 8192 ≤ s.img.keyLen) (other : x.inst ≠ sector.toNat) : ∃ t,
      exec (.keyWrite r sector mask hmpId hmpKey klpId klpKey) s = .next t ∧
      t.hmp.answer = some { op := 0x0050, req := r.reqId.toNat, status := 0, result := [] } ∧
      (∀ y ∈ t.hmp.sess, y.inst ≠ sector.toNat) ∧
      ∀ y ∈ s.hmp.sess, y.inst ≠ sector.toNat → y.num ≠ x.num →
        (∀ z ∈ s.hmp.sess, z.inst = sector.toNat → z.num ≠ y.num) → s.hmp.waits = [] → y ∈ t.hmp.sess := by
  obtain ⟨o, recs, written⟩ := exec_keyWrite asks zeros good first masked two other
  have num := asks_num asks
  refine ⟨_, written, ?_⟩
  rw [settle_hmp_answer, settle_hmp_sess, hmpAnswer_answer]
  have answered := hmpAnswer_sess x.num (0x0050 * 2 ^ 32 + r.reqId.toNat) 0 []
    (raise 0x1804 (sector.toNat * 256 + mask.toNat) (closeKeyed sector.toNat (rekeyed o recs (asked r x s))))
  rw [raise_hmp, Nat.mod_eq_of_lt num] at answered
  refine ⟨rfl, fun y hy keyed => ?_, fun y hy _ another apart empty => ?_⟩
  · obtain ⟨z, hz, -, inst⟩ := answered.same y hy
    exact closeKeyed_closes _ _ z hz (inst.trans keyed)
  · refine answered.others y (closeKeyed_keeps ?_ ?_ ?_) another
    · rw [rekeyed_hmp, asked_waits, empty]
    · rw [rekeyed_hmp]
      exact asked_sess_other num hy another
    · intro z hz keyed
      rw [rekeyed_hmp] at hz
      rcases asked_sess num hz with ⟨hz, -⟩ | ⟨-, inst⟩
      · exact apart z hz keyed
      · exact absurd (inst.symm.trans keyed) other

theorem fuseCustkey_fuses {hash tight : BitVec 256} (asks : Asks r 0x0051 (beBytes 32 hash.toNat) x s) (irrev : r.irrev = true)
    (hold : s.md.mode = .hold) (blank : s.boot.custKey = 0) : ∃ t, exec (.fuseCustkey r hash tight) s = .next t ∧
      t.boot.fuses.customer = hashWords hash.toNat tight.toNat ∧
      t.boot.custKey = custState (hashWords hash.toNat tight.toNat) ∧ t.boot.fuses.seorfen = s.boot.fuses.seorfen ∧
      t.hmp.answer = some {
        op := 0x0051, req := r.reqId.toNat, status := if t.boot.custKey = 2 then 5 else 0,
        result := beBytes 4 (fuseStat t) } := by
  obtain ⟨u, fused, done⟩ := exec_fuseCustkey (tight := tight) asks irrev hold blank
  refine ⟨_, done, ?_⟩
  rw [settle_hmp_answer, hmpAnswer_answer, fuseStat_congr (answered_boot ..), answered_boot, fused]
  exact ⟨rfl, rfl, rfl, rfl⟩

theorem fuseCustkey_refused {hash : BitVec 256} (tight : BitVec 256) (asks : Asks r 0x0051 (beBytes 32 hash.toNat) x s)
    (refused : s.md.mode ≠ .hold ∨ r.irrev = false) : ∃ t, exec (.fuseCustkey r hash tight) s = .next t ∧
      t.hmp.answer = some { op := 0x0051, req := r.reqId.toNat, status := 2, result := [] } ∧ t.boot = s.boot := by
  refine ⟨_, exec_fuseCustkey_refused asks refused, ?_⟩
  rw [settle_hmp_answer, hmpAnswer_answer, settle_boot, hmpAnswer_boot]
  exact ⟨rfl, rfl⟩

theorem fuseDebuglock_fuses {tight : Bool} (asks : Asks r 0x0052 [] x s) (irrev : r.irrev = true) (hold : s.md.mode = .hold) :
    ∃ t, exec (.fuseDebuglock r tight) s = .next t ∧ t.boot.debugLock = true ∧
      t.boot.fuses.debugLock = { normal := 1, tight := b2n tight } ∧
      t.hmp.answer = some { op := 0x0052, req := r.reqId.toNat, status := 0, result := beBytes 4 (fuseStat t) } := by
  obtain ⟨u, fused, done⟩ := exec_fuseDebuglock (tight := tight) asks irrev hold
  refine ⟨_, done, ?_⟩
  rw [settle_hmp_answer, hmpAnswer_answer, fuseStat_congr (answered_boot ..), answered_boot, fused]
  exact ⟨rfl, rfl, rfl⟩

end

/-! ## The statement -/

/-- Settles O56: where a request is taken its op runs (`exec_asks`), and each op does what its own lemma says. -/
theorem hmpControl : Obligations.HmpControl := by
  unfold Obligations.HmpControl
  intro r x s u id said posted
  refine ⟨fun target clear asks => ⟨fun known awake room => ?_, hmpMode_wakes asks⟩,
    fun kind arg off asks zeros awake room => ?_, fun thr => hmpReset_resets,
    fun off data asks fits => ⟨fun v => shadowWrite_word asks fits, shadowWrite_refused asks fits⟩,
    fun area len hold asks zeros first last awake long fits idle empty =>
      ⟨slotBegin_begins asks zeros first last awake long fits idle empty,
        slotBegin_fails asks zeros first last awake long fits idle empty⟩,
    fun w ongoing owner awake area named => ⟨fun off data asks zeros =>
        ⟨slotChunk_programs ongoing owner named asks zeros awake, slotChunk_refused ongoing owner named asks zeros awake⟩,
      fun asks whole empty => ⟨fun good now => ?_, slotCommit_holds ongoing owner named asks awake whole empty,
        slotCommit_fails ongoing owner named asks awake whole empty⟩, slotAbort_ends ongoing owner named⟩,
    fun sector mask hmpId klpId hmpKey klpKey => keyWrite_closes,
    fun hash tight asks => ⟨fuseCustkey_fuses asks, fuseCustkey_refused tight asks⟩, fun tight => fuseDebuglock_fuses⟩
  · rw [exec_hmpMode asks known awake, postEntry_room (u := asked r x s) room]
    rfl
  · rw [exec_hmpEditRing asks zeros awake, postEntry_room (u := asked r x s) room]
    rfl
  · have committed := exec_slotCommit ongoing owner named asks awake whole
    rw [show readBack (asked r x s) w.area w.copy = true from good, if_neg (by decide), if_neg (not_not_intro now)] at committed
    exact committed

end Sys2Proof.Machine
end

section
/-! Threading's end, the supplies and the fuses (R73, R90, R91, R427, R450, R507): what step 11, the switchover to VBAK, a stop
of the core and a re-read of the fuses change; and the statement O36. -/

namespace Sys2Proof.Machine

/-! ## Events alone -/

/-- `t` is `s` but for the events. -/
def OnlyNoted (s t : State) : Prop := ∃ ev, t = { s with evt := ev }

namespace OnlyNoted

variable {s t u : State}

theorem refl (s : State) : OnlyNoted s s := ⟨s.evt, rfl⟩

theorem trans (h : OnlyNoted s t) (g : OnlyNoted t u) : OnlyNoted s u := by
  obtain ⟨_, rfl⟩ := h
  obtain ⟨_, rfl⟩ := g
  exact ⟨_, rfl⟩

theorem foldl {β : Type} {f : State → β → State} (h : ∀ s x, OnlyNoted s (f s x)) (l : List β) (s : State) :
    OnlyNoted s (l.foldl f s) := by
  induction l generalizing s with
  | nil => exact refl s
  | cons x l ih => exact (h s x).trans (ih _)

end OnlyNoted

theorem raise_noted {code : Nat} (arg : Nat) (s : State) (calm : classOf code ≠ 0x46) : OnlyNoted s (raise code arg s) :=
  ⟨_, raise_calm code arg s calm⟩

/-! ## Step 11 (R73) -/

/-- `t` is `s` but for the events and the backup domain. -/
def OnlyReported (s t : State) : Prop := ∃ ev rtc, t = { s with evt := ev, rtc := rtc }

namespace OnlyReported

variable {s t u : State}

theorem of_noted (h : OnlyNoted s t) : OnlyReported s t := by
  obtain ⟨ev, rfl⟩ := h
  exact ⟨ev, s.rtc, rfl⟩

theorem trans (h : OnlyReported s t) (g : OnlyReported t u) : OnlyReported s u := by
  obtain ⟨_, _, rfl⟩ := h
  obtain ⟨_, _, rfl⟩ := g
  exact ⟨_, _, rfl⟩

theorem ite {c : Prop} [Decidable c] (h : OnlyReported s t) (g : OnlyReported s u) : OnlyReported s (if c then t else u) := by
  split
  · exact h
  · exact g

end OnlyReported

theorem reportBackup_reported (s : State) : OnlyReported s (reportBackup s) := by
  have same : ∀ u, OnlyReported u u := fun u => .of_noted (.refl u)
  unfold reportBackup
  extract_lets switched _ alarmed dated
  have switches : OnlyReported s switched := .ite (.of_noted (raise_noted _ s (by decide))) (same s)
  have alarms : OnlyReported switched alarmed := .ite ⟨_, _, rfl⟩ (same switched)
  have dates : OnlyReported alarmed dated := .ite (same alarmed) (.of_noted (raise_noted _ alarmed (by decide)))
  exact (switches.trans (alarms.trans dates)).trans ⟨_, _, rfl⟩

/-- Step 11 completes THREAD_STAT and asks for the lanes of lane_on; else it changes only events and the backup domain. -/
theorem step11_completes (s : State) : ∃ ev rtc, step11 s = { s with
    evt := ev, rtc := rtc,
    md := { s.md with thStat := 15, thDone := true, laneReq := maskOf 8 fun l => laneUsed s l && bitOf (laneOn s) l } } := by
  obtain ⟨ev, rtc, told⟩ := OnlyReported.trans (.of_noted (raise_noted s.md.rstCause s (by decide : classOf 0x0305 ≠ 0x46)))
    (reportBackup_reported (raise 0x0305 s.md.rstCause s))
  exact ⟨ev, rtc, by rw [step11, told]; rfl⟩

theorem exec_threadingComplete {s : State} (threading : s.md.mode = .thread) (due : s.md.thStat = 11)
    (free : s.wd.hold = false) : exec .threadingComplete s = .next (settle (step11 s)) := by
  change execThreadingComplete s = _
  rw [execThreadingComplete, if_pos (by simp [threading, due, free])]
  rfl

/-! ## The switchover to VBAK (R427) -/

/-- An alarm that fires on VBAK is kept for the next report; nothing else changes. -/
def OnlyAlarmed (s t : State) : Prop := ∃ fired pin bk first sec, t = { s with
  rtc := { s.rtc with fired := fired, pin := pin, almBk := bk, almFirst := first, almBkSec := sec } }

theorem alarmFires_vbak (n : Nat) {s : State} (vbak : s.rtc.onVbak = true) :
    OnlyAlarmed s (alarmFires n { s with rtc.fired := clrBit s.rtc.fired n }) := by
  unfold alarmFires
  rw [if_pos vbak]
  exact ⟨_, _, _, _, _, rfl⟩

theorem alarms_vbak (l : List Nat) {s : State} (vbak : s.rtc.onVbak = true) :
    OnlyAlarmed s (l.foldl (fun s n => alarmFires n { s with rtc.fired := clrBit s.rtc.fired n }) s) := by
  induction l generalizing s with
  | nil => exact ⟨_, _, _, _, _, rfl⟩
  | cons n l ih =>
    obtain ⟨_, _, _, _, _, fires⟩ := alarmFires_vbak n vbak
    obtain ⟨_, _, _, _, _, rest⟩ := ih (s := alarmFires n { s with rtc.fired := clrBit s.rtc.fired n }) (by rw [fires]; exact vbak)
    rw [List.foldl_cons, rest, fires]
    exact ⟨_, _, _, _, _, rfl⟩

/-- The backup domain as it goes over to VBAK: the charger off, the switchover counted, the first one dated. -/
def switchedOver (s : State) : State :=
  { s with rtc := { s.rtc with
    onVbak := true, charger := 0, swCnt := satInc 65535 s.rtc.swCnt
    swFirst := if s.rtc.swCnt = 0 then s.rtc.sec else s.rtc.swFirst } }

theorem toVbak_switches {s : State} (main : s.rtc.onVbak = false) : OnlyAlarmed (switchedOver s) (toVbak s) := by
  unfold toVbak
  rw [main, if_neg Bool.false_ne_true]
  exact alarms_vbak _ (s := switchedOver s) rfl

/-! ## A stop of the core (R427, R507) -/

/-- Stopping the core stops the engine, LPOWN, the wake sequence and the field link's traffic, and ends a trial and WD-C. -/
theorem coreStops_stops (s : State) : ∃ trial wd, coreStops s = { s with
    trial := trial, wd := wd, exe := stoppedExe s.exe,
    felt := { s.felt with lpown := false },
    md := { s.md with stepDown := none, wakeStep := 0 },
    fl := { s.fl with sweep := none, carrier := none, urg := [], fly := [] } } := by
  obtain ⟨trial, staged⟩ := trialToStaged_only (stopEngine { s with
    felt.lpown := false, md.stepDown := none, md.wakeStep := 0, fl.sweep := none, fl.carrier := none, fl.urg := [], fl.fly := [] })
  exact ⟨trial, _, by rw [coreStops, staged]; rfl⟩

theorem setMode_enters (m : Mode) (s : State) :
    ∃ ev prev, setMode m s = { s with evt := ev, md := { s.md with mode := m, prev := prev } } := by
  unfold setMode
  split
  next already => exact ⟨s.evt, s.md.prev, by rw [← already]⟩
  next => exact ⟨_, _, rfl⟩

/-- What a unit whose core has lost its supplies has given up, and what it keeps. -/
structure BackedUp (s t : State) : Prop where
  mode : t.md.mode = .backup
  engine : t.exe.inCycle = false
  lpown : t.felt.lpown = false
  isl : t.isl = s.isl
  rtc : t.rtc = s.rtc
  rows : t.ret.rows = s.ret.rows
  blocks : t.fl.blocks = s.fl.blocks

theorem setMode_coreStops_backedUp (s : State) : BackedUp s (setMode .backup (coreStops s)) := by
  obtain ⟨_, _, stops⟩ := coreStops_stops s
  obtain ⟨_, _, enters⟩ := setMode_enters .backup (coreStops s)
  rw [enters, stops]
  exact ⟨rfl, rfl, rfl, rfl, rfl, rfl, rfl⟩

theorem BackedUp.settled {s t : State} (h : BackedUp s t) : BackedUp s (settle t) where
  mode := by rw [settle_md, h.mode]
  engine := by rw [settle_exe, h.engine]
  lpown := by rw [settle_felt, h.lpown]
  isl := by rw [settle_isl, h.isl]
  rtc := by rw [settle_rtc, h.rtc]
  rows := by rw [settle_ret_rows, h.rows]
  blocks := by rw [settle_fl, h.blocks]

theorem exec_vddIoFail {s : State} (powered : s.md.mode ≠ .backup) :
    exec .vddIoFail s = .next (settle (setMode .backup (coreStops (toVbak s)))) := by
  change execVddIoFail s = _
  rw [execVddIoFail, if_neg powered]
  rfl

theorem exec_powerGoodLoss (s : State) : exec .powerGoodLoss s =
    .next (settle { setMode .backup (coreStops s) with md.powerGood := false }) := rfl

/-- A loss of power-good is a stop of the core that only a power-on reset ends. -/
theorem powerGoodLoss_stops (s : State) :
    ∃ t, exec .powerGoodLoss s = .next t ∧ t.md.powerGood = false ∧ BackedUp s t := by
  refine ⟨_, exec_powerGoodLoss s, by rw [settle_md], BackedUp.settled ?_⟩
  obtain ⟨mode, engine, lpown, isl, rtc, rows, blocks⟩ := setMode_coreStops_backedUp s
  exact ⟨mode, engine, lpown, isl, rtc, rows, blocks⟩

/-! ## The fuses (R90, R91) -/

theorem fuseDue_iff (temp : Int) (s : State) : fuseDue temp s ≠ 0 ↔
    s.boot.fuseE + 3600 * 400000000 ≤ s.clk.boundaryE ∨ 30 < (temp - s.boot.fuseTemp).natAbs := by
  unfold fuseDue
  split
  next passed => simp [passed]
  next early =>
    split
    next far => simp [far]
    next near => simp [early, near]

/-- Every read notes events, takes the counts with its cause, place and temperature, and adds a report. -/
theorem fuseCommon_reads (cause : Nat) (temp : Int) (s : State) : ∃ ev ret marginal unresolved, fuseCommon cause temp s =
    { s with evt := ev, ret := ret, boot := { s.boot with
      marginal := marginal, unresolved := unresolved, fuseCause := cause, fuseE := s.clk.boundaryE, fuseTemp := temp } } := by
  unfold fuseCommon
  extract_lets f ws un marginal unresolved
  have noted : OnlyNoted s unresolved :=
    .trans (.foldl (fun s _ => raise_noted _ s (by decide)) ws s) (.foldl (fun s i => raise_noted i s (by decide)) un marginal)
  clear_value unresolved
  obtain ⟨ev, rfl⟩ := noted
  exact ⟨ev, _, _, _, rfl⟩

/-- A re-read in service moves the debug lock and both key positions only toward the conservative side, and no trim. -/
theorem fuseReread_reads (cause : Nat) (temp : Int) (s : State) : ∃ ev ret marginal unresolved last, fuseReread cause temp s =
    { s with evt := ev, ret := ret, boot := { s.boot with
      marginal := marginal, unresolved := unresolved, fuseCause := cause, fuseE := s.clk.boundaryE, fuseTemp := temp,
      debugLock := s.boot.debugLock || lockState s.boot.fuses.debugLock,
      custKey := if custState s.boot.fuses.customer = 2 then 2 else s.boot.custKey,
      seorfenKey := s.boot.seorfenKey && keyUsable s.boot.fuses.seorfen,
      lastRead := last } } := by
  unfold fuseReread
  extract_lets f new n changed read told
  have tells : OnlyNoted read told := .foldl (fun s _ => raise_noted _ s (by decide)) changed read
  clear_value told
  obtain ⟨ev, rfl⟩ := tells
  obtain ⟨_, ret, marginal, unresolved, reads⟩ := fuseCommon_reads cause temp s
  replace reads : read = _ := reads
  clear_value read new
  subst reads
  exact ⟨ev, ret, marginal, unresolved, new, rfl⟩

theorem exec_fuseReread {temp : BitVec 16} {s : State} (powered : s.md.mode ≠ .backup) (threaded : s.md.mode ≠ .thread)
    (firmware : s.boot.recovery = false) (due : fuseDue temp.toInt s ≠ 0) :
    exec (.fuseReread temp) s = .next (settle (fuseReread (fuseDue temp.toInt s) temp.toInt s)) := by
  change execFuseReread temp s = _
  rw [execFuseReread, if_neg (by simp [powered, threaded, firmware, due])]
  rfl

theorem exec_fuseReread_early {temp : BitVec 16} {s : State} (early : fuseDue temp.toInt s = 0) :
    exec (.fuseReread temp) s = .next (settle s) := by
  change execFuseReread temp s = _
  rw [execFuseReread, if_pos (.inl early)]
  rfl

/-! ## PARTNER_OK (R450) -/

theorem exec_partnerOkLow (ns : Nat) (s : State) : exec (.partnerOkLow ns) s =
    .next (settle (if 1000 ≤ ns ∧ s.md.mode ≠ .backup then { s with felt.okLow := true } else s)) := rfl

/-! ## The statement -/

/-- Settles O36: each command runs the function of its situation, whose lemma says all that it changes (`step11_completes`,
`toVbak_switches` and `coreStops_stops`, `fuseReread_reads`), and the events delivered afterwards change none of it. -/
theorem suppliesAndFuses : Obligations.SuppliesAndFuses := by
  unfold Obligations.SuppliesAndFuses
  intro s
  refine ⟨fun threading due free => ?_, fun powered main => ?_, ?_, fun temp powered threaded firmware due => ?_,
    fun temp early cool => ?_, fun ns long powered => ?_, fun ns short => ?_⟩
  · obtain ⟨_, _, done⟩ := step11_completes s
    refine ⟨_, exec_threadingComplete threading due free, ?_⟩
    rw [settle_md, settle_exe, settle_fl, done]
    exact ⟨rfl, fun l lane => bitOf_maskOf _ lane, rfl, rfl⟩
  · obtain ⟨_, _, _, _, _, switches⟩ := toVbak_switches main
    obtain ⟨mode, engine, lpown, isl, rtc, rows, -⟩ := (setMode_coreStops_backedUp (toVbak s)).settled
    refine ⟨_, exec_vddIoFail powered, ?_⟩
    rw [mode, engine, lpown, isl, rtc, rows, switches]
    exact ⟨rfl, rfl, rfl, rfl, rfl, rfl, fun first => if_pos first, rfl, rfl, rfl⟩
  · obtain ⟨t, done, off, mode, engine, lpown, isl, rtc, -, blocks⟩ := powerGoodLoss_stops s
    exact ⟨t, done, off, mode, engine, lpown, isl, rtc, blocks⟩
  · obtain ⟨_, _, _, _, _, reads⟩ := fuseReread_reads (fuseDue temp.toInt s) temp.toInt s
    refine ⟨_, exec_fuseReread powered threaded firmware ((fuseDue_iff _ s).mpr due), ?_⟩
    rw [settle_boot, settle_md, settle_exe, reads]
    exact ⟨rfl, fun unusable => by simp [unusable], fun unusable => by simp [unusable], rfl, rfl, rfl, rfl, rfl⟩
  · refine exec_fuseReread_early (not_not.mp (mt (fuseDue_iff _ s).mp ?_))
    omega
  · rw [exec_partnerOkLow, if_pos ⟨long, powered⟩]
  · rw [exec_partnerOkLow, if_neg (by omega)]

end Sys2Proof.Machine
end

section
/-! What a context sees after it writes a bit (R117, R136, R162, R164): the statement O11. -/

namespace Sys2Proof.Machine

/-! ## Bytes written -/

/-- A write replaces the masked bits of one byte of what is seen through an overlay. -/
theorem Overlay.byte_write (o : Overlay) (a b : Nat) (v m old : Byte) : (o.write a v m).byte old b =
    if b = a then (o.byte old b &&& ~~~m) ||| (v &&& m) else o.byte old b := by
  by_cases same : b = a
  · subst same
    refine BitVec.eq_of_getLsbD_eq fun j hj => ?_
    simp only [Overlay.byte, Overlay.write, tget_tset_same, if_pos, BitVec.getLsbD_or, BitVec.getLsbD_and, BitVec.getLsbD_not]
    cases m.getLsbD j <;> simp [hj]
  · simp [Overlay.byte, Overlay.write, same]

/-- The overlay in which a context's own writes stand (R117, R162, R164, R176). -/
def ownWrites (c : Cx) (s : State) : Overlay :=
  match c with
  | .strand k => (strand k s).run.ov
  | .task => (strand 0 s).com
  | .tstrand => tget {} s.trial.coms s.trial.strand
  | .ttask => tget {} s.trial.coms 0

/-- What a context sees below its own writes. -/
def seeBelow (c : Cx) (s : State) (a : Nat) : Byte :=
  match c with
  | .strand k =>
    let x := strand k s
    let base := if inI a || inEv a then tget 0 s.exe.latched a else tget 0 s.exe.couched a
    if x.phase = .spec then x.recs.foldl (fun b r => r.ov.byte b a) base else x.com.byte base a
  | .task =>
    if inI a then tget 0 s.exe.latched a else if inEv a then tget 0 s.exe.evNext a else tget 0 s.exe.couched a
  | .tstrand | .ttask => if inI a || inEv a then tget 0 s.exe.latched a else tget 0 s.trial.sheet a

/-- The context is a strand in a fenced network, which writes where its strand's verified writes stand (R162). -/
def fenced (c : Cx) (s : State) : Bool :=
  match c with
  | .strand k => (strand k s).run.fence
  | _ => false

variable {s t : State} {c : Cx}

/-- What a strand sees below its network's writes does not rest on the network run. -/
theorem seeBelow_run (k : Nat) (r : NetRun) (s : State) (a : Nat) :
    seeBelow (.strand k) (setStrand k { strand k s with run := r } s) a = seeBelow (.strand k) s a := by
  simp only [seeBelow, strand_setStrand_same]
  rfl

theorem seeByte_eq (c : Cx) (s : State) (a : Nat) : seeByte c s a = (ownWrites c s).byte (seeBelow c s a) a := by
  cases c <;> rfl

/-- `t` has what context `c` writes and sees in `s`. -/
structure SeesSame (c : Cx) (s t : State) : Prop where
  own : ownWrites c t = ownWrites c s
  below : ∀ a, seeBelow c t a = seeBelow c s a
  fence : fenced c t = fenced c s

namespace SeesSame

variable {u : State}

theorem refl (c : Cx) (s : State) : SeesSame c s s := ⟨rfl, fun _ => rfl, rfl⟩

theorem trans (h : SeesSame c s t) (g : SeesSame c t u) : SeesSame c s u :=
  ⟨g.own.trans h.own, fun a => (g.below a).trans (h.below a), g.fence.trans h.fence⟩

theorem byte (h : SeesSame c s t) (a : Nat) : seeByte c t a = seeByte c s a := by
  rw [seeByte_eq, seeByte_eq, h.own, h.below]

end SeesSame

/-- An unfenced context writes into its own overlay and leaves alone what stands below. -/
theorem seeByte_putByte (wet : fenced c s = false) (a b : Nat) (v m : Byte) : seeByte c (putByte c a v m s) b =
    if b = a then (seeByte c s b &&& ~~~m) ||| (v &&& m) else seeByte c s b := by
  have written : ownWrites c (putByte c a v m s) = (ownWrites c s).write a v m ∧
      seeBelow c (putByte c a v m s) b = seeBelow c s b := by
    cases c with
    | strand k =>
      have unfenced : ¬ (strand k s).run.fence = true := by simpa [fenced] using wet
      rw [putByte, if_neg unfenced]
      exact ⟨by rw [ownWrites, strand_setStrand_same]; rfl, seeBelow_run _ _ s b⟩
    | task => exact ⟨by simp only [putByte, ownWrites, strand_setStrand_same], rfl⟩
    | tstrand | ttask => exact ⟨by simp only [putByte, ownWrites, tget_tmod_same], rfl⟩
  obtain ⟨own, below⟩ := written
  rw [seeByte_eq, seeByte_eq, own, below, Overlay.byte_write]

/-! ## Records and watchpoints change nothing that is seen -/

theorem watch_dbg (c : Cx) (write : Bool) (kind lo n v : Nat) (s : State) :
    ∃ dbg, watch c write kind lo n v s = { s with dbg := dbg } := by
  unfold watch
  split
  · exact ⟨s.dbg, rfl⟩
  · exact ⟨s.dbg, rfl⟩
  · split
    · split
      · exact ⟨_, rfl⟩
      · exact ⟨s.dbg, rfl⟩
    · exact ⟨s.dbg, rfl⟩

theorem watch_sees (write : Bool) (kind lo n v : Nat) (s : State) : SeesSame c s (watch c write kind lo n v s) := by
  obtain ⟨_, watched⟩ := watch_dbg c write kind lo n v s
  rw [watched]
  cases c <;> exact ⟨rfl, fun _ => rfl, rfl⟩

theorem noteWr_sees (c : Cx) (kind idx : Nat) (s : State) : SeesSame c s (noteWr c kind idx s) := by
  unfold noteWr
  cases c with
  | strand k => exact ⟨by rw [setRun, ownWrites, strand_setStrand_same]; rfl, seeBelow_run k _ s,
      by rw [setRun, fenced, strand_setStrand_same]; rfl⟩
  | tstrand => exact ⟨rfl, fun _ => rfl, rfl⟩
  | task | ttask =>
    unfold setRun
    dsimp only
    split <;> exact ⟨rfl, fun _ => rfl, rfl⟩

theorem noteTaskWr_sees (blk : Nat) (s : State) : SeesSame .task s (noteTaskWr blk s) := by
  unfold noteTaskWr
  split
  · exact .refl _ s
  · exact ⟨by simp only [ownWrites, strand_setStrand_same]; rfl, fun _ => rfl, rfl⟩

theorem noteWrite_sees (c : Cx) (kind idx : Nat) (s : State) : SeesSame c s (noteWrite c kind idx s) := by
  cases c with
  | task => exact (noteWr_sees _ _ _ s).trans (noteTaskWr_sees _ _)
  | strand | tstrand | ttask => exact noteWr_sees _ _ _ s

/-! ## Bits -/

/-- The mask of a bit within its byte. -/
def bitMask (i : Nat) : Byte := BitVec.ofNat 8 (2 ^ (i % 8))

theorem bitMask_bit (i : Nat) : (bitMask i).getLsbD (i % 8) = true := by
  have inside : i % 8 < 8 := Nat.mod_lt i (by decide)
  rw [bitMask, BitVec.getLsbD_ofNat, Nat.testBit_two_pow_self, decide_eq_true inside, Bool.and_true]

theorem seeByte_putBit (wet : fenced c s = false) (k i b : Nat) (v : Bool) : seeByte c (putBit c k i v s) b =
    if b = bitAddr k i then (seeByte c s b &&& ~~~bitMask i) ||| ((if v then bitMask i else 0) &&& bitMask i)
    else seeByte c s b := by
  have noted := noteWrite_sees c k i s
  rw [putBit, (watch_sees _ _ _ _ _ _).byte, seeByte_putByte (noted.fence.trans wet), noted.byte]
  rfl

theorem seeBit_eq {k : Nat} (bit : k ≤ 2) (c : Cx) (s : State) (i : Nat) :
    seeBit c s k i = (seeByte c s (bitAddr k i)).getLsbD (i % 8) := by
  rw [seeBit, if_neg (by omega), if_neg (by omega), if_neg (by omega), bitOf_toNat]

/-- Settles O11: the write replaces one bit of one byte of what the context sees (`seeByte_putBit`). -/
theorem bitWriteReads : Obligations.BitWriteReads := by
  unfold Obligations.BitWriteReads
  intro c k i v s bit wet
  have seen := fun b => seeByte_putBit (c := c) (s := s) wet k i b v
  refine ⟨?_, fun a other => ?_⟩
  · rw [seeBit_eq bit, seen, if_pos rfl]
    cases v <;> simp [bitMask_bit]
  · rw [seen, if_neg other]

end Sys2Proof.Machine
end

section
/-! Immediate output, lane words, reams and the flush request (R129, R130, R151, R152, R178): the statement O19. -/

namespace Sys2Proof.Machine

section

variable {w : Who} {md : BitVec 2} {x : BitVec 24} {c : Cx} {s : State}

/-! ## Immediate output (R151, R178) -/

theorem qimm_taken (takes : Takes w 0x35 md.toNat x.toNat c s) :
    let i := resolveIdx (xReg x.toNat) (xOff x.toNat) (regsOf c s).l
    let la := if md = 1 then !(regsOf c s).la else (regsOf c s).la
    let b := putBit c 1 i la s
    exec (.qimm w md x) s = .next (settle (wordDone c (pcOf c s) 1
      (if isLive c then { b with exe.qimm := b.exe.qimm ++ [(i, la)] } else b))) := by
  show execQimm w md x s = _
  simp only [execQimm, ok, takeWord_takes _ takes (by decide) (by decide), laMod_eq]

/-! ## Lane words (R130, R178) -/

/-- The state after lane-event word `k` of the context's lane is read into A. -/
def withEvent (c : Cx) (k : Nat) (s : State) : State :=
  let ev := 15360 + 16 * (regsOf c s).l.toNat + k % 16
  let u := (getWord c 3 ev s).2
  setRegs c { regsOf c u with a := seeWord c s 3 ev } u

theorem lev_taken (takes : Takes w 0x36 0 x.toNat c s) :
    exec (.lev w x) s = .next (settle (wordDone c (pcOf c s) 1 (withEvent c x.toNat s))) := by
  show execLev w x s = _
  simp only [execLev, ok, takeWord_takes _ takes (by decide) (by decide)]
  rfl

theorem levc_taken (takes : Takes w 0x37 0 x.toNat c s) :
    let a := withEvent c x.toNat s
    let e := ((regsOf c s).l.toNat, x.toNat % 16)
    exec (.levc w x) s = .next (settle (wordDone c (pcOf c s) 1
      (if isLive c = true ∧ e ∉ a.exe.taken then { a with exe.taken := a.exe.taken ++ [e] } else a))) := by
  show execLevc w x s = _
  simp only [execLevc, ok, takeWord_takes _ takes (by decide) (by decide), Bool.and_eq_true, Bool.not_eq_true',
    List.contains_eq_mem, decide_eq_false_iff_not]
  rfl

theorem lcw_taken (takes : Takes w 0x38 0 x.toNat c s) : exec (.lcw w x) s = .next (settle (wordDone c (pcOf c s) 1
    (putWord c 3 (15488 + 16 * (regsOf c s).l.toNat + x.toNat % 16) (regsOf c s).a s))) := by
  show execLcw w x s = _
  simp only [execLcw, ok, takeWord_takes _ takes (by decide) (by decide), cmdWord]

theorem lcb_taken (takes : Takes w 0x39 md.toNat x.toNat c s) :
    let la := if md = 1 then !(regsOf c s).la else (regsOf c s).la
    exec (.lcb w md x) s = .next (settle (wordDone c (pcOf c s) 1
      (putBit c 1 (1024 * (regsOf c s).l.toNat + 992 + x.toNat % 32) la s))) := by
  show execLcb w md x s = _
  simp only [execLcb, ok, takeWord_takes _ takes (by decide) (by decide), laMod_eq]

/-! ## Reams (R152) -/

theorem outr_taken (takes : Takes w 0x3A md.toNat x.toNat c s) :
    let la := if md = 1 then !(regsOf c s).la else (regsOf c s).la
    exec (.outr w md x) s = .next (settle (wordDone c (pcOf c s) 1 ((reamLanes s (x.toNat / 65536 % 16)).foldl (fun s n =>
      putBit c (kindOf (xReg x.toNat)) (resolveIdx (xReg x.toNat) (x.toNat % 4096) (BitVec.ofNat 3 n)) la s) s))) := by
  show execOutr w md x s = _
  simp only [execOutr, ok, takeWord_takes _ takes (by decide) (by decide), laMod_eq, reamIdx]

theorem movr_taken (takes : Takes w 0x3B 0 x.toNat c s) :
    let a := (regsOf c s).a
    exec (.movr w x) s = .next (settle (wordDone c (pcOf c s) 1 ((reamLanes s (x.toNat / 65536 % 16)).foldl (fun s n =>
      putWord c 3 (resolveIdx (xReg x.toNat) (x.toNat % 4096) (BitVec.ofNat 3 n)) a s) s))) := by
  show execMovr w x s = _
  simp only [execMovr, ok, takeWord_takes _ takes (by decide) (by decide), reamIdx]

/-! ## The flush request (R129, R178) -/

theorem rfl_taken (takes : Takes w 0x3E 0 0 c s) : exec (.rfl w) s = .next (settle (wordDone c (pcOf c s) 1
    (if isLive c = true ∧ (regsOf c s).la = true then { s with exe.rfl := true } else s))) := by
  show execRfl w s = _
  simp only [execRfl, ok, takeWord_takes _ takes (by decide) (by decide), Bool.and_eq_true]

end

/-- Settles O19: each word by its own lemma; the clauses of a condition are the sides of the lemma's `if`. -/
theorem outputAndLaneWords : Obligations.OutputAndLaneWords := by
  unfold Obligations.OutputAndLaneWords
  intro w md x c s pc h la i live b ev e u a members
  refine ⟨fun takes => ⟨fun on => ?_, fun off => ?_⟩, lev_taken, fun takes => ⟨fun on fresh => ?_, fun stays => ?_⟩,
    lcw_taken, lcb_taken, outr_taken, movr_taken, fun takes => ⟨fun on set => ?_, fun stays => ?_⟩⟩
  · rw [qimm_taken takes, if_pos on]
  · rw [qimm_taken takes, if_neg off]
  · rw [levc_taken takes, if_pos ⟨on, fresh⟩]
    rfl
  · rw [levc_taken takes, if_neg fun ⟨on, fresh⟩ => stays.elim (· on) fresh]
    rfl
  · rw [rfl_taken takes, if_pos ⟨on, set⟩]
  · rw [rfl_taken takes, if_neg fun ⟨on, set⟩ => stays.elim (· on) (Bool.eq_false_iff.mp · set)]

end Sys2Proof.Machine
end

section
/-! What executing program words works on (R117, R143, R146, R148): the statement O23. -/

namespace Sys2Proof.Machine

/-- `t` is `s` but for what program words work on: the cycle engine and the trial with their sheets kept, the events, the
mode, debugging, the lane switch and the lanes' counts of refusals. -/
def OnlyRun (s t : State) : Prop :=
  ∃ md exe trial evt dbg sw lanes,
    t = { s with md := md, exe := exe, trial := trial, evt := evt, dbg := dbg, sw := sw, lanes := lanes } ∧
    exe.couched = s.exe.couched ∧ exe.latched = s.exe.latched ∧ trial.sheet = s.trial.sheet

namespace OnlyRun

variable {s t u : State}

theorem refl (s : State) : OnlyRun s s := ⟨_, _, _, _, _, _, _, rfl, rfl, rfl, rfl⟩

theorem trans (h : OnlyRun s t) (g : OnlyRun t u) : OnlyRun s u := by
  obtain ⟨_, _, _, _, _, _, _, rfl, couched, latched, sheet⟩ := h
  obtain ⟨_, _, _, _, _, _, _, rfl, couched', latched', sheet'⟩ := g
  exact ⟨_, _, _, _, _, _, _, rfl, couched'.trans couched, latched'.trans latched, sheet'.trans sheet⟩

theorem ite {p : Prop} [Decidable p] (h : OnlyRun s t) (g : OnlyRun s u) : OnlyRun s (if p then t else u) := by
  split
  · exact h
  · exact g

theorem foldl {β : Type} {f : State → β → State} (h : ∀ s x, OnlyRun s (f s x)) (l : List β) (s : State) :
    OnlyRun s (l.foldl f s) := by
  induction l generalizing s with
  | nil => exact refl s
  | cons x l ih => exact (h s x).trans (ih _)

theorem of_switch (h : SwitchAndRefusals s t) : OnlyRun s t := by
  obtain ⟨_, _, rfl, -⟩ := h
  exact ⟨_, _, _, _, _, _, _, rfl, rfl, rfl, rfl⟩

theorem of_raised (h : OnlyRaised s t) (couched : t.exe.couched = s.exe.couched) (latched : t.exe.latched = s.exe.latched) :
    OnlyRun s t := by
  obtain ⟨_, _, _, rfl⟩ := h
  exact ⟨_, _, _, _, _, _, _, rfl, couched, latched, rfl⟩

end OnlyRun

/-! ## Registers, networks and accesses -/

section

variable (s : State)

theorem setStrand_run (k : Nat) (x : Strand) : OnlyRun s (setStrand k x s) := ⟨_, _, _, _, _, _, _, rfl, rfl, rfl, rfl⟩

theorem setRun_run (c : Cx) (r : NetRun) : OnlyRun s (setRun c r s) := by
  unfold setRun
  split
  · exact setStrand_run s _ _
  · split
    · exact ⟨_, _, _, _, _, _, _, rfl, rfl, rfl, rfl⟩
    · exact .refl s
  · exact ⟨_, _, _, _, _, _, _, rfl, rfl, rfl, rfl⟩
  · split
    · exact ⟨_, _, _, _, _, _, _, rfl, rfl, rfl, rfl⟩
    · exact .refl s

theorem setRegs_run (c : Cx) (g : Regs) : OnlyRun s (setRegs c g s) := setRun_run s c _

theorem watch_run (c : Cx) (write : Bool) (kind lo n v : Nat) : OnlyRun s (watch c write kind lo n v s) := by
  obtain ⟨_, watched⟩ := watch_dbg c write kind lo n v s
  rw [watched]
  exact ⟨_, _, _, _, _, _, _, rfl, rfl, rfl, rfl⟩

theorem noteRd_run (c : Cx) (kind idx : Nat) : OnlyRun s (noteRd c kind idx s) := setRun_run s c _

theorem noteTaskWr_run (blk : Nat) : OnlyRun s (noteTaskWr blk s) := by
  unfold noteTaskWr
  split
  · exact .refl s
  · exact ⟨_, _, _, _, _, _, _, rfl, rfl, rfl, rfl⟩

theorem noteWrite_run (c : Cx) (kind idx : Nat) : OnlyRun s (noteWrite c kind idx s) := by
  have noted : OnlyRun s (noteWr c kind idx s) := setRun_run s c _
  cases c with
  | task => exact noted.trans (noteTaskWr_run _ _)
  | strand | tstrand | ttask => exact noted

theorem putByte_run (c : Cx) (a : Nat) (v m : Byte) : OnlyRun s (putByte c a v m s) := by
  cases c with
  | strand k => exact .ite (setStrand_run s _ _) (setStrand_run s _ _)
  | task => exact setStrand_run s _ _
  | tstrand | ttask => exact ⟨_, _, _, _, _, _, _, rfl, rfl, rfl, rfl⟩

theorem putBytes_run (c : Cx) (a : Nat) (bs : List Byte) : OnlyRun s (putBytes c a bs s) := by
  induction bs generalizing a s with
  | nil => exact .refl s
  | cons b bs ih => exact (putByte_run s c a b 0xFF).trans (ih _ _)

theorem putBit_run (c : Cx) (kind idx : Nat) (v : Bool) : OnlyRun s (putBit c kind idx v s) :=
  (noteWrite_run s c kind idx).trans ((putByte_run _ c _ _ _).trans (watch_run _ c _ _ _ _ _))

theorem putWord_run (c : Cx) (kind idx : Nat) (w : Word) : OnlyRun s (putWord c kind idx w s) :=
  (noteWrite_run s c kind idx).trans ((putBytes_run _ c _ _).trans (watch_run _ c _ _ _ _ _))

theorem getBit_run (c : Cx) (kind idx : Nat) : OnlyRun s (getBit c kind idx s).2 := by
  unfold getBit
  split
  · exact .refl s
  · exact (noteRd_run s c kind idx).trans (watch_run _ c _ _ _ _ _)

theorem getWord_run (c : Cx) (kind idx : Nat) : OnlyRun s (getWord c kind idx s).2 :=
  (noteRd_run s c kind idx).trans (watch_run _ c _ _ _ _ _)

/-! ## Events and halts -/

/-- A raised event changes no sheet, also where a fault stops the engine (R56, R527). -/
theorem raise_run (code arg : Nat) : OnlyRun s (raise code arg s) := by
  by_cases fault : classOf code = 0x46
  · by_cases threading : s.md.mode = .thread
    · have stopped : (raise code arg s).exe = stoppedExe s.exe := by
        rw [raise_thread arg fault threading, enterHoldF_exe]
        rfl
      exact .of_raised (raise_raised code arg s) (by rw [stopped]; rfl) (by rw [stopped]; rfl)
    · rw [raise_fault code arg s fault threading]
      exact ⟨_, _, _, _, _, _, _, rfl, rfl, rfl, rfl⟩
  · rw [raise_calm code arg s fault]
    exact ⟨_, _, _, _, _, _, _, rfl, rfl, rfl, rfl⟩

theorem haltPipe_run (k cause index : Nat) : OnlyRun s (haltPipe k cause index s) := by
  unfold haltPipe
  refine .trans ?_ (raise_run _ _ _)
  exact ⟨_, _, _, _, _, _, _, rfl, rfl, rfl, rfl⟩

theorem parityFault_run (pipe word : Nat) : OnlyRun s (parityFault pipe word s) := by
  unfold parityFault
  refine .trans ?_ (raise_run _ _ _)
  exact ⟨_, _, _, _, _, _, _, rfl, rfl, rfl, rfl⟩

theorem trialFault_run (pipe word : Nat) : OnlyRun s (trialFault pipe word s) := by
  unfold trialFault
  refine .trans ?_ (raise_run _ _ _)
  exact ⟨_, _, _, _, _, _, _, rfl, rfl, rfl, rfl⟩

/-! ## The end of a network -/

theorem countOvf_run (rd wr : BlockSet) : OnlyRun s (countOvf rd wr s) :=
  .ite ⟨_, _, _, _, _, _, _, rfl, rfl, rfl, rfl⟩ (.refl s)

theorem countBroke_run : OnlyRun s (countBroke s) := ⟨_, _, _, _, _, _, _, rfl, rfl, rfl, rfl⟩

theorem markDiffs_run (k n : Nat) (wr : BlockSet) : OnlyRun s (markDiffs k n wr s) :=
  .ite (setStrand_run s _ _) (setStrand_run s _ _)

theorem verifyWalk_run (k fuel : Nat) : OnlyRun s (verifyWalk k fuel s) := by
  induction fuel generalizing s with
  | zero => exact .refl s
  | succ fuel ih =>
    unfold verifyWalk
    dsimp only
    split
    · exact setStrand_run s _ _
    · split
      · exact .refl s
      · exact .ite ((setStrand_run s _ _).trans ((countOvf_run _ _ _).trans (ih _))) (countBroke_run s)

theorem verify_run (k : Nat) : OnlyRun s (verify k s) := verifyWalk_run s k _

theorem endTask_run (t : TaskRun) : OnlyRun s (endTask t s) := by
  unfold endTask
  extract_lets x w restarted
  have restarts : OnlyRun s restarted := .ite ((setStrand_run s _ _).trans (countBroke_run _)) (.refl s)
  refine .ite (restarts.trans (.trans ?_ (verify_run _ 0))) restarts
  exact ⟨_, _, _, _, _, _, _, rfl, rfl, rfl, rfl⟩

theorem trialSettle_run (fuel : Nat) : OnlyRun s (trialSettle fuel s) := by
  induction fuel generalizing s with
  | zero => exact .refl s
  | succ fuel ih =>
    unfold trialSettle
    dsimp only
    split
    · exact .refl s
    · split
      · exact .ite (.trans ⟨_, _, _, _, _, _, _, rfl, rfl, rfl, rfl⟩ (ih _)) ⟨_, _, _, _, _, _, _, rfl, rfl, rfl, rfl⟩
      · exact .ite (.ite (.trans ⟨_, _, _, _, _, _, _, rfl, rfl, rfl, rfl⟩ (ih _))
          ⟨_, _, _, _, _, _, _, rfl, rfl, rfl, rfl⟩) (.refl s)

theorem endNet_run (c : Cx) : OnlyRun s (endNet c s) := by
  unfold endNet
  dsimp only
  split
  · refine .ite (setStrand_run s _ _) ?_
    exact (setStrand_run s _ _).trans ((countOvf_run _ _ _).trans ((markDiffs_run _ _ _ _).trans
      ((setStrand_run _ _ _).trans (verify_run _ _))))
  · split
    · exact .refl s
    · exact .ite ⟨_, _, _, _, _, _, _, rfl, rfl, rfl, rfl⟩
        (.trans ⟨_, _, _, _, _, _, _, rfl, rfl, rfl, rfl⟩ (endTask_run _ _))
  · exact .trans ⟨_, _, _, _, _, _, _, rfl, rfl, rfl, rfl⟩ (trialSettle_run _ 64)
  · split
    · exact .refl s
    · exact .ite ⟨_, _, _, _, _, _, _, rfl, rfl, rfl, rfl⟩
        (.trans ⟨_, _, _, _, _, _, _, rfl, rfl, rfl, rfl⟩ (trialSettle_run _ 64))

/-! ## Taking one word -/

theorem openNet_run (c : Cx) (fence : Bool) : OnlyRun s (openNet c fence s) := by
  unfold openNet
  dsimp only
  split
  · exact .ite (setStrand_run s _ _) (setRun_run s _ _)
  · exact setRun_run s _ _

theorem reopenNet_run (c : Cx) : OnlyRun s (reopenNet c s) := setRun_run s c _

theorem noteLedger_run (c : Cx) : OnlyRun s (noteLedger c s) := by
  cases c with
  | strand k => exact ⟨_, _, _, _, _, _, _, rfl, rfl, rfl, rfl⟩
  | task | tstrand | ttask => exact .refl s

theorem afterWord_run (c : Cx) : OnlyRun s (afterWord c s) := by
  unfold afterWord
  extract_lets r noted mask passed ended k
  have noting : OnlyRun s passed := (noteLedger_run s c).trans ⟨_, _, _, _, _, _, _, rfl, rfl, rfl, rfl⟩
  have ending : OnlyRun s ended := noting.trans (endNet_run _ c)
  refine .ite (.ite ?_ ending) noting
  split
  · exact .ite (ending.trans ⟨_, _, _, _, _, _, _, rfl, rfl, rfl, rfl⟩) (ending.trans (haltPipe_run _ _ _ _))
  · exact ending.trans (haltPipe_run _ _ _ _)

end

/-- A word works on no more than its body does. -/
theorem takeWord_run {body : Cx → State → State × Int} (w : Who) (op md x : Nat) (s : State)
    (h : ∀ c s, OnlyRun s (body c s).1) : OnlyRun s (takeWord w op md x body s) := by
  unfold takeWord
  split
  · exact .refl s
  · dsimp only
    split
    · exact haltPipe_run s _ _ _
    · split
      · split
        · exact parityFault_run s _ _
        · exact trialFault_run s _ _
      · split
        · refine .ite (.ite ((reopenNet_run s _).trans (afterWord_run _ _)) (.refl s)) ?_
          exact .ite ((openNet_run s _ _).trans (afterWord_run _ _)) (openNet_run s _ _)
        · split
          · exact .refl s
          · exact (h _ s).trans ((setRun_run _ _ _).trans (afterWord_run _ _))

/-! ## Operands -/

section

variable (s : State)

theorem bitOperand_run (c : Cx) (md x : Nat) : OnlyRun s (bitOperand c md x s).2 := getBit_run s c _ _

theorem presetVal_run (c : Cx) (p : Preset) : OnlyRun s (presetVal c p s).2 := by
  unfold presetVal
  split
  · exact .refl s
  · exact getWord_run s c _ _

theorem valueOperand_run (c : Cx) (md x : Nat) : OnlyRun s (valueOperand c md x s).2 := by
  unfold valueOperand
  split
  · exact .refl s
  · exact getWord_run s c _ _

theorem noteDiv0_run (c : Cx) : OnlyRun s (noteDiv0 c s) := by
  unfold noteDiv0
  have counts : OnlyRun s { s with exe.div0 := satInc 65535 s.exe.div0 } := ⟨_, _, _, _, _, _, _, rfl, rfl, rfl, rfl⟩
  refine .ite (.refl s) (.ite counts (.trans ?_ (raise_run _ _ _)))
  exact ⟨_, _, _, _, _, _, _, rfl, rfl, rfl, rfl⟩

/-! ## Messages (R153) -/

theorem readPayload_run (c : Cx) (i n : Nat) : OnlyRun s (readPayload c i n s).2 := by
  induction n generalizing i s with
  | zero => exact .refl s
  | succ n ih => exact (getWord_run s c 3 i).trans (ih _ _)

theorem msgRefused_run (c : Cx) : OnlyRun s (msgRefused c s) :=
  .trans ⟨_, _, _, _, _, _, _, rfl, rfl, rfl, rfl⟩ (setRegs_run _ c _)

/-- The lane switch's answer: only an accepted message leaves LA at 1. -/
theorem msgAnswered_run {s : State} (c : Cx) (answer : Adm × State) : OnlyRun s answer.2 →
    OnlyRun s (match answer with | (.accepted, t) => t | (_, t) => msgRefused c t) := by
  intro offered
  split
  · exact offered
  · exact offered.trans (msgRefused_run _ c)

theorem msgOffer_run (c : Cx) (i : Nat) : OnlyRun s (msgOffer c i s) := by
  have described := getWord_run s c 3 i
  unfold msgOffer
  generalize getWord c 3 i s = read at described
  obtain ⟨d, t⟩ := read
  refine .ite (described.trans (msgRefused_run t c)) ?_
  have body := described.trans (readPayload_run t c (i + 1) (ceilDiv (d.toNat % 65536) 4))
  exact msgAnswered_run c (offerPkt _ 54 false _ _) (body.trans (.of_switch (Frame.offerPkt_sr _ _ _ _ _)))

end

/-! ## The words -/

section

variable (op : Nat) (w : Who) (md : BitVec 2) (x : BitVec 24) (p : Preset) (s : State)

theorem bitRead_run (f : Bool → List Bool → Bool → Bool × List Bool) : OnlyRun s (bitRead op w md x f s) :=
  takeWord_run w op _ _ s fun c s => (bitOperand_run s c _ _).trans (setRegs_run _ c _)

theorem regOnly_run (f : Regs → Regs) : OnlyRun s (regOnly op w f s) :=
  takeWord_run w op _ _ s fun c s => setRegs_run s c _

theorem bitWrite_run (v : Bool → Option Bool) : OnlyRun s (bitWrite op w md x v s) :=
  takeWord_run w op _ _ s fun c s => by
    dsimp only
    split
    · exact putBit_run s c _ _ _
    · exact noteWrite_run s c _ _

theorem markerEdge_run (f : Bool → Bool → Bool) : OnlyRun s (markerEdge op w x f s) :=
  takeWord_run w op _ _ s fun c s => (getBit_run s c _ _).trans ((setRegs_run _ c _).trans (putBit_run _ c _ _ _))

/-- A timer or counter that a word evaluates is recorded as read and as written. -/
theorem noteInst_run (c : Cx) (kind i : Nat) : OnlyRun s (noteWrite c kind i (noteRd c kind i s)) :=
  (noteRd_run s c kind i).trans (noteWrite_run _ c kind i)

/-- The timer or counter is written back, and LA takes its output. -/
theorem putInst_run (c : Cx) (a : Nat) (bs : List Byte) (g : Regs) : OnlyRun s (setRegs c g (putBytes c a bs s)) :=
  (putBytes_run s c a bs).trans (setRegs_run _ c g)

theorem timerOp_run (typ : Nat) (eval : Timer → Bool → Nat → Nat → Timer) : OnlyRun s (timerOp op typ w md x p eval s) :=
  takeWord_run w op _ _ s fun c s => (presetVal_run s c p).trans ((noteInst_run _ c 4 _).trans (putInst_run _ c _ _ _))

theorem counterOp_run (eval : Counter → Bool → Counter) (out : Counter → Bool) :
    OnlyRun s (counterOp op w md x p eval out s) :=
  takeWord_run w op _ _ s fun c s => (presetVal_run s c p).trans ((noteInst_run _ c 5 _).trans (putInst_run _ c _ _ _))

theorem wordOp_run (f : Regs → Word → Regs) : OnlyRun s (wordOp op w md x f s) :=
  takeWord_run w op _ _ s fun c s => (valueOperand_run s c _ _).trans (setRegs_run _ c _)

theorem storeOp_run (cond : Bool → Bool) : OnlyRun s (storeOp op w x cond s) :=
  takeWord_run w op _ _ s fun c s => by
    dsimp only
    split
    · exact putWord_run s c _ _ _
    · exact noteWrite_run s c _ _

end

/-- Every program word is carried out by a function that works on no more than a program does. -/
theorem exec_word {i : Instr} (word : isWord i = true) (s : State) : ∃ u, exec i s = .next (settle u) ∧ OnlyRun s u := by
  cases i with
  | ld w md x | ldp w md x | and w md x | or w md x | xor w md x => exact ⟨_, rfl, bitRead_run _ w md x s _⟩
  | andp w | orp w | notl w | xab w | lock w | ulk w | fen w => exact ⟨_, rfl, regOnly_run _ w s _⟩
  | out w md x | set w md x | rst w md x => exact ⟨_, rfl, bitWrite_run _ w md x s _⟩
  | pedg w x | nedg w x => exact ⟨_, rfl, markerEdge_run _ w x s _⟩
  | ton w md x p | tof w md x p | tp w md x p => exact ⟨_, rfl, timerOp_run _ w md x p s _ _⟩
  | ctu w md x p | ctd w md x p => exact ⟨_, rfl, counterOp_run _ w md x p s _ _⟩
  | lda w md x | ldb w md x | add w md x | sub w md x | mul w md x | andw w md x | orw w md x | xorw w md x | shl w md x
  | shr w md x | ceq w md x | cgt w md x | clt w md x | cgtu w md x | cltu w md x =>
    exact ⟨_, rfl, wordOp_run _ w md x s _⟩
  | sta w x | movc w x => exact ⟨_, rfl, storeOp_run _ w x s _⟩
  | crst w md x =>
    refine ⟨_, rfl, takeWord_run w _ _ _ s fun c s => ?_⟩
    have noted := noteInst_run s c 5 (resolveIdx (xReg x.toNat) (xOff x.toNat) (regsOf c s).l)
    dsimp only
    split
    · exact noted.trans (putBytes_run _ c _ _)
    · exact noted
  | div w md x =>
    exact ⟨_, rfl, takeWord_run w _ _ _ s fun c s =>
      ((valueOperand_run s c _ _).trans (.ite (noteDiv0_run _ c) (.refl _))).trans (setRegs_run _ c _)⟩
  | pre w md x | jc w md x | jmp w x | net w x => exact ⟨_, rfl, takeWord_run w _ _ _ s fun _ s => .refl s⟩
  | lnxt w x =>
    refine ⟨_, rfl, takeWord_run w _ _ _ s fun c s => ?_⟩
    dsimp only
    split
    · exact setRegs_run s c _
    · exact .refl s
  | setl w x | lit w x => exact ⟨_, rfl, takeWord_run w _ _ _ s fun c s => setRegs_run s c _⟩
  | qimm w md x =>
    refine ⟨_, rfl, takeWord_run w _ _ _ s fun c s => (putBit_run s c 1 _ _).trans (.ite ?_ (.refl _))⟩
    exact ⟨_, _, _, _, _, _, _, rfl, rfl, rfl, rfl⟩
  | lev w x => exact ⟨_, rfl, takeWord_run w _ _ _ s fun c s => (getWord_run s c 3 _).trans (setRegs_run _ c _)⟩
  | levc w x =>
    refine ⟨_, rfl, takeWord_run w _ _ _ s fun c s =>
      (getWord_run s c 3 _).trans ((setRegs_run _ c _).trans (.ite ?_ (.refl _)))⟩
    exact ⟨_, _, _, _, _, _, _, rfl, rfl, rfl, rfl⟩
  | lcw w x => exact ⟨_, rfl, takeWord_run w _ _ _ s fun c s => putWord_run s c 3 _ _⟩
  | lcb w md x => exact ⟨_, rfl, takeWord_run w _ _ _ s fun c s => putBit_run s c 1 _ _⟩
  | outr w md x => exact ⟨_, rfl, takeWord_run w _ _ _ s fun c s => .foldl (fun s _ => putBit_run s c _ _ _) _ s⟩
  | movr w x => exact ⟨_, rfl, takeWord_run w _ _ _ s fun c s => .foldl (fun s _ => putWord_run s c 3 _ _) _ s⟩
  | msg w x =>
    refine ⟨_, rfl, takeWord_run w _ _ _ s fun c s => ?_⟩
    dsimp only
    split
    · exact setRegs_run s c _
    · split
      · exact msgOffer_run s c _
      · exact .refl s
  | rfl w =>
    refine ⟨_, rfl, takeWord_run w _ _ _ s fun c s => .ite ?_ (.refl s)⟩
    exact ⟨_, _, _, _, _, _, _, rfl, rfl, rfl, rfl⟩
  | _ => cases word

/-- Settles O23: what a word works on (`exec_word`) keeps every named part, and so does the delivery of events. -/
theorem wordFrame : Obligations.WordFrame := by
  unfold Obligations.WordFrame
  intro i s t word next
  obtain ⟨u, done, _, _, _, _, _, _, _, rfl, couched, latched, sheet⟩ := exec_word word s
  obtain rfl : settle _ = t := by
    rw [done] at next
    injection next
  simp [couched, latched, sheet]

end Sys2Proof.Machine
end

section
/-! The network run of a context: what is put into it is read back, and the later of two runs put into it stands. -/

namespace Sys2Proof.Machine

/-- There is a network run where context `c` has its own: a task context has a task run. -/
def HasRun (c : Cx) (s : State) : Prop := (c = .task → s.exe.tasks ≠ []) ∧ (c = .ttask → s.trial.tasks ≠ [])

variable {c : Cx} {s : State}

theorem hasRun_of_opened (opened : (runOf c s).opened = true) : HasRun c s := by
  refine ⟨?_, ?_⟩
  · rintro rfl none
    simp [runOf, none] at opened
  · rintro rfl none
    simp [runOf, none] at opened

/-- Where a pipe executes a context (R122, R176) the engine runs and the context has a run; the live contexts are those of
the pipes. -/
theorem pickCx_some {w : Who} (picked : pickCx w s = some c) : engineRuns s = true ∧ HasRun c s ∧
    (isLive c = true → ∃ k : Fin 4, w = .pipe k ∧ pipeOf c = k.val) ∧ (isLive c = false → w = .trial) := by
  cases w with
  | pipe k =>
    simp only [pickCx, Option.ite_none_left_eq_some, Bool.or_eq_true, Bool.not_eq_true', not_or, Bool.not_eq_false] at picked
    obtain ⟨⟨runs, -⟩, picked⟩ := picked
    split at picked
    · next tasks =>
      obtain ⟨-, rfl⟩ := (Option.ite_none_left_eq_some.mp picked).imp_right Option.some.inj
      exact ⟨runs, ⟨fun _ => tasks.2, nofun⟩, fun _ => ⟨k, rfl, tasks.1.symm⟩, nofun⟩
    · obtain ⟨-, rfl⟩ := (Option.ite_none_right_eq_some.mp picked).imp_right Option.some.inj
      exact ⟨runs, ⟨nofun, nofun⟩, fun _ => ⟨k, rfl, rfl⟩, nofun⟩
  | trial =>
    simp only [pickCx, Option.ite_none_right_eq_some, Bool.and_eq_true] at picked
    obtain ⟨⟨⟨⟨⟨⟨⟨runs, -⟩, -⟩, -⟩, -⟩, -⟩, -⟩, picked⟩ := picked
    split at picked
    · next tasks =>
      obtain rfl := Option.some.inj picked
      exact ⟨runs, ⟨nofun, fun _ => tasks⟩, nofun, fun _ => rfl⟩
    · obtain rfl := Option.some.inj picked
      exact ⟨runs, ⟨nofun, nofun⟩, nofun, fun _ => rfl⟩

theorem runOf_setRun (own : HasRun c s) (r : NetRun) : runOf c (setRun c r s) = r := by
  obtain ⟨live, trial⟩ := own
  cases c with
  | strand k => rw [setRun, runOf, strand_setStrand_same]
  | task =>
    obtain ⟨t, ts, runs⟩ := List.exists_cons_of_ne_nil (live rfl)
    simp only [setRun, runOf, runs]
  | tstrand => rfl
  | ttask =>
    obtain ⟨t, ts, runs⟩ := List.exists_cons_of_ne_nil (trial rfl)
    simp only [setRun, runOf, runs]

theorem regsOf_setRegs (own : HasRun c s) (g : Regs) : regsOf c (setRegs c g s) = g := by
  rw [regsOf, setRegs, runOf_setRun own]

theorem setRun_setRun (c : Cx) (r q : NetRun) (s : State) : setRun c r (setRun c q s) = setRun c r s := by
  cases c with
  | strand k => simp only [setRun, setStrand, tset_tset_same, strand, tget_tset_same]
  | tstrand => rfl
  | task => cases runs : s.exe.tasks <;> simp only [setRun, runs]
  | ttask => cases runs : s.trial.tasks <;> simp only [setRun, runs]

theorem setRegs_setRegs (own : HasRun c s) (g h : Regs) : setRegs c g (setRegs c h s) = setRegs c g s := by
  rw [setRegs, setRegs, setRun_setRun, runOf_setRun own]
  rfl

theorem progOf_setRun (c : Cx) (r : NetRun) (s : State) : progOf c (setRun c r s) = progOf c s := by
  cases c with
  | strand | tstrand => rfl
  | task | ttask =>
    unfold setRun
    dsimp only
    split <;> rfl

/-- Writing back the registers that a context has changes nothing that its next word sees. -/
theorem wordDone_setRegs_self (own : HasRun c s) (pc : Nat) (d : Int) :
    wordDone c pc d (setRegs c (regsOf c s) s) = wordDone c pc d s := by
  simp only [wordDone, setRegs, regsOf, runOf_setRun own, setRun_setRun]

end Sys2Proof.Machine
end

section
/-! Bit logic, outputs and edges (Tables 7.3 and 7.5, R139, R143): the statements O9 and O10. -/

namespace Sys2Proof.Machine

section

variable {w : Who} {op : Nat} {md : BitVec 2} {x : BitVec 24} {c : Cx} {s : State}

/-- A word that is taken, NET and LIT aside, answers with what its body leaves. -/
theorem ok_takes {m n : Nat} {body : Cx → State → State × Int} (takes : Takes w op m n c s)
    (plain : op ≠ 0x30 ∧ op ≠ 0x33 := by decide) :
    ok (takeWord w op m n body s) = .next (settle (wordDone c (pcOf c s) (body c s).2 (body c s).1)) := by
  rw [ok, takeWord_takes _ takes plain.1 plain.2]

theorem bitRead_taken {f : Bool → List Bool → Bool → Bool × List Bool} (takes : Takes w op md.toNat x.toNat c s)
    (plain : op ≠ 0x30 ∧ op ≠ 0x33 := by decide) :
    let b := (bitOperand c md.toNat x.toNat s).1
    let u := (bitOperand c md.toNat x.toNat s).2
    let g := regsOf c u
    ok (bitRead op w md x f s) = .next (settle (wordDone c (pcOf c s) 1
      (setRegs c { g with la := (f g.la g.stack b).1, stack := (f g.la g.stack b).2 } u))) :=
  ok_takes takes plain

theorem regOnly_taken {f : Regs → Regs} (takes : Takes w op 0 0 c s) (plain : op ≠ 0x30 ∧ op ≠ 0x33 := by decide) :
    ok (regOnly op w f s) = .next (settle (wordDone c (pcOf c s) 1 (setRegs c (f (regsOf c s)) s))) :=
  ok_takes takes plain

theorem markerEdge_taken {f : Bool → Bool → Bool} (takes : Takes w op 0 x.toNat c s)
    (plain : op ≠ 0x30 ∧ op ≠ 0x33 := by decide) :
    let i := resolveIdx (xReg x.toNat) (xOff x.toNat) (regsOf c s).l
    let m := (getBit c 2 i s).1
    let v := (getBit c 2 i s).2
    ok (markerEdge op w x f s) = .next (settle (wordDone c (pcOf c s) 1
      (putBit c 2 i (regsOf c v).la (setRegs c { regsOf c v with la := f (regsOf c v).la m } v)))) :=
  ok_takes takes plain

theorem bitWrite_taken (takes : Takes w op md.toNat x.toNat c s) (plain : op ≠ 0x30 ∧ op ≠ 0x33 := by decide) :
    ok (bitWrite op w md x (fun la => some la) s) = .next (settle (wordDone c (pcOf c s) 1
      (putBit c (kindOf (xReg x.toNat)) (resolveIdx (xReg x.toNat) (xOff x.toNat) (regsOf c s).l)
        (if md = 1 then !(regsOf c s).la else (regsOf c s).la) s))) := by
  rw [← laMod_eq]
  exact ok_takes takes plain

/-- A word that writes `v` where LA′ is 1 records its block also where LA′ is 0. -/
theorem bitWriteIf_taken {v : Bool} (takes : Takes w op md.toNat x.toNat c s)
    (plain : op ≠ 0x30 ∧ op ≠ 0x33 := by decide) :
    let k := kindOf (xReg x.toNat)
    let i := resolveIdx (xReg x.toNat) (xOff x.toNat) (regsOf c s).l
    let la := if md = 1 then !(regsOf c s).la else (regsOf c s).la
    ok (bitWrite op w md x (fun la => if la then some v else none) s) =
      .next (settle (wordDone c (pcOf c s) 1 (if la then putBit c k i v s else noteWrite c k i s))) := by
  refine (ok_takes takes plain).trans ?_
  rw [laMod_eq]
  cases (if md = 1 then !(regsOf c s).la else (regsOf c s).la) <;> rfl

end

/-- Settles O9: the words share five shapes, each with its lemma; ANDP and ORP have the stack's top at hand. -/
theorem bitInstructions : Obligations.BitInstructions := by
  unfold Obligations.BitInstructions
  intro w md x c s pc b u g h k i la m v
  refine ⟨fun takes => bitRead_taken takes, fun takes => bitRead_taken takes, fun takes => bitRead_taken takes,
    fun takes => bitRead_taken takes, fun takes => bitRead_taken takes, fun takes p ps top => ?_, fun takes p ps top => ?_,
    fun takes => regOnly_taken takes, fun takes => bitWrite_taken takes, fun takes => bitWriteIf_taken takes,
    fun takes => bitWriteIf_taken takes, fun takes => markerEdge_taken takes, fun takes => markerEdge_taken takes⟩
  · exact (regOnly_taken takes).trans (by rw [show (regsOf c s).stack = p :: ps from top]; rfl)
  · exact (regOnly_taken takes).trans (by rw [show (regsOf c s).stack = p :: ps from top]; rfl)

/-- Settles O10: the bit read is the one seen, and where edges are shut out the old value is the bit itself. -/
theorem bitOperandForms : Obligations.BitOperandForms := by
  unfold Obligations.BitOperandForms
  intro c x s k i v
  have read : (getBit c k i s).1 = v := by
    rw [getBit]
    split <;> rfl
  have form (md : Nat) : (bitOperand c md x s).1 = match md with
      | 0 => v
      | 1 => !v
      | 2 => v && !(if k = 0 ∧ s.exe.noEdge = true then v else couchedBit c s k i)
      | _ => !v && (if k = 0 ∧ s.exe.noEdge = true then v else couchedBit c s k i) := by
    rw [← read]
    rfl
  refine ⟨form 0, form 1, fun edges => ?_, fun image still => ?_⟩
  · rw [form, form, if_neg edges]
    exact ⟨rfl, rfl⟩
  · rw [form, form, if_pos ⟨image, still⟩]
    exact ⟨Bool.and_not_self v, Bool.not_and_self v⟩

end Sys2Proof.Machine
end

section
/-! Timers and counters (Table 7.6, R141, R144, R145): the statements O13 and O14. -/

namespace Sys2Proof.Machine

theorem toSigned_toNat {n : Nat} (v : BitVec n) : toSigned n v.toNat = v.toInt := by
  cases n with
  | zero => simp [toSigned, BitVec.of_length_zero]
  | succ n =>
    have half : 2 ^ (n + 1) = 2 * 2 ^ n := Nat.pow_succ'
    rw [BitVec.toInt_eq_toNat_cond, toSigned, Nat.mod_eq_of_lt v.isLt, Nat.add_sub_cancel]
    refine if_congr ?_ rfl rfl
    omega

theorem toSigned_range (x : Nat) : -2147483648 ≤ toSigned 32 x ∧ toSigned 32 x ≤ 2147483647 := by
  unfold toSigned
  split <;> omega

section

variable {w : Who} {op : Nat} {md : BitVec 2} {x : BitVec 24} {p : Preset} {c : Cx} {s : State}

/-! ## Timers -/

theorem timerOp_taken {typ : Nat} {eval : Timer → Bool → Nat → Nat → Timer} (takes : Takes w op md.toNat x.toNat c s)
    (plain : op ≠ 0x30 ∧ op ≠ 0x33 := by decide) :
    let i := resolveIdx (xReg x.toNat) (xOff x.toNat) (regsOf c s).l
    let u := noteWrite c 4 i (noteRd c 4 i (presetVal c p s).2)
    let pv := (presetVal c p s).1
    let pn := if pv.toInt < 1 then 1 else pv.toNat
    let g := regsOf c u
    let inp := if md = 1 then !g.la else g.la
    let t := eval { Timer.ofBytes (seeInst c u 4 i) with preset := pn } inp pn (timerTick c u)
    ok (timerOp op typ w md x p eval s) = .next (settle (wordDone c (pcOf c s) 1
      (setRegs c { g with la := t.q } (putBytes c (byteAddr 4 i) (Timer.bytes { t with inLast := inp } typ) u)))) := by
  simp only [timerOp, ok_takes takes plain, laMod_eq, toSigned_toNat]

/-- No tick has passed at the evaluation that starts the timer. -/
theorem lapse_started {t : Timer} {e : Nat} (starts : t.start = e) (p : Nat) : t.lapse e p = 0 := by
  simp [Timer.lapse, starts]

theorem lapse_early {t : Timer} {e p : Nat} (early : e - t.start < p) : t.lapse e p = e - t.start := Nat.min_eq_left early.le

theorem lapse_late {t : Timer} {e p : Nat} (late : p ≤ e - t.start) : t.lapse e p = p := Nat.min_eq_right late

/-! ## Counters -/

theorem counterOp_taken {eval : Counter → Bool → Counter} {out : Counter → Bool} {n : Counter}
    (takes : Takes w op md.toNat x.toNat c s)
    (counts : let i := resolveIdx (xReg x.toNat) (xOff x.toNat) (regsOf c s).l
      let u := noteWrite c 5 i (noteRd c 5 i (presetVal c p s).2)
      eval { Counter.ofBytes (seeInst c u 5 i) with preset := (presetVal c p s).1.toInt }
        (if md = 1 then !(regsOf c u).la else (regsOf c u).la) = n)
    (plain : op ≠ 0x30 ∧ op ≠ 0x33 := by decide) :
    let i := resolveIdx (xReg x.toNat) (xOff x.toNat) (regsOf c s).l
    let u := noteWrite c 5 i (noteRd c 5 i (presetVal c p s).2)
    let k := { n with qUp := decide (n.preset ≤ n.value), qDn := decide (n.value ≤ 0) }
    ok (counterOp op w md x p eval out s) = .next (settle (wordDone c (pcOf c s) 1
      (setRegs c { regsOf c u with la := out k } (putBytes c (byteAddr 5 i) k.bytes u)))) := by
  subst counts
  simp only [counterOp, ok_takes takes plain, laMod_eq, toSigned_toNat]

theorem ctuEval_eq {n : Counter} (low : -2147483648 ≤ n.value) (p : Int) (b : Bool) : ctuEval { n with preset := p } b =
    { n with preset := p, value := if b && !n.upLast then min (n.value + 1) 2147483647 else n.value, upLast := b } := by
  have held : sat32 (n.value + 1) = min (n.value + 1) 2147483647 := by
    unfold sat32
    omega
  rw [ctuEval, held]

theorem ctdEval_eq {n : Counter} (high : n.value ≤ 2147483647) (p : Int) (b : Bool) : ctdEval { n with preset := p } b =
    { n with preset := p, value := if b && !n.dnLast then max (n.value - 1) (-2147483648) else n.value, dnLast := b } := by
  have held : sat32 (n.value - 1) = max (n.value - 1) (-2147483648) := by
    unfold sat32
    omega
  rw [ctdEval, held]

theorem crst_taken (takes : Takes w 0x15 md.toNat x.toNat c s) :
    let i := resolveIdx (xReg x.toNat) (xOff x.toNat) (regsOf c s).l
    let z := noteWrite c 5 i (noteRd c 5 i s)
    let m := Counter.ofBytes (seeInst c z 5 i)
    exec (.crst w md x) s = .next (settle (wordDone c (pcOf c s) 1
      (if (if md = 1 then !(regsOf c z).la else (regsOf c z).la) then
        putBytes c (byteAddr 5 i) { m with value := 0, qUp := decide (m.preset ≤ 0), qDn := true }.bytes z
       else z))) := by
  show execCrst w md x s = _
  simp only [execCrst, ok_takes takes, laMod_eq, apply_ite Prod.fst, apply_ite Prod.snd, ite_self]

theorem pre_taken (takes : Takes w 0x16 md.toNat x.toNat c s) :
    exec (.pre w md x) s = .next (settle (wordDone c (pcOf c s) 1 s)) := ok_takes takes

end

/-- Settles O13: the three words by `timerOp_taken`; an evaluation turns on whether the timer starts, runs or has run
its preset, and so on what the elapsed ticks (`Timer.lapse`) are. -/
theorem timerInstructions : Obligations.TimerInstructions := by
  unfold Obligations.TimerInstructions
  refine ⟨fun w md x p c s => ⟨fun takes => timerOp_taken takes, fun takes => timerOp_taken takes,
    fun takes => timerOp_taken takes⟩, fun t p e valid => ?_⟩
  refine ⟨rfl, fun idle => ?_, fun runs early => ?_, fun runs late => ?_, rfl, fun fell => ?_, fun low idle => ?_,
    fun low runs early => ?_, fun low runs late => ?_, fun low idle => ?_, fun idle b stays => ?_, fun runs early b => ?_,
    fun runs late b => ?_⟩
  · simp [tonEval, idle, lapse_started, valid.ne]
  · simp [tonEval, runs, lapse_early early, early.ne]
  · simp [tonEval, runs, lapse_late late]
  · simp [tofEval, fell, lapse_started, valid.ne]
  · simp [tofEval, low, idle]
  · simp [tofEval, low, runs, lapse_early early, early.ne]
  · simp [tofEval, low, runs, lapse_late late]
  · simp [tpEval, low, idle, lapse_started, valid.ne]
  · have unstarted : (b && !t.inLast) = false := by
      obtain rfl | high := stays
      · rfl
      · rw [high, Bool.not_true, Bool.and_false]
    simp [tpEval, idle, unstarted]
  · simp [tpEval, runs, lapse_early early, early.ne]
  · simp [tpEval, runs, lapse_late late]

/-- Settles O14: a stored value lies within the 32-bit range (`toSigned_range`), so a count saturates at one end only. -/
theorem counterInstructions : Obligations.CounterInstructions := by
  unfold Obligations.CounterInstructions
  intro w md x p c s i u g inp n pv up dn z m
  obtain ⟨low, high⟩ : -2147483648 ≤ n.value ∧ n.value ≤ 2147483647 := toSigned_range _
  exact ⟨fun takes => (counterOp_taken (out := Counter.qUp) takes (ctuEval_eq low pv inp) :),
    fun takes => (counterOp_taken (out := Counter.qDn) takes (ctdEval_eq high pv inp) :), crst_taken, pre_taken⟩

end Sys2Proof.Machine
end

section
/-! Words, division and immediate operands (Table 7.7, R140, R146, R147): the statements O15 and O16. -/

namespace Sys2Proof.Machine

section

variable {w : Who} {op : Nat} {md : BitVec 2} {x : BitVec 24} {c : Cx} {s : State}

theorem wordOp_taken {f : Regs → Word → Regs} (takes : Takes w op md.toNat x.toNat c s)
    (plain : op ≠ 0x30 ∧ op ≠ 0x33 := by decide) :
    let v := (valueOperand c md.toNat x.toNat s).1
    let u := (valueOperand c md.toNat x.toNat s).2
    ok (wordOp op w md x f s) = .next (settle (wordDone c (pcOf c s) 1 (setRegs c (f (regsOf c u) v) u))) :=
  ok_takes takes plain

theorem storeOp_taken {cond : Bool → Bool} (takes : Takes w op 0 x.toNat c s)
    (plain : op ≠ 0x30 ∧ op ≠ 0x33 := by decide) :
    let k := kindOf (xReg x.toNat)
    let i := resolveIdx (xReg x.toNat) (xOff x.toNat) (regsOf c s).l
    ok (storeOp op w x cond s) = .next (settle (wordDone c (pcOf c s) 1
      (if cond (regsOf c s).la then putWord c k i (regsOf c s).a s else noteWrite c k i s))) := by
  simp only [storeOp, ok_takes takes plain, apply_ite Prod.fst, apply_ite Prod.snd, ite_self]

/-- Modifiers 1 and 3 negate a compare. -/
theorem negated_eq : ∀ (md : BitVec 2) (r : Bool),
    (if md.toNat % 2 = 1 then !r else r) = (r != decide (md = 1 ∨ md = 3)) := by
  decide

theorem cmpOp_taken {r : Word → Word → Bool} (takes : Takes w op md.toNat x.toNat c s)
    (plain : op ≠ 0x30 ∧ op ≠ 0x33 := by decide) :
    let v := (valueOperand c md.toNat x.toNat s).1
    let u := (valueOperand c md.toNat x.toNat s).2
    let g := regsOf c u
    ok (cmpOp op w md x r s) = .next (settle (wordDone c (pcOf c s) 1
      (setRegs c { g with la := g.la && (r g.a v != decide (md = 1 ∨ md = 3)) } u))) := by
  simp only [cmpOp, wordOp_taken takes plain, negated_eq]

theorem div_taken (takes : Takes w 0x20 md.toNat x.toNat c s) :
    let v := (valueOperand c md.toNat x.toNat s).1
    let u := (valueOperand c md.toNat x.toNat s).2
    let g := regsOf c u
    exec (.div w md x) s = .next (settle (wordDone c (pcOf c s) 1
      (setRegs c { g with a := (divS g.a v).1, b := (divS g.a v).2 } (if v = 0 then noteDiv0 c u else u)))) :=
  ok_takes takes

/-! ## Arithmetic -/

theorem mulS_low (a v : Word) : (mulS a v).extractLsb' 0 32 = BitVec.ofInt 32 (a.toInt * v.toInt) := by
  rw [mulS]
  generalize a.toInt * v.toInt = p
  apply BitVec.eq_of_toNat_eq
  simp only [BitVec.extractLsb'_toNat, BitVec.toNat_ofInt, Nat.shiftRight_zero]
  omega

theorem mulS_high (a v : Word) : (mulS a v).extractLsb' 32 32 = BitVec.ofInt 32 (a.toInt * v.toInt / 2 ^ 32) := by
  rw [mulS]
  generalize a.toInt * v.toInt = p
  apply BitVec.eq_of_toNat_eq
  simp only [BitVec.extractLsb'_toNat, BitVec.toNat_ofInt, Nat.shiftRight_eq_div_pow]
  omega

theorem shiftW_left (a v : Word) : shiftW (fun a n => a <<< n) a v = a <<< v.toNat := by
  unfold shiftW
  split
  · next far => exact (BitVec.shiftLeft_eq_zero far).symm
  · rfl

theorem shiftW_right (a v : Word) : shiftW (fun a n => a >>> n) a v = a >>> v.toNat := by
  unfold shiftW
  split
  · next far => exact (BitVec.ushiftRight_eq_zero far).symm
  · rfl

/-- Quotient and remainder of the pairs that have no rule of their own are those of truncating division. -/
theorem divS_toInt {a v : Word} (divides : v ≠ 0) (fits : ¬ (a = 0x80000000 ∧ v = 0xFFFFFFFF)) :
    (divS a v).1.toInt = a.toInt.tdiv v.toInt ∧ (divS a v).2.toInt = a.toInt.tmod v.toInt := by
  have general : a ≠ BitVec.intMin 32 ∨ v ≠ -1#32 := not_and_or.mp fits
  rw [divS, if_neg divides, if_neg fits, ← BitVec.toInt_sdiv_of_ne_or_ne a v general, ← BitVec.toInt_srem,
    BitVec.ofInt_toInt, BitVec.ofInt_toInt]
  exact ⟨rfl, rfl⟩

theorem tmod_nonpos {a : Int} (b : Int) (neg : a ≤ 0) : a.tmod b ≤ 0 := by
  have := Int.tmod_nonneg b (Int.neg_nonneg_of_nonpos neg)
  rw [Int.neg_tmod] at this
  omega

/-- A division by zero on a pipe is counted, and is an event unless the pipe raised it in this cycle. -/
theorem noteDiv0_live (live : isLive c = true) : noteDiv0 c s =
    let counted := { s with exe.div0 := satInc 65535 s.exe.div0 }
    if pipeOf c ∈ s.exe.divPipes then counted
    else raise 0x0701 (pipeOf c) { counted with exe.divPipes := pipeOf c :: s.exe.divPipes } := by
  simp only [noteDiv0, live, Bool.not_true, Bool.false_eq_true, if_false, List.contains_eq_mem, decide_eq_true_eq]

/-! ## Immediate operands -/

theorem valueOperand_imm {m : Nat} (imm : 2 ≤ m) (bare : (regsOf c s).lit = none) :
    valueOperand c m x.toNat s = (x.signExtend 32, s) := by
  rw [valueOperand, if_pos imm, bare, toSigned_toNat]
  rfl

theorem valueOperand_lit {m : Nat} (imm : 2 ≤ m) {h : Byte} (high : (regsOf c s).lit = some h) :
    valueOperand c m x.toNat s = (h ++ x, s) := by
  have joined : BitVec.ofNat 32 (h.toNat * 16777216 + x.toNat % 16777216) = h ++ x := by
    apply BitVec.eq_of_toNat_eq
    rw [BitVec.toNat_append, BitVec.toNat_ofNat, ← Nat.shiftLeft_add_eq_or_of_lt x.isLt, Nat.shiftLeft_eq]
    have := h.isLt
    omega
  rw [valueOperand, if_pos imm, high]
  exact congrArg (·, s) joined

end

/-- Settles O15: the words share three shapes, each with its lemma; MUL, the shifts and the compares are those of
`BitVec`. -/
theorem wordInstructions : Obligations.WordInstructions := by
  unfold Obligations.WordInstructions
  intro w md x c s pc v u g h neg k i product d
  refine ⟨fun takes => wordOp_taken takes, fun takes => wordOp_taken takes, fun takes => storeOp_taken takes,
    fun takes => storeOp_taken takes, fun takes => regOnly_taken takes, fun takes => wordOp_taken takes,
    fun takes => wordOp_taken takes, fun takes => ?_, div_taken, fun takes => wordOp_taken takes,
    fun takes => wordOp_taken takes, fun takes => wordOp_taken takes, fun takes => ?_, fun takes => ?_,
    fun takes => ?_, fun takes => ?_, fun takes => ?_, fun takes => ?_, fun takes => ?_⟩
  · exact (wordOp_taken takes).trans (by rw [mulS_low, mulS_high])
  · exact (wordOp_taken takes).trans (by rw [shiftW_left])
  · exact (wordOp_taken takes).trans (by rw [shiftW_right])
  · exact (cmpOp_taken takes).trans (by rw [beq_eq_decide])
  · exact (cmpOp_taken takes).trans (by rw [← BitVec.slt_eq_decide])
  · exact (cmpOp_taken takes).trans (by rw [← BitVec.slt_eq_decide])
  · exact (cmpOp_taken takes).trans (by rw [← BitVec.ult_eq_decide])
  · exact (cmpOp_taken takes).trans (by rw [← BitVec.ult_eq_decide])

/-- Settles O16: outside the two special pairs DIV is truncating division (`divS_toInt`), whose remainder has the
dividend's sign. -/
theorem divisionAndImmediates : Obligations.DivisionAndImmediates := by
  unfold Obligations.DivisionAndImmediates
  refine ⟨fun a => rfl, rfl, fun a v divides fits => ?_, fun w md x c s takes => div_taken takes, fun c s live => ?_,
    fun first s => rfl, fun c x s m imm => ⟨valueOperand_imm imm, fun h => valueOperand_lit imm⟩⟩
  · obtain ⟨quotient, remainder⟩ := divS_toInt divides fits
    have divisor : v.toInt ≠ 0 := fun zero => divides (BitVec.eq_of_toInt_eq zero)
    rw [quotient, remainder]
    refine ⟨Int.tdiv_mul_add_tmod _ _, ?_, Int.tmod_nonneg _, tmod_nonpos _⟩
    rw [Int.natAbs_tmod]
    exact Nat.mod_lt _ (Int.natAbs_pos.mpr divisor)
  · rw [noteDiv0_live live]
    exact ⟨fun raised => if_pos raised, fun fresh => if_neg fresh⟩

end Sys2Proof.Machine
end

section
/-! Jumps, lanes, blocks and literals (Table 7.8, R131, R140, R148): the statement O17. -/

namespace Sys2Proof.Machine

section

variable {w : Who} {md : BitVec 2} {x : BitVec 24} {c : Cx} {s : State}

theorem dispOf_eq (x : BitVec 24) : dispOf x.toNat = (x.setWidth 16).toInt := by
  rw [← toSigned_toNat, BitVec.toNat_setWidth]
  rfl

theorem jmp_taken (takes : Takes w 0x2C 0 x.toNat c s) :
    exec (.jmp w x) s = .next (settle (wordDone c (pcOf c s) (x.setWidth 16).toInt s)) := by
  rw [← dispOf_eq]
  exact ok_takes takes

theorem jc_taken (takes : Takes w 0x2D md.toNat x.toNat c s) : exec (.jc w md x) s = .next (settle (wordDone c (pcOf c s)
    (if (if md = 1 then !(regsOf c s).la else (regsOf c s).la) then (x.setWidth 16).toInt else 1) s)) := by
  rw [← dispOf_eq, ← laMod_eq]
  exact ok_takes takes

theorem lnxt_taken (takes : Takes w 0x2E 0 x.toNat c s) : exec (.lnxt w x) s = .next (settle
    (if (regsOf c s).l.toNat < (x.extractLsb' 21 3).toNat then
      wordDone c (pcOf c s) (x.setWidth 16).toInt (setRegs c { regsOf c s with l := (regsOf c s).l + 1 } s)
    else wordDone c (pcOf c s) 1 s)) := by
  have last : (x.extractLsb' 21 3).toNat = x.toNat / 2097152 := by
    rw [BitVec.extractLsb'_toNat, Nat.shiftRight_eq_div_pow]
    omega
  show execLnxt w x s = _
  rw [execLnxt, ok_takes takes, dispOf_eq, last]
  dsimp only
  split
  · rfl
  · rfl

theorem setl_taken (takes : Takes w 0x2F 0 x.toNat c s) : exec (.setl w x) s = .next (settle (wordDone c (pcOf c s) 1
    (setRegs c { regsOf c s with l := if x.getLsbD 3 then (regsOf c s).a.setWidth 3 else x.setWidth 3 } s))) := by
  rw [← bitOf_toNat, BitVec.setWidth_eq_extractLsb' (by decide), ← BitVec.ofNat_toNat]
  exact ok_takes takes

/-- LIT keeps the literal byte for the next word. -/
theorem takeWord_lit {m n : Nat} (body : Cx → State → State × Int) (takes : Takes w 0x33 m n c s) :
    let t := (body c s).1
    takeWord w 0x33 m n body s =
      afterWord c (setRegs c { regsOf c t with pc := ((pcOf c s : Int) + (body c s).2).toNat } t) := by
  obtain ⟨picked, free, sound, opened⟩ := takes
  unfold takeWord
  simp only [picked, free, sound, opened]
  rfl

theorem lit_taken (takes : Takes w 0x33 0 x.toNat c s) : exec (.lit w x) s = .next (settle (afterWord c
    (setRegs c { regsOf c s with pc := pcOf c s + 1, lit := some (x.setWidth 8) } s))) := by
  obtain ⟨-, -, -, opened⟩ := id takes
  have own := hasRun_of_opened opened
  show execLit w x s = _
  rw [execLit, ok, takeWord_lit _ takes, regsOf_setRegs own, setRegs_setRegs own, BitVec.ofNat_toNat]
  rfl

theorem fen_taken (takes : Takes w 0x3D 0 0 c s) : exec (.fen w) s = .next (settle (wordDone c (pcOf c s) 1 s)) := by
  obtain ⟨-, -, -, opened⟩ := id takes
  rw [← wordDone_setRegs_self (hasRun_of_opened opened)]
  exact regOnly_taken takes

end

/-- Settles O17: each word by its own lemma. -/
theorem jumpAndLaneInstructions : Obligations.JumpAndLaneInstructions := by
  unfold Obligations.JumpAndLaneInstructions
  intro w md x c s pc h d
  exact ⟨jmp_taken, jc_taken, lnxt_taken, setl_taken, fun takes => regOnly_taken takes, fun takes => regOnly_taken takes,
    lit_taken, fen_taken⟩

end Sys2Proof.Machine
end

section
/-! MSG (R153, R178): the statement O20. -/

namespace Sys2Proof.Machine

theorem msg_taken {w : Who} {x : BitVec 24} {c : Cx} {s : State} (takes : Takes w 0x3C 0 x.toNat c s) :
    let i := resolveIdx (xReg x.toNat) (xOff x.toNat) (regsOf c s).l
    exec (.msg w x) s = .next (settle (wordDone c (pcOf c s) 1
      (if isLive c = true then (if (regsOf c s).la then msgOffer c i s else s)
       else setRegs c { regsOf c s with la := true } s))) := by
  refine (ok_takes takes).trans ?_
  cases isLive c <;> cases (regsOf c s).la <;> rfl

/-- A message that its checks let pass is offered with its payload; only an accepted one leaves LA at 1. -/
theorem msgOffer_eq (c : Cx) (i : Nat) (s : State) :
    let d := seeWord c s 3 i
    let u := (getWord c 3 i s).2
    let q := d.toNat / 65536 % 2048
    let body := readPayload c (i + 1) (ceilDiv (d.toNat % 65536) 4) u
    let offer := offerPkt q 54 false (kPacket body.2 q (body.1.take (d.toNat % 65536))) body.2
    msgOffer c i s = if msgShapeOk d i = true then (if offer.1 = .accepted then offer.2 else msgRefused c offer.2)
      else msgRefused c u := by
  intro d u q body offer
  cases shape : msgShapeOk d i with
  | false => exact if_pos (congrArg not shape)
  | true =>
    have offers : msgOffer c i s = match offer with | (.accepted, t) => t | (_, t) => msgRefused c t :=
      if_neg (Bool.eq_false_iff.mp (congrArg not shape))
    rw [offers, if_pos rfl]
    obtain ⟨answer, t⟩ := offer
    cases answer <;> rfl

/-- Settles O20: `msg_taken` divides trials, LA = 0 and LA = 1, and `msgOffer_eq` the answers to an offer. -/
theorem messageInstruction : Obligations.MessageInstruction := by
  unfold Obligations.MessageInstruction
  intro w x c s takes pc i d u len q body offer live
  have offered : msgOffer c i s = if msgShapeOk d i = true then
      (if offer.1 = .accepted then offer.2 else msgRefused c offer.2) else msgRefused c u := msgOffer_eq c i s
  rw [msg_taken takes, offered]
  refine ⟨fun trial => ?_, fun on low => ?_, fun on high => ⟨fun misfit => ?_, fun fits accepted => ?_,
    fun fits refused => ?_⟩⟩
  · rw [if_neg trial]
  · rw [if_pos on, low]
    rfl
  · rw [if_pos on, if_pos high, misfit]
    rfl
  · rw [if_pos on, if_pos high, if_pos fits, if_pos accepted]
  · rw [if_pos on, if_pos high, if_pos fits, if_neg refused]

end Sys2Proof.Machine
end

section
/-! What a context reads back after it writes a word (R136, R137): the statement O12. -/

namespace Sys2Proof.Machine

section

variable {s t : State} {c : Cx}

theorem fenced_putByte (c : Cx) (a : Nat) (v m : Byte) (s : State) : fenced c (putByte c a v m s) = fenced c s := by
  cases c with
  | strand k =>
    unfold putByte
    dsimp only
    split
    · rw [fenced, strand_setStrand_same]
      rfl
    · rw [fenced, strand_setStrand_same]
      rfl
  | task | tstrand | ttask => rfl

/-- Bytes written from `a` on leave what is seen below `a` alone. -/
theorem seeByte_putBytes_below (wet : fenced c s = false) {a b : Nat} (below : b < a) (bs : List Byte) :
    seeByte c (putBytes c a bs s) b = seeByte c s b := by
  induction bs generalizing a s with
  | nil => rfl
  | cons v bs ih =>
    rw [putBytes, ih ((fenced_putByte c a v 0xFF s).trans wet) (by omega), seeByte_putByte wet, if_neg (by omega)]

/-- The bytes written are seen. -/
theorem seeLe_putBytes (wet : fenced c s = false) (a : Nat) (bs : List Byte) :
    seeLe c (putBytes c a bs s) a bs.length = leNat bs := by
  induction bs generalizing a s with
  | nil => rfl
  | cons v bs ih =>
    have wet' : fenced c (putByte c a v 0xFF s) = false := (fenced_putByte c a v 0xFF s).trans wet
    have first : seeByte c (putBytes c (a + 1) bs (putByte c a v 0xFF s)) a = v := by
      rw [seeByte_putBytes_below wet' (by omega), seeByte_putByte wet, if_pos rfl]
      show (_ &&& ~~~BitVec.allOnes 8) ||| (v &&& BitVec.allOnes 8) = v
      rw [BitVec.not_allOnes, BitVec.and_zero, BitVec.zero_or, BitVec.and_allOnes]
    rw [putBytes, List.length_cons, seeLe, first, ih wet', leNat]

theorem SeesSame.le (h : SeesSame c s t) (a n : Nat) : seeLe c t a n = seeLe c s a n := by
  induction n generalizing a with
  | zero => rfl
  | succ n ih => rw [seeLe, seeLe, h.byte, ih]

theorem seeWord_eq {k : Nat} (plain : k ≤ 3) (c : Cx) (s : State) (i : Nat) :
    seeWord c s k i = BitVec.ofNat 32 (seeLe c s (byteAddr k i) 4) := by
  rw [seeWord, if_neg (by omega), if_neg (by omega)]

end

/-- Settles O12: the four bytes written are seen (`seeLe_putBytes`), and the records change nothing that is seen. -/
theorem wordWriteReads : Obligations.WordWriteReads := by
  unfold Obligations.WordWriteReads
  intro c k i v s plain wet
  have noted := noteWrite_sees c k i s
  have seen := seeLe_putBytes (noted.fence.trans wet) (byteAddr k i) (leBytes 4 v.toNat)
  have fits : v.toNat < 256 ^ 4 := v.isLt
  rw [leBytes_length, leNat_leBytes, Nat.mod_eq_of_lt fits] at seen
  rw [seeWord_eq plain, putWord, (watch_sees _ _ _ _ _ _).le, seen, BitVec.ofNat_toNat,
    BitVec.setWidth_eq]

end Sys2Proof.Machine
end

section
/-! How a pipe opens a network, goes on inside one, and stops (R142, R156, R163, R178, R475): the statements O18, O21 and
O22. -/

namespace Sys2Proof.Machine

section

variable {w : Who} {op m n : Nat} {c : Cx} {s : State}

/-! ## Where a word is not taken (R156, R475) -/

theorem takeWord_halts (body : Cx → State → State × Int) {cause i : Nat} (picked : pickCx w s = some c)
    (halts : haltBefore c s (pcOf c s) = some (cause, i)) : takeWord w op m n body s = haltPipe (pipeOf c) cause i s := by
  simp only [takeWord, picked, halts]

theorem takeWord_corrupt (body : Cx → State → State × Int) (picked : pickCx w s = some c)
    (free : haltBefore c s (pcOf c s) = none) (bad : corrupt c (pcOf c s) (mkWord op m n) s = true) :
    takeWord w op m n body s = if isLive c = true then parityFault (pipeOf c) (pcOf c s) s
      else trialFault (pipeOf c) (pcOf c s) s := by
  simp only [takeWord, picked, free, bad, if_true]
  split
  · rfl
  · rfl

theorem haltPipe_exe (k cause i : Nat) (s : State) : (haltPipe k cause i s).exe = s.exe := by
  rw [haltPipe, raise_calm_exe _ _ (by decide)]

theorem haltPipe_dbg (k cause i : Nat) (s : State) : bitOf (haltPipe k cause i s).dbg.halted k = true ∧
    (haltPipe k cause i s).dbg.lastPipe = k ∧ (haltPipe k cause i s).dbg.lastCause = cause ∧
    (haltPipe k cause i s).dbg.lastIndex = i := by
  rw [haltPipe, raise_dbg]
  exact ⟨bitOf_setBit_same _ _, rfl, rfl, rfl⟩

/-- Outside THREAD a corrupt word on a pipe spoils the cycle and stops the pipe; it is a fault of the next boundary. -/
theorem parityFault_stops (pipe word : Nat) (going : s.md.mode ≠ .thread) : ∃ dead,
    (parityFault pipe word s).exe = { s.exe with spoiled := true, dead := dead } ∧ pipe ∈ dead ∧
    (parityFault pipe word s).md.pendF = s.md.pendF ++ [0x0702] := by
  rw [parityFault, raise_fault _ _ _ (by decide) (by exact going)]
  refine ⟨_, rfl, ?_, rfl⟩
  split
  · next stopped => exact List.contains_iff_mem.mp stopped
  · exact List.mem_cons_self

/-- Outside THREAD a corrupt word in a trial ends the trial's cycle alone; it is a fault of the next boundary too. -/
theorem trialFault_stops (pipe word : Nat) (going : s.md.mode ≠ .thread) : (trialFault pipe word s).exe = s.exe ∧
    (trialFault pipe word s).trial = { s.trial with started := false } ∧
    (trialFault pipe word s).md.pendF = s.md.pendF ++ [0x0702] := by
  rw [trialFault, raise_fault _ _ _ (by decide) (by exact going)]
  exact ⟨rfl, rfl, rfl⟩

theorem pickCx_dead {k : Fin 4} (dead : k.val ∈ s.exe.dead) : pickCx (.pipe k) s = none := by
  simp [pickCx, dead]

theorem pickCx_unstarted (ended : s.trial.started = false) : pickCx .trial s = none := by
  simp [pickCx, ended]

theorem engineRuns_mode (runs : engineRuns s = true) : s.md.mode ≠ .thread := by
  intro threading
  simp [engineRuns, threading] at runs

/-! ## Inside a network (R140, R142) -/

/-- A word that does not reach its network's end leaves the network run as it is. -/
theorem runOf_afterWord (within : (runOf c s).regs.pc < netEnd (progOf c s) (runOf c s).net) :
    runOf c (afterWord c s) = runOf c s := by
  unfold afterWord
  extract_lets r noted mask passed
  obtain ⟨program, run⟩ : progOf c passed = progOf c s ∧ runOf c passed = runOf c s := by
    cases c <;> exact ⟨rfl, rfl⟩
  rw [program, if_neg (Nat.not_le_of_lt within), run]

/-! ## NET (R142, R163) -/

/-- A strand that speculates passes over a fenced network. -/
def passesOver (c : Cx) (fence : Bool) (s : State) : Bool :=
  match c with
  | .strand k => fence && (strand k s).phase == .spec
  | _ => false

/-- A context of a task run, live or in a trial. -/
def ofTask (c : Cx) : Bool := c == .task || c == .ttask

theorem ofTask_iff (c : Cx) : ofTask c = true ↔ c = .task ∨ c = .ttask := by
  simp [ofTask]

theorem runOf_openNet (own : HasRun c s) {fence : Bool} (enters : passesOver c fence s = false) :
    runOf c (openNet c fence s) = {
      opened := true, net := nextNet c s, fence := fence && !ofTask c && c != .tstrand, lIn := (regsOf c s).l,
      regs := { regsOf c s with
        la := false, stack := [], a := if ofTask c then (regsOf c s).a else 0, b := if ofTask c then (regsOf c s).b else 0,
        pc := netStart (progOf c s) (nextNet c s) + 1, lock := false, lit := none } } := by
  cases c with
  | strand k =>
    have stays : ¬ (fence && (strand k s).phase == .spec) = true := Bool.eq_false_iff.mp enters
    simp only [openNet]
    rw [if_neg stays]
    exact runOf_setRun own _
  | task | tstrand | ttask => exact runOf_setRun own _

theorem openNet_skips {k : Nat} (spec : (strand k s).phase = .spec) :
    openNet (.strand k) true s = setStrand k { strand k s with pos := (strand k s).pos + 1 } s := by
  simp [openNet, spec]

theorem reopenNet_eq (c : Cx) (s : State) : reopenNet c s = setRegs c { regsOf c s with
    la := false, stack := [], a := if ofTask c then (regsOf c s).a else 0, b := if ofTask c then (regsOf c s).b else 0,
    pc := (regsOf c s).pc + 1, lit := none } s := rfl

theorem takeWord_opens (body : Cx → State → State × Int) (picked : pickCx w s = some c)
    (free : haltBefore c s (pcOf c s) = none) (sound : corrupt c (pcOf c s) (mkWord 0x30 m n) s = false)
    (closed : (runOf c s).opened = false) : takeWord w 0x30 m n body s =
      if (runOf c (openNet c (bitOf n 20) s)).opened then afterWord c (openNet c (bitOf n 20) s)
      else openNet c (bitOf n 20) s := by
  simp only [takeWord, picked, free, sound, closed]
  rfl

theorem takeWord_reopens (body : Cx → State → State × Int) (picked : pickCx w s = some c)
    (free : haltBefore c s (pcOf c s) = none) (sound : corrupt c (pcOf c s) (mkWord 0x30 m n) s = false)
    (opened : (runOf c s).opened = true) (first : pcOf c s = netStart (progOf c s) (runOf c s).net) :
    takeWord w 0x30 m n body s = afterWord c (reopenNet c s) := by
  simp only [takeWord, picked, free, sound, opened]
  exact if_pos first

end

/-- Settles O18: the network that opens has the run of `runOf_openNet`, and one reached again that of `reopenNet_eq`. -/
theorem netOpens : Obligations.NetOpens := by
  unfold Obligations.NetOpens
  intro w x c s picked free sound task
  obtain ⟨-, own, -⟩ := pickCx_some picked
  have isTask : ofTask c = true ↔ task := ofTask_iff c
  have fence : bitOf x.toNat 20 = x.getLsbD 20 := bitOf_toNat x 20
  refine ⟨?_, fun closed enters => ?_, fun opened first => ?_⟩
  · rintro closed k rfl fenced spec
    have stays : (runOf (.strand k) (setStrand k { strand k s with pos := (strand k s).pos + 1 } s)).opened = false := by
      rw [runOf, strand_setStrand_same]
      exact closed
    refine congrArg ok ((takeWord_opens _ picked free sound closed).trans ?_)
    rw [fence, fenced, openNet_skips spec, stays]
    rfl
  · have run := runOf_openNet own (fence := x.getLsbD 20) enters
    refine ⟨openNet c (x.getLsbD 20) s, congrArg ok ((takeWord_opens _ picked free sound closed).trans ?_), ?_⟩
    · rw [fence, run]
      rfl
    · rw [show regsOf c (openNet c (x.getLsbD 20) s) = _ from congrArg NetRun.regs run, run]
      exact ⟨rfl, rfl, rfl, rfl, rfl, rfl, rfl, rfl, rfl, rfl,
        fun off => ⟨if_neg (off ∘ isTask.mp), if_neg (off ∘ isTask.mp)⟩,
        fun on => ⟨if_pos (isTask.mpr on), if_pos (isTask.mpr on)⟩⟩
  · have place : pcOf c s = (regsOf c s).pc := if_pos opened
    refine ⟨_, congrArg ok ((takeWord_reopens _ picked free sound opened first).trans
      (congrArg (afterWord c) (reopenNet_eq c s))), fun off => ?_, fun on => ?_⟩
    · rw [if_neg (off ∘ isTask.mp), if_neg (off ∘ isTask.mp), place]
    · rw [if_pos (isTask.mpr on), if_pos (isTask.mpr on), place]

/-- Settles O22: what stops a word (`takeWord_halts`, `takeWord_corrupt`) leaves the engine as `haltPipe_exe`,
`parityFault_stops` and `trialFault_stops` say; a cycle runs in ACTIVE only, so the fault waits for the boundary. -/
theorem wordStops : Obligations.WordStops := by
  unfold Obligations.WordStops
  intro w md x c s picked
  obtain ⟨runs, -, live, trial⟩ := pickCx_some picked
  have going := engineRuns_mode runs
  refine ⟨fun cause i halts => ?_, fun free bad => ⟨fun on => ?_, fun off => ?_⟩⟩
  · refine ⟨_, congrArg ok (takeWord_halts _ picked halts), ?_⟩
    rw [settle_exe, settle_dbg]
    exact ⟨haltPipe_exe _ _ _ _, haltPipe_dbg _ _ _ _⟩
  · obtain ⟨k, rfl, pipe⟩ := live on
    obtain ⟨dead, stopped, dies, faulted⟩ := parityFault_stops (s := s) (pipeOf c) (pcOf c s) going
    refine ⟨_, congrArg ok ((takeWord_corrupt _ picked free bad).trans (if_pos on)), ?_⟩
    rw [pickCx_dead (by rw [settle_exe, stopped, ← pipe]; exact dies), settle_exe, settle_md, stopped]
    exact ⟨rfl, rfl, rfl, rfl, faulted⟩
  · obtain rfl := trial off
    obtain ⟨kept, ended, faulted⟩ := trialFault_stops (s := s) (pipeOf c) (pcOf c s) going
    refine ⟨_, congrArg ok ((takeWord_corrupt _ picked free bad).trans (if_neg (by simp [off]))), ?_⟩
    rw [pickCx_unstarted (by rw [settle_trial, ended]), settle_exe, settle_trial, settle_md, ended]
    exact ⟨kept, rfl, rfl, faulted⟩

/-- Settles O21: what `wordDone` puts into the run is what `afterWord` leaves there before the network's end. -/
theorem midNetworkWord : Obligations.MidNetworkWord := by
  unfold Obligations.MidNetworkWord
  intro c pc d t live trial within
  have own : HasRun c t := ⟨live, trial⟩
  have run : runOf c (wordDone c pc d t) =
      { runOf c t with regs := { regsOf c t with pc := ((pc : Int) + d).toNat, lit := none } } := by
    rw [wordDone, runOf_afterWord, runOf_setRun own]
    · rfl
    · rw [runOf_setRun own, progOf_setRun]
      exact within
  rw [regsOf, run]
  exact ⟨rfl, rfl, rfl⟩

end Sys2Proof.Machine
end

section
/-! A trial start taken in ACTIVE (R175, R178): the statement O45. -/

namespace Sys2Proof.Machine

section

variable {kind arg off : Nat} {auth : Bool} {s : State}

/-- The online limits look at the program slots alone (R174). -/
@[simp] theorem soleWaits_onlineOk (q : Prog) : onlineOk (soleWaits kind auth arg off s) q = onlineOk s q := by
  simp [onlineOk]

/-- The trial that a start begins: its sheet is a copy of the couched one, and no trial cycle is under way (R175). -/
def trialBegun (s : State) : Trial :=
  { s.trial with st := .running, sheet := s.exe.couched, compared := 0, cycNo := 1, skipRun := 0, started := false,
                 finished := false, run := {}, coms := [], mirrors := [], ran := 0, tasks := [] }

/-- A start of the staged edit in ACTIVE, within the online limits, touches the trial alone (R174, R175, R178). -/
theorem trialStart_starts {id : Nat} (active : s.md.mode = .active) (staged : s.trial.st = .staged)
    (named : s.trial.editId = id) (fits : onlineOk s (shadow s) = true) :
    trialStart id s = (1, { s with trial := trialBegun s }) := by
  rw [trialStart, if_pos ⟨staged, named.symm, active⟩, if_neg (by simp [fits])]
  rfl

/-- A trial start waits in the ring, and the couch or boundary that takes it begins the trial. -/
theorem trialStart_taken {id : Word} (active : s.md.mode = .active) (empty : s.ring.put = s.ring.take)
    (staged : s.trial.st = .staged) (named : s.trial.editId = id.toNat) (fits : onlineOk s (shadow s) = true) :
    ∃ u, exec (.trialStart auth id) s = .next u ∧
      SoleTaken 1 { soleWaits 3 auth id.toNat 0 s with trial := trialBegun (soleWaits 3 auth id.toNat 0 s) } s
        (takeEntries u) := by
  have starts := trialStart_starts (s := soleWaits 3 auth id.toNat 0 s) (id := id.toNat) (by simpa using active)
    (by simpa using staged) (by simpa using named) (by simpa using fits)
  refine ⟨_, congrArg Host.Outcome.next (settle_enterRing empty), soleTaken false empty ?_ (by rw [if_neg (by decide)])⟩
  simp [applyEntry, soleEntry, active, starts]

end

/-- Settles O45: the state that takes the start's entry differs from the waiting one in the trial alone
(`trialStart_taken`), and that trial is the one begun. -/
theorem trialStarts : Obligations.TrialStarts := by
  unfold Obligations.TrialStarts
  intro id auth s active empty staged named fits
  obtain ⟨u, runs, taken⟩ := trialStart_taken (auth := auth) active empty staged named fits
  refine ⟨u, runs, taken.status, ?_⟩
  rw [taken.trial, taken.exe, taken.md]
  simp [trialBegun]

end Sys2Proof.Machine
end

section
/-! What a copy brings to the standby's sheet (R196 to R198): the statement O48. -/

namespace Sys2Proof.Machine

section
variable {α : Type}

/-- A table kept where `keep` holds of the number reads as before there, and as the default elsewhere. -/
theorem tget_filter (d : α) (keep : Nat → Bool) (m : Tbl α) (k : Nat) :
    tget d (m.filter fun e => keep e.1) k = if keep k then tget d m k else d := by
  induction m with
  | nil => simp [tget]
  | cons e m ih =>
    obtain ⟨j, v⟩ := e
    by_cases same : j = k
    · subst same
      by_cases kept : keep j <;> simp [tget, kept, ih]
    · by_cases kept : keep j <;> simp [tget, kept, same, ih]

variable [DecidableEq α] {d : α} {src : Tbl α} {k : Nat}

/-- A merge leaves alone the numbers that its source does not list. -/
theorem tget_tmerge_unlisted (unlisted : ∀ e ∈ src, e.1 ≠ k) (m : Tbl α) : tget d (tmerge d m src) k = tget d m k := by
  induction src generalizing m with
  | nil => rfl
  | cons e src ih =>
    have other : k ≠ e.1 := (unlisted e List.mem_cons_self).symm
    exact (ih (fun f hf => unlisted f (List.mem_cons_of_mem _ hf)) _).trans (tget_tset_ne d m e.2 other)

/-- Over a table that has nothing at a number, the merge of a table in rising order reads there as that table. -/
theorem tget_tmerge_over_default (rising : src.Pairwise fun a b => a.1 < b.1) (m : Tbl α) (bare : tget d m k = d) :
    tget d (tmerge d m src) k = tget d src k := by
  induction src generalizing m with
  | nil => exact bare
  | cons e src ih =>
    obtain ⟨j, v⟩ := e
    obtain ⟨above, rising⟩ := List.pairwise_cons.mp rising
    show tget d (tmerge d (tset d m j v) src) k = if j = k then v else tget d src k
    by_cases same : j = k
    · subst same
      rw [tget_tmerge_unlisted fun e he => (above e he).ne', tget_tset_same, if_pos rfl]
    · rw [ih rising _ ((tget_tset_ne d m v (Ne.symm same)).trans bare), if_neg same]

end

/-- The addresses whose bytes a copy with these pages carries: I and Q, and the pages without presets (R197, R198). -/
def copyCarries (pages : List Nat) (a : Nat) : Bool :=
  decide (0x11000000 ≤ a ∧ a < 0x11000800) ||
    (match pageOf a with | some p => pages.contains p && !isPreset a | none => false)

theorem copyCarries_iff (pages : List Nat) (a : Nat) : copyCarries pages a = true ↔
    (0x11000000 ≤ a ∧ a < 0x11000800) ∨ ∃ p, pageOf a = some p ∧ p ∈ pages ∧ isPreset a = false := by
  cases page : pageOf a <;> simp [copyCarries, page]

/-- The pages that a copy names: all of them when it is full. -/
def copyPages (c : Copy) : List Nat := if c.full then List.range 416 else c.pages

/-- A copy applied is its carried bytes merged over the others of the sheet. -/
theorem applyCopy_eq (c : Copy) (m : Memory) : applyCopy c m =
    tmerge 0 (m.filter fun e => !copyCarries (copyPages c) e.1) (c.mem.filter fun e => copyCarries (copyPages c) e.1) := rfl

/-- A byte that the copy carries is the copy's; the kept part of the sheet has nothing there. -/
theorem applyCopy_carried {c : Copy} (wf : Memory.wf 0 c.mem = true) (m : Memory) {a : Nat}
    (carried : copyCarries (copyPages c) a = true) : tget 0 (applyCopy c m) a = tget 0 c.mem a := by
  have rising := ((wf_iff 0 c.mem).mp wf).2.filter fun e => copyCarries (copyPages c) e.1
  have bare := tget_filter 0 (fun a => !copyCarries (copyPages c) a) m a
  rw [carried] at bare
  rw [applyCopy_eq, tget_tmerge_over_default rising _ bare, tget_filter 0 (copyCarries (copyPages c)), if_pos carried]

/-- Any other byte stays the sheet's; the copy's part lists nothing there. -/
theorem applyCopy_kept (c : Copy) (m : Memory) {a : Nat} (kept : copyCarries (copyPages c) a = false) :
    tget 0 (applyCopy c m) a = tget 0 m a := by
  have unlisted : ∀ e ∈ c.mem.filter (fun e => copyCarries (copyPages c) e.1), e.1 ≠ a := by
    rintro e listed rfl
    exact Bool.false_ne_true (kept.symm.trans (List.mem_filter.mp listed).2)
  rw [applyCopy_eq, tget_tmerge_unlisted unlisted, tget_filter 0 (fun a => !copyCarries (copyPages c) a), kept]
  rfl

/-- Settles O48: a byte is brought exactly where the copy carries it. -/
theorem copyContent : Obligations.CopyContent := by
  unfold Obligations.CopyContent
  intro c m a wf
  have carries := copyCarries_iff (copyPages c) a
  exact ⟨fun brought => applyCopy_carried wf m (carries.mpr brought),
    fun other => applyCopy_kept c m (Bool.eq_false_iff.mpr fun carried => other (carries.mp carried))⟩

end Sys2Proof.Machine
end

section
/-! Copies at the standby (R201 to R204): the statement O47. -/

namespace Sys2Proof.Machine

section
variable {a b : Option (List Byte)} {c : Copy} {bubble : Bool} {s t u : State}

/-! ## Two bursts heard (R201) -/

/-- What the bursts that arrived leave behind, whatever becomes of the copy: a valid one breaks the silence, bad CRCs are
counted. -/
def burstsHeard (a b : Option (List Byte)) (s : State) : State :=
  { s with felt.silence := if validBurst 0 a || validBurst 1 b then 0 else s.felt.silence,
           felt.crcBurst := satAdd 65535 s.felt.crcBurst (b2n (crcFailed a) + b2n (crcFailed b)) }

/-- What a copy comes to once its bursts are heard (R201, R202): applied when it is whole, untouched by a bubble and fits;
else a gap, reported with the tick of the header that arrived, or a free one where none did. -/
def copyOutcome (a b : Option (List Byte)) (bubble : Bool) (s : State) : State :=
  match if bubble then none else goodCopy a b with
  | some c => if copyFits c s then copyApplied c s else copyGap c.tick s
  | none =>
    match (match a with | some x => some x | none => b) with
    | some x => copyGap (fld x 8 6) s
    | none => copyGap (drawNat (2 ^ 32) s).1 (drawNat (2 ^ 32) s).2

theorem exec_copyReceived (receives : receiving s = true) (on : feltOn s = true) :
    exec (.copyReceived a b bubble) s = .next (settle (copyOutcome a b bubble (burstsHeard a b s))) := by
  show execCopyReceived a b bubble s = _
  unfold execCopyReceived burstsHeard
  rw [if_neg (by simp [receives, on])]
  by_cases valid : (validBurst 0 a || validBurst 1 b) = true
  · rw [if_pos valid, if_pos valid]
    rfl
  · rw [if_neg valid, if_neg valid]
    rfl

/-- The two bursts of a good copy are valid. -/
theorem goodCopy_valid (good : goodCopy a b = some c) : validBurst 0 a = true := by
  unfold goodCopy at good
  split at good
  next x y =>
    split at good
    next whole =>
      simp only [Bool.and_eq_true] at whole
      simp [validBurst, whole]
    next => exact absurd good nofun
  next => exact absurd good nofun

theorem burstsHeard_good (good : goodCopy a b = some c) : (burstsHeard a b s).felt.silence = 0 := by
  simp [burstsHeard, goodCopy_valid good]

/-! ## A gap (R202) -/

/-- The end of readiness changes the events and that flag alone. -/
theorem notReady_only (row : Nat) (s : State) : ∃ ev ready, notReady row s = { s with evt := ev, felt.ready := ready } := by
  unfold notReady
  split
  next => exact ⟨s.evt, s.felt.ready, rfl⟩
  next =>
    split
    next => exact ⟨_, _, raise_calm 0x0909 _ _ (by decide)⟩
    next => exact ⟨_, _, raise_calm 0x0902 _ _ (by decide)⟩

/-- `t` is `s` after a copy was lost: one more gap, the run of good copies ended, the sheet and its couch as they were. -/
structure GapCounted (s t : State) : Prop where
  exe : t.exe = s.exe
  consistent : t.felt.consistent = s.felt.consistent
  gaps : t.felt.gaps = satInc (2 ^ 32 - 1) s.felt.gaps
  goodRun : t.felt.goodRun = 0
  gapRun : t.felt.gapRun = min 2 (s.felt.gapRun + 1)

/-- The gap counters of a unit that has lost a copy. -/
def gapNoted (s : State) : State :=
  { s with felt.gaps := satInc (2 ^ 32 - 1) s.felt.gaps, felt.gapRun := min 2 (s.felt.gapRun + 1), felt.goodRun := 0 }

theorem copyGap_counts (tick : Nat) (s : State) : GapCounted s (copyGap tick s) := by
  have told := raise_calm 0x0901 (tick % 2 ^ 32) (gapNoted s) (by decide)
  show GapCounted s (if min 2 (s.felt.gapRun + 1) = 2 then
      notReady 2 { raise 0x0901 (tick % 2 ^ 32) (gapNoted s) with felt.fullPending := true }
    else raise 0x0901 (tick % 2 ^ 32) (gapNoted s))
  rw [told]
  split
  next =>
    obtain ⟨ev, ready, ended⟩ := notReady_only 2 { gapNoted s with
      evt := (raise 0x0901 (tick % 2 ^ 32) (gapNoted s)).evt, felt.fullPending := true }
    rw [ended]
    exact ⟨rfl, rfl, rfl, rfl, rfl⟩
  next => exact ⟨rfl, rfl, rfl, rfl, rfl⟩

/-- A copy that a bubble touched, that is not whole or that does not fit is a gap, by any of its three reports. -/
theorem copyOutcome_gap (refused : bubble = true ∨ ∀ c, goodCopy a b = some c → copyFits c s = false) :
    GapCounted s (copyOutcome a b bubble s) := by
  unfold copyOutcome
  split
  next c whole =>
    cases bubble with
    | true => exact absurd whole nofun
    | false =>
      have unfit : copyFits c s = false := refused.resolve_left nofun c whole
      rw [unfit]
      exact copyGap_counts c.tick s
  next =>
    split
    next => exact copyGap_counts _ s
    next =>
      obtain ⟨exe, consistent, gaps, goodRun, gapRun⟩ := copyGap_counts (drawNat (2 ^ 32) s).1 (drawNat (2 ^ 32) s).2
      exact ⟨exe, consistent, gaps, goodRun, gapRun⟩

/-- A copy of a couch not after the last consistent one does not fit. -/
theorem copyFits_stale {n : Nat} (last : s.felt.consistent = some n) (stale : c.tick ≤ n) : copyFits c s = false := by
  simp [copyFits, last, stale]

theorem copyFits_first (first : s.felt.consistent = none) (full : c.full = true) : copyFits c s = true := by
  simp [copyFits, first, full]

theorem copyFits_next {n : Nat} (last : s.felt.consistent = some n) (later : n < c.tick)
    (follows : c.full = true ∨ c.base ≤ n) : copyFits c s = true := by
  simp [copyFits, last, later, follows]

/-! ## A copy applied (R201, R203, R204) -/

/-- The standby with a copy on its sheet, which becomes the last consistent one. -/
def copyTaken (c : Copy) (s : State) : State :=
  { s with exe.couched := applyCopy c s.exe.couched, exe.couchTick := c.tick, exe.everCouched := true,
           felt.consistent := some c.tick, felt.gapRun := 0, felt.goodRun := satInc 65535 s.felt.goodRun,
           felt.fullPending := s.felt.fullPending && !c.full }

/-- The copy's acknowledgement sent. -/
def copyAcknowledged (c : Copy) (s : State) : State := sendShort 0x02 (leBytes 6 c.tick) (copyTaken c s)

/-- What a full copy is answered with beside its acknowledgement: the edit report, and readiness. -/
def fullCopyAnswered (s : State) : State :=
  let s := if s.trial.st = .idle then s else reportEdit s
  if s.felt.ready || !inPhase s || !s.felt.trained || s.felt.editBad then s
  else raise 0x0903 0 { s with felt.ready := true }

/-- What follows the taking of a copy without marks and sections: a pair record still owed is offered again, the copy is
acknowledged, and a full one is answered. -/
def copyConcluded (c : Copy) (s : State) : State :=
  let s := if s.felt.offerDue then offerPairRec s.felt.pairRec s else s
  let s := enterStandby c.tick (sendShort 0x02 (leBytes 6 c.tick) s)
  if !c.full then s else fullCopyAnswered s

theorem enterStandby_standby (standby : s.md.mode = .standby) (tick : Nat) : enterStandby tick s = s := if_pos standby

/-- A copy without swap mark, sections, DORMANT or hand-over mark, at a standby that owes the island no pair record. -/
structure Unmarked (c : Copy) (s : State) : Prop where
  standby : s.md.mode = .standby
  swap : c.swap = none
  klp : c.klp = none
  pair : c.pair = none
  offered : s.felt.offerDue = false
  dorm : c.dorm = false
  handover : c.handover = false

theorem copyApplied_unmarked (plain : Unmarked c s) : copyApplied c s =
    if !c.full then copyAcknowledged c s else fullCopyAnswered (copyAcknowledged c s) := by
  obtain ⟨standby, swap, klp, pair, offered, dorm, handover⟩ := plain
  have concluded : copyApplied c s = copyConcluded c (copyTaken c s) := by
    cases c
    subst swap klp pair dorm handover
    rfl
  have owesNone : ¬ (copyTaken c s).felt.offerDue = true := Bool.eq_false_iff.mp offered
  rw [concluded, copyConcluded, if_neg owesNone]
  exact congrArg (fun t => if !c.full then t else fullCopyAnswered t)
    (enterStandby_standby (s := copyAcknowledged c s) standby c.tick)

/-- `t` is `s` but for the events, more short frames sent, and the marks of edit report and readiness. -/
def OnlyAnswered (s t : State) : Prop := ∃ ev more out ready, t = { s with
  evt := ev, felt.sent := s.felt.sent ++ more, felt.editOut := out, felt.ready := ready }

theorem OnlyAnswered.refl (s : State) : OnlyAnswered s s :=
  ⟨s.evt, [], s.felt.editOut, s.felt.ready, by rw [List.append_nil]⟩

theorem OnlyAnswered.trans (h : OnlyAnswered s t) (g : OnlyAnswered t u) : OnlyAnswered s u := by
  obtain ⟨_, _, _, _, rfl⟩ := h
  obtain ⟨_, _, _, _, rfl⟩ := g
  exact ⟨_, _, _, _, by rw [List.append_assoc]⟩

theorem reportEdit_only (s : State) : OnlyAnswered s (reportEdit s) := by
  rw [reportEdit, sendShort]
  exact ⟨s.evt, _, true, s.felt.ready, rfl⟩

theorem fullCopyAnswered_only (s : State) : OnlyAnswered s (fullCopyAnswered s) := by
  unfold fullCopyAnswered
  extract_lets reported
  have reports : OnlyAnswered s reported := by
    unfold reported
    split
    next => exact .refl s
    next => exact reportEdit_only s
  refine reports.trans ?_
  split
  next => exact .refl reported
  next =>
    rw [raise_calm 0x0903 _ _ (by decide)]
    exact ⟨_, [], reported.felt.editOut, true, by rw [List.append_nil]⟩

/-- An unmarked copy that is applied changes what its acknowledgement says, and is answered. -/
theorem copyApplied_answered (plain : Unmarked c s) : OnlyAnswered (copyAcknowledged c s) (copyApplied c s) := by
  rw [copyApplied_unmarked plain]
  split
  next => exact .refl _
  next => exact fullCopyAnswered_only _

/-- A whole copy that fits is applied. -/
theorem copyOutcome_applied (good : goodCopy a b = some c) (fits : copyFits c s = true) :
    copyOutcome a b false s = copyApplied c s := by
  unfold copyOutcome
  rw [if_neg nofun, good]
  exact if_pos fits

end

/-- Settles O47: a copy that fits is acknowledged and applied (`copyApplied_answered`), any other is a gap
(`copyOutcome_gap`). -/
theorem copyReceived : Obligations.CopyReceived := by
  unfold Obligations.CopyReceived
  intro a b s receives on standby
  refine ⟨fun c good follows swap klp pair offered dorm handover => ?_, fun bubble refused => ?_⟩
  · have fits : copyFits c (burstsHeard a b s) = true := by
      obtain ⟨first, full⟩ | ⟨n, last, later, based⟩ := follows
      · exact copyFits_first first full
      · exact copyFits_next last later based
    obtain ⟨ev, more, out, ready, applied⟩ :=
      copyApplied_answered (s := burstsHeard a b s) ⟨standby, swap, klp, pair, offered, dorm, handover⟩
    refine ⟨_, exec_copyReceived receives on, ?_⟩
    rw [settle_exe, settle_felt, settle_md, copyOutcome_applied good fits, applied]
    refine ⟨rfl, rfl, rfl, rfl, burstsHeard_good good, rfl, rfl, ?_⟩
    exact List.mem_append_left _ (List.mem_append_right _ List.mem_cons_self)
  · have gap : GapCounted (burstsHeard a b s) (copyOutcome a b bubble (burstsHeard a b s)) := by
      refine copyOutcome_gap ?_
      obtain touched | broken | ⟨c, n, good, last, stale⟩ := refused
      · exact .inl touched
      · exact .inr fun c good => absurd (broken.symm.trans good) nofun
      · refine .inr fun c' good' => ?_
        obtain rfl : c = c' := Option.some.inj (good.symm.trans good')
        exact copyFits_stale last stale
    refine ⟨_, exec_copyReceived receives on, ?_⟩
    rw [settle_exe, settle_felt]
    exact ⟨congrArg Exe.couched gap.exe, gap.consistent, gap.gaps, gap.goodRun, gap.gapRun⟩

end Sys2Proof.Machine
end

section
/-! A field block's event queue (R222): the statement O26. -/
namespace Sys2Proof.Machine

/-- Entries with pri stand ahead of those without. -/
def PriAhead (l : List EvEntry) : Prop := l.Pairwise fun f g => g.pri = true → f.pri = true

/-- Between entries of different priority the one with pri goes first. -/
theorem EvEntry.before_of_pri_ne {e f : EvEntry} (differ : e.pri ≠ f.pri) : e.before f = e.pri := by
  rw [EvEntry.before, if_pos (bne_iff_ne.mpr differ)]

theorem placeEntry_perm (e : EvEntry) (l : List EvEntry) : (placeEntry e l).Perm (e :: l) := by
  induction l with
  | nil => exact .refl _
  | cons f l ih =>
    rw [placeEntry]
    split
    · exact .refl _
    · exact (ih.cons f).trans (.swap e f l)

theorem mem_placeEntry {e f : EvEntry} {l : List EvEntry} : f ∈ placeEntry e l ↔ f = e ∨ f ∈ l :=
  (placeEntry_perm e l).mem_iff.trans List.mem_cons

theorem placeEntry_length (e : EvEntry) (l : List EvEntry) : (placeEntry e l).length = l.length + 1 :=
  (placeEntry_perm e l).length_eq

/-- An entry is placed behind every entry with pri that it does not precede, and ahead of every entry without. -/
theorem placeEntry_priAhead (e : EvEntry) {l : List EvEntry} (ahead : PriAhead l) : PriAhead (placeEntry e l) := by
  induction l with
  | nil => exact List.pairwise_singleton _ _
  | cons f l ih =>
    obtain ⟨first, rest⟩ := List.pairwise_cons.mp ahead
    rw [placeEntry]
    split
    next goes =>
      have eOver : f.pri = true → e.pri = true := fun priF => by
        by_contra priE
        rw [EvEntry.before_of_pri_ne (by rw [priF]; exact priE)] at goes
        exact priE goes
      refine List.pairwise_cons.mpr ⟨fun g mem priG => ?_, ahead⟩
      obtain rfl | mem := List.mem_cons.mp mem
      · exact eOver priG
      · exact eOver (first g mem priG)
    next stays =>
      have fOver : e.pri = true → f.pri = true := fun priE => by
        by_contra priF
        rw [EvEntry.before_of_pri_ne (by rw [priE]; exact Ne.symm priF)] at stays
        exact stays priE
      refine List.pairwise_cons.mpr ⟨fun g mem priG => ?_, ih rest⟩
      obtain rfl | mem := mem_placeEntry.mp mem
      · exact fOver priG
      · exact first g mem priG

/-- Only a queue of entries with pri has nothing to drop. -/
theorem dropOldest_eq_none_iff {l : List EvEntry} : dropOldest l = none ↔ ∀ f ∈ l, f.pri = true := by
  induction l with
  | nil => simp [dropOldest]
  | cons f l ih => cases pri : f.pri <;> simp [dropOldest, pri, ih]

/-- What is dropped is one entry without pri; the rest keeps its order. -/
theorem dropOldest_eq_some {l q : List EvEntry} (h : dropOldest l = some q) :
    ∃ x, x.pri = false ∧ l.Perm (x :: q) ∧ q.Sublist l := by
  induction l generalizing q with
  | nil => cases h
  | cons f l ih =>
    rw [dropOldest] at h
    split at h
    next =>
      obtain ⟨r, dropped, rfl⟩ := Option.map_eq_some_iff.mp h
      obtain ⟨x, noPri, perm, sub⟩ := ih dropped
      exact ⟨x, noPri, (perm.cons f).trans (.swap x f r), sub.cons_cons f⟩
    next noPri =>
      obtain rfl := Option.some.inj h
      exact ⟨f, Bool.not_eq_true _ ▸ noPri, .refl _, List.sublist_cons_self f l⟩

section
variable {b : Block} {q : List EvEntry}

theorem enqueue_room (e : EvEntry) (room : b.queue.length < 16) :
    b.enqueue e = { b with queue := placeEntry e b.queue } := if_pos room

theorem enqueue_full_drops (e : EvEntry) (full : b.queue.length = 16) (dropped : dropOldest b.queue = some q) :
    b.enqueue e = { b with queue := placeEntry e q, evLost := satInc 65535 b.evLost, ovf := true } := by
  rw [Block.enqueue, if_neg (by omega), dropped]

theorem enqueue_full_refuses (e : EvEntry) (full : b.queue.length = 16) (allPri : ∀ f ∈ b.queue, f.pri = true) :
    b.enqueue e = { b with evLost := satInc 65535 b.evLost, ovf := true } := by
  rw [Block.enqueue, if_neg (by omega), dropOldest_eq_none_iff.mpr allPri]

/-- A queue within its bound takes a new entry in one of three ways: with room, for its oldest entry without pri, or not. -/
theorem enqueue_queue_cases (e : EvEntry) (bound : b.queue.length ≤ 16) :
    (b.enqueue e).queue = placeEntry e b.queue ∧ b.queue.length < 16 ∨
    (∃ q x, (b.enqueue e).queue = placeEntry e q ∧ x.pri = false ∧ b.queue.Perm (x :: q) ∧ q.Sublist b.queue) ∧
      b.queue.length = 16 ∨
    (b.enqueue e).queue = b.queue ∧ b.queue.length = 16 := by
  obtain room | full := Nat.lt_or_eq_of_le bound
  · exact .inl ⟨by rw [enqueue_room e room], room⟩
  · cases dropped : dropOldest b.queue with
    | some q =>
      obtain ⟨x, noPri, perm, sub⟩ := dropOldest_eq_some dropped
      exact .inr (.inl ⟨⟨q, x, by rw [enqueue_full_drops e full dropped], noPri, perm, sub⟩, full⟩)
    | none =>
      exact .inr (.inr ⟨by rw [enqueue_full_refuses e full (dropOldest_eq_none_iff.mp dropped)], full⟩)

theorem enqueue_length_le (e : EvEntry) (bound : b.queue.length ≤ 16) : (b.enqueue e).queue.length ≤ 16 := by
  obtain ⟨queue, room⟩ | ⟨⟨q, x, queue, -, perm, -⟩, full⟩ | ⟨queue, full⟩ := enqueue_queue_cases e bound
  · rw [queue, placeEntry_length]
    exact room
  · rw [queue, placeEntry_length, ← List.length_cons (a := x), ← perm.length_eq, full]
  · rw [queue, full]

/-- A full queue stays full, and counts one entry as lost. -/
theorem enqueue_full (e : EvEntry) (full : b.queue.length = 16) : (b.enqueue e).evLost = satInc 65535 b.evLost ∧
    (b.enqueue e).ovf = true ∧ (b.enqueue e).queue.length = 16 := by
  cases dropped : dropOldest b.queue with
  | some q =>
    obtain ⟨x, -, perm, -⟩ := dropOldest_eq_some dropped
    rw [enqueue_full_drops e full dropped]
    exact ⟨rfl, rfl, by rw [placeEntry_length, ← List.length_cons (a := x), ← perm.length_eq, full]⟩
  | none =>
    rw [enqueue_full_refuses e full (dropOldest_eq_none_iff.mp dropped)]
    exact ⟨rfl, rfl, full⟩

/-- A full queue with an entry without pri takes the new one. -/
theorem mem_enqueue_full {e : EvEntry} (full : b.queue.length = 16) (somePlain : ∃ f ∈ b.queue, f.pri = false) :
    e ∈ (b.enqueue e).queue := by
  cases dropped : dropOldest b.queue with
  | some q =>
    rw [enqueue_full_drops e full dropped]
    exact mem_placeEntry.mpr (.inl rfl)
  | none =>
    obtain ⟨f, mem, plain⟩ := somePlain
    exact absurd (dropOldest_eq_none_iff.mp dropped f mem) (by simp [plain])

theorem mem_enqueue_of_pri {e f : EvEntry} (bound : b.queue.length ≤ 16) (mem : f ∈ b.queue) (pri : f.pri = true) :
    f ∈ (b.enqueue e).queue := by
  obtain ⟨queue, -⟩ | ⟨⟨q, x, queue, plain, perm, -⟩, -⟩ | ⟨queue, -⟩ := enqueue_queue_cases e bound
  · rw [queue]
    exact mem_placeEntry.mpr (.inr mem)
  · rw [queue]
    have notX : f ≠ x := fun same => by simp [same, plain] at pri
    exact mem_placeEntry.mpr (.inr ((List.mem_cons.mp (perm.mem_iff.mp mem)).resolve_left notX))
  · rwa [queue]

theorem enqueue_priAhead (e : EvEntry) (bound : b.queue.length ≤ 16) (ahead : PriAhead b.queue) :
    PriAhead (b.enqueue e).queue := by
  obtain ⟨queue, -⟩ | ⟨⟨q, x, queue, -, -, sub⟩, -⟩ | ⟨queue, -⟩ := enqueue_queue_cases e bound
  · rw [queue]
    exact placeEntry_priAhead e ahead
  · rw [queue]
    exact placeEntry_priAhead e (List.Pairwise.sublist sub ahead)
  · rwa [queue]

end

/-- Settles O26: `enqueue` has three cases, with room, with an entry to drop and with none (`enqueue_queue_cases`). -/
theorem eventQueue : Obligations.EventQueue := by
  unfold Obligations.EventQueue
  intro b e bound
  refine ⟨enqueue_length_le e bound, fun room => ?_, fun full => ?_, fun f => mem_enqueue_of_pri bound,
    enqueue_priAhead e bound⟩
  · rw [enqueue_room e room]
    exact ⟨placeEntry_perm e b.queue, rfl⟩
  · obtain ⟨lost, ovf, length⟩ := enqueue_full e full
    exact ⟨lost, ovf, length, mem_enqueue_full full, fun allPri => by rw [enqueue_full_refuses e full allPri]⟩

end Sys2Proof.Machine
end

section
/-! A field block's outputs, supplies and diagnostics (R227, R229, R231, R232, R233, R241, R520): the statement O24. -/
namespace Sys2Proof.Machine

/-- The block's supplies, its settings and its commands let its outputs be on. -/
def Block.outputsLive (b : Block) : Bool :=
  b.powered && b.settingsOk && b.vfOk && b.islandOk && b.vlOk && !b.cmdLost

theorem sensed_of_dead {b : Block} (dead : b.outputsLive = false) : b.sensed = 0 :=
  if_neg (Bool.eq_false_iff.mp dead)

theorem bitOf_zero (k : Nat) : bitOf 0 k = false := by rw [bitOf_eq_testBit, Nat.zero_testBit]

theorem bitOf_sensed (b : Block) {k : Nat} (h : k < 8) :
    bitOf b.sensed k = (b.outputsLive && (bitOf b.isl k && !bitOf b.hot k)) := by
  cases live : b.outputsLive with
  | false => rw [sensed_of_dead live, bitOf_zero, Bool.false_and]
  | true => rw [Block.sensed, ← Block.outputsLive, if_pos live, bitOf_maskOf _ h, Bool.true_and]

theorem bitOf_setIf (c : Bool) (m k j : Nat) : bitOf (setIf c m k) j = (bitOf m j || (c && decide (j = k))) := by
  cases c with
  | false => rw [Bool.false_and, Bool.or_false, setIf, if_neg nofun]
  | true => rw [Bool.true_and, setIf, if_pos rfl, bitOf_setBit]

theorem bitOf_setIf_same (c : Bool) (m k : Nat) : bitOf (setIf c m k) k = (bitOf m k || c) := by
  rw [bitOf_setIf, decide_eq_true rfl, Bool.and_true]

theorem bitOf_setIf_ne (c : Bool) (m : Nat) {k j : Nat} (other : j ≠ k) : bitOf (setIf c m k) j = bitOf m j := by
  rw [bitOf_setIf, decide_eq_false other, Bool.and_false, Bool.or_false]

section
variable (fb : Fin 16) (j : Fin 8) (s : State)

/-- A channel in thermal shutdown is latched and off; the other channels keep their latches (R227). -/
theorem exec_thermalShutdown : ∃ c, exec (.thermalShutdown fb j) s = .next (settle (setBlock fb c s)) ∧
    c = { block fb s with hot := c.hot, therm := c.therm } ∧ bitOf c.therm j = true ∧ bitOf c.hot j = true ∧
    bitOf c.sensed j = false ∧
    ∀ k, k ≠ j.val → bitOf c.therm k = bitOf (block fb s).therm k ∧ bitOf c.hot k = bitOf (block fb s).hot k := by
  refine ⟨_, rfl, rfl, bitOf_setBit_same _ _, bitOf_setBit_same _ _, ?_, fun k other => ⟨?_, ?_⟩⟩
  · rw [bitOf_sensed _ j.isLt, bitOf_setBit_same, Bool.not_true, Bool.and_false, Bool.and_false]
  · simp [other]
  · simp [other]

/-- A channel that has cooled leaves its shutdown; its latch stays (R227). -/
theorem exec_thermalRecovery : ∃ c, exec (.thermalRecovery fb j) s = .next (settle (setBlock fb c s)) ∧
    c = { block fb s with hot := c.hot } ∧ bitOf c.hot j = false ∧
    ∀ k, k ≠ j.val → bitOf c.hot k = bitOf (block fb s).hot k :=
  ⟨_, rfl, rfl, by simp, fun k other => by simp [other]⟩

/-- The on-state latch sets where the detection applies (R229). -/
theorem exec_openLoadOn : exec (.openLoadOn fb j) s = .next (settle (setBlock fb
    { block fb s with olOn := setIf ((block fb s).olOnApplies j) (block fb s).olOn j } s)) := by
  refine congrArg (fun c => ok (setBlock fb c s)) ?_
  cases applies : (block fb s).olOnApplies j with
  | false => exact if_neg (Bool.eq_false_iff.mp applies)
  | true => exact if_pos applies

/-- The off-state latch sets where the detection applies (R229). -/
theorem exec_openLoadOff : exec (.openLoadOff fb j) s = .next (settle (setBlock fb
    { block fb s with olOff := setIf ((block fb s).olOffApplies j) (block fb s).olOff j } s)) := by
  refine congrArg (fun c => ok (setBlock fb c s)) ?_
  cases applies : (block fb s).olOffApplies j with
  | false => exact if_neg (Bool.eq_false_iff.mp applies)
  | true => exact if_pos applies

theorem exec_firstValidCodeGroup (powered : (block fb s).powered = true) :
    exec (.firstValidCodeGroup fb) s = .next (settle (setBlock fb { block fb s with lineTimed := true } s)) :=
  congrArg (fun c => ok (setBlock fb c s)) (if_pos powered)

end

/-- Settles O24: every command replaces its block, and what it replaces it by is read off its definition; the outputs are
off where `outputsLive` fails. -/
theorem blockOutputs : Obligations.BlockOutputs := by
  unfold Obligations.BlockOutputs
  intro fb j s
  refine ⟨⟨rfl, sensed_of_dead ?noField⟩, rfl, ⟨rfl, sensed_of_dead ?noCommands⟩, ?logicFails, ?powersUp,
    exec_firstValidCodeGroup fb s, exec_thermalShutdown fb j s, exec_thermalRecovery fb j s,
    ⟨_, exec_openLoadOn fb j s, rfl, bitOf_setIf_same _ _ _, fun _ => bitOf_setIf_ne _ _⟩,
    ⟨_, exec_openLoadOff fb j s, rfl, bitOf_setIf_same _ _ _, fun _ => bitOf_setIf_ne _ _⟩, rfl, rfl, rfl, rfl⟩
  case noField => simp [Block.outputsLive]
  case noCommands => simp [Block.outputsLive]
  case logicFails => exact ⟨_, rfl, rfl, rfl, rfl, rfl, rfl, rfl, rfl, rfl⟩
  case powersUp => exact fun serial part stepping vf => ⟨_, rfl, rfl, rfl, rfl, rfl, rfl, rfl, rfl, rfl, rfl, rfl⟩

end Sys2Proof.Machine
end

section
/-! A field block's inputs (R217, R218, R220): the statement O25. -/
namespace Sys2Proof.Machine

theorem bitOf_setOrClear (v : Bool) (m k j : Nat) :
    bitOf (if v then setBit m k else clrBit m k) j = if j = k then v else bitOf m j := by
  cases v <;> by_cases same : j = k <;> simp [same]

theorem bitOf_setOrClear_same (v : Bool) (m k : Nat) : bitOf (if v then setBit m k else clrBit m k) k = v :=
  (bitOf_setOrClear v m k k).trans (if_pos rfl)

section
variable {b : Block}

/-- A direct channel whose micro-supply is down reads 0 (R217). -/
theorem bitOf_inputs_of_dsup {k : Nat} (direct : k < 8) (down : bitOf b.dsup k = true) : bitOf b.inputs k = false := by
  unfold Block.inputs
  split
  · exact bitOf_zero k
  · rw [bitOf_maskOf _ (by omega), decide_eq_true direct, down, Bool.and_true, Bool.not_true, Bool.and_false]

/-- `c` is `b` but for its accepted levels, which are `a`, and its queue with the account of losses. -/
def AcceptedAs (a : Nat) (b c : Block) : Prop :=
  ∃ q lost ovf, c = { b with acc := a, queue := q, evLost := lost, ovf := ovf }

theorem enqueue_acceptedAs (b : Block) (e : EvEntry) : AcceptedAs b.acc b (b.enqueue e) := by
  unfold Block.enqueue
  dsimp only
  split
  · exact ⟨_, _, _, rfl⟩
  · split
    · exact ⟨_, _, _, rfl⟩
    · exact ⟨_, _, _, rfl⟩

/-- An accepted level becomes the channel's, with inv applied, and at most an entry is queued (R220). -/
theorem accept_acceptedAs (b : Block) (ch : Nat) (level : Bool) (stamp age : Nat) :
    AcceptedAs (if (level ^^ bitOf (b.inMode ch) 3) then setBit b.acc ch else clrBit b.acc ch) b
      (b.accept ch level stamp age) := by
  unfold Block.accept
  dsimp only
  refine iteInduction (motive := AcceptedAs _ b) (fun _ => ⟨_, _, _, rfl⟩) fun _ =>
    iteInduction (motive := AcceptedAs _ b) (fun _ => ?_) fun _ => ⟨_, _, _, rfl⟩
  exact enqueue_acceptedAs { b with acc := _ } _

/-- The accepted level of the channel is the one accepted, with inv applied. -/
theorem bitOf_acc_accept (b : Block) (ch : Nat) (level : Bool) (stamp age : Nat) :
    bitOf (b.accept ch level stamp age).acc ch = (level != bitOf (b.inMode ch) 3) := by
  obtain ⟨_, _, _, accepted⟩ := accept_acceptedAs b ch level stamp age
  rw [accepted]
  exact bitOf_setOrClear_same _ _ _

theorem accept_raw (b : Block) (ch : Nat) (level : Bool) (stamp age : Nat) : (b.accept ch level stamp age).raw = b.raw := by
  obtain ⟨_, _, _, accepted⟩ := accept_acceptedAs b ch level stamp age
  rw [accepted]

end

/-! ## The samples of the bridged inputs (R218) -/

/-- Consecutive samples of channel `ch` at a level not yet accepted, after one more sample at `v`. -/
def Block.nextRun (b : Block) (ch : Nat) (v : Bool) : Nat :=
  if v = (bitOf b.acc ch != bitOf (b.inMode ch) 3) then 0 else if bitOf b.raw ch = v then tget 0 b.runs ch + 1 else 1

/-- The sample of bridged input `i` of BRIDGED_SAMPLE. -/
def Block.takeSample (stamp levels : Nat) (b : Block) (i : Nat) : Block :=
  let v := bitOf levels i
  let run := b.nextRun (8 + i) v
  { b with raw := if v then setBit b.raw (8 + i) else clrBit b.raw (8 + i),
           runs := tset 0 b.runs (8 + i) run,
           stamps := if run = 1 then tset 0 b.stamps (8 + i) stamp else b.stamps,
           ages := if run ≤ 1 then tset 0 b.ages (8 + i) 0 else b.ages }

theorem exec_bridgedSample {fb : Fin 16} {s : State} (powered : (block fb s).powered = true)
    (island : (block fb s).islandOk = true) (levels : Byte) (stamp : BitVec 17) :
    exec (.bridgedSample fb levels stamp) s = .next (settle (setBlock fb
      ((List.range 8).foldl (Block.takeSample stamp.toNat levels.toNat) (block fb s)) s)) :=
  congrArg (fun c => ok (setBlock fb c s)) (if_neg (by rw [powered, island]; decide))

/-- `c` is `b` after the samples of the first `n` bridged inputs. -/
structure Sampled (levels n : Nat) (b c : Block) : Prop where
  rest : c = { b with raw := c.raw, runs := c.runs, stamps := c.stamps, ages := c.ages }
  taken : ∀ i, i < n → bitOf c.raw (8 + i) = bitOf levels i ∧
    tget 0 c.runs (8 + i) = b.nextRun (8 + i) (bitOf levels i)
  left : ∀ i, n ≤ i → bitOf c.raw (8 + i) = bitOf b.raw (8 + i) ∧ tget 0 c.runs (8 + i) = tget 0 b.runs (8 + i)

/-- A channel whose sample is still to come counts as it did before the others' samples. -/
theorem Sampled.nextRun_eq {levels n : Nat} {b c : Block} (h : Sampled levels n b c) (v : Bool) :
    c.nextRun (8 + n) v = b.nextRun (8 + n) v := by
  obtain ⟨raw, runs⟩ := h.left n (Nat.le_refl n)
  have acc : c.acc = b.acc := by rw [h.rest]
  have settings : c.settings = b.settings := by rw [h.rest]
  rw [Block.nextRun, Block.nextRun, Block.inMode, Block.inMode, acc, settings, raw, runs]

theorem Sampled.next {levels n : Nat} {b c : Block} (stamp : Nat) (h : Sampled levels n b c) :
    Sampled levels (n + 1) b (c.takeSample stamp levels n) := by
  refine ⟨?_, fun i lt => ?_, fun i le => ?_⟩
  · rw [h.rest]
    rfl
  · obtain lt | rfl := Nat.lt_succ_iff_lt_or_eq.mp lt
    · obtain ⟨raw, runs⟩ := h.taken i lt
      have other : 8 + i ≠ 8 + n := by omega
      exact ⟨by rw [← raw]; exact (bitOf_setOrClear _ _ _ _).trans (if_neg other),
        by rw [← runs]; exact tget_tset_ne 0 _ _ other⟩
    · exact ⟨bitOf_setOrClear_same _ _ _, (tget_tset_same 0 _ _ _).trans (h.nextRun_eq _)⟩
  · obtain ⟨raw, runs⟩ := h.left i (by omega)
    have other : 8 + i ≠ 8 + n := by omega
    exact ⟨by rw [← raw]; exact (bitOf_setOrClear _ _ _ _).trans (if_neg other),
      by rw [← runs]; exact tget_tset_ne 0 _ _ other⟩

theorem sampled_foldl (stamp levels : Nat) (b : Block) (n : Nat) :
    Sampled levels n b ((List.range n).foldl (Block.takeSample stamp levels) b) := by
  induction n with
  | zero => exact ⟨rfl, fun i lt => absurd lt (Nat.not_lt_zero i), fun _ _ => ⟨rfl, rfl⟩⟩
  | succ n ih =>
    rw [List.range_succ, List.foldl_append]
    exact ih.next stamp

/-! ## Levels accepted after the filter time (R220) -/

section
variable {fb ch : Fin 16} {s : State} {level : Bool} {heldNs : Nat} {stamp : BitVec 17}

/-- The level of a direct input recorded. -/
def Block.recorded (b : Block) (ch : Nat) (level : Bool) : Block :=
  { b with raw := if level then setBit b.raw ch else clrBit b.raw ch }

theorem direct_passed {b : Block} {k : Nat} (stamp : Nat) (settings : b.settingsOk = true)
    (passed : 1000 * b.filter k ≤ heldNs) :
    ∃ age, b.direct k level heldNs stamp = (b.recorded k level).accept k level stamp age :=
  ⟨_, if_pos (Bool.and_eq_true_iff.mpr ⟨settings, decide_eq_true passed⟩)⟩

theorem direct_recorded {b : Block} {k : Nat} (stamp : Nat)
    (tooSoon : b.settingsOk = false ∨ heldNs < 1000 * b.filter k) :
    b.direct k level heldNs stamp = b.recorded k level := by
  refine if_neg fun both => ?_
  obtain ⟨settings, passed⟩ := Bool.and_eq_true_iff.mp both
  obtain none | short := tooSoon
  · exact Bool.false_ne_true (none.symm.trans settings)
  · exact absurd (of_decide_eq_true passed) (Nat.not_le.mpr short)

/-- A direct input's level that is no pulse below 1 µs at a filter of 0 is dealt with by `Block.direct`. -/
theorem exec_inputAccepted_direct (powered : (block fb s).powered = true) (direct : ch.val < 8)
    (long : 1000 ≤ heldNs ∨ heldNs < 1000 * (block fb s).filter ch) :
    exec (.inputAccepted fb ch level heldNs stamp) s =
      .next (settle (setBlock fb ((block fb s).direct ch level heldNs stamp.toNat) s)) := by
  refine congrArg ok ?_
  have notShort : ¬ (ch.val < 8 ∧ (block fb s).filter ch = 0 ∧ heldNs < 1000) := by omega
  rw [if_neg (by rw [powered]; decide), if_neg (Nat.not_le.mpr direct), if_neg fun h => notShort (of_decide_eq_true h)]

theorem exec_inputAccepted_bridged (powered : (block fb s).powered = true) (bridged : 8 ≤ ch.val) :
    exec (.inputAccepted fb ch level heldNs stamp) s =
      .next (settle (setBlock fb ((block fb s).bridged ch level) s)) := by
  refine congrArg ok ?_
  rw [if_neg (by rw [powered]; decide), if_pos bridged]

theorem inputAccepted_passed (powered : (block fb s).powered = true) (direct : ch.val < 8)
    (settings : (block fb s).settingsOk = true) (long : 1000 ≤ heldNs) (passed : 1000 * (block fb s).filter ch ≤ heldNs) :
    ∃ c, exec (.inputAccepted fb ch level heldNs stamp) s = .next (settle (setBlock fb c s)) ∧
      bitOf c.raw ch = level ∧ bitOf c.acc ch = (level != bitOf ((block fb s).inMode ch) 3) := by
  refine ⟨_, exec_inputAccepted_direct powered direct (.inl long), ?_⟩
  obtain ⟨age, accepted⟩ := direct_passed (level := level) stamp.toNat settings passed
  rw [accepted, accept_raw]
  exact ⟨bitOf_setOrClear_same _ _ _, bitOf_acc_accept _ _ _ _ _⟩

theorem inputAccepted_recorded (powered : (block fb s).powered = true) (direct : ch.val < 8)
    (long : 1000 ≤ heldNs ∨ heldNs < 1000 * (block fb s).filter ch)
    (tooSoon : (block fb s).settingsOk = false ∨ heldNs < 1000 * (block fb s).filter ch) :
    exec (.inputAccepted fb ch level heldNs stamp) s =
      .next (settle (setBlock fb ((block fb s).recorded ch level) s)) := by
  rw [exec_inputAccepted_direct powered direct long, direct_recorded _ tooSoon]

/-- A bridged input's level that its run of samples confirms is accepted, and the run begins again. -/
theorem bridged_passed {b : Block} {k : Nat} (settings : b.settingsOk = true) (at' : bitOf b.raw k = level)
    (run : max 1 ((b.filter k + 4) / 5) ≤ tget 0 b.runs k) :
    b.bridged k level = { b.accept k level (tget 0 b.stamps k) (tget 0 b.ages k) with
      runs := tset 0 b.runs k 0, ages := tset 0 b.ages k 0 } := by
  have confirmed : decide (max 1 (ceilDiv (b.filter k) 5) ≤ tget 0 b.runs k) = true := decide_eq_true run
  exact if_pos (by rw [settings, at', beq_self_eq_true, confirmed]; rfl)

/-- A micro-supply that recovers: the level at the coupler is recorded and accepted, with no entry (R217). -/
theorem exec_directSupplyFail_recovers (fb : Fin 16) (k : Fin 8) (level : Bool) (s : State) :
    exec (.directSupplyFail fb k false level) s = .next (settle (setBlock fb { block fb s with
      dsup := clrBit (block fb s).dsup k
      raw := if level then setBit (block fb s).raw k else clrBit (block fb s).raw k
      acc := if (level ^^ bitOf ((block fb s).inMode k) 3) then setBit (block fb s).acc k
        else clrBit (block fb s).acc k } s)) := rfl

end

/-- Settles O25: direct inputs by `Block.direct`, bridged ones by their samples (`sampled_foldl`) and `Block.bridged`. -/
theorem blockInputs : Obligations.BlockInputs := by
  unfold Obligations.BlockInputs
  intro fb ch s
  refine ⟨fun k level => ?_, fun k level => ?_, fun powered island levels stamp => ?_,
    fun powered direct level heldNs stamp => ⟨fun settings long passed => ?_, fun settings short => ?_,
      fun settings long => ?_⟩, fun powered settings bridged level heldNs stamp at' run => ?_⟩
  · exact ⟨_, rfl, bitOf_setBit_same _ _, bitOf_inputs_of_dsup k.isLt (bitOf_setBit_same _ _), rfl⟩
  · exact ⟨_, exec_directSupplyFail_recovers fb k level s, by simp, bitOf_setOrClear_same _ _ _, rfl⟩
  · have sampled := sampled_foldl stamp.toNat levels.toNat (block fb s) 8
    refine ⟨_, exec_bridgedSample powered island levels stamp, by rw [sampled.rest], by rw [sampled.rest], fun i => ?_⟩
    rw [← bitOf_toNat]
    exact sampled.taken i i.isLt
  · exact inputAccepted_passed powered direct settings long passed
  · exact ⟨_, inputAccepted_recorded powered direct (.inr short) (.inr short), bitOf_setOrClear_same _ _ _, rfl, rfl⟩
  · exact ⟨_, inputAccepted_recorded powered direct (.inl long) (.inl settings), bitOf_setOrClear_same _ _ _, rfl⟩
  · refine ⟨_, exec_inputAccepted_bridged powered bridged, ?_⟩
    rw [bridged_passed settings at' run]
    exact ⟨bitOf_acc_accept _ _ _ _ _, tget_tset_same 0 (block fb s).runs ch 0⟩

end Sys2Proof.Machine
end

section
/-! Ownership of a field block (R233, R234, R245, R247, R253, R254): the statement O27. -/
namespace Sys2Proof.Machine

/-! ## Masks of outputs -/

theorem bitOf_withMask (old mask val : Nat) {k : Nat} (h : k < 8) :
    bitOf (withMask old mask val) k = if bitOf mask k then bitOf val k else bitOf old k := bitOf_maskOf _ h

/-- A mask of all eight outputs takes the whole value. -/
theorem withMask_whole (old val : Nat) : withMask old 255 val = val % 256 := by
  refine Nat.eq_of_testBit_eq fun k => ?_
  obtain inside | outside := Nat.lt_or_ge k 8
  · rw [← bitOf_eq_testBit, bitOf_withMask old 255 val inside, if_pos (bitOf_wholeMask inside), bitOf_eq_testBit,
      show (256 : Nat) = 2 ^ 8 from rfl, Nat.testBit_mod_two_pow, decide_eq_true inside, Bool.true_and]
  · have wide : 2 ^ 8 ≤ 2 ^ k := Nat.pow_le_pow_right (by decide) outside
    rw [withMask, Nat.testBit_lt_two_pow ((maskOf_lt 8 _).trans_le wide),
      Nat.testBit_lt_two_pow ((Nat.mod_lt val (by decide : 0 < 256)).trans_le wide)]

/-! ## The local boundary (R253) -/

section
variable {b : Block} {load : Nat}

/-- Held ream writes clear latches of OUT_DIAG only. -/
theorem foldl_clearDiag_only (l : List (Nat × Word)) (b : Block) :
    ∃ th on off, l.foldl (fun c x => c.clearDiag load x.2.toNat) b = { b with therm := th, olOn := on, olOff := off } := by
  induction l generalizing b with
  | nil => exact ⟨_, _, _, rfl⟩
  | cons x l ih => exact ih _

/-- `c` is `b` in its next local tick: ream writes applied, entries aged, nothing of the owner seen yet. -/
def NextTick (b c : Block) : Prop :=
  ∃ th on off lo ages, c = { b with
    therm := th, olOn := on, olOff := off, counter := 0, tickLo := lo, ownerSeen := false, ream := [], relTick := false,
    queue := b.queue.map fun e => { e with age := e.age + 1 }, ages := ages }

/-- How a local boundary closes the tick: of a block with an owner, in that owner's release, with its sweep seen, or with
it missed. -/
theorem boundary_closes (load : Nat) (on : b.counterOn = true) : ∃ c, NextTick b c ∧ b.boundary load =
    if b.st = .owned ∨ b.st = .holding then
      if b.relTick then c.testH
      else if b.ownerSeen then { c with missed := 0 }
      else { c with st := .holding, missed := satInc 255 b.missed }.testH
    else { c with missed := satInc 255 b.missed } := by
  obtain ⟨th, onL, off, cleared⟩ := foldl_clearDiag_only (load := load) b.ream b
  refine ⟨_, ⟨th, onL, off, (b.tickLo + 1) % 65536, b.runs.map fun x => (x.1, tget 0 b.ages x.1 + 1), rfl⟩, ?_⟩
  have closes : b.boundary load = _ := if_neg (by rw [on]; decide)
  rw [cleared] at closes
  rw [closes]
  cases st : b.st <;> rfl

/-- Before missed reaches H the block holds on; then it is in SAFE, without an owner, and its safe values are due. -/
theorem testH_below (below : b.missed < b.holdM1 + 1) : b.testH = b := if_neg (Nat.not_le.mpr below)

theorem testH_reached (reached : b.holdM1 + 1 ≤ b.missed) :
    b.testH = { b with st := .safe, owner := 0, keep := false, safeDue := true, safeSeen := true } := if_pos reached

theorem testH_missed (b : Block) : b.testH.missed = b.missed := by
  unfold Block.testH
  split
  · rfl
  · rfl

/-- `c` has closed `b`'s tick: it has begun to count anew, has no ream write left, and its entries have aged. -/
def TickClosed (b c : Block) : Prop :=
  c.counter = 0 ∧ c.ream = [] ∧ c.ownerSeen = false ∧ c.relTick = false ∧
    c.queue = b.queue.map fun e => { e with age := e.age + 1 }

theorem NextTick.closed {c : Block} (next : NextTick b c) : TickClosed b c := by
  obtain ⟨_, _, _, _, _, rfl⟩ := next
  exact ⟨rfl, rfl, rfl, rfl, rfl⟩

theorem TickClosed.testH {c : Block} (closed : TickClosed b c) : TickClosed b c.testH := by
  unfold Block.testH
  split
  · exact closed
  · exact closed

theorem boundary_tickClosed (load : Nat) (on : b.counterOn = true) : TickClosed b (b.boundary load) := by
  obtain ⟨c, next, closes⟩ := boundary_closes load on
  have closed := next.closed
  rw [closes]
  split
  · split
    · exact closed.testH
    · split
      · exact closed
      · exact TickClosed.testH (c := { c with st := _, missed := _ }) closed
  · exact closed

/-- The owner's sweep has been seen: the block stays OWNED and the count of missed sweeps is cleared. -/
theorem boundary_seen (load : Nat) (on : b.counterOn = true) (st : b.st = .owned) (rel : b.relTick = false)
    (seen : b.ownerSeen = true) :
    (b.boundary load).st = .owned ∧ (b.boundary load).missed = 0 ∧ (b.boundary load).owner = b.owner := by
  obtain ⟨c, ⟨_, _, _, _, _, rfl⟩, closes⟩ := boundary_closes load on
  rw [closes, if_pos (.inl st), rel, seen, if_neg Bool.false_ne_true, if_pos rfl]
  exact ⟨st, rfl, rfl⟩

theorem boundary_missed_unseen (load : Nat) (on : b.counterOn = true) (held : b.st = .owned ∨ b.st = .holding)
    (rel : b.relTick = false) (unseen : b.ownerSeen = false) : (b.boundary load).missed = satInc 255 b.missed := by
  obtain ⟨c, -, closes⟩ := boundary_closes load on
  rw [closes, if_pos held, rel, unseen, if_neg Bool.false_ne_true, if_neg Bool.false_ne_true, testH_missed]

/-- The tick of a release counts no missed sweep. -/
theorem boundary_missed_released (load : Nat) (on : b.counterOn = true) (held : b.st = .owned ∨ b.st = .holding)
    (rel : b.relTick = true) : (b.boundary load).missed = b.missed := by
  obtain ⟨c, ⟨_, _, _, _, _, rfl⟩, closes⟩ := boundary_closes load on
  rw [closes, if_pos held, if_pos rel, testH_missed]

/-- A boundary that finds the block without its owner's sweep leaves it HOLDING, subject to the test of missed against H. -/
theorem boundary_unowned (load : Nat) (on : b.counterOn = true)
    (unowned : (b.st = .owned ∨ b.st = .holding) ∧ b.relTick = false ∧ b.ownerSeen = false ∨
      b.st = .holding ∧ b.relTick = true) :
    ∃ c : Block, b.boundary load = c.testH ∧ c.st = .holding ∧ c.owner = b.owner ∧ c.safeDue = b.safeDue ∧
      c.holdM1 = b.holdM1 := by
  obtain ⟨c, ⟨_, _, _, _, _, rfl⟩, closes⟩ := boundary_closes load on
  obtain ⟨held, rel, unseen⟩ | ⟨holding, rel⟩ := unowned
  · rw [if_pos held, rel, unseen, if_neg Bool.false_ne_true, if_neg Bool.false_ne_true] at closes
    exact ⟨_, closes, rfl, rfl, rfl, rfl⟩
  · rw [if_pos (.inr holding), if_pos rel] at closes
    exact ⟨_, closes, holding, rfl, rfl, rfl⟩

/-- HOLDING while missed is below H, and SAFE with its safe values due from then on (R233, R253). -/
theorem testH_outcome {c : Block} (holding : c.st = .holding) :
    (c.testH.missed < c.holdM1 + 1 → c.testH.st = .holding ∧ c.testH.owner = c.owner ∧ c.testH.safeDue = c.safeDue) ∧
    (c.holdM1 + 1 ≤ c.testH.missed →
      c.testH.st = .safe ∧ c.testH.owner = 0 ∧ c.testH.safeDue = true ∧ c.testH.safeSeen = true) := by
  rw [testH_missed]
  refine ⟨fun below => ?_, fun reached => ?_⟩
  · rw [testH_below below]
    exact ⟨holding, rfl, rfl⟩
  · rw [testH_reached reached]
    exact ⟨rfl, rfl, rfl, rfl⟩

end

section
variable {fb : Fin 16} {s : State}

theorem exec_localBoundary (fb : Fin 16) (s : State) : exec (.localBoundary fb) s = .next (settle
    (setBlock fb ((block fb s).boundary (drawLoads s).1) { s with free := s.free + 1 })) := rfl

theorem exec_localBoundary_off (off : (block fb s).counterOn = false) :
    exec (.localBoundary fb) s = .next (settle (setBlock fb (block fb s) { s with free := s.free + 1 })) := by
  rw [exec_localBoundary, Block.boundary, if_pos (by rw [off]; rfl)]

/-! ## Safe values (R233, R234) -/

theorem exec_safeValuesApplied_kept (settled : (block fb s).safeDue = false) :
    exec (.safeValuesApplied fb) s = .next (settle (setBlock fb (block fb s) s)) :=
  congrArg (fun c => ok (setBlock fb c s)) (if_neg (Bool.eq_false_iff.mp settled))

theorem exec_safeValuesApplied_due (due : (block fb s).safeDue = true) :
    exec (.safeValuesApplied fb) s = .next (settle (setBlock fb (block fb s).applySafe s)) :=
  congrArg (fun c => ok (setBlock fb c s)) (if_pos due)

theorem bitOf_isl_applySafe (b : Block) {k : Nat} (h : k < 8) : bitOf b.applySafe.isl k =
    if b.outMode k % 4 = 0 then false else if b.outMode k % 4 = 1 then true else bitOf b.cmd k := by
  unfold Block.applySafe
  rw [bitOf_maskOf _ h]
  generalize b.outMode k % 4 = mode
  match mode with
  | 0 => rfl
  | 1 => rfl
  | _ + 2 => rfl

end

/-! ## A sweep at a block (R245, R253, R254) -/

section
variable {b : Block} {port tickLo slot : Nat}

theorem claimOk_iff (b : Block) (tickLo : Nat) : b.claimOk tickLo = true ↔
    ¬ (b.st ≠ .unowned ∧ b.released = false ∧ b.missed + (if b.ownerTick = some tickLo then 0 else 1) < 2) := by
  have unseen : b2n (b.ownerTick != some tickLo) = if b.ownerTick = some tickLo then 0 else 1 := by
    by_cases same : b.ownerTick = some tickLo <;> simp [same, b2n]
  rw [Block.claimOk, unseen]
  cases b.released <;> simp [imp_iff_not_or, Nat.succ_le_iff]

/-- The owner port's slot is obeyed. -/
theorem act_owner (owner : b.owner = port) : b.act port tickLo slot = (b.obey tickLo slot, false) := by
  have own : (b.owner != port) = false := by rw [owner]; exact bne_self_eq_false port
  rw [Block.act, own]
  exact Prod.ext (if_pos owner) rfl

/-- The slot of a port that is not the owner and claims nothing, or in vain, is not acted on. -/
theorem act_other (other : b.owner ≠ port) (noClaim : bitOf slot 8 = false ∨ b.claimOk tickLo = false) :
    b.act port tickLo slot = (b, false) := by
  have refused : (b.owner != port && bitOf slot 8 && b.claimOk tickLo) = false := by
    obtain none | refused := noClaim
    · rw [none, Bool.and_false, Bool.false_and]
    · rw [refused, Bool.and_false]
  rw [Block.act, refused]
  exact Prod.ext (if_neg other) rfl

/-- The block taken over by the port whose claim it accepts. -/
def Block.claimedBy (b : Block) (port : Nat) : Block :=
  { b with owner := port, released := false, relTick := false, missed := 0, safeDue := false }

theorem act_claim (other : b.owner ≠ port) (claims : bitOf slot 8 = true) (accepted : b.claimOk tickLo = true) :
    b.act port tickLo slot = ((b.claimedBy port).obey tickLo slot, true) := by
  have takes : (b.owner != port && bitOf slot 8 && b.claimOk tickLo) = true := by
    rw [claims, accepted, bne_iff_ne.mpr other, Bool.and_true, Bool.and_true]
  rw [Block.act, takes]
  exact Prod.ext (if_pos rfl) rfl

/-- `c` is `b` after its owner's slot without a release: its outputs as the slot has them, or kept. -/
structure Obeyed (b : Block) (tickLo slot : Nat) (c : Block) : Prop where
  st : c.st = .owned
  owner : c.owner = b.owner
  released : c.released = b.released
  missed : c.missed = b.missed
  safeDue : c.safeDue = b.safeDue
  cmdLost : c.cmdLost = false
  ownerTick : c.ownerTick = some tickLo
  keep : c.keep = bitOf slot 9
  driven : bitOf slot 9 = false → c.isl = slot % 256 ∧ c.cmd = slot % 256
  kept : bitOf slot 9 = true → c.isl = b.isl

theorem obey_obeyed (b : Block) (tickLo : Nat) (stays : bitOf slot 10 = false) : Obeyed b tickLo slot (b.obey tickLo slot) := by
  rw [Block.obey, stays, if_neg Bool.false_ne_true]
  cases keep : bitOf slot 9 with
  | true =>
    exact ⟨rfl, rfl, rfl, rfl, rfl, rfl, rfl, keep.symm, fun drives => absurd (keep.symm.trans drives) nofun,
      fun _ => rfl⟩
  | false =>
    exact ⟨rfl, rfl, rfl, rfl, rfl, rfl, rfl, keep.symm, fun _ => ⟨withMask_whole _ _, withMask_whole _ _⟩,
      fun keeps => absurd (keep.symm.trans keeps) nofun⟩

/-- A release leaves the block HOLDING, without an owner, and one sweep missed. -/
theorem obey_release (b : Block) (tickLo : Nat) (releases : bitOf slot 10 = true) :
    (b.obey tickLo slot).st = .holding ∧ (b.obey tickLo slot).owner = 0 ∧ (b.obey tickLo slot).released = true ∧
      (b.obey tickLo slot).missed = 1 := by
  rw [Block.obey, if_pos releases]
  exact ⟨rfl, rfl, rfl, rfl⟩

end

section
variable {b : Block} {w : SweepIn}

/-- `c` is `b` with its counter as the sweep's header has set it (R247). -/
def Aligned (b c : Block) : Prop := ∃ counter lo, c = { b with counter := counter, tickLo := lo, ovf := false }

theorem alignTo_aligned (b : Block) (port tickLo : Nat) (hdr : Bool) :
    Aligned b { b.alignTo port tickLo hdr with ovf := false } := by
  unfold Block.alignTo
  split
  · exact ⟨_, _, rfl⟩
  · exact ⟨_, _, rfl⟩

/-- A sweep received bad aligns the block and does nothing else. -/
theorem sweep_bad (bad : w.good = false) : Aligned b (b.sweep w).after := by
  rw [Block.sweep, bad, if_neg Bool.false_ne_true]
  exact alignTo_aligned _ _ _ _

/-- A sweep received well aligns the block, which acts on its slot; an entry may leave the queue with it. -/
theorem sweep_good (good : w.good = true) : ∃ c q, Aligned b c ∧ (b.sweep w).acc = (c.act w.port w.tickLo w.slot).2 ∧
    (b.sweep w).after = { (c.act w.port w.tickLo w.slot).1 with queue := q } :=
  ⟨_, _, alignTo_aligned b w.port w.tickLo w.hdr, rfl, if_pos good⟩

/-- What holds of the aligned block's outputs holds of the block's. -/
theorem Obeyed.of_aligned {c d : Block} {tickLo slot : Nat} (aligned : Aligned b c) (obeyed : Obeyed c tickLo slot d)
    (q : List EvEntry) : Obeyed b tickLo slot { d with queue := q } := by
  obtain ⟨counter, lo, rfl⟩ := aligned
  exact ⟨obeyed.st, obeyed.owner, obeyed.released, obeyed.missed, obeyed.safeDue, obeyed.cmdLost, obeyed.ownerTick,
    obeyed.keep, obeyed.driven, obeyed.kept⟩

theorem Aligned.claimedBy {c : Block} (aligned : Aligned b c) (port : Nat) :
    Aligned (b.claimedBy port) (c.claimedBy port) := by
  obtain ⟨counter, lo, rfl⟩ := aligned
  exact ⟨counter, lo, rfl⟩

theorem Aligned.owner {c : Block} (aligned : Aligned b c) : c.owner = b.owner := by
  obtain ⟨counter, lo, rfl⟩ := aligned
  rfl

theorem Aligned.claimOk {c : Block} (aligned : Aligned b c) (tickLo : Nat) : c.claimOk tickLo = b.claimOk tickLo := by
  obtain ⟨counter, lo, rfl⟩ := aligned
  rfl

/-- The owner's sweep without a release. -/
theorem sweep_owner_obeyed (good : w.good = true) (owner : b.owner = w.port) (stays : bitOf w.slot 10 = false) :
    Obeyed b w.tickLo w.slot (b.sweep w).after := by
  obtain ⟨c, q, aligned, -, after⟩ := sweep_good (b := b) good
  rw [after, act_owner (aligned.owner.trans owner)]
  exact (obey_obeyed c w.tickLo stays).of_aligned aligned q

theorem sweep_owner_release (good : w.good = true) (owner : b.owner = w.port) (releases : bitOf w.slot 10 = true) :
    (b.sweep w).after.st = .holding ∧ (b.sweep w).after.owner = 0 ∧ (b.sweep w).after.released = true ∧
      (b.sweep w).after.missed = 1 := by
  obtain ⟨c, q, aligned, -, after⟩ := sweep_good (b := b) good
  rw [after, act_owner (aligned.owner.trans owner)]
  exact obey_release _ _ releases

/-- Another port's sweep that claims nothing, or in vain. -/
theorem sweep_other (good : w.good = true) (other : b.owner ≠ w.port)
    (noClaim : bitOf w.slot 8 = false ∨ b.claimOk w.tickLo = false) :
    (b.sweep w).acc = false ∧ (b.sweep w).after.st = b.st ∧ (b.sweep w).after.owner = b.owner ∧
      (b.sweep w).after.isl = b.isl ∧ (b.sweep w).after.missed = b.missed := by
  obtain ⟨c, q, aligned, acc, after⟩ := sweep_good (b := b) good
  rw [after, acc, act_other (aligned.owner.trans_ne other) (noClaim.imp_right (aligned.claimOk _).trans)]
  obtain ⟨counter, lo, rfl⟩ := aligned
  exact ⟨rfl, rfl, rfl, rfl, rfl⟩

/-- A claim that is accepted makes its port the owner, whose slot is obeyed. -/
theorem sweep_claim (good : w.good = true) (other : b.owner ≠ w.port) (claims : bitOf w.slot 8 = true)
    (accepted : b.claimOk w.tickLo = true) (stays : bitOf w.slot 10 = false) :
    (b.sweep w).acc = true ∧ Obeyed (b.claimedBy w.port) w.tickLo w.slot (b.sweep w).after := by
  obtain ⟨c, q, aligned, acc, after⟩ := sweep_good (b := b) good
  rw [after, acc, act_claim (aligned.owner.trans_ne other) claims ((aligned.claimOk _).trans accepted)]
  exact ⟨rfl, (obey_obeyed _ w.tickLo stays).of_aligned (aligned.claimedBy w.port) q⟩

end

section
variable {fb : Fin 16} {s : State} {p : Nat}

theorem exec_sweepAtBlock (fb : Fin 16) (src : SweepSrc) (s : State) :
    exec (.sweepAtBlock fb src) s = execSweepAtBlock fb src s := rfl

/-- This unit's own sweep at a block that it reaches for the first time. -/
theorem exec_sweepAtBlock_own {w : Sweep} (hdr good : Bool) (sweep : s.fl.sweep = some w)
    (powered : (block fb (feelLimit fb s)).powered = true)
    (reach : reached (myPort (feelLimit fb s)) fb (feelLimit fb s) = true) (first : bitOf w.reached fb = false)
    (pos : (block fb (feelLimit fb s)).pos (myPort (feelLimit fb s)) = some p) :
    exec (.sweepAtBlock fb (.own hdr good)) s =
      let u := feelLimit fb s
      let x : SweepIn := { port := myPort u, tickLo := w.tick % 65536, slot := tget 0 w.out p, hdr := hdr,
                           good := hdr && good && !w.bad, free := w.urgentPos == 255 }
      let r := (block fb u).sweep x
      .next (settle (setBlock fb r.after
        { u with fl.sweep := some (w.pass (myPort u) fb p (block fb u).slot x.good r) })) := by
  have sweep' : (feelLimit fb s).fl.sweep = some w := sweep
  rw [exec_sweepAtBlock]
  simp only [execSweepAtBlock, sweep', powered, reach, first, pos]
  rfl

/-- The other unit's sweep at a block that it reaches. -/
theorem exec_sweepAtBlock_other (hdr good free : Bool) (tickLo slot : BitVec 16)
    (powered : (block fb (feelLimit fb s)).powered = true)
    (reach : reached (3 - myPort (feelLimit fb s)) fb (feelLimit fb s) = true)
    (pos : (block fb (feelLimit fb s)).pos (3 - myPort (feelLimit fb s)) = some p) :
    exec (.sweepAtBlock fb (.other hdr good free tickLo slot)) s =
      let u := feelLimit fb s
      .next (settle (setBlock fb ((block fb u).sweep
        { port := 3 - myPort u, tickLo := tickLo.toNat, slot := slot.toNat, hdr := hdr, good := hdr && good,
          free := free }).after u)) := by
  rw [exec_sweepAtBlock]
  simp only [execSweepAtBlock, powered, reach, pos]
  rfl

end

/-- Settles O27: a local boundary by `boundary_closes` and the test against H, a sweep by its alignment, the rule on claims
and the owner's slot (`sweep_good`, `claimOk_iff`, `obey_obeyed`). -/
theorem blockOwnership : Obligations.BlockOwnership := by
  unfold Obligations.BlockOwnership
  refine ⟨fun fb s => ⟨exec_localBoundary_off, fun on => ?boundary, exec_safeValuesApplied_kept, fun due => ?safe,
    fun w p hdr good => exec_sweepAtBlock_own hdr good,
    fun p hdr good free tickLo slot => exec_sweepAtBlock_other hdr good free tickLo slot⟩, fun b w port => ?sweep⟩
  case boundary =>
    obtain ⟨counter, ream, ownerSeen, relTick, queue⟩ := boundary_tickClosed (drawLoads s).1 on
    refine ⟨_, exec_localBoundary fb s, counter, ream, ownerSeen, relTick, queue, boundary_seen _ on,
      boundary_missed_unseen _ on, boundary_missed_released _ on, fun unowned => ?_⟩
    obtain ⟨c, closes, holding, owner, safeDue, holdM1⟩ := boundary_unowned (drawLoads s).1 on unowned
    rw [closes, ← owner, ← safeDue, ← holdM1]
    exact testH_outcome holding
  case safe => exact ⟨_, exec_safeValuesApplied_due due, rfl, fun j => bitOf_isl_applySafe _ j.isLt⟩
  case sweep =>
    refine ⟨fun bad => ?_, fun good owner stays => ?_, sweep_owner_release, fun good other silent => ?_,
      fun good other _ refused => ?_, fun good other claims unrefused stays => ?_⟩
    · obtain ⟨_, _, aligned⟩ := sweep_bad (b := b) bad
      rw [aligned]
      exact ⟨rfl, rfl, rfl, rfl, rfl, rfl⟩
    · have obeyed := sweep_owner_obeyed good owner stays
      exact ⟨obeyed.st, obeyed.owner.trans owner, obeyed.missed, obeyed.safeDue, obeyed.cmdLost, obeyed.ownerTick,
        obeyed.keep, obeyed.driven, obeyed.kept⟩
    · exact (sweep_other good other (.inl silent)).2
    · have noClaim := Bool.eq_false_iff.mpr fun accepted => (claimOk_iff b w.tickLo).mp accepted refused
      obtain ⟨acc, st, owner, isl, -⟩ := sweep_other good other (.inr noClaim)
      exact ⟨acc, st, owner, isl⟩
    · obtain ⟨acc, obeyed⟩ := sweep_claim good other claims ((claimOk_iff b w.tickLo).mpr unrefused) stays
      exact ⟨acc, obeyed.st, obeyed.owner, obeyed.missed, obeyed.released, obeyed.safeDue,
        fun drives => (obeyed.driven drives).1, obeyed.kept⟩

end Sys2Proof.Machine
end

section
/-! Carriers, urgent frames and management frames at a field block (R222, R230, R236, R248, R250, R252, R256): the
statement O28. -/
namespace Sys2Proof.Machine

/-! ## Carriers (R222, R248) -/

section
variable {fb : Fin 16} {s : State} {x : EvEntry} {q : List EvEntry}

theorem exec_carrierAtBlock (fb : Fin 16) (own good : Bool) (s : State) :
    exec (.carrierAtBlock fb own good) s = execCarrierAtBlock fb own good s := rfl

/-- A block OWNED through a carrier's port hands it its queue head, which leaves the queue. -/
theorem carrierAtBlock_own {p : Nat} {car : Carrier} (meets : Meets fb (myPort s) s)
    (pos : (block fb s).pos (myPort s) = some p) (queue : (block fb s).queue = x :: q) (st : (block fb s).st = .owned)
    (owner : (block fb s).owner = myPort s) (carrier : s.fl.carrier = some car) (first : bitOf car.passed fb = false)
    (sound : car.bad = false) :
    exec (.carrierAtBlock fb true true) s = .next (settle (setBlock fb { block fb s with queue := q }
      { s with fl.carrier := some { car with
          places := tset 0 car.places p x.word, passed := setBit car.passed fb, bad := false } })) := by
  obtain ⟨powered, reach, -⟩ := meets
  rw [exec_carrierAtBlock]
  simp only [execCarrierAtBlock, if_pos, pos, powered, reach, queue, st, owner, carrier, first, sound]
  rfl

/-- The other unit's carrier takes the head of a block OWNED through its port. -/
theorem carrierAtBlock_other (meets : Meets fb (3 - myPort s) s) (queue : (block fb s).queue = x :: q)
    (st : (block fb s).st = .owned) (owner : (block fb s).owner = 3 - myPort s) :
    exec (.carrierAtBlock fb false true) s = .next (settle (setBlock fb { block fb s with queue := q } s)) := by
  obtain ⟨powered, reach, known⟩ := meets
  obtain ⟨p, pos⟩ := Option.isSome_iff_exists.mp known
  rw [exec_carrierAtBlock]
  simp only [execCarrierAtBlock, Bool.false_eq_true, if_false, pos, powered, reach, queue, st, owner]
  rfl

end

/-! ## Urgent frames (R233, R250) -/

section
variable {fb : Fin 16} {s : State}

/-- The block after an urgent frame from its owner port. -/
def Block.urged (b : Block) (mask val : Nat) : Block := { b.drive mask val with cmdLost := false }

theorem exec_urgentFrameAtBlock (fb : Fin 16) (src : UrgentSrc) (s : State) :
    exec (.urgentFrameAtBlock fb src) s = execUrgentFrameAtBlock fb src s := rfl

theorem urgentFrameAtBlock_own {u : Urgent} {us : List Urgent} (meets : Meets fb (myPort s) s) (fly : s.fl.fly = u :: us)
    (target : u.fb = fb) (unmarked : u.applied = false) (sound : u.bad = false) (owner : (block fb s).owner = myPort s) :
    exec (.urgentFrameAtBlock fb (.own true)) s = .next (settle (setBlock fb ((block fb s).urged u.mask u.val)
      { s with fl.fly := { u with applied := true } :: us })) := by
  obtain ⟨powered, reach, known⟩ := meets
  rw [exec_urgentFrameAtBlock]
  simp only [execUrgentFrameAtBlock, fly, powered, reach, known, sound, target, owner, unmarked]
  rfl

theorem urgentFrameAtBlock_other (mask val : Byte) (meets : Meets fb (3 - myPort s) s)
    (owner : (block fb s).owner = 3 - myPort s) : exec (.urgentFrameAtBlock fb (.other true mask val)) s =
      .next (settle (setBlock fb ((block fb s).urged mask.toNat val.toNat) s)) := by
  obtain ⟨powered, reach, known⟩ := meets
  rw [exec_urgentFrameAtBlock]
  simp only [execUrgentFrameAtBlock, powered, reach, known, owner]
  rfl

/-- The masked outputs take the frame's values, and are no longer held at their safe values. -/
theorem urged_bits (b : Block) (mask val : Nat) {j : Nat} (h : j < 8) :
    bitOf (b.urged mask val).isl j = (if bitOf mask j then bitOf val j else bitOf b.isl j) ∧
    bitOf (b.urged mask val).cmd j = (if bitOf mask j then bitOf val j else bitOf b.cmd j) ∧
    bitOf (b.urged mask val).safeHeld j = (!bitOf mask j && bitOf b.safeHeld j) := by
  refine ⟨bitOf_withMask _ _ _ h, bitOf_withMask _ _ _ h, (bitOf_withMask _ _ _ h).trans ?_⟩
  cases bitOf mask j with
  | false => rw [if_neg Bool.false_ne_true, Bool.not_false, Bool.true_and]
  | true => rw [if_pos rfl, bitOf_zero, Bool.not_true, Bool.false_and]

end

/-! ## Management frames (R252) -/

section
variable {fb pt : Nat} {s : State} {silent : List Nat} {act : Block → State → State}

/-- A frame received well at a block that it reaches makes the block act. -/
theorem meets_acts (powered : (block fb s).powered = true) (reach : reached pt fb s = true) :
    meets fb pt true silent act s = act (block fb s) s := by
  rw [meets]
  simp only [powered, reach]
  rfl

theorem meetsTarget_acts (h : Meets fb pt s) : meetsTarget fb pt true silent act s = act (block fb s) s := by
  obtain ⟨powered, reach, known⟩ := h
  rw [meetsTarget, if_neg (by rw [← Option.not_isSome, known]; decide), meets_acts powered reach]

/-- The outbound pair is taken until `till` by a frame of this unit's port. -/
def lineTaken (pt till : Nat) (s : State) : State := if pt = myPort s then { s with fl.busyTill := till } else s

/-- A register frame leaves where R251 lets it; the other unit's arrives as it comes. -/
theorem regFrame_leaves {e len : Nat} (f : State → State) (start : (pt == myPort s) = true → mgmtStart s e len = true) :
    regFrame pt e len f s = f (lineTaken pt (e + len) s) := by
  by_cases own : pt = myPort s
  · rw [regFrame, if_neg (not_not_intro own), if_pos (start (beq_iff_eq.mpr own)), lineTaken, if_pos own]
  · rw [regFrame, if_pos own, lineTaken, if_neg own]

theorem myPort_lineTaken (pt till : Nat) (s : State) : myPort (lineTaken pt till s) = myPort s := by
  unfold lineTaken
  split
  · rfl
  · rfl

theorem lineTaken_free (pt till : Nat) (s : State) : (lineTaken pt till s).free = s.free := by
  unfold lineTaken
  split
  · rfl
  · rfl

theorem lineTaken_blocks (pt till : Nat) (s : State) : (lineTaken pt till s).fl.blocks = s.fl.blocks := by
  unfold lineTaken
  split
  · rfl
  · rfl

/-- Which blocks a frame meets is the blocks' own matter. -/
theorem walk_congr {t : State} (same : t.fl.blocks = s.fl.blocks) (l : List Nat) : walk pt t l = walk pt s l := by
  induction l with
  | nil => rfl
  | cons k l ih => rw [walk, walk, block, block, same, ih]

theorem Meets.congr {t : State} (same : t.fl.blocks = s.fl.blocks) (h : Meets fb pt s) : Meets fb pt t := by
  have at' : block fb t = block fb s := by rw [block, block, same]
  have reach : reached pt fb t = reached pt fb s := by rw [reached, reached, chain, chain, same, walk_congr same]
  rw [Meets, at', reach]
  exact h

end

section
variable {fb : Fin 16} {port : Fin 2} {s : State}

/-- Enumeration, probes and setup of this unit's own port leave at their time only. -/
theorem notSetup_absurd {pt : Nat} (time : (pt == myPort s) = true → setupTime s = true) :
    ¬ (pt = myPort s ∧ (!setupTime s) = true) := by
  rintro ⟨own, late⟩
  rw [time (beq_iff_eq.mpr own)] at late
  exact Bool.false_ne_true late

theorem exec_enumerationFrame {hop : Nat} (time : (port.val + 1 == myPort s) = true → setupTime s = true)
    (powered : (block fb s).powered = true) (reach : reached (port.val + 1) fb s = true) :
    exec (.enumerationFrame fb port hop true) s = .next (settle (
      if 16 ≤ hop then reply (port.val + 1 == myPort s) [16 + 128] s
      else setBlock fb ((block fb s).enumerated (port.val + 1) hop) (reply (port.val + 1 == myPort s)
        [hop + 1, (block fb s).part, (block fb s).stepping, (block fb s).owner, (block fb s).serial] s))) := by
  refine congrArg ok ?_
  rw [if_neg (notSetup_absurd time), meets_acts powered reach]

theorem enumerated_pos (b : Block) (port : Fin 2) (hop : Nat) :
    (b.enumerated (port.val + 1) hop).pos (port.val + 1) = some hop ∧
    (b.enumerated (port.val + 1) hop).evLost = 0 ∧
    (b.enumerated (port.val + 1) hop).pos (3 - (port.val + 1)) = b.pos (3 - (port.val + 1)) := by
  match port with
  | 0 => exact ⟨rfl, rfl, rfl⟩
  | 1 => exact ⟨rfl, rfl, rfl⟩

theorem exec_probeFrame {p : Nat} (roundNs : Nat) (own : (port.val + 1 == myPort s) = true) (time : setupTime s = true)
    (meets : Meets fb (port.val + 1) s) (pos : (block fb s).pos (port.val + 1) = some p) :
    exec (.probeFrame fb port true roundNs) s = .next (settle { s with
      fl.align := tset 0 s.fl.align fb (alignOf p roundNs) }) := by
  refine congrArg ok ?_
  have leaves : ¬ (port.val + 1 ≠ myPort s ∨ (!setupTime s) = true) := by simp [beq_iff_eq.mp own, time]
  rw [if_neg leaves, meetsTarget_acts meets, pos, Option.getD_some]

/-! ## Registers (R230, R252) -/

section
variable {e : Nat} {off : Byte} {data : Word}

/-- What a register read brings back (R252). -/
def Block.readReply (b : Block) (off : Nat) : List Nat :=
  match b.reg off with
  | some v => [v, 1]
  | none => [0, 3]

theorem exec_registerReadFrame (start : (port.val + 1 == myPort s) = true → mgmtStart s e 768 = true)
    (meets : Meets fb (port.val + 1) (feelLimit fb (lineTaken (port.val + 1) (e + 768) s))) :
    exec (.registerReadFrame fb port off ⟨true, e⟩) s =
      let u := feelLimit fb (lineTaken (port.val + 1) (e + 768) s)
      .next (settle (reply (port.val + 1 == myPort s) ((block fb u).readReply off.toNat) u)) := by
  refine congrArg ok ?_
  rw [regFrame_leaves _ start, meetsTarget_acts meets, myPort_feelLimit, myPort_lineTaken]
  rfl

/-- A register write at its block: a load is drawn, and OUT_DIAG is cleared where the status is 1. -/
theorem exec_registerWriteFrame (start : (port.val + 1 == myPort s) = true → mgmtStart s e 768 = true)
    (meets : Meets fb (port.val + 1) s) :
    exec (.registerWriteFrame fb port off data ⟨true, e⟩) s =
      .next (settle (reply (port.val + 1 == myPort s)
        [data.toNat, regWriteStatus (block fb s) (port.val + 1) off.toNat]
        (regWrite fb (port.val + 1) off.toNat data (block fb s) (lineTaken (port.val + 1) (e + 768) s)))) := by
  have blocks := lineTaken_blocks (port.val + 1) (e + 768) s
  refine congrArg ok ?_
  rw [regFrame_leaves _ start, meetsTarget_acts (meets.congr blocks), myPort_lineTaken]
  rw [show block fb (lineTaken (port.val + 1) (e + 768) s) = block fb s by rw [block, block, blocks]]

theorem regWriteStatus_cleared {b : Block} {pt : Nat} (owner : b.owner = pt) : regWriteStatus b pt 0x10 = 1 := by
  rw [regWriteStatus, if_neg (show ¬ (b.reg 0x10).isNone = true from Bool.false_ne_true), if_pos ⟨rfl, owner⟩]

theorem regWriteStatus_refused {b : Block} {pt off : Nat} (denied : off ≠ 0x10 ∨ b.owner ≠ pt) :
    regWriteStatus b pt off = if (b.reg off).isSome then 2 else 3 := by
  rw [regWriteStatus, if_neg (not_and_or.mpr denied)]
  cases b.reg off with
  | none => rfl
  | some v => rfl

theorem regWrite_clears {b : Block} {fb pt off : Nat} (v : Word) (s : State) (status : regWriteStatus b pt off = 1) :
    regWrite fb pt off v b s = setBlock fb (b.clearDiag (drawLoads s).1 v.toNat) { s with free := s.free + 1 } :=
  if_pos status

theorem regWrite_refused {b : Block} {fb pt off : Nat} (v : Word) (s : State) (status : regWriteStatus b pt off ≠ 1) :
    regWrite fb pt off v b s = { s with free := s.free + 1 } := if_neg status

theorem registerWriteFrame_clears (start : (port.val + 1 == myPort s) = true → mgmtStart s e 768 = true)
    (meets : Meets fb (port.val + 1) s) (diag : off = 0x10) (owner : (block fb s).owner = port.val + 1) :
    ∃ load, exec (.registerWriteFrame fb port off data ⟨true, e⟩) s = .next (settle
      (reply (port.val + 1 == myPort s) [data.toNat, 1] (setBlock fb ((block fb s).clearDiag load data.toNat)
        { lineTaken (port.val + 1) (e + 768) s with free := s.free + 1 }))) := by
  subst diag
  have status : regWriteStatus (block fb s) (port.val + 1) (0x10 : Byte).toNat = 1 := regWriteStatus_cleared owner
  refine ⟨(drawLoads (lineTaken (port.val + 1) (e + 768) s)).1, ?_⟩
  rw [exec_registerWriteFrame start meets, status, regWrite_clears _ _ status, lineTaken_free]

theorem registerWriteFrame_refused (start : (port.val + 1 == myPort s) = true → mgmtStart s e 768 = true)
    (meets : Meets fb (port.val + 1) s) (denied : off ≠ 0x10 ∨ (block fb s).owner ≠ port.val + 1) :
    exec (.registerWriteFrame fb port off data ⟨true, e⟩) s = .next (settle
      (reply (port.val + 1 == myPort s) [data.toNat, if ((block fb s).reg off.toNat).isSome then 2 else 3]
        { lineTaken (port.val + 1) (e + 768) s with free := s.free + 1 })) := by
  have status := regWriteStatus_refused (off := off.toNat) (denied.imp_left fun other same => other (BitVec.eq_of_toNat_eq same))
  have kept : regWriteStatus (block fb s) (port.val + 1) off.toNat ≠ 1 := by
    rw [status]
    split
    · decide
    · decide
  rw [exec_registerWriteFrame start meets, regWrite_refused _ _ kept, status, lineTaken_free]

end

/-! ## Setup (R220, R236, R252) -/

section
variable {b : Block} {pt align sel hold : Nat} {set : List Byte}

/-- The block with the align_ns of a port stored. -/
def Block.withAlign (b : Block) (pt align : Nat) : Block :=
  if pt = 1 then { b with alignA := align } else { b with alignB := align }

theorem withAlign_only (b : Block) (pt align : Nat) :
    ∃ alignA alignB, b.withAlign pt align = { b with alignA := alignA, alignB := alignB } := by
  unfold Block.withAlign
  split
  · exact ⟨_, _, rfl⟩
  · exact ⟨_, _, rfl⟩

theorem align_withAlign (b : Block) (pt align : Nat) : (b.withAlign pt align).align pt = align := by
  by_cases a : pt = 1
  · rw [Block.withAlign, if_pos a, Block.align, if_pos a]
  · rw [Block.withAlign, if_neg a, Block.align, if_neg a]

/-- Setup stores the port's align_ns, and the rest unless another port owns the block or a value is out of range. -/
theorem setupBlock_eq (b : Block) (pt align sel hold : Nat) (set : List Byte) : setupBlock b pt align sel hold set =
    if (b.owner ≠ 0 ∧ b.owner ≠ pt) ∨ 3 < sel ∨ 63 < hold ∨ !settingsValid set then (b.withAlign pt align, 2)
    else ((b.withAlign pt align).takeSettings sel hold set, 1) := by
  have owner : b.owner = (b.withAlign pt align).owner := by
    obtain ⟨_, _, only⟩ := withAlign_only b pt align
    rw [only]
  rw [owner]
  rfl

theorem setupBlock_taken (free : b.owner = 0 ∨ b.owner = pt) (selOk : sel ≤ 3) (holdOk : hold ≤ 63)
    (valid : settingsValid set = true) :
    setupBlock b pt align sel hold set = ((b.withAlign pt align).takeSettings sel hold set, 1) := by
  rw [setupBlock_eq, if_neg]
  rintro (⟨none, other⟩ | sel' | hold' | bad)
  · exact free.elim none other
  · exact absurd sel' (Nat.not_lt.mpr selOk)
  · exact absurd hold' (Nat.not_lt.mpr holdOk)
  · rw [valid] at bad
    exact Bool.false_ne_true bad

theorem setupBlock_refused (denied : (b.owner ≠ 0 ∧ b.owner ≠ pt) ∨ 3 < sel ∨ 63 < hold ∨ settingsValid set = false) :
    setupBlock b pt align sel hold set = (b.withAlign pt align, 2) := by
  rw [setupBlock_eq, if_pos]
  rwa [Bool.not_eq_true']

/-- With settings taken, every input's level is its accepted one, with inv applied. -/
theorem bitOf_acc_takeSettings (b : Block) (sel hold : Nat) (set : List Byte) {k : Nat} (h : k < 16) :
    bitOf (b.takeSettings sel hold set).acc k =
      (bitOf (b.takeSettings sel hold set).raw k != bitOf ((b.takeSettings sel hold set).inMode k) 3) := by
  have acc : (b.takeSettings sel hold set).acc = maskOf 16 fun k =>
      (bitOf b.raw k ^^ bitOf (b.takeSettings sel hold set).inv k) := rfl
  rw [acc, bitOf_maskOf _ h, Block.inv, bitOf_maskOf _ h]
  rfl

end

section
variable {align : BitVec 16} {sel hold : Byte} {set : List Byte}

theorem exec_setupFrame (time : (port.val + 1 == myPort s) = true → setupTime s = true) (meets : Meets fb (port.val + 1) s)
    {c : Block} {st : Nat}
    (outcome : setupBlock (block fb s) (port.val + 1) align.toNat sel.toNat hold.toNat set = (c, st)) :
    exec (.setupFrame fb port align sel hold set true) s =
      .next (settle (setBlock fb c (reply (port.val + 1 == myPort s) [st] s))) := by
  refine congrArg ok ?_
  rw [if_neg (notSetup_absurd time), meetsTarget_acts meets, outcome]

theorem setupFrame_taken (time : (port.val + 1 == myPort s) = true → setupTime s = true) (meets : Meets fb (port.val + 1) s)
    (free : (block fb s).owner = 0 ∨ (block fb s).owner = port.val + 1) (selOk : sel.toNat ≤ 3) (holdOk : hold.toNat ≤ 63)
    (valid : settingsValid set = true) :
    ∃ c, exec (.setupFrame fb port align sel hold set true) s =
        .next (settle (setBlock fb c (reply (port.val + 1 == myPort s) [1] s))) ∧
      c.settings = set ∧ c.holdM1 = hold.toNat ∧ c.tickSel = sel.toNat ∧ c.counterOn = true ∧
      c.align (port.val + 1) = align.toNat ∧ c.queue = (block fb s).queue ∧
      ∀ k : Fin 16, bitOf c.acc k = (bitOf c.raw k != bitOf (c.inMode k) 3) := by
  refine ⟨_, exec_setupFrame time meets (setupBlock_taken free selOk holdOk valid), rfl, rfl, rfl, rfl,
    align_withAlign _ _ _, ?_, fun k => bitOf_acc_takeSettings _ _ _ _ k.isLt⟩
  obtain ⟨_, _, only⟩ := withAlign_only (block fb s) (port.val + 1) align.toNat
  rw [only]
  rfl

theorem setupFrame_refused (time : (port.val + 1 == myPort s) = true → setupTime s = true) (meets : Meets fb (port.val + 1) s)
    (denied : ((block fb s).owner ≠ 0 ∧ (block fb s).owner ≠ port.val + 1) ∨ 3 < sel.toNat ∨ 63 < hold.toNat ∨
      settingsValid set = false) :
    ∃ c, exec (.setupFrame fb port align sel hold set true) s =
        .next (settle (setBlock fb c (reply (port.val + 1 == myPort s) [2] s))) ∧
      c.settings = (block fb s).settings ∧ c.align (port.val + 1) = align.toNat := by
  refine ⟨_, exec_setupFrame time meets (setupBlock_refused denied), ?_, align_withAlign _ _ _⟩
  obtain ⟨_, _, only⟩ := withAlign_only (block fb s) (port.val + 1) align.toNat
  rw [only]

end

/-! ## Ream writes (R256) -/

section
variable {e p : Nat} {mask : BitVec 16} {data : Word}

/-- A member owned through the arrival port holds the write. -/
theorem hold_member {b : Block} {pt m : Nat} (member : bitOf m p = true) (owner : b.owner = pt) :
    b.hold pt p m 0x10 data = some { b with ream := b.ream ++ [(0x10, data)] } := by
  rw [Block.hold, member, owner, beq_self_eq_true]
  rfl

theorem reamWriteFrame_other (other : (port.val + 1 == myPort s) = false) (meets : Meets fb (port.val + 1) s)
    (pos : (block fb s).pos (port.val + 1) = some p) (member : mask.getLsbD p = true)
    (owner : (block fb s).owner = port.val + 1) :
    exec (.reamWriteFrame fb port mask 0x10 data ⟨true, e⟩) s = .next (settle (setBlock fb
      { block fb s with ream := (block fb s).ream ++ [(0x10, data)] } s)) := by
  rw [← bitOf_toNat] at member
  refine congrArg ok ?_
  have held : (block fb s).hold (port.val + 1) p mask.toNat (0x10 : Byte).toNat data = some _ := hold_member member owner
  rw [if_neg (beq_eq_false_iff_ne.mp other), meetsTarget_acts meets, pos, Option.getD_some, held]

theorem exec_reamWriteFrame_own {x : ReamOut} {good : Bool} (own : (port.val + 1 == myPort s) = true)
    (reams : s.fl.reams = [x]) (named : x.mask = mask.toNat) (written : x.data = data) :
    exec (.reamWriteFrame fb port mask 0x10 data ⟨good, e⟩) s =
      .next (settle (reamFrame fb (port.val + 1) e good x s)) := by
  have found : s.fl.reams.find? (fun x => x.mask == mask.toNat && (0x10 : Byte) == 0x10 && x.data == data) = some x := by
    rw [reams]
    exact List.find?_cons_of_pos (by simp [named, written])
  refine congrArg ok ?_
  rw [if_pos (beq_iff_eq.mp own), found]

/-- The frame of the one ream write that landed leaves at `e`: its member takes it and sets its done bit. -/
theorem reamFrame_takes {pt : Nat} {x : ReamOut} {b : Block} (meets : Meets fb pt s) (pos : (block fb s).pos pt = some p)
    (reams : s.fl.reams = [x]) (starts : x.start = none) (sound : x.bad = false) (leaves : mgmtStart s e 896 = true)
    (held : (block fb s).hold pt p x.mask 0x10 x.data = some b) :
    reamFrame fb pt e true x s = setBlock fb b { s with
      fl.reams := [{ x with start := some e, done := setBit x.done p }], fl.busyTill := max s.fl.busyTill (e + 896) } := by
  obtain ⟨powered, reach, -⟩ := meets
  rw [ReamOut.data] at held
  simp [reamFrame, ReamOut.data, starts, leaves, pos, powered, reach, sound, held, reams]

end

end

/-- Settles O28: each frame by its own lemma; the management frames through `meetsTarget_acts`. -/
theorem blockFrames : Obligations.BlockFrames := by
  unfold Obligations.BlockFrames
  intro fb port e s
  refine ⟨fun x q p car => carrierAtBlock_own, fun x q => carrierAtBlock_other,
    fun u us meets fly target unmarked sound owner =>
      ⟨_, urgentFrameAtBlock_own meets fly target unmarked sound owner, rfl, rfl, rfl, fun j => urged_bits _ _ _ j.isLt⟩,
    fun mask val meets owner => ⟨_, urgentFrameAtBlock_other mask val meets owner, fun j => ?otherUrgent⟩,
    fun hop time powered reach => ⟨fun room => ?enumerated, fun full => ?overflow⟩,
    fun p roundNs own time meets pos => exec_probeFrame roundNs own time meets pos,
    fun off start meets => exec_registerReadFrame start meets,
    fun off data start meets => ⟨registerWriteFrame_clears start meets, registerWriteFrame_refused start meets⟩,
    fun align sel hold set time meets => setupFrame_taken time meets,
    fun align sel hold set time meets => setupFrame_refused time meets,
    fun mask data p other meets pos member owner => reamWriteFrame_other other meets pos member owner,
    fun mask data p x own meets pos member owner reams named written starts sound leaves => ?ownReam⟩
  case otherUrgent =>
    rw [← bitOf_toNat, ← bitOf_toNat]
    exact (urged_bits _ _ _ j.isLt).1
  case enumerated =>
    rw [exec_enumerationFrame time powered reach, if_neg (Nat.not_le.mpr room)]
    exact ⟨_, rfl, enumerated_pos _ _ _⟩
  case overflow => rw [exec_enumerationFrame time powered reach, if_pos full]
  case ownReam =>
    have held := hold_member (data := x.data) (named ▸ member) owner
    refine ⟨_, exec_reamWriteFrame_own own reams named written, ?_⟩
    rw [reamFrame_takes meets pos reams starts sound leaves held, settle_exe, block, settle_fl]
    refine ⟨?_, rfl, rfl⟩
    rw [← written]
    exact congrArg Block.ream (block_setBlock_same _ _ _)

end Sys2Proof.Machine
end

section
/-! SUPPORT. The dialect engines: what the operations of a lane port leave of its engine and of its lane (R262, R270 to R279),
and when a command finds its port as it was. -/
namespace Sys2Proof.Machine

/-! ## Engines, events and delivery -/

@[simp] theorem eng_settle (s : State) (e : Nat) : eng (settle s) e = eng s e := by rw [eng, eng, settle_engs]

/-- `t` is `s` but for its engine `e`, which is `y`, its events and drawn values. -/
def EngineIs (e : Nat) (y : Eng) (s t : State) : Prop :=
  ∃ engs ev n, t = { s with engs := engs, evt := ev, free := n } ∧ tget {} engs e = y ∧
    ∀ d, d ≠ e → tget {} engs d = eng s d

section
variable {e : Nat} {y z : Eng} {s t u : State}

theorem EngineIs.refl (e : Nat) (s : State) : EngineIs e (eng s e) s s := ⟨s.engs, s.evt, s.free, rfl, rfl, fun _ _ => rfl⟩

theorem EngineIs.trans (first : EngineIs e y s t) (next : EngineIs e z t u) : EngineIs e z s u := by
  obtain ⟨_, _, _, rfl, -, others⟩ := first
  obtain ⟨engs, ev, n, rfl, is, others'⟩ := next
  exact ⟨engs, ev, n, rfl, is, fun d ne => (others' d ne).trans (others d ne)⟩

theorem EngineIs.read (h : EngineIs e y s t) : eng t e = y := by
  obtain ⟨_, _, _, rfl, is, -⟩ := h
  exact is

theorem EngineIs.read_ne (h : EngineIs e y s t) {d : Nat} (ne : d ≠ e) : eng t d = eng s d := by
  obtain ⟨_, _, _, rfl, -, others⟩ := h
  exact others d ne

theorem EngineIs.img (h : EngineIs e y s t) : t.img = s.img := by
  obtain ⟨_, _, _, rfl, -⟩ := h
  rfl

theorem modEng_is (e : Nat) (f : Eng → Eng) (s : State) : EngineIs e (f (eng s e)) s (modEng e f s) :=
  ⟨_, s.evt, s.free, rfl, tget_tmod_same _ _ _ _, fun _ ne => tget_tmod_ne _ _ _ ne⟩

theorem modEng_modEng (e : Nat) (f g : Eng → Eng) (s : State) :
    modEng e g (modEng e f s) = modEng e (fun x => g (f x)) s := by
  simp [modEng, tmod]

/-- A change of engine `e` leaves every engine what the change keeps. -/
theorem eng_modEng_keeps {γ : Type} (g : Eng → γ) {f : Eng → Eng} (keeps : ∀ x, g (f x) = g x) (e d : Nat) (s : State) :
    g (eng (modEng e f s) d) = g (eng s d) := by
  by_cases same : d = e
  · rw [same, eng_modEng_same, keeps]
  · rw [eng_modEng_ne _ _ same]

/-- A port's record and its dialect's tables are read from the configuration alone. -/
theorem port_congr (same : t.img = s.img) (e o n d : Nat) : port t e o n d = port s e o n d := by
  simp only [port, cf, cfgRec, same]

theorem dl_congr (same : t.img = s.img) (e o n d : Nat) : dl t e o n d = dl s e o n d := by
  simp only [dl, dialectOf, port_congr same, cf, cfgRec, same]

theorem nakString_congr (same : t.img = s.img) (e : Nat) : nakString t e = nakString s e := by
  simp only [nakString, pool, dialectOf, port_congr same, dl_congr same, cfBytes, cfgRec, same]

/-- CTS stops the transmitter by the engine's record and its CTS input alone. -/
theorem ctsStops_congr (same : t.img = s.img) (cts : (eng t e).cts = (eng s e).cts) : ctsStops t e = ctsStops s e := by
  rw [ctsStops, ctsStops, port_congr same, cts]

theorem ctsStops_modEng {f : Eng → Eng} (keeps : (f (eng s e)).cts = (eng s e).cts) :
    ctsStops (modEng e f s) e = ctsStops s e := by
  refine ctsStops_congr rfl ?_
  rw [eng_modEng_same, keeps]

/-! ## Faults and failures (R275 to R277) -/

theorem faultEvent_is (set : Bool) : EngineIs e (eng s e) s (faultEvent e set s) := by
  rw [faultEvent, raiseL_calm _ _ _ (by decide)]
  exact ⟨s.engs, _, s.free, rfl, rfl, fun _ _ => rfl⟩

theorem setFault_is : EngineIs e { eng s e with fault := true } s (setFault e s) := by
  unfold setFault
  split
  · next already =>
    rw [← already]
    exact .refl e s
  · have told := faultEvent_is (e := e) (s := modEng e (fun x => { x with fault := true }) s) true
    rw [eng_modEng_same] at told
    exact (modEng_is e _ s).trans told

theorem setFault_free : (setFault e s).free = s.free := by
  unfold setFault
  split
  · rfl
  · rw [faultEvent, raiseL_calm _ _ _ (by decide)]
    rfl

theorem clearFault_is : EngineIs e { eng s e with fault := false } s (clearFault e s) := by
  unfold clearFault
  split
  · have told := faultEvent_is (e := e) (s := modEng e (fun x => { x with fault := false }) s) false
    rw [eng_modEng_same] at told
    exact (modEng_is e _ s).trans told
  · next clear =>
    rw [← Bool.eq_false_iff.mpr clear]
    exact .refl e s

/-- The engine after a failure that counts towards miss_limit. -/
def Eng.missed (x : Eng) (limit : Nat) : Eng :=
  { x with missRun := min 15 (x.missRun + 1), fault := x.fault || decide (min 15 (x.missRun + 1) = limit) }

theorem countMiss_is : EngineIs e ((eng s e).missed (dl s e 15 1 3)) s (countMiss e s) := by
  have counted := modEng_is e (fun x => { x with missRun := min 15 ((eng s e).missRun + 1) }) s
  unfold countMiss
  extract_lets run u
  change EngineIs e _ s u at counted
  have limit : dl u e 15 1 3 = dl s e 15 1 3 := rfl
  rw [limit, Eng.missed]
  split
  · next reached =>
    have fault := setFault_is (e := e) (s := u)
    rw [counted.read] at fault
    rw [decide_eq_true reached, Bool.or_true]
    exact counted.trans fault
  · next short =>
    rw [decide_eq_false short, Bool.or_false]
    exact counted

/-! ## Sending (R262, R274, R276) -/

theorem sendBytes_free (frames : Nat) (bs : List Byte) (free : ctsStops s e = false) : sendBytes frames e bs s =
    modEng e (fun x => { x with sentTpl := bs, going := bs, tx := (x.tx + frames) % 2 ^ 32 }) s := by
  rw [sendBytes, free]
  rfl

/-- An automatic reply touches only what its engine sends. -/
theorem autoReply_is (good : Bool) : ∃ sent going tx waiting, EngineIs e
    { eng s e with sentTpl := sent, going := going, tx := tx, waiting := waiting } s (autoReply e good s) := by
  unfold autoReply
  extract_lets bs
  split
  · unfold sendBytes
    split
    · exact ⟨_, _, _, _, modEng_is e _ s⟩
    · exact ⟨_, _, _, _, modEng_is e _ s⟩
  · exact ⟨_, _, _, _, .refl e s⟩

theorem autoReply_lanes (good : Bool) : (autoReply e good s).lanes = s.lanes := by
  obtain ⟨_, _, _, _, _, _, _, same, -⟩ := autoReply_is (e := e) (s := s) good
  rw [same]

/-- A NAK string that the dialect has goes out when CTS lets it (R274). -/
theorem autoReply_naks (same : t.img = s.img) (auto : dlFlag s e 4 = true) (string : nakString s e ≠ [])
    (free : ctsStops t e = false) : (eng (autoReply e false t) e).sentTpl = nakString s e := by
  have auto' : dlFlag t e 4 = true := by rw [dlFlag, dl_congr same, ← dlFlag, auto]
  have some' : (nakString s e).isEmpty = false := by simpa using string
  simp only [autoReply, Bool.false_eq_true, if_false, auto', nakString_congr same, some', Bool.not_false, Bool.and_self, if_true]
  rw [sendBytes_free 0 _ free, eng_modEng_same]

/-! ## CAN error counters (R265) -/

/-- A CAN controller's error counters are drawn; other engines have none. -/
theorem canCounters_can (low : 48 ≤ e) (high : e ≤ 51) : ∃ t r, canCounters e s =
    { modEng e (fun x => { x with tec := t, recv := r }) s with free := s.free + 2 } :=
  ⟨_, _, if_neg (by omega)⟩

theorem canCounters_other (other : e < 48 ∨ 51 < e) : canCounters e s = s := if_pos other

theorem canCounters_is : ∃ t r, EngineIs e { eng s e with tec := t, recv := r } s (canCounters e s) := by
  by_cases other : e < 48 ∨ 51 < e
  · rw [canCounters_other other]
    exact ⟨_, _, .refl e s⟩
  · obtain ⟨t, r, drawn⟩ := canCounters_can (s := s) (e := e) (by omega) (by omega)
    rw [drawn]
    exact ⟨t, r, _, _, _, rfl, eng_modEng_same s e fun x => { x with tec := t, recv := r },
      fun _ ne => eng_modEng_ne s _ ne⟩

/-! ## Frames discarded (R271, R272, R279) -/

/-- The engine with a discarded frame counted in a field of PORT_ERR. -/
def Eng.discarded (lo : Nat) (x : Eng) : Eng := { x with err := satField lo 8 x.err }

/-- A discarded frame is counted on its engine and, if it has one, on its lane. -/
theorem frameFails_only (e lo : Nat) (s : State) : ∃ lanes, frameFails e lo s =
    { modEng e (Eng.discarded lo) s with lanes := lanes } := by
  unfold frameFails noteDiscard
  split
  · exact ⟨_, rfl⟩
  · exact ⟨_, rfl⟩

theorem lane_noteDiscard {n : Nat} (of : engLane s e = some n) :
    (lane (noteDiscard e s) n).disc = ((lane s n).disc + 1) % 2 ^ 32 := by
  rw [noteDiscard, of]
  dsimp only
  rw [lane_modLane_same]

theorem eng_frameFails (e lo : Nat) (s : State) : eng (frameFails e lo s) e = (eng s e).discarded lo := by
  obtain ⟨_, only⟩ := frameFails_only e lo s
  rw [only]
  exact eng_modEng_same s e (Eng.discarded lo)

theorem lane_frameFails {n : Nat} (lo : Nat) (of : engLane s e = some n) :
    (lane (frameFails e lo s) n).disc = ((lane s n).disc + 1) % 2 ^ 32 :=
  lane_noteDiscard (s := portErr e lo s) of

/-- The engine with nothing received of a frame. -/
def Eng.quiet (x : Eng) : Eng := { x with raw := [], inFrame := false, trail := 0, outside := [], rtsOff := false }

/-- A frame that breaks off is discarded and counted under check_fail. -/
theorem dropPartial_eq (e : Nat) (s : State) : dropPartial e s = frameFails e 8 (modEng e Eng.quiet s) := rfl

theorem eng_dropPartial (e : Nat) (s : State) : eng (dropPartial e s) e = (eng s e).quiet.discarded 8 := by
  rw [dropPartial_eq, eng_frameFails, eng_modEng_same]

theorem eng_lengthDiscard (e : Nat) (s : State) : eng (lengthDiscard e s) e =
    { (eng s e).quiet.discarded 24 with resync := true } := by
  rw [lengthDiscard, eng, raiseOnceKey_engs]
  refine (eng_frameFails _ _ _).trans ?_
  rw [eng_modEng_same]
  rfl

end

/-! ## Pulses and lane words (R278, R279) -/

/-- `t` is `s` but for the lane switch, the lanes and the events, and lane `n`'s pending pulses are `p`. -/
def PulsesAre (n : Nat) (p : Tbl Nat) (s t : State) : Prop :=
  ∃ lanes sw ev, t = { s with lanes := lanes, sw := sw, evt := ev } ∧ (tget {} lanes n).pends = p

section
variable {n : Nat} {p q : Tbl Nat} {s t u : State}

theorem PulsesAre.refl (n : Nat) (s : State) : PulsesAre n (lane s n).pends s s := ⟨s.lanes, s.sw, s.evt, rfl, rfl⟩

theorem PulsesAre.trans (first : PulsesAre n p s t) (next : PulsesAre n q t u) : PulsesAre n q s u := by
  obtain ⟨_, _, _, rfl, -⟩ := first
  obtain ⟨lanes, sw, ev, rfl, are⟩ := next
  exact ⟨lanes, sw, ev, rfl, are⟩

theorem PulsesAre.pends (h : PulsesAre n p s t) : (lane t n).pends = p := by
  obtain ⟨_, _, _, rfl, are⟩ := h
  exact are

theorem modLane_pulses (n : Nat) (f : Lane → Lane) (s : State) : PulsesAre n (f (lane s n)).pends s (modLane n f s) :=
  ⟨_, s.sw, s.evt, rfl, congrArg Lane.pends (tget_tmod_same _ _ _ _)⟩

theorem raiseL_pulses {code : Nat} (arg of : Nat) (calm : classOf code ≠ 0x46) :
    PulsesAre n (lane s n).pends s (raiseL code arg of s) := by
  rw [raiseL_calm arg of s calm]
  exact ⟨s.lanes, s.sw, _, rfl, rfl⟩

theorem offerPkt_pulses (n queue slot : Nat) (dei : Bool) (k : Pkt) (s : State) :
    PulsesAre n (lane s n).pends s (offerPkt queue slot dei k s).2 := by
  obtain ⟨sw, lanes, same, refused⟩ := Frame.offerPkt_sr queue slot dei k s
  obtain ⟨_, is⟩ := refused n
  exact ⟨lanes, sw, s.evt, same, (congrArg Lane.pends is).trans rfl⟩

/-- Pending pulses with one more on a bit; the sixteenth is lost. -/
def pulsed (bit : Nat) (p : Tbl Nat) : Tbl Nat := if tget 0 p bit < 15 then tmod 0 p bit (· + 1) else p

theorem pulse_pulses (n bit : Nat) (s : State) : PulsesAre n (pulsed bit (lane s n).pends) s (pulse n bit s) := by
  have put := modLane_pulses n (fun x =>
    if tget 0 x.pends bit < 15 then { x with pends := tmod 0 x.pends bit (· + 1) }
    else { x with lost := true, evOvf := satInc (2 ^ 32 - 1) x.evOvf }) s
  rw [apply_ite Lane.pends] at put
  exact put

/-- An entry of a word group leaves the pulses alone. -/
theorem putGroup_pulses (n first count : Nat) (latest : Bool) (ws : List Word) (s : State) :
    PulsesAre n (lane s n).pends s (putGroup n first count latest ws s).2 := by
  unfold putGroup
  extract_lets x _ _ put full
  have entry : ∀ (g : Group) (u : State), PulsesAre n (lane u n).pends u
      (modLane n (fun x => { x with groups := g :: x.groups.filter fun h => h.first != first }) u) :=
    fun g u => modLane_pulses n _ u
  have dropped : PulsesAre n (lane s n).pends s full := modLane_pulses n _ s
  split
  · exact entry _ s
  · split
    · exact entry _ s
    · dsimp only
      split
      · exact dropped
      · have told := raiseL_pulses (n := n)
          (s := { full with evt.onceC := (0x12050000 + 16 * n + first) :: full.evt.onceC }) (code := 0x1205) first n (by decide)
        have noted : PulsesAre n (lane full n).pends full
          { full with evt.onceC := (0x12050000 + 16 * n + first) :: full.evt.onceC } := ⟨_, _, _, rfl, rfl⟩
        rw [← dropped.pends]
        exact dropped.trans (noted.trans told)

end

end Sys2Proof.Machine
end

section
/-! Frames at a lane port (R262, R270, R271, R272, R274, R279, R288): the statement O50. -/
namespace Sys2Proof.Machine

/-! ## A port that runs -/

/-- Engine `e` receives: its port runs, it was so at the last command, and it names a dialect. -/
structure Receives (s : State) (e : Nat) : Prop where
  runs : portState s e = 2
  up : (eng s e).up = true
  dialect : dialectOf s e ≤ 31

section
variable {e : Fin 56} {raw : List Byte} {s : State}

/-- An engine that stands as its port does is left as it is. -/
theorem syncEng_synced {e : Nat} {s : State} (synced : (eng s e).up = (portState s e == 2)) : syncEng e s = s := if_pos synced

theorem Receives.sync {e : Nat} (h : Receives s e) : syncEng e s = s := syncEng_synced (by rw [h.up, h.runs]; rfl)

theorem Receives.listening {e : Nat} (h : Receives s e) : listening s e = true := by
  rw [Machine.listening, h.up, decide_eq_true h.dialect]
  rfl

/-! ## What each command does at such a port -/

theorem exec_frameReceived (port : Receives s e) : exec (.frameReceived e raw) s =
    .next (settle (if 2048 < raw.length then lengthDiscard e s
      else if noCells s (cellsOf raw.length) then noBuffer (engSlot s e) (dropFrame e (canCounters e s))
      else processFrame e raw (canCounters e s))) := by
  change execFrameReceived e raw s = _
  simp only [execFrameReceived, port.sync, port.listening, Bool.not_true, Bool.false_eq_true, if_false]
  rfl

theorem exec_gapExpiry (port : Receives s e) (quiet : BitVec 17) : exec (.gapExpiry ⟨e, quiet⟩) s =
    .next (settle (if dl s e 0 1 0 = 3 ∧ partOfFrame s e ≠ [] then
        (if dl s e 16 2 35 ≤ quiet.toNat then processFrame e (partOfFrame s e) s else s)
      else if (if dl s e 18 2 0 = 0 then 35 else dl s e 18 2 0) ≤ quiet.toNat then
        modEng e (fun x => { x with resync := false }) s
      else s)) := by
  change execGapExpiry ⟨e, quiet⟩ s = _
  simp only [execGapExpiry, port.sync, port.listening, Bool.not_true, Bool.false_eq_true, if_false]
  rfl

theorem exec_ibtoExpiry (port : Receives s e) : exec (.ibtoExpiry e) s =
    .next (settle (if dl s e 18 2 0 = 0 then s
      else if partOfFrame s e ≠ [] then dropPartial e s else modEng e (fun x => { x with resync := false }) s)) := by
  change execIbtoExpiry e s = _
  simp only [execIbtoExpiry, port.sync, port.listening, Bool.not_true, Bool.false_or, beq_iff_eq]
  rfl

theorem exec_byteReceived_bad (port : Receives s e) (data : BitVec 9) :
    exec (.byteReceived e data true) s = .next (settle (dropPartial e s)) := by
  change execByteReceived e data true s = _
  simp only [execByteReceived, port.sync, port.listening, Bool.not_true, Bool.false_eq_true, if_false, if_true]
  rfl

/-- In a frame, a byte without the mark of a first byte is the frame's. -/
theorem exec_byteReceived_inFrame (port : Receives s e) {data : BitVec 9} (unmarked : data.getLsbD 8 = false)
    (inFrame : (eng s e).inFrame = true) :
    exec (.byteReceived e data false) s = .next (settle (frameByte e (data.extractLsb' 0 8) s)) := by
  change execByteReceived e data false s = _
  simp only [execByteReceived, port.sync, port.listening, Bool.not_true, Bool.false_eq_true, if_false, unmarked,
    Bool.and_false, inFrame, if_true]
  rfl

/-! ## Frames too long, broken off, or without a cell (R271, R279, R288) -/

theorem frameReceived_long (port : Receives s e) (long : 2048 < raw.length) :
    ∃ t, exec (.frameReceived e raw) s = .next t ∧ (eng t e).err = satField 24 8 (eng s e).err ∧
      (eng t e).resync = true ∧ (eng t e).rx = (eng s e).rx := by
  refine ⟨_, exec_frameReceived port, ?_⟩
  rw [if_pos long, eng_settle, eng_lengthDiscard]
  exact ⟨rfl, rfl, rfl⟩

theorem frameReceived_noCells (port : Receives s e) (fits : raw.length ≤ 2048)
    (full : noCells s (cellsOf raw.length) = true) (other : e.val < 48 ∨ 51 < e.val) :
    exec (.frameReceived e raw) s = .next (settle (noBuffer (engSlot s e) (dropFrame e s))) := by
  rw [exec_frameReceived port, if_neg (Nat.not_lt.mpr fits), if_pos full, canCounters_other other]

/-- In `t` the frame in progress of engine `e` is discarded: counted under check_fail and on its lane. -/
def BrokenOff (s : State) (e : Nat) (t : State) : Prop :=
  (eng t e).err = satField 8 8 (eng s e).err ∧ (eng t e).raw = [] ∧ (eng t e).inFrame = false ∧
    (eng t e).rx = (eng s e).rx ∧ ∀ n, engLane s e = some n → (lane t n).disc = ((lane s n).disc + 1) % 2 ^ 32

theorem dropPartial_breaksOff (s : State) (e : Nat) : BrokenOff s e (settle (dropPartial e s)) := by
  rw [BrokenOff, eng_settle, eng_dropPartial]
  refine ⟨rfl, rfl, rfl, rfl, fun n of => ?_⟩
  rw [settle_lane_disc]
  exact lane_frameFails (s := modEng e Eng.quiet s) 8 of

theorem ibtoExpiry_breaksOff (port : Receives s e) (ibto : dl s e 18 2 0 ≠ 0) (part : partOfFrame s e ≠ []) :
    ∃ t, exec (.ibtoExpiry e) s = .next t ∧ BrokenOff s e t := by
  rw [exec_ibtoExpiry port, if_neg ibto, if_pos part]
  exact ⟨_, rfl, dropPartial_breaksOff s e⟩

/-! ## A complete frame (R272, R274) -/

/-- A frame without escape or check failure goes to the map. -/
theorem processFrame_plain {e : Nat} {fr : List Byte} (plain : plainFrame s e raw = (fr, false))
    (unchecked : dlFlag s e 1 = false) : processFrame e raw s =
      match mapMatch s e fr with
      | none => autoReply e false (frameFails e 0 (modEng e Eng.quiet s))
      | some m =>
        match extractAll s e fr with
        | none => autoReply e false (frameFails e 8 (modEng e Eng.quiet s))
        | some vs => autoReply e true (mapActions e m raw vs (frameAccepted e (modEng e Eng.quiet s))) := by
  unfold processFrame
  extract_lets u cvu
  have plain' : plainFrame u e raw = (fr, false) := plain
  have unchecked' : dlFlag u e 1 = false := unchecked
  simp only [plain', unchecked', Bool.false_and, Bool.false_eq_true, if_false, Bool.not_true]
  rfl

theorem processFrame_nomatch {e : Nat} {fr : List Byte} (plain : plainFrame s e raw = (fr, false))
    (unchecked : dlFlag s e 1 = false) (none : mapMatch s e fr = none) :
    processFrame e raw s = autoReply e false (frameFails e 0 (modEng e Eng.quiet s)) := by
  rw [processFrame_plain plain unchecked, none]

theorem processFrame_accepts {e m : Nat} {fr : List Byte} {vs : List (List Byte × Val)}
    (plain : plainFrame s e raw = (fr, false)) (unchecked : dlFlag s e 1 = false) (entry : mapMatch s e fr = some m)
    (values : extractAll s e fr = some vs) : processFrame e raw s =
      autoReply e true (mapActions e m raw vs (frameAccepted e (modEng e Eng.quiet s))) := by
  rw [processFrame_plain plain unchecked, entry]
  dsimp only
  rw [values]

/-! ## A frame that matches nothing (R272) -/

/-- In `t` the frame is discarded as matching nothing, and answered with the NAK string where there is one. -/
def Unmatched (s : State) (e : Nat) (t : State) : Prop :=
  (eng t e).err = satField 0 8 (eng s e).err ∧ (eng t e).rx = (eng s e).rx ∧
    (∀ n, engLane s e = some n → (lane t n).disc = ((lane s n).disc + 1) % 2 ^ 32) ∧
    (dlFlag s e 4 = true → nakString s e ≠ [] → ctsStops s e = false → (eng t e).sentTpl = nakString s e)

theorem processFrame_unmatched {e : Nat} {fr : List Byte} (plain : plainFrame s e raw = (fr, false))
    (unchecked : dlFlag s e 1 = false) (none : mapMatch s e fr = none) :
    Unmatched s e (settle (processFrame e raw s)) := by
  have disc (n) (of : engLane s e = some n) := lane_frameFails (s := modEng e Eng.quiet s) (e := e) 0 of
  have failed := eng_frameFails e 0 (modEng e Eng.quiet s)
  rw [eng_modEng_same] at failed
  rw [processFrame_nomatch plain unchecked none, Unmatched, eng_settle]
  obtain ⟨lanes, only⟩ := frameFails_only e 0 (modEng e Eng.quiet s)
  obtain ⟨_, _, _, _, replied⟩ := autoReply_is (e := e) (s := frameFails e 0 (modEng e Eng.quiet s)) false
  refine ⟨?_, ?_, fun n of => ?_, fun auto string free => ?_⟩
  · rw [replied.read, failed]
    rfl
  · rw [replied.read, failed]
    rfl
  · rw [settle_lane_disc, lane, autoReply_lanes]
    exact disc n of
  · have same : (frameFails e 0 (modEng e Eng.quiet s)).img = s.img := by
      rw [only]
      rfl
    exact autoReply_naks same auto string ((ctsStops_congr same (by rw [failed]; rfl)).trans free)

/-- What the frame makes of its engine does not turn on CAN error counters. -/
theorem Unmatched.of_drawn {e tec recv : Nat} {t u : State}
    (drawn : EngineIs e { eng s e with tec := tec, recv := recv } s u) (h : Unmatched u e t) : Unmatched s e t := by
  obtain ⟨err, rx, disc, nak⟩ := h
  rw [drawn.read] at err rx
  have cts : ctsStops u e = ctsStops s e := ctsStops_congr drawn.img (by rw [drawn.read])
  rw [cts] at nak
  obtain ⟨_, _, _, same, -⟩ := drawn
  rw [same] at disc nak
  exact ⟨err, rx, disc, nak⟩

theorem frameReceived_processed (port : Receives s e) (fits : raw.length ≤ 2048)
    (room : noCells s (cellsOf raw.length) = false) :
    exec (.frameReceived e raw) s = .next (settle (processFrame e raw (canCounters e s))) := by
  rw [exec_frameReceived port, if_neg (Nat.not_lt.mpr fits), if_neg (by simp [room])]

theorem frameReceived_unmatched {fr : List Byte} (port : Receives s e) (fits : raw.length ≤ 2048)
    (room : noCells s (cellsOf raw.length) = false) (plain : plainFrame s e raw = (fr, false))
    (unchecked : dlFlag s e 1 = false) (none : mapMatch s e fr = none) :
    ∃ t, exec (.frameReceived e raw) s = .next t ∧ Unmatched s e t := by
  obtain ⟨_, _, drawn⟩ := canCounters_is (e := e) (s := s)
  refine ⟨_, frameReceived_processed port fits room, .of_drawn drawn (processFrame_unmatched (fr := fr) ?_ ?_ ?_)⟩
  all_goals
    obtain ⟨_, _, _, same, -⟩ := drawn
    rw [same]
    assumption

/-! ## A frame that is accepted (R272, R277, R278) -/

/-- The engine with a frame accepted. -/
def Eng.accepted (x : Eng) : Eng := { x with fault := false, rx := (x.rx + 1) % 2 ^ 32, missRun := 0, poll := none }

theorem frameAccepted_is {e : Nat} : EngineIs e (eng s e).accepted s (frameAccepted e s) := by
  have cleared := clearFault_is (e := e) (s := s)
  have counted := modEng_is e (fun x => { x with rx := (x.rx + 1) % 2 ^ 32, missRun := 0, poll := none }) (clearFault e s)
  rw [cleared.read] at counted
  exact cleared.trans counted

/-- The pulse of map entry `m`: the bit it pulses, if any, with one more pulse pending. -/
def mapPulse (s : State) (e m : Nat) (p : Tbl Nat) : Tbl Nat :=
  if dl s e (192 + 16 * m + 8) 1 0xFF = 0xFF then p
  else pulsed (dl s e (192 + 16 * m + 8) 1 0xFF + Machine.port s e 28 1 0) p

/-- The actions of a map entry on an open lane: its pulse, and beside it the switch and the lanes alone. -/
theorem mapActions_pulses {e m n : Nat} {vs : List (List Byte × Val)} (lands : mapLane s e m vs = n)
    (isOpen : laneShut s n = false) :
    PulsesAre n (mapPulse s e m (lane s n).pends) s (mapActions e m raw vs s) := by
  unfold mapActions
  extract_lets o n' typ mask body offer evb pulse' evw grp
  subst lands
  rw [isOpen, if_neg Bool.false_ne_true]
  have offered : PulsesAre n' (lane s n').pends s offer := by
    simp only [offer]
    split
    · exact .refl n' s
    · exact offerPkt_pulses ..
  have pulsed' : PulsesAre n' (mapPulse s e m (lane s n').pends) s pulse' := by
    have bit : mapPulse offer e m = mapPulse s e m := by
      obtain ⟨_, _, _, same, -⟩ := offered
      rw [same]
      rfl
    have one : PulsesAre n' (mapPulse offer e m (lane offer n').pends) offer pulse' := by
      simp only [pulse', mapPulse]
      split
      · exact .refl n' offer
      · exact pulse_pulses ..
    rw [bit, offered.pends] at one
    exact offered.trans one
  split
  · exact pulsed'
  · have entry := putGroup_pulses n' (evw + Machine.port pulse' e 29 1 0) (grp % 8) (bitOf grp 4)
      ((vs.drop (dl pulse' e (o + 11) 1 0)).flatMap fun v => valWords v.2) pulse'
    rw [pulsed'.pends] at entry
    exact pulsed'.trans entry

/-- In `t` engine `e` has accepted a frame that map entry `m` maps to lane `n`. -/
def Accepted (s : State) (e m n : Nat) (t : State) : Prop :=
  let x := eng s e
  let evb := dl s e (192 + 16 * m + 8) 1 0xFF
  let bit := evb + port s e 28 1 0
  (eng t e).rx = (x.rx + 1) % 2 ^ 32 ∧ (eng t e).fault = false ∧ (eng t e).missRun = 0 ∧ (eng t e).poll = none ∧
    (eng t e).raw = [] ∧ (eng t e).inFrame = false ∧ (eng t e).err = x.err ∧ (eng t e).wait = x.wait ∧
    (evb ≠ 0xFF → tget 0 (lane s n).pends bit < 15 →
      tget 0 (lane t n).pends bit = tget 0 (lane s n).pends bit + 1) ∧
    (evb = 0xFF → (lane t n).pends = (lane s n).pends) ∧ t.md = s.md

theorem processFrame_accepted {e m : Nat} {fr : List Byte} {vs : List (List Byte × Val)}
    (plain : plainFrame s e raw = (fr, false)) (unchecked : dlFlag s e 1 = false) (entry : mapMatch s e fr = some m)
    (values : extractAll s e fr = some vs) (isOpen : laneShut s (mapLane s e m vs) = false) :
    Accepted s e m (mapLane s e m vs) (settle (processFrame e raw s)) := by
  rw [processFrame_accepts plain unchecked entry values]
  have accepted := frameAccepted_is (e := e) (s := modEng e Eng.quiet s)
  rw [eng_modEng_same] at accepted
  generalize frameAccepted e (modEng e Eng.quiet s) = u at accepted
  have now := (modEng_is e Eng.quiet s).trans accepted
  have acted : PulsesAre (mapLane s e m vs) (mapPulse s e m (lane s (mapLane s e m vs)).pends) u
      (mapActions e m raw vs u) := by
    obtain ⟨_, _, _, same, -⟩ := now
    rw [same]
    exact mapActions_pulses rfl isOpen
  generalize mapActions e m raw vs u = v at acted
  obtain ⟨_, _, _, _, replied⟩ := autoReply_is (e := e) (s := v) true
  have read : eng v e = (eng s e).quiet.accepted := by
    rw [← now.read]
    obtain ⟨_, _, _, same, -⟩ := acted
    rw [same]
    rfl
  have pends := acted.pends
  have md : (autoReply e true v).md = s.md := by
    obtain ⟨_, _, _, same, -⟩ := replied
    rw [same]
    obtain ⟨_, _, _, same, -⟩ := acted
    rw [same]
    obtain ⟨_, _, _, same, -⟩ := now
    rw [same]
  simp only [Accepted, eng_settle, settle_md, settle_lane_pends, replied.read, read, md]
  have kept : lane (autoReply e true v) (mapLane s e m vs) = lane v (mapLane s e m vs) := by
    rw [lane, autoReply_lanes, lane]
  rw [kept, pends]
  refine ⟨rfl, rfl, rfl, rfl, rfl, rfl, rfl, rfl, fun names room => ?_, fun none => if_pos none, trivial⟩
  rw [mapPulse, if_neg names, pulsed, if_pos room, tget_tmod_same]

theorem Accepted.of_drawn {e m n tec recv : Nat} {t u : State}
    (drawn : EngineIs e { eng s e with tec := tec, recv := recv } s u) (h : Accepted u e m n t) : Accepted s e m n t := by
  have read := drawn.read
  obtain ⟨_, _, _, same, -⟩ := drawn
  simp only [Accepted, read] at h
  rw [same] at h
  exact h

theorem frameReceived_accepted {m : Nat} {fr : List Byte} {vs : List (List Byte × Val)} (port : Receives s e)
    (fits : raw.length ≤ 2048) (room : noCells s (cellsOf raw.length) = false)
    (plain : plainFrame s e raw = (fr, false)) (unchecked : dlFlag s e 1 = false) (entry : mapMatch s e fr = some m)
    (values : extractAll s e fr = some vs) (isOpen : laneShut s (mapLane s e m vs) = false) :
    ∃ t, exec (.frameReceived e raw) s = .next t ∧ Accepted s e m (mapLane s e m vs) t := by
  obtain ⟨_, _, drawn⟩ := canCounters_is (e := e) (s := s)
  have lands : mapLane (canCounters e s) e m vs = mapLane s e m vs := by
    obtain ⟨_, _, _, same, -⟩ := drawn
    rw [same]
    rfl
  refine ⟨_, frameReceived_processed port fits room, .of_drawn drawn ?_⟩
  rw [← lands]
  refine processFrame_accepted (fr := fr) ?_ ?_ ?_ ?_ ?_
  all_goals
    obtain ⟨_, _, _, same, -⟩ := drawn
    rw [same]
    assumption

end

/-! ## Bytes of a frame (R270, R271, R288) -/

section
variable {e : Fin 56} {data : BitVec 9} {s : State} (port : Receives s e) (unmarked : data.getLsbD 8 = false)
  (inFrame : (eng s e).inFrame = true)
include port unmarked inFrame

theorem byteReceived_noCell (full : (eng s e).raw.length % 128 = 0 ∧ noCells s 1 = true) :
    exec (.byteReceived e data false) s = .next (settle (noBuffer (engSlot s e) (dropFrame e s))) := by
  rw [exec_byteReceived_inFrame port unmarked inFrame, frameByte, if_pos full]

section
variable (room : ¬ ((eng s e).raw.length % 128 = 0 ∧ noCells s 1 = true))
include room

theorem byteReceived_whole
    (whole : frameFate s e ((eng s e).raw ++ [data.extractLsb' 0 8]) (eng s e).trail = .whole) :
    exec (.byteReceived e data false) s =
      .next (settle (processFrame e ((eng s e).raw ++ [data.extractLsb' 0 8]) s)) := by
  rw [exec_byteReceived_inFrame port unmarked inFrame, frameByte, if_neg room, whole]

theorem byteReceived_more
    (more : frameFate s e ((eng s e).raw ++ [data.extractLsb' 0 8]) (eng s e).trail = .more) :
    ∃ t, exec (.byteReceived e data false) s = .next t ∧ (eng t e).raw = (eng s e).raw ++ [data.extractLsb' 0 8] ∧
      (eng t e).inFrame = true ∧ (eng t e).err = (eng s e).err ∧ (eng t e).rx = (eng s e).rx := by
  rw [exec_byteReceived_inFrame port unmarked inFrame, frameByte, if_neg room, more]
  refine ⟨_, rfl, ?_⟩
  rw [eng_settle, eng_modEng_same]
  exact ⟨rfl, rfl, rfl, rfl⟩

theorem byteReceived_impossible
    (impossible : frameFate s e ((eng s e).raw ++ [data.extractLsb' 0 8]) (eng s e).trail = .impossible) :
    ∃ t, exec (.byteReceived e data false) s = .next t ∧ (eng t e).err = satField 24 8 (eng s e).err ∧
      (eng t e).resync = true ∧ (eng t e).inFrame = false := by
  rw [exec_byteReceived_inFrame port unmarked inFrame, frameByte, if_neg room, impossible]
  refine ⟨_, rfl, ?_⟩
  rw [eng_settle, eng_lengthDiscard]
  exact ⟨rfl, rfl, rfl⟩

end

end

/-- Settles O50: each command by what it does at a port that receives; a complete frame through `processFrame`, where the CAN
error counters that are drawn first decide nothing. -/
theorem portFrames : Obligations.PortFrames := by
  unfold Obligations.PortFrames
  intro e raw s runs up dialect
  have port : Receives s e := ⟨runs, up, dialect⟩
  refine ⟨frameReceived_long port, fun fr m vs => frameReceived_accepted port, fun fr => frameReceived_unmatched port,
    frameReceived_noCells port, fun quiet => ⟨fun gap part reached => ?_, fun gap part short => ?_,
      fun other reached => ?_, fun other short => ?_, ibtoExpiry_breaksOff port⟩,
    fun none => ?_, fun data => ⟨_, exec_byteReceived_bad port data, dropPartial_breaksOff s e⟩,
    fun data unmarked inFrame => ⟨byteReceived_noCell port unmarked inFrame, byteReceived_more port unmarked inFrame,
      byteReceived_whole port unmarked inFrame, byteReceived_impossible port unmarked inFrame⟩⟩
  · rw [exec_gapExpiry port, if_pos ⟨gap, part⟩, if_pos reached]
  · rw [exec_gapExpiry port, if_pos ⟨gap, part⟩, if_neg (Nat.not_le.mpr short)]
  · rw [exec_gapExpiry port, if_neg (by tauto), if_pos reached]
  · rw [exec_gapExpiry port, if_neg (by tauto), if_neg (Nat.not_le.mpr short)]
  · rw [exec_ibtoExpiry port, if_pos none]

end Sys2Proof.Machine
end

section
/-! Replies, polls, CTS and the USB and CAN ports (R262 to R265, R276, R277, R516): the statement O51. -/
namespace Sys2Proof.Machine

/-! ## Awaited frames (R276) -/

section
variable {e : Fin 56} {s : State} {w : Wait} (synced : (eng s e).up = (portState s e == 2))
include synced

theorem exec_ackReceived : exec (.ackReceived e) s = .next (settle (ackArrives e s)) := by
  change ok (ackArrives e (syncEng e s)) = _
  rw [syncEng_synced synced]
  rfl

theorem exec_nakReceived : exec (.nakReceived e) s = .next (settle (resendOrDrop e s)) := by
  change ok (resendOrDrop e (syncEng e s)) = _
  rw [syncEng_synced synced]
  rfl

theorem ackReceived_inTime (awaits : (eng s e).wait = some w) (inTime : s.clk.tick ≤ w.deadline) :
    exec (.ackReceived e) s = .next (settle
      (modEng e (fun x => { x with wait := none, missRun := if x.fault then x.missRun else 0 }) s)) := by
  rw [exec_ackReceived synced, ackArrives, awaits]
  dsimp only
  rw [if_pos inTime]

theorem ackReceived_late (awaits : (eng s e).wait = some w) (late : w.deadline < s.clk.tick) :
    exec (.ackReceived e) s = .next (settle s) := by
  rw [exec_ackReceived synced, ackArrives, awaits]
  dsimp only
  rw [if_neg (Nat.not_le.mpr late)]

end

section
variable {e : Nat} {s : State} {w : Wait}

/-- The engine with its awaited frame sent again. -/
def Eng.resent (x : Eng) (w : Wait) (deadline : Nat) : Eng :=
  { leaving w.pkt.data x with wait := some { w with tries := w.tries + 1, deadline := deadline } }

/-- In `t` engine `e` has sent the frame of `w` again, and awaits its reply anew. -/
def Resent (s : State) (e : Nat) (w : Wait) (t : State) : Prop :=
  (eng t e).sentTpl = w.pkt.data ∧ (eng t e).tx = ((eng s e).tx + 1) % 2 ^ 32 ∧ (eng t e).missRun = (eng s e).missRun ∧
    (eng t e).wait = some { w with tries := w.tries + 1, deadline := s.clk.tick + dl s e 23 1 4 }

/-- In `t` engine `e` has a failure more, and fault where that reaches miss_limit. -/
def Missed (s : State) (e : Nat) (t : State) : Prop :=
  (eng t e).missRun = min 15 ((eng s e).missRun + 1) ∧ (eng t e).tx = (eng s e).tx ∧
    (min 15 ((eng s e).missRun + 1) = dl s e 15 1 3 → (eng t e).fault = true) ∧
    (min 15 ((eng s e).missRun + 1) ≠ dl s e 15 1 3 → (eng t e).fault = (eng s e).fault)

/-- With resends left the awaited frame goes out again. -/
theorem resendOrDrop_resends (awaits : (eng s e).wait = some w) (free : ctsStops s e = false)
    (left : w.tries < dl s e 27 1 2) : resendOrDrop e s = modEng e (fun x => x.resent w (replyDeadline s e)) s := by
  rw [resendOrDrop, awaits]
  dsimp only
  rw [if_pos left, sendBytes_free, modEng_modEng]
  · rfl
  · rw [ctsStops_modEng, free]
    rfl

/-- Otherwise it is dropped as a failure. -/
theorem resendOrDrop_drops (awaits : (eng s e).wait = some w) (used : dl s e 27 1 2 ≤ w.tries) :
    resendOrDrop e s = countMiss e (modEng e (fun x => { x with wait := none }) s) := by
  rw [resendOrDrop, awaits]
  dsimp only
  rw [if_neg (Nat.not_lt.mpr used)]

theorem resent_settled : Resent s e w (settle (modEng e (fun x => x.resent w (replyDeadline s e)) s)) := by
  rw [Resent, eng_settle, eng_modEng_same]
  exact ⟨rfl, rfl, rfl, rfl⟩

theorem eng_countMiss_modEng (f : Eng → Eng) :
    eng (countMiss e (modEng e f s)) e = (f (eng s e)).missed (dl s e 15 1 3) := by
  rw [countMiss_is.read, eng_modEng_same, dl_congr (s := s) (modEng_img ..)]

/-- A failure counted once the engine has given up waiting by `f`, which keeps what failures count with. -/
theorem countMiss_missed {f : Eng → Eng} (run : (f (eng s e)).missRun = (eng s e).missRun)
    (tx : (f (eng s e)).tx = (eng s e).tx) (fault : (f (eng s e)).fault = (eng s e).fault) :
    Missed s e (settle (countMiss e (modEng e f s))) := by
  rw [Missed, eng_settle, eng_countMiss_modEng, Eng.missed]
  simp only [run, tx, fault]
  refine ⟨trivial, trivial, fun reached => ?_, fun short => ?_⟩
  · rw [decide_eq_true reached, Bool.or_true]
  · rw [decide_eq_false short, Bool.or_false]

/-- The deadline of the awaited frame. -/
def frameDeadline (e : Nat) (s : State) : State :=
  match (eng s e).wait with
  | some w => if w.deadline < s.clk.tick then resendOrDrop e s else s
  | none => s

/-- The deadline of the poll. -/
def pollDeadline (e : Nat) (s : State) : State :=
  match (eng s e).poll with
  | some d => if d < s.clk.tick then countMiss e (modEng e (fun x => { x with poll := none }) s) else s
  | none => s

theorem pollDeadline_none (none : (eng s e).poll = none) : pollDeadline e s = s := by
  rw [pollDeadline, none]

end

section
variable {e : Fin 56} {s : State} {w : Wait} (synced : (eng s e).up = (portState s e == 2))
include synced

theorem nakReceived_resends (awaits : (eng s e).wait = some w) (free : ctsStops s e = false)
    (left : w.tries < dl s e 27 1 2) : ∃ t, exec (.nakReceived e) s = .next t ∧ Resent s e w t := by
  rw [exec_nakReceived synced, resendOrDrop_resends awaits free left]
  exact ⟨_, rfl, resent_settled⟩

theorem nakReceived_drops (awaits : (eng s e).wait = some w) (used : dl s e 27 1 2 ≤ w.tries) :
    ∃ t, exec (.nakReceived e) s = .next t ∧ (eng t e).wait = none ∧ Missed s e t := by
  rw [exec_nakReceived synced, resendOrDrop_drops awaits used]
  refine ⟨_, rfl, ?_, countMiss_missed rfl rfl rfl⟩
  rw [eng_settle, eng_countMiss_modEng]
  rfl

/-! ## Deadlines and polls (R276, R277, R264) -/

theorem exec_replyDeadline : exec (.replyDeadline e) s = .next (settle (pollDeadline e (frameDeadline e s))) := by
  have acts : exec (.replyDeadline e) s = .next (settle (pollDeadline e (frameDeadline e (syncEng e s)))) := rfl
  rw [acts, syncEng_synced synced]

theorem replyDeadline_resends (awaits : (eng s e).wait = some w) (free : ctsStops s e = false)
    (noPoll : (eng s e).poll = none) (left : w.tries < dl s e 27 1 2) (passed : w.deadline < s.clk.tick) :
    ∃ t, exec (.replyDeadline e) s = .next t ∧ Resent s e w t := by
  have due : frameDeadline e s = modEng e (fun x => x.resent w (replyDeadline s e)) s := by
    rw [frameDeadline, awaits]
    dsimp only
    rw [if_pos passed, resendOrDrop_resends awaits free left]
  rw [exec_replyDeadline synced, due, pollDeadline_none]
  · exact ⟨_, rfl, resent_settled⟩
  · rw [eng_modEng_same]
    exact noPoll

theorem replyDeadline_early (awaits : (eng s e).wait = some w) (noPoll : (eng s e).poll = none)
    (early : s.clk.tick ≤ w.deadline) : exec (.replyDeadline e) s = .next (settle s) := by
  have waits : frameDeadline e s = s := by
    rw [frameDeadline, awaits]
    dsimp only
    rw [if_neg (Nat.not_lt.mpr early)]
  rw [exec_replyDeadline synced, waits, pollDeadline_none noPoll]

theorem replyDeadline_poll {d : Nat} (idle : (eng s e).wait = none) (polled : (eng s e).poll = some d)
    (passed : d < s.clk.tick) :
    ∃ t, exec (.replyDeadline e) s = .next t ∧ (eng t e).poll = none ∧ Missed s e t := by
  have waits : frameDeadline e s = s := by rw [frameDeadline, idle]
  have fails : pollDeadline e s = countMiss e (modEng e (fun x => { x with poll := none }) s) := by
    rw [pollDeadline, polled]
    dsimp only
    rw [if_pos passed]
  rw [exec_replyDeadline synced, waits, fails]
  refine ⟨_, rfl, ?_, countMiss_missed rfl rfl rfl⟩
  rw [eng_settle, eng_countMiss_modEng]
  rfl

/-- The engine with a poll sent, whose reply is due by `deadline`; `status` is what its port status then reads. -/
def Eng.polled (x : Eng) (deadline status : Nat) (bs : List Byte) : Eng :=
  { leaving bs x with poll := some deadline, prnStatus := status }

/-- In a tick that the phase rule selects the poll frame goes out, unless a reply is pending; a printer's status is read. -/
theorem exec_poll (status : Byte) (up : (eng s e).up = true) (free : ctsStops s e = false) (dialect : dialectOf s e ≤ 31)
    (polls : dlFlag s e 5 = true) (noPoll : (eng s e).poll = none)
    (phase : (s.clk.tick + max 1 (dl s e 28 2 1) * 65536 - dl s e 30 2 0) % max 1 (dl s e 28 2 1) = 0) :
    exec (.poll e status) s = .next (settle (modEng e (fun x => x.polled (replyDeadline s e)
      (if port s e 16 2 0 = 7 then status.toNat else x.prnStatus)
      (pool s e (dl s e 32 2 0) (dl s e 34 1 0))) s)) := by
  have receives : Receives s e := ⟨by simpa [up] using synced, up, dialect⟩
  refine congrArg ok ?_
  dsimp only
  rw [syncEng_synced synced, if_pos (by simp [receives.listening, polls, noPoll, phase])]
  by_cases printer : port s e 16 2 0 = 7
  · simp only [if_pos printer, port_congr (s := s) (modEng_img ..)]
    rw [modEng_modEng, sendBytes_free, modEng_modEng]
    · rfl
    · rw [ctsStops_modEng, free]
      rfl
  · simp only [if_neg printer, port_congr (s := s) (modEng_img ..)]
    rw [sendBytes_free, modEng_modEng]
    · rfl
    · rw [ctsStops_modEng, free]
      rfl

end

/-! ## USB ports (R263, R516) -/

theorem exec_usbDetach (e : Fin 56) (s : State) : exec (.usbDetach e) s = .next (settle (if (eng s e).usbAddr = 0 then s
    else raise 0x1206 (0x100 + e.val) (modEng e (fun x => { x with
      usbAddr := 0, speed := 0, usbPort := 255, raw := [], inFrame := false, wait := none, poll := none }) s))) := rfl

/-- The engines that a function on port `h` may be bound to. -/
def usbEngines (h : Fin 8) : List Nat := [40 + h.val, 52, 53, 54, 55]

theorem syncEngines_synced {s : State} {l : List Nat} (synced : ∀ e ∈ l, (eng s e).up = (portState s e == 2)) :
    l.foldl (fun s e => syncEng e s) s = s := by
  induction l with
  | nil => rfl
  | cons e l ih =>
    rw [List.foldl_cons, syncEng_synced (synced e List.mem_cons_self)]
    exact ih fun d hd => synced d (List.mem_cons_of_mem e hd)

section
variable {h : Fin 8} {s : State} {cls : BitVec 16} {vidpid : BitVec 32} {addr : BitVec 8} {speed : BitVec 2}
  (synced : ∀ e ∈ usbEngines h, (eng s e).up = (portState s e == 2))
include synced

theorem exec_usbAttach_second : exec (.usbAttach h cls vidpid addr speed true) s =
    .next (settle (raise 0x1206 (0x200 + 40 + h.val) s)) := by
  change execUsbAttach h cls vidpid addr speed true s = _
  rw [execUsbAttach, if_pos rfl]
  change ok (raise _ _ ((usbEngines h).foldl _ s)) = _
  rw [syncEngines_synced synced]
  rfl

theorem exec_usbAttach {taker : Option Nat}
    (found : ((usbEngines h).find? fun e => bindable s e h cls.toNat vidpid.toNat) = taker) :
    exec (.usbAttach h cls vidpid addr speed false) s = .next (settle (
      taker.elim (raise 0x1206 (40 + h.val) s) fun e => raise 0x1206 e (modEng e (fun x => { x with
        usbAddr := max 1 addr.toNat, speed := speed.toNat, usbPort := h.val }) s))) := by
  refine congrArg ok ?_
  rw [if_neg Bool.false_ne_true]
  have synced' : ((40 + h.val) :: [52, 53, 54, 55]).foldl (fun s e => syncEng e s) s = s := syncEngines_synced synced
  have found' : (((40 + h.val) :: [52, 53, 54, 55]).find? fun e => bindable s e h cls.toNat vidpid.toNat) = taker := found
  rw [synced', found']
  cases taker with
  | none => rfl
  | some e => rfl

end

/-- An overcurrent at port `h`, for engine `e`: fault where it is bound to the port. -/
def cutOff (h : Fin 8) (s : State) (e : Nat) : State :=
  if (eng s e).usbAddr ≠ 0 ∧ engLane s e = some h.val then setFault e s else s

theorem exec_usbOvercurrent (h : Fin 8) (s : State) : exec (.usbOvercurrent h) s =
    .next (settle (modEng (40 + h.val) (fun x => { x with oc := true }) ((usbEngines h).foldl (cutOff h) s))) := rfl

section
variable {h : Fin 8} {s : State}

/-- Engine `d` is bound in `t` where it was in `s`, and has fault in `t` if it had in `s`. -/
def StaysBound (d : Nat) (s t : State) : Prop :=
  t.img = s.img ∧ (eng t d).usbAddr = (eng s d).usbAddr ∧ ((eng s d).fault = true → (eng t d).fault = true)

theorem cutOff_staysBound (e d : Nat) : StaysBound d s (cutOff h s e) := by
  unfold cutOff
  split
  · have set := setFault_is (e := e) (s := s)
    refine ⟨set.img, ?_⟩
    by_cases same : d = e
    · rw [same, set.read]
      exact ⟨rfl, fun _ => rfl⟩
    · rw [set.read_ne same]
      exact ⟨rfl, id⟩
  · exact ⟨rfl, rfl, id⟩

theorem cutOff_fault {e : Nat} (bound : (eng s e).usbAddr ≠ 0) (of : engLane s e = some h.val) :
    (eng (cutOff h s e) e).fault = true := by
  rw [cutOff, if_pos ⟨bound, of⟩, setFault_is.read]

theorem cutOffs_fault {l : List Nat} {s : State} {d : Nat} (bound : (eng s d).usbAddr ≠ 0)
    (of : engLane s d = some h.val) (cut : d ∈ l ∨ (eng s d).fault = true) :
    (eng (l.foldl (cutOff h) s) d).fault = true := by
  induction l generalizing s with
  | nil => simpa using cut
  | cons e l ih =>
    obtain ⟨img, addr, keeps⟩ := cutOff_staysBound (h := h) (s := s) e d
    refine ih (addr ▸ bound) ?_ ?_
    · rw [engLane, port_congr img, ← engLane, of]
    · rcases cut with cut | fault
      · rcases List.mem_cons.mp cut with rfl | later
        · exact .inr (cutOff_fault bound of)
        · exact .inl later
      · exact .inr (keeps fault)

theorem usbOvercurrent_cuts (h : Fin 8) (s : State) : ∃ t, exec (.usbOvercurrent h) s = .next t ∧
    (eng t (40 + h.val)).oc = true ∧
    ∀ e ∈ usbEngines h, (eng s e).usbAddr ≠ 0 → engLane s e = some h.val → (eng t e).fault = true := by
  refine ⟨_, exec_usbOvercurrent h s, ?_, fun e cut bound of => ?_⟩
  · rw [eng_settle, eng_modEng_same]
  · rw [eng_settle, eng_modEng_keeps Eng.fault]
    · exact cutOffs_fault bound of (.inl cut)
    · exact fun _ => rfl

end

/-! ## CTS (R262) -/

section
variable {e : Fin 16} {s : State}

/-- The engine with CTS at this level. -/
def Eng.withCts (active : Bool) (x : Eng) : Eng := { x with cts := active }

theorem ctsStops_uart (e : Fin 16) (s : State) :
    ctsStops s e = (bitOf (port s e 12 1 1) 6 && !(eng s e).cts) := by
  rw [ctsStops, decide_eq_true e.isLt, Bool.true_and]

theorem ctsStops_withCts (active : Bool) :
    ctsStops (modEng e (Eng.withCts active) s) e = (bitOf (port s e 12 1 1) 6 && !active) := by
  rw [ctsStops_uart, eng_modEng_same, port_congr (s := s) (modEng_img ..)]
  rfl

theorem ctsChange_same {active : Bool} (same : bitOf (port s e 12 1 1) 6 = false ∨ (eng s e).cts = active) :
    exec (.ctsChange e active) s = .next (settle (modEng e (fun x => { x with cts := active }) s)) := by
  have stops : ctsStops s e = ctsStops (modEng e (Eng.withCts active) s) e := by
    rw [ctsStops_withCts, ctsStops_uart]
    rcases same with unused | same
    · rw [unused, Bool.false_and, Bool.false_and]
    · rw [same]
  exact congrArg ok (if_pos stops)

section
variable (used : bitOf (port s e 12 1 1) 6 = true)
include used

theorem ctsChange_stops (was : (eng s e).cts = true) : ∃ n, n ≤ (eng s e).going.length ∧
    exec (.ctsChange e false) s = .next (settle { modEng e (fun x => { x with
      cts := false, going := x.going.drop n }) s with free := s.free + 1 }) := by
  have turns : ctsStops s e ≠ ctsStops (modEng e (Eng.withCts false) s) e := by
    rw [ctsStops_withCts, ctsStops_uart, used, was]
    decide
  refine ⟨Config.freeNat s.free % max 1 ((eng s e).going.length + 1), ?_, ?_⟩
  · have := Nat.mod_lt (Config.freeNat s.free) (y := max 1 ((eng s e).going.length + 1)) (by omega)
    omega
  · refine congrArg ok ((if_neg turns).trans ?_)
    rw [if_neg Bool.false_ne_true, eng_modEng_same]
    exact congrArg (fun u : State => { u with free := s.free + 1 }) (modEng_modEng e (Eng.withCts false)
      (fun x => { x with going := x.going.drop (Config.freeNat s.free % max 1 ((eng s e).going.length + 1)) }) s)

/-- What waited leaves behind what was leaving. -/
theorem exec_ctsChange_resumes (was : (eng s e).cts = false) : exec (.ctsChange e true) s =
    .next (settle (modEng e (fun x =>
      x.waiting.getLast?.elim { x with cts := true } fun last => { x with
        cts := true, sentTpl := last.2, going := x.going ++ x.waiting.flatMap Prod.snd,
        tx := (x.tx + (x.waiting.map Prod.fst).sum) % 2 ^ 32, waiting := [] }) s)) := by
  have turns : ctsStops s e ≠ ctsStops (modEng e (Eng.withCts true) s) e := by
    rw [ctsStops_withCts, ctsStops_uart, used, was]
    decide
  refine congrArg ok ((if_neg turns).trans ?_)
  rw [if_pos rfl, modEng_modEng]
  refine congrArg (modEng e · s) (funext fun x => ?_)
  cases x.waiting.getLast? with
  | none => rfl
  | some w => rfl

theorem ctsChange_resumes_idle (was : (eng s e).cts = false) (idle : (eng s e).waiting = []) :
    ∃ t, exec (.ctsChange e true) s = .next t ∧ eng t e = { eng s e with cts := true } ∧
      ∀ d, d ≠ e.val → eng t d = eng s d := by
  refine ⟨_, exec_ctsChange_resumes used was, ?_, fun d ne => ?_⟩
  · have none : (eng s e).waiting.getLast? = .none := by rw [idle, List.getLast?_nil]
    rw [eng_settle, eng_modEng_same, none]
    rfl
  · rw [eng_settle, eng_modEng_ne _ _ ne]

theorem ctsChange_resumes_waiting (was : (eng s e).cts = false) {l : List (Nat × List Byte)} {n : Nat} {bs : List Byte}
    (waits : (eng s e).waiting = l ++ [(n, bs)]) : ∃ t, exec (.ctsChange e true) s = .next t ∧
      (eng t e).waiting = [] ∧ (eng t e).sentTpl = bs ∧
      (eng t e).going = (eng s e).going ++ (eng s e).waiting.flatMap Prod.snd ∧ (eng t e).cts = true ∧
      (eng t e).tx = ((eng s e).tx + ((eng s e).waiting.map Prod.fst).sum) % 2 ^ 32 := by
  have last : (eng s e).waiting.getLast? = some (n, bs) := by rw [waits, List.getLast?_concat]
  refine ⟨_, exec_ctsChange_resumes used was, ?_⟩
  rw [eng_settle, eng_modEng_same, last]
  exact ⟨rfl, rfl, rfl, rfl, rfl⟩

end

end

/-! ## CAN ports (R265) -/

section
variable {c : Fin 4} {s : State}

theorem canBusOff_faults (runs : portState s (48 + c.val) = 2) (up : (eng s (48 + c.val)).up = true) :
    ∃ t, exec (.canBusOff c) s = .next t ∧ (eng t (48 + c.val)).busOff = true ∧ (eng t (48 + c.val)).fault = true ∧
      (eng t (48 + c.val)).rx = (eng s (48 + c.val)).rx ∧ t.free = s.free + 2 := by
  have synced : syncEng (48 + c.val) s = s := syncEng_synced (by rw [up, runs]; rfl)
  obtain ⟨tec, recv, drawn⟩ := canCounters_can (e := 48 + c.val) (s := s) (by omega) (by omega)
  have acts : exec (.canBusOff c) s = .next (settle (setFault (48 + c.val)
      (modEng (48 + c.val) (fun x => { x with busOff := true }) (canCounters (48 + c.val) s)))) := by
    change execCanBusOff c s = _
    rw [execCanBusOff, synced, if_pos up]
    rfl
  refine ⟨_, acts, ?_⟩
  rw [eng_settle, setFault_is.read, eng_modEng_same, settle_free, setFault_free, modEng_free, drawn]
  refine ⟨rfl, rfl, ?_, rfl⟩
  exact eng_modEng_keeps Eng.rx (f := fun x => { x with tec := tec, recv := recv }) (fun _ => rfl) _ _ s

theorem canBusOffRecovery_clears (off : (eng s (48 + c.val)).busOff = true) :
    ∃ t, exec (.canBusOffRecovery c) s = .next t ∧ (eng t (48 + c.val)).busOff = false ∧
      (eng t (48 + c.val)).fault = false ∧ (eng t (48 + c.val)).tec = 0 ∧ (eng t (48 + c.val)).recv = 0 := by
  have acts : exec (.canBusOffRecovery c) s = .next (settle (clearFault (48 + c.val)
      (modEng (48 + c.val) (fun x => { x with busOff := false, tec := 0, recv := 0 }) s))) := congrArg ok (if_pos off)
  refine ⟨_, acts, ?_⟩
  rw [eng_settle, clearFault_is.read, eng_modEng_same]
  exact ⟨rfl, rfl, rfl, rfl⟩

theorem canBusOffRecovery_none (on : (eng s (48 + c.val)).busOff = false) :
    exec (.canBusOffRecovery c) s = .next (settle s) := congrArg ok (if_neg (by rw [on]; exact Bool.false_ne_true))

end

/-- Settles O51: each command by its own lemma. -/
theorem portReplies : Obligations.PortReplies := by
  unfold Obligations.PortReplies
  refine ⟨fun e s synced => ⟨fun w awaits => ⟨ackReceived_inTime synced awaits, ackReceived_late synced awaits,
      nakReceived_resends synced awaits, nakReceived_drops synced awaits, replyDeadline_resends synced awaits,
      replyDeadline_early synced awaits⟩, fun d => replyDeadline_poll synced,
      fun status up free dialect polls noPoll phase => ⟨_, exec_poll synced status up free dialect polls noPoll phase, ?_⟩,
      fun unbound => ?_, fun bound => ?_⟩,
    fun e active s => ⟨ctsChange_same, ctsChange_stops, ctsChange_resumes_idle,
      fun used was l n bs => ctsChange_resumes_waiting used was⟩,
    fun h s synced => ⟨fun cls vidpid addr speed => exec_usbAttach_second synced,
      fun cls vidpid addr speed => ⟨fun e => exec_usbAttach synced, fun none =>
        exec_usbAttach synced (taker := .none) (List.find?_eq_none.mpr fun e at' => by simp [none e at'])⟩,
      usbOvercurrent_cuts h s⟩,
    fun c s => ⟨canBusOff_faults, canBusOffRecovery_clears, canBusOffRecovery_none⟩⟩
  · rw [eng_settle, eng_modEng_same]
    exact ⟨rfl, rfl, rfl, rfl⟩
  · rw [exec_usbDetach, if_pos unbound]
  · rw [exec_usbDetach, if_neg bound]

end Sys2Proof.Machine
end

section
/-! SUPPORT. The KLP engine: what leaves its sessions alone, and what a datagram that passes R313 does (R313, R316, R317). -/

namespace Sys2Proof.Machine

/-! ## What leaves the engine alone -/

theorem OnlySw.klp {s t : State} (h : OnlySw s t) : t.klp = s.klp := by
  obtain ⟨_, rfl⟩ := h
  rfl

theorem SwitchAndRefusals.klp {s t : State} (h : SwitchAndRefusals s t) : t.klp = s.klp := by
  obtain ⟨_, _, rfl, -⟩ := h
  rfl

theorem PulsesAre.klp {n : Nat} {p : Tbl Nat} {s t : State} (h : PulsesAre n p s t) : t.klp = s.klp := by
  obtain ⟨_, _, _, rfl, -⟩ := h
  rfl

@[simp] theorem offerPkt_klp (q slot : Nat) (dei : Bool) (k : Pkt) (s : State) : (offerPkt q slot dei k s).2.klp = s.klp :=
  (Frame.offerPkt_sr q slot dei k s).klp

@[simp] theorem klpSend_klp (lane typ form seq : Nat) (data : List Byte) (s : State) :
    (klpSend lane typ form seq data s).klp = s.klp := (Frame.klpSend_sr lane typ form seq data s).klp

@[simp] theorem sendClose_klp (v6 : Bool) (own addr port lane : Nat) (bytes : List Byte) (s : State) :
    (sendClose v6 own addr port lane bytes s).klp = s.klp := offerPkt_klp _ _ _ _ s

@[simp] theorem raiseL_klp (code arg lane : Nat) (s : State) : (raiseL code arg lane s).klp = s.klp := by
  obtain ⟨_, _, _, raised⟩ := raiseAs_raised (classOf code) code arg lane s
  rw [raiseL, raised]

@[simp] theorem refuseMsg_klp (lane seq reason : Nat) (s : State) : (refuseMsg lane seq reason s).klp = s.klp :=
  klpSend_klp _ _ _ _ _ s

theorem freeBytes_klp (n : Nat) (s : State) : (freeBytes n s).2.klp = s.klp := by
  induction n generalizing s with
  | zero => rfl
  | succ n ih => exact ih (drawNat 256 s).2

theorem cvGenerate_klp (u : Nat) (fr : List Byte) (s : State) : (cvGenerate u fr s).2.klp = s.klp := by
  unfold cvGenerate
  split <;> rfl

theorem buildFrame_klp (e t : Nat) (ins : List Byte) (s : State) : (buildFrame e t ins s).2.klp = s.klp := by
  unfold buildFrame
  extract_lets o fixed at' body st delim en
  generalize trail : (if delim then freeBytes (trailOf s e) s else ([], s)) = drawn
  have drawn_klp : drawn.2.klp = s.klp := by
    rw [← trail]
    split
    · exact freeBytes_klp _ s
    · rfl
  dsimp -zeta only
  extract_lets cvu hasCv n back after inTrail k body' fr
  have checked : (if hasCv = true then cvGenerate cvu fr drawn.2 else (fr, drawn.2)).2.klp = drawn.2.klp := by
    split
    · exact cvGenerate_klp _ _ _
    · rfl
  exact checked.trans drawn_klp

theorem offerFrame_klp (e t : Nat) (ins : List Byte) (tag : Option (Nat × Nat)) (s : State) :
    (offerFrame e t ins tag s).2.klp = s.klp := by
  have built := buildFrame_klp e t ins s
  unfold offerFrame
  split
  · next h => rw [h] at built; exact built
  · next h => rw [h] at built; exact (offerPkt_klp _ _ _ _ _).trans built

theorem programRoute_klp (lane : Nat) (m : HostMsg) (s : State) : (programRoute lane m s).2.klp = s.klp := by
  unfold programRoute
  extract_lets pw pb base w0
  split
  · rfl
  · split
    · rfl
    · split
      · rfl
      · generalize put : putGroup _ _ _ _ _ s = placed
        have kept : placed.2.klp = s.klp := by
          rw [← put]
          exact (putGroup_pulses lane _ _ _ _ s).klp
        dsimp only
        split
        · dsimp only
          split <;> exact kept
        · exact kept

theorem settledPath_sw (l : List Node) (q : Nat) {s t : State} (h : OnlySw s t) :
    OnlySw s (refreshPath (l.foldl settleNode t) q) :=
  Frame.sw_trans h (Frame.sw_trans (Frame.sw_foldl _ Frame.settleNode_sw l t) (Frame.refreshPath_sw _ q))

theorem withdraw_sw (q : Nat) (t : Nat × Nat) (s : State) : OnlySw s (withdraw q t s).2 := by
  unfold withdraw
  extract_lets p
  split
  · split
    · exact Frame.sw_trans (Frame.undo_sw _ _ _) (Frame.choose_sw _ _)
    · split
      · dsimp only
        exact settledPath_sw _ q ⟨_, rfl⟩
      · exact Frame.sw_refl s
  · split
    · dsimp only
      exact settledPath_sw _ q ⟨_, rfl⟩
    · exact Frame.sw_refl s

theorem cancel_klp (q : Nat) (t : Nat × Nat) (s : State) : (cancel q t s).2.klp = s.klp := by
  have kept := (withdraw_sw q t s).klp
  unfold cancel
  split
  · next h => rw [h] at kept; exact kept
  · next h =>
    rw [h] at kept
    dsimp only
    split
    · exact (raise_klp _ _ _).trans kept
    · exact kept

theorem canPhase_klp (p : Nat) (s : State) : (canPhase p s).2.klp = s.klp := by
  unfold canPhase
  split <;> rfl

theorem canAbort_klp (p : Nat) (k : Pkt) (s : State) : (canAbort p k s).2.klp = s.klp := by
  have kept := canPhase_klp p s
  unfold canAbort
  extract_lets e
  split
  · next h => rw [h] at kept; exact (raise_klp _ _ _).trans kept
  · next h => rw [h] at kept; exact kept

theorem hostCancel_klp (num seq target : Nat) (s : State) : (hostCancel num seq target s).2.klp = s.klp := by
  unfold hostCancel
  extract_lets t
  split
  · rfl
  · split
    · extract_lets held island
      split
      · rfl
      · exact cancel_klp _ _ s
    · split
      · split
        · exact canAbort_klp _ _ s
        · exact cancel_klp _ _ s
      · rfl

theorem offerRaw_klp (q lane : Nat) (m : HostMsg) (num : Nat) (s : State) : (offerRaw q lane m num s).2.klp = s.klp :=
  offerPkt_klp _ _ _ _ s

/-- CANCEL is answered on the session, whatever came of it (R323). -/
theorem placeMsg_cancel (lane : Nat) {num r : Nat} {m : HostMsg} {s w : State} (cancels : m.typ = 5)
    (cancelled : hostCancel num m.seq (beNat (m.data.take 4)) s = (r, w)) :
    placeMsg lane num m s =
      (0, klpSend lane 5 0 0 (beBytes 4 (beNat (m.data.take 4)) ++ [BitVec.ofNat 8 r, 0, 0, 0]) w) := by
  unfold placeMsg
  refine (if_pos cancels).trans ?_
  extract_lets target
  rw [show hostCancel num m.seq target s = (r, w) from cancelled]

theorem ite_klp {c : Prop} [Decidable c] {p q : Nat × State} {k : Klp} (yes : p.2.klp = k) (no : q.2.klp = k) :
    (if c then p else q).2.klp = k := by
  split
  · exact yes
  · exact no

/-- What a host's message does, placed or not, leaves the sessions alone. -/
theorem placeMsg_klp (lane num : Nat) (m : HostMsg) (s : State) : (placeMsg lane num m s).2.klp = s.klp := by
  by_cases cancels : m.typ = 5
  · have kept := hostCancel_klp num m.seq (beNat (m.data.take 4)) s
    cases cancelled : hostCancel num m.seq (beNat (m.data.take 4)) s with
    | mk r w =>
      rw [cancelled] at kept
      rw [placeMsg_cancel lane cancels cancelled]
      exact (klpSend_klp _ _ _ _ _ w).trans kept
  · unfold placeMsg
    extract_lets template target
    have filled : ∀ other : Nat × State, other.2.klp = s.klp → ((template s).getD other).2.klp = s.klp := by
      intro other kept
      simp only [template]
      cases routeTemplate s lane m.sub m.typ with
      | none => exact kept
      | some et =>
        have offered := offerFrame_klp et.1 et.2 m.data (some (num, m.seq)) s
        dsimp only [Option.map_some, Option.getD_some]
        split <;> next h => rw [h] at offered; exact offered
    rw [if_neg cancels]
    refine ite_klp (ite_klp rfl (ite_klp rfl (offerRaw_klp _ _ _ _ s))) (ite_klp ?island (ite_klp (filled _ rfl)
      (ite_klp (filled _ (programRoute_klp _ _ s)) (ite_klp (programRoute_klp _ _ s) rfl))))
    case island => exact ite_klp rfl (ite_klp rfl (ite_klp rfl (offerRaw_klp _ _ _ _ s)))

/-- A closed session is empty, and the others are as they were. -/
theorem closeSess_sess {i : Nat} (reason : Nat) (tell : Bool) {s : State} (isOpen : (tget {} s.klp.sess i).isOpen = true) :
    (closeSess i reason tell s).klp.sess = tset {} s.klp.sess i {} := by
  unfold closeSess
  extract_lets x lane key told
  have kept : told.klp = s.klp := ite_keeps State.klp (sendClose_klp _ _ _ _ _ _ s)
  rw [if_neg (by simp [x, isOpen]), sessEvent, raiseL_klp]
  dsimp only
  rw [kept]

/-- A message delivered holds back none. -/
theorem deliverMsg_held {i : Nat} (m : HostMsg) {s : State} (none : (tget {} s.klp.sess i).held = []) :
    (tget {} (deliverMsg i m s).klp.sess i).held = [] := by
  unfold deliverMsg
  extract_lets lane
  split
  · cases isOpen : (tget {} s.klp.sess i).isOpen with
    | true => rw [closeSess_sess _ _ isOpen, tget_tset_same]
    | false =>
      rw [closeSess, if_pos (by simp [isOpen])]
      exact none
  · have placed := placeMsg_klp lane (tget {} s.klp.sess i).num m s
    generalize placeMsg lane _ m s = p at placed
    dsimp only
    split
    · rw [placed]
      exact none
    · rw [refuseMsg_klp, ite_keeps State.klp (s := p.2) (t := portErr m.sub 0 p.2) rfl, placed]
      exact none

theorem deliverHeld_none {i : Nat} (n : Nat) {s : State} (none : (tget {} s.klp.sess i).held = []) :
    deliverHeld i n s = s := by
  cases n with
  | zero => rfl
  | succ n => simp [deliverHeld, none]

/-! ## A datagram that passes R313 -/

theorem modSess_modSess (i : Nat) (f g : Sess → Sess) (s : State) :
    modSess i g (modSess i f s) = modSess i (fun x => g (f x)) s := by
  simp [modSess, tmod]

@[simp] theorem sess_modSess_same (i : Nat) (f : Sess → Sess) (s : State) :
    tget {} (modSess i f s).klp.sess i = f (tget {} s.klp.sess i) := tget_tmod_same _ _ _ _

@[simp] theorem sess_modSess_ne {i j : Nat} (f : Sess → Sess) (s : State) (other : j ≠ i) :
    tget {} (modSess i f s).klp.sess j = tget {} s.klp.sess j := tget_tmod_ne _ _ _ other

/-- Only what becomes of the session as it stands matters. -/
theorem modSess_congr {i : Nat} {f g : Sess → Sess} {s : State} (same : f (tget {} s.klp.sess i) = g (tget {} s.klp.sess i)) :
    modSess i f s = modSess i g s := by
  simp only [modSess, tmod, same]

theorem seqEarlier_self (a : Nat) : seqEarlier a a = false := by
  have none : (a + 2 ^ 32 - a % 2 ^ 32) % 2 ^ 32 = 0 := by omega
  rw [seqEarlier, none]
  rfl

section
variable {typ i : Nat} {d : KlpDgram} {s : State}

/-- An ack in its range acknowledges everything earlier (R317). -/
theorem heard_acked (range : d.ack = (tget {} s.klp.sess i).txNext ∨ seqEarlier d.ack (tget {} s.klp.sess i).txNext = true)
    (new : seqEarlier d.ack (tget {} s.klp.sess i).lastAck = false) :
    heard i d s = modSess i (fun x => { x with
      lastRx := s.clk.tick, lastAck := d.ack, unack := x.unack.filter fun u => !seqEarlier u.seq d.ack }) s := by
  rw [heard, takeAck, sess_modSess_same]
  dsimp only
  rw [if_pos ⟨range, by rw [new]; rfl⟩, modSess_modSess]

/-- An ack out of its range changes nothing (R317). -/
theorem heard_unacked (range : (d.ack ≠ (tget {} s.klp.sess i).txNext ∧ seqEarlier d.ack (tget {} s.klp.sess i).txNext = false) ∨
      seqEarlier d.ack (tget {} s.klp.sess i).lastAck = true) :
    heard i d s = modSess i (fun x => { x with lastRx := s.clk.tick }) s := by
  rw [heard, takeAck, sess_modSess_same]
  dsimp only
  refine if_neg ?_
  rintro ⟨taken, new⟩
  rcases range with ⟨ne, late⟩ | old
  · rw [late] at taken
    exact taken.elim ne Bool.false_ne_true
  · rw [old] at new
    exact Bool.false_ne_true new

/-- A datagram's ack touches only what awaits one. -/
theorem heard_only (i : Nat) (d : KlpDgram) (s : State) : ∃ a l, heard i d s =
    modSess i (fun x => { x with lastRx := s.clk.tick, lastAck := a, unack := l }) s := by
  by_cases acked : (d.ack = (tget {} s.klp.sess i).txNext ∨ seqEarlier d.ack (tget {} s.klp.sess i).txNext = true) ∧
      seqEarlier d.ack (tget {} s.klp.sess i).lastAck = false
  · exact ⟨_, _, (heard_acked acked.1 acked.2).trans (modSess_congr rfl)⟩
  · rw [not_and_or, not_or, Bool.not_eq_true, Bool.not_eq_false] at acked
    exact ⟨_, _, (heard_unacked acked).trans (modSess_congr rfl)⟩

/-- The session of a message delivered: the ack, and the seq after the message's. -/
theorem delivered_only (i : Nat) (d : KlpDgram) (s : State) : ∃ a l, delivered i d s = modSess i (fun x => { x with
    lastRx := s.clk.tick, lastAck := a, unack := l, rxNext := (x.rxNext + 1) % 2 ^ 32 }) s := by
  obtain ⟨a, l, only⟩ := heard_only i d s
  exact ⟨a, l, by rw [delivered, only, modSess_modSess]⟩

theorem delivered_sess (i : Nat) (d : KlpDgram) (s : State) : ∃ l, delivered i d s = { s with klp.sess := l } := by
  obtain ⟨a, l, only⟩ := delivered_only i d s
  exact ⟨_, only⟩

@[simp] theorem delivered_img (i : Nat) (d : KlpDgram) (s : State) : (delivered i d s).img = s.img := by
  obtain ⟨_, only⟩ := delivered_sess i d s
  rw [only]

/-- A datagram of an open session that passes R313: its ack, and then its message (R316, R317). -/
theorem klpReceive_passes (passes : Passes typ d i s) (noOpen : typ ≠ 1) (noWake : typ ≠ 6) :
    klpReceive d s = if d.ackOnly = true then heard i d s else takeData i d (heard i d s) := by
  obtain ⟨rfl, uplink, serves, header, crc, session, tag⟩ := passes
  have here : ¬ (d.uplink.val ≠ klpPort s ∨ (!servesAddr s d.v6 d.dst.toNat) = true) := by simp [uplink, serves]
  unfold klpReceive
  rw [if_neg noWake, if_neg here, if_neg (by omega), if_neg (by omega), if_neg (by simp [crc])]
  extract_lets si
  have named : si = some i := session
  clear_value si
  subst named
  rw [if_neg (by rw [Option.map_some, tag]; decide), if_neg noOpen]
  rfl

/-- The session's next message is delivered at once, and acknowledged (R316). -/
theorem klpReceive_next (next : NextMessage typ d i s) (noOpen : typ ≠ 1) (noWake : typ ≠ 6) :
    klpReceive d s = scheduleAck i (deliverMsg i (msgOf typ d) (delivered i d s)) := by
  obtain ⟨passes, data, seq, held, room⟩ := next
  have ⟨typed, _⟩ := passes
  obtain ⟨_, _, only⟩ := heard_only i d s
  have expected : (tget {} (heard i d s).klp.sess i).rxNext = d.seq := by rw [only, sess_modSess_same, seq]
  have held' : (tget {} (heard i d s).klp.sess i).held = [] := by rw [only, sess_modSess_same, held]
  rw [klpReceive_passes passes noOpen noWake, if_neg (by simp [data])]
  unfold takeData
  extract_lets x q m
  have expects : x.rxNext = q := expected
  have held : x.held = [] := held'
  rw [expects, seqEarlier_self, if_neg Bool.false_ne_true, if_pos (by omega), held, if_neg (by simp),
    if_neg (Nat.not_lt.mpr room)]
  congr 1
  have front : (tget {} (modSess i (fun x => { x with held := x.held ++ [m] }) (heard i d s)).klp.sess i).held.find?
      (fun h => h.seq == (tget {} (modSess i (fun x => { x with held := x.held ++ [m] }) (heard i d s)).klp.sess i).rxNext) =
      some m := by
    rw [sess_modSess_same]
    dsimp only
    rw [held', expected]
    simp [m, q]
  have taken : modSess i (fun x => { x with rxNext := (x.rxNext + 1) % 2 ^ 32, held := x.held.filter fun h => h.seq != m.seq })
      (modSess i (fun x => { x with held := x.held ++ [m] }) (heard i d s)) = delivered i d s := by
    rw [modSess_modSess, delivered]
    refine modSess_congr ?_
    simp [held', m]
  have message : m = msgOf typ d := by rw [← typed]; rfl
  rw [deliverHeld]
  simp only [front]
  rw [taken, message]
  refine deliverHeld_none _ (deliverMsg_held _ ?_)
  rw [delivered, sess_modSess_same]
  exact held'

end

end Sys2Proof.Machine
end

section
/-! SUPPORT. Where a host's message goes (R321 to R323): each route once, for every message that takes it. -/

namespace Sys2Proof.Machine

section
variable {lane num : Nat} {m : HostMsg} {s w : State}

theorem offerRaw_accepted {q : Nat} (accepted : offerPkt q (klpPort s) false
      { bytes := max 1 m.data.length, lane := lane, typ := m.typ, tag := some (num, m.seq), data := m.data } s = (.accepted, w)) :
    offerRaw q lane m num s = (0, w) := by
  rw [offerRaw, accepted]
  rfl

theorem placeMsg_bag (bag : m.typ = 0x14) (low : lane < 8) (short : m.data.length ≤ 12) :
    placeMsg lane num m s = offerRaw (cf s 0x1C 0 62 2 0) lane m num s := by
  unfold placeMsg
  extract_lets template target
  rw [if_neg (by omega), if_pos bag, if_neg (by omega), if_neg (by omega)]

/-- PRICE, TARE, ZERO and LDISP go to the island of a legal lane. -/
theorem placeMsg_island (island : 0x20 ≤ m.typ ∧ m.typ ≤ 0x23) (low : lane < 8) :
    placeMsg lane num m s = if (!laneLegal s lane) = true then (6, s)
      else if 120 < m.data.length then (5, s) else offerRaw (cf s 0x1C 0 60 2 0) lane m num s := by
  unfold placeMsg
  extract_lets template target
  rw [if_neg (by omega), if_neg (by omega), if_pos island, if_neg (by omega)]

/-- DISPLAY, PRINT and DRAWER fill the template that their route names. -/
theorem placeMsg_template {e k : Nat} (shown : 0x24 ≤ m.typ ∧ m.typ ≤ 0x26) (route : routeTemplate s lane m.sub m.typ = some (e, k))
    (accepted : offerFrame e k m.data (some (num, m.seq)) s = (some .accepted, w)) : placeMsg lane num m s = (0, w) := by
  unfold placeMsg
  extract_lets template target
  have filled : template s = some (0, w) := by
    simp only [template, route, Option.map_some, accepted]
    rfl
  rw [if_neg (by omega), if_neg (by omega), if_neg (by omega), filled]
  by_cases drawer : m.typ = 0x26
  · rw [if_neg (by omega), if_pos drawer]
    rfl
  · rw [if_pos (by omega)]
    rfl

/-- DRAWER without a template, LIGHT and BELT go to the programs. -/
theorem placeMsg_program (program : 0x26 ≤ m.typ ∧ m.typ ≤ 0x28)
    (without : m.typ = 0x26 → routeTemplate s lane m.sub m.typ = none) : placeMsg lane num m s = programRoute lane m s := by
  unfold placeMsg
  extract_lets template target
  rw [if_neg (by omega), if_neg (by omega), if_neg (by omega), if_neg (by omega)]
  by_cases drawer : m.typ = 0x26
  · have empty : template s = none := by simp only [template, without drawer, Option.map_none]
    rw [if_pos drawer, empty]
    rfl
  · rw [if_neg drawer, if_pos (by omega)]

/-- Queue `q` holds, waiting or chosen, a packet with this tag that is for the island (R323). -/
def islandHas (s : State) (q : Nat) (t : Nat × Nat) : Bool :=
  (queue s q ++ ((chosenList s).filter fun c => c.2.q == q).map fun c => c.2.pkt).any fun k =>
    hasTag t k && (k.typ == 0x14 || (decide (0x20 ≤ k.typ) && decide (k.typ ≤ 0x23)))

/-- A packet that a queue holds and that is not for the island is withdrawn (R323). -/
theorem hostCancel_withdraws {q seq target : Nat} (earlier : seqEarlier target seq = true)
    (found : queueOfTag s (num, target) = some q) (notIsland : islandHas s q (num, target) = false)
    (withdrawn : withdraw q (num, target) s = (true, w)) : hostCancel num seq target s = (0, w) := by
  unfold hostCancel
  extract_lets tag
  rw [if_neg (by rw [earlier]; decide), show queueOfTag s tag = some q from found]
  refine (if_neg (Bool.eq_false_iff.mp notIsland)).trans ?_
  rw [cancel, show withdraw q tag s = (true, w) from withdrawn]

end

/-! ## The program group (R279, R322) -/

/-- The first word of lane `n`'s program group. -/
def programGroup (s : State) (n : Nat) : Nat :=
  cf s 0x1C 0 56 1 0xFF + match (enginesOf s n).find? fun e => port s e 0 1 0 == 1 with
    | some e => port s e 29 1 0
    | none => 0

/-- Lane `n`'s group at this word, or a new one of four words that queues. -/
def groupAt (s : State) (n first : Nat) : Group :=
  ((lane s n).groups.find? fun g => g.first == first).getD { first := first, count := 4, latest := false }

theorem groupAt_first (s : State) (n first : Nat) : (groupAt s n first).first = first := by
  unfold groupAt
  cases found : (lane s n).groups.find? fun g => g.first == first with
  | none => rfl
  | some g => simpa using List.find?_some found

theorem groupAt_ents (s : State) (n first : Nat) : (groupAt s n first).ents =
    match (lane s n).groups.find? fun g => g.first == first with | some g => g.ents | none => [] := by
  unfold groupAt
  cases (lane s n).groups.find? fun g => g.first == first <;> rfl

/-- A message as an entry of its lane's program group. -/
def programEntry (m : HostMsg) : List Word :=
  [BitVec.ofNat 32 (m.typ + 256 * m.sub + 65536 * m.data.length), BitVec.ofNat 32 m.seq,
    BitVec.ofNat 32 (fld m.data 0 4), BitVec.ofNat 32 (fld m.data 4 4)]

/-- Lane `n`'s program group is new, or queues and has room. -/
def ProgramRoom (s : State) (n : Nat) : Prop :=
  ∀ g, ((lane s n).groups.find? fun g => g.first == programGroup s n) = some g → g.latest = false ∧ g.ents.length < 8

/-- The program group of lane `n` after an entry. -/
def programGroupWith (s : State) (n : Nat) (m : HostMsg) : Group :=
  { groupAt s n (programGroup s n) with ents := (groupAt s n (programGroup s n)).ents ++ [programEntry m] }

section
variable {n : Nat} {m : HostMsg} {s : State}

theorem putGroup_room (room : ProgramRoom s n) :
    ∃ u, putGroup n (programGroup s n) 4 false (programEntry m) s = (true, u) ∧
      (lane u n).groups.head? = some (programGroupWith s n m) := by
  have queues : (groupAt s n (programGroup s n)).latest = false ∧ (groupAt s n (programGroup s n)).ents.length < 8 := by
    unfold groupAt
    cases found : (lane s n).groups.find? fun g => g.first == programGroup s n with
    | none => exact ⟨rfl, Nat.zero_lt_succ 7⟩
    | some g => exact room g found
  obtain ⟨queue, short⟩ := queues
  unfold putGroup
  extract_lets x ws g put full
  have at' : g = groupAt s n (programGroup s n) := rfl
  rw [at', if_neg (Bool.eq_false_iff.mp queue), if_pos short]
  refine ⟨_, rfl, ?_⟩
  simp only [put, lane_modLane_same, List.head?_cons]
  rfl

theorem pulse_groups (n bit : Nat) (s : State) : (lane (pulse n bit s) n).groups = (lane s n).groups := by
  rw [pulse, lane_modLane_same]
  split <;> rfl

theorem programRoute_enters (configured : cf s 0x1C 0 56 1 0xFF ≠ 0xFF) (low : n < 8) (runs : laneShut s n = false)
    (short : m.data.length ≤ 8) (room : ProgramRoom s n) :
    ∃ u, programRoute n m s = (0, u) ∧ (lane u n).groups.head? = some (programGroupWith s n m) := by
  obtain ⟨u, placed, head⟩ := putGroup_room (m := m) room
  unfold programRoute
  extract_lets pw pb base w0
  have unshut : ¬ laneShut s n = true := Bool.eq_false_iff.mp runs
  have routed : ¬ (pw = 0xFF ∨ 8 ≤ n) := not_or.mpr ⟨configured, Nat.not_le.mpr low⟩
  have placed : putGroup n (pw + base) 4 false [BitVec.ofNat 32 w0, BitVec.ofNat 32 m.seq, BitVec.ofNat 32 (fld m.data 0 4),
    BitVec.ofNat 32 (fld m.data 4 4)] s = (true, u) := placed
  rw [if_neg routed, if_neg unshut, if_neg (Nat.not_lt.mpr short), placed]
  refine ⟨_, rfl, ?_⟩
  split
  · exact head
  · rw [pulse_groups, head]

end

/-! ## What acknowledging leaves of a lane -/

theorem SwitchAndRefusals.groups {s t : State} (h : SwitchAndRefusals s t) (n : Nat) :
    (lane t n).groups = (lane s n).groups := by
  obtain ⟨_, _, rfl, lanes⟩ := h
  obtain ⟨_, same⟩ := lanes n
  exact (congrArg Lane.groups same).trans rfl

theorem scheduleAck_groups (i n : Nat) (s : State) : (lane (scheduleAck i s) n).groups = (lane s n).groups := by
  unfold scheduleAck
  split
  · rfl
  · split
    · exact (Frame.klpSend_sr _ _ _ _ _ _).groups n
    · rfl

end Sys2Proof.Machine
end

section
/-! Messages of a host over KLP (R50, R316, R321 to R324): the statement O53. -/

namespace Sys2Proof.Machine

section
variable {typ i : Nat} {d : KlpDgram} {s w : State}

theorem delivered_num (i : Nat) (d : KlpDgram) (s : State) :
    (tget {} (delivered i d s).klp.sess i).num = (tget {} s.klp.sess i).num := by
  obtain ⟨_, _, only⟩ := delivered_only i d s
  rw [only, sess_modSess_same]

/-- A message that is no CLOSE is placed, or refused with a reason (R324). -/
theorem deliverMsg_placed {m : HostMsg} (content : m.typ ≠ 2)
    (placed : placeMsg (if i = 8 then 255 else i) (tget {} s.klp.sess i).num m s = (0, w)) : deliverMsg i m s = w := by
  rw [deliverMsg, if_neg content, placed]
  rfl

theorem deliverMsg_refused {m : HostMsg} {reason : Nat} (content : m.typ ≠ 2) (why : 2 < reason)
    (refused : placeMsg (if i = 8 then 255 else i) (tget {} s.klp.sess i).num m s = (reason, w)) :
    deliverMsg i m s = refuseMsg (if i = 8 then 255 else i) m.seq reason w := by
  have other : reason ≠ 2 := by omega
  rw [deliverMsg, if_neg content, refused]
  dsimp only
  rw [if_neg (show reason ≠ 0 by omega), if_neg (not_and_of_not_left _ other)]

theorem receive_placed (next : NextMessage typ d i s) (content : 2 < typ ∧ typ ≠ 6)
    (placed : placeMsg (if i = 8 then 255 else i) (tget {} s.klp.sess i).num (msgOf typ d) (delivered i d s) = (0, w)) :
    klpReceive d s = scheduleAck i w := by
  obtain ⟨content, noWake⟩ := content
  rw [klpReceive_next next (by omega) noWake,
    deliverMsg_placed (show typ ≠ 2 by omega) (by rw [delivered_num]; exact placed)]

theorem bag_joins (next : NextMessage 0x14 d i s) (low : i < 8) (short : d.payload.length ≤ 12)
    (accepted : offerPkt (cf s 0x1C 0 62 2 0) (klpPort s) false (hostPkt 0x14 i d (tget {} s.klp.sess i).num)
      (delivered i d s) = (.accepted, w)) : klpReceive d s = scheduleAck i w := by
  have port : klpPort (delivered i d s) = klpPort s := cf_congr (delivered_img i d s) _ _ _ _ _
  refine receive_placed next (by decide) ?_
  rw [if_neg (by omega), placeMsg_bag rfl low short, cf_congr (delivered_img i d s)]
  exact offerRaw_accepted (by rw [port]; exact accepted)

theorem island_joins (next : NextMessage typ d i s) (island : 0x20 ≤ typ ∧ typ ≤ 0x23) (low : i < 8)
    (legal : laneLegal s i = true) (short : d.payload.length ≤ 120)
    (accepted : offerPkt (cf s 0x1C 0 60 2 0) (klpPort s) false (hostPkt typ i d (tget {} s.klp.sess i).num)
      (delivered i d s) = (.accepted, w)) : klpReceive d s = scheduleAck i w := by
  have port : klpPort (delivered i d s) = klpPort s := cf_congr (delivered_img i d s) _ _ _ _ _
  have legal' : laneLegal (delivered i d s) i = true := by rw [laneLegal, cf_congr (delivered_img i d s), ← laneLegal, legal]
  refine receive_placed next (by omega) ?_
  rw [if_neg (by omega), placeMsg_island island low, if_neg (by rw [legal']; decide),
    if_neg (show ¬ 120 < (msgOf typ d).data.length from Nat.not_lt.mpr short),
    cf_congr (delivered_img i d s)]
  exact offerRaw_accepted (by rw [port]; exact accepted)

theorem island_refused (next : NextMessage typ d i s) (island : 0x20 ≤ typ ∧ typ ≤ 0x23) (low : i < 8)
    (illegal : laneLegal s i = false) : klpReceive d s = scheduleAck i (refuseMsg i d.seq 6 (delivered i d s)) := by
  have illegal' : laneLegal (delivered i d s) i = false := by rw [laneLegal, cf_congr (delivered_img i d s), ← laneLegal, illegal]
  have own : (if i = 8 then 255 else i) = i := if_neg (by omega)
  have refused : placeMsg i (tget {} (delivered i d s).klp.sess i).num (msgOf typ d) (delivered i d s) =
      (6, delivered i d s) := by rw [placeMsg_island island low, if_pos (by rw [illegal']; rfl)]
  have delivers := deliverMsg_refused (m := msgOf typ d) (reason := 6) (show typ ≠ 2 by omega) (by decide)
    (by rw [own]; exact refused)
  rw [own] at delivers
  rw [klpReceive_next next (by omega) (by omega), delivers]
  rfl

theorem template_fills {e k : Nat} (next : NextMessage typ d i s) (shown : 0x24 ≤ typ ∧ typ ≤ 0x26)
    (route : routeTemplate s (if i = 8 then 255 else i) d.sub typ = some (e, k))
    (accepted : offerFrame e k d.payload (some ((tget {} s.klp.sess i).num, d.seq)) (delivered i d s) = (some .accepted, w)) :
    klpReceive d s = scheduleAck i w := by
  obtain ⟨_, only⟩ := delivered_sess i d s
  exact receive_placed next (by omega) (placeMsg_template shown (by rw [only]; exact route) accepted)

theorem program_enters (next : NextMessage typ d i s) (program : 0x26 ≤ typ ∧ typ ≤ 0x28)
    (without : typ = 0x26 → routeTemplate s (if i = 8 then 255 else i) d.sub typ = none)
    (configured : cf s 0x1C 0 56 1 0xFF ≠ 0xFF) (low : i < 8) (runs : laneShut s i = false) (short : d.payload.length ≤ 8)
    (room : ProgramRoom s i) :
    (lane (settle (klpReceive d s)) i).groups.head? = some (programGroupWith s i (msgOf typ d)) := by
  obtain ⟨_, only⟩ := delivered_sess i d s
  have own : (if i = 8 then 255 else i) = i := if_neg (by omega)
  obtain ⟨u, placed, head⟩ := programRoute_enters (s := delivered i d s) (n := i) (m := msgOf typ d)
    (by rw [only]; exact configured) low (by rw [only]; exact runs) short (by rw [only]; exact room)
  have entered : placeMsg (if i = 8 then 255 else i) (tget {} s.klp.sess i).num (msgOf typ d) (delivered i d s) = (0, u) := by
    rw [placeMsg_program program (by rw [only]; exact without), own, placed]
  rw [receive_placed next (by omega) entered, settle_lane_groups, scheduleAck_groups, head, only]
  rfl

theorem cancel_withdrawn {q target : Nat} (next : NextMessage 5 d i s) (names : beNat (d.payload.take 4) = target)
    (earlier : seqEarlier target d.seq = true)
    (found : queueOfTag (delivered i d s) ((tget {} s.klp.sess i).num, target) = some q)
    (notIsland : islandHas (delivered i d s) q ((tget {} s.klp.sess i).num, target) = false)
    (withdrawn : withdraw q ((tget {} s.klp.sess i).num, target) (delivered i d s) = (true, w)) :
    klpReceive d s = scheduleAck i (klpSend (if i = 8 then 255 else i) 5 0 0 (beBytes 4 target ++ [0, 0, 0, 0]) w) := by
  subst names
  exact receive_placed next (by decide)
    (placeMsg_cancel _ rfl (hostCancel_withdraws earlier found notIsland withdrawn))

theorem sessionFor_open (named : sessionFor s d = some i) : (tget {} s.klp.sess i).isOpen = true := by
  unfold sessionFor at named
  split at named
  · cases named
  · dsimp only at named
    split at named
    · next fits =>
      cases named
      simp only [Bool.and_eq_true] at fits
      obtain ⟨⟨⟨⟨isOpen, -⟩, -⟩, -⟩, -⟩ := fits
      exact isOpen
    · cases named

/-- CLOSE ends the session, which then has nothing to acknowledge (R315). -/
theorem close_closes (next : NextMessage 2 d i s) : tget {} (klpReceive d s).klp.sess i = {} ∧
    ∀ j, j ≠ i → tget {} (klpReceive d s).klp.sess j = tget {} s.klp.sess j := by
  obtain ⟨_, _, only⟩ := delivered_only i d s
  have isOpen : (tget {} (delivered i d s).klp.sess i).isOpen = true := by
    obtain ⟨⟨-, -, -, -, -, named, -⟩, -⟩ := next
    rw [only, sess_modSess_same]
    exact sessionFor_open named
  have closed : (deliverMsg i (msgOf 2 d) (delivered i d s)).klp.sess = tset {} (delivered i d s).klp.sess i {} := by
    rw [deliverMsg, if_pos (show (msgOf 2 d).typ = 2 from rfl), closeSess_sess _ _ isOpen]
  rw [klpReceive_next next (by decide) (by decide), scheduleAck, if_pos (by rw [closed, tget_tset_same]; rfl), closed]
  refine ⟨tget_tset_same _ _ _ _, fun j other => ?_⟩
  rw [tget_tset_ne _ _ _ other, only, sess_modSess_ne _ _ other]

end

/-- Settles O53: each message by the lemma of its route. -/
theorem klpMessages : Obligations.KlpMessages := by
  unfold Obligations.KlpMessages
  intro d i s
  refine ⟨fun w next low short accepted => ?_, fun typ c listed next => ?_, fun typ c e k w listed next route accepted => ?_,
    fun typ c listed next without configured low runs short room => ?_,
    fun q w next earlier found own withdrawn => ?_, fun next => ?_⟩
  · exact congrArg ok (bag_joins next low short accepted)
  · have island : exec c s = ok (klpReceive d s) ∧ 0x20 ≤ typ ∧ typ ≤ 0x23 := by
      simp only [List.mem_cons, List.not_mem_nil, or_false, Prod.mk.injEq] at listed
      obtain ⟨rfl, rfl⟩ | ⟨rfl, rfl⟩ | ⟨rfl, rfl⟩ | ⟨rfl, rfl⟩ := listed <;> exact ⟨rfl, by decide⟩
    obtain ⟨receives, island⟩ := island
    rw [receives]
    exact ⟨fun w low legal short accepted => congrArg ok (island_joins next island low legal short accepted),
      fun low illegal => congrArg ok (island_refused next island low illegal)⟩
  · have shown : exec c s = ok (klpReceive d s) ∧ 0x24 ≤ typ ∧ typ ≤ 0x26 := by
      simp only [List.mem_cons, List.not_mem_nil, or_false, Prod.mk.injEq] at listed
      obtain ⟨rfl, rfl⟩ | ⟨rfl, rfl⟩ | ⟨rfl, rfl⟩ := listed <;> exact ⟨rfl, by decide⟩
    obtain ⟨receives, shown⟩ := shown
    rw [receives]
    exact congrArg ok (template_fills next shown route accepted)
  · have program : exec c s = ok (klpReceive d s) ∧ 0x26 ≤ typ ∧ typ ≤ 0x28 := by
      simp only [List.mem_cons, List.not_mem_nil, or_false, Prod.mk.injEq] at listed
      obtain ⟨rfl, rfl⟩ | ⟨rfl, rfl⟩ | ⟨rfl, rfl⟩ := listed <;> exact ⟨rfl, by decide⟩
    obtain ⟨receives, program⟩ := program
    refine ⟨_, _, receives, program_enters next program without configured low runs short room, groupAt_first s i _, ?_⟩
    exact congrArg (· ++ [programEntry (msgOf typ d)]) (groupAt_ents s i (programGroup s i))
  · exact congrArg ok (cancel_withdrawn next rfl earlier found own withdrawn)
  · obtain ⟨gone, others⟩ := close_closes next
    refine ⟨_, rfl, ?_⟩
    rw [settle_klp]
    exact ⟨gone, others⟩

end Sys2Proof.Machine
end

section
/-! KLP sessions, their time-outs and the uplinks (R307, R314, R315, R317, R318, R326): the statement O54. -/

namespace Sys2Proof.Machine

/-- `t` has the sessions of `s` but for session `i`, which is `x`. -/
def SessionIs (i : Nat) (x : Sess) (s t : State) : Prop :=
  tget {} t.klp.sess i = x ∧ ∀ j, j ≠ i → tget {} t.klp.sess j = tget {} s.klp.sess j

theorem SessionIs.of_tset {i : Nat} {x : Sess} {s t : State} (put : t.klp.sess = tset {} s.klp.sess i x) : SessionIs i x s t :=
  ⟨by rw [put, tget_tset_same], fun j other => by rw [put, tget_tset_ne _ _ _ other]⟩

/-! ## OPEN (R314) -/

section
variable {d : KlpDgram} {i : Nat} {s : State}

theorem newNum_range (s : State) (n v : Nat) : 1 ≤ newNum s n v ∧ newNum s n v ≤ 65535 := by
  induction n generalizing v with
  | zero =>
    rw [newNum]
    omega
  | succ n ih =>
    rw [newNum]
    split
    · exact ih (v + 1)
    · omega

/-- An opened session is new: a number in range, the seq after the OPEN's, nothing held and nothing awaited. -/
structure Opened (d : KlpDgram) (tick : Nat) (x : Sess) : Prop where
  isOpen : x.isOpen = true
  num : 1 ≤ x.num ∧ x.num ≤ 65535
  rxNext : x.rxNext = (d.seq + 1) % 2 ^ 32
  addr : x.addr = d.addr.toNat
  port : x.port = d.sport.toNat
  own : x.own = d.dst.toNat
  held : x.held = []
  unack : x.unack = []
  lastRx : x.lastRx = tick

theorem openSess_opens (i : Nat) (d : KlpDgram) (s : State) :
    ∃ x, Opened d s.clk.tick x ∧ (openSess i d s).klp.sess = tset {} s.klp.sess i x := by
  unfold openSess
  simp only [sessEvent, raiseL_klp, klpSend_klp]
  exact ⟨_, ⟨rfl, newNum_range _ _ _, rfl, rfl, rfl, rfl, rfl, rfl, rfl⟩, rfl⟩

theorem klpReceive_open (opens : d.typ = 1) (uplink : d.uplink.val = klpPort s) (serves : servesAddr s d.v6 d.dst.toNat = true)
    (header : headerCheck d = 0) (crc : d.crcOk = true) (session : d.session = 0) (tag : ∀ x, tagFits s d x = true) :
    klpReceive d s = hostOpen d s := by
  have here : ¬ (d.uplink.val ≠ klpPort s ∨ (!servesAddr s d.v6 d.dst.toNat) = true) := by simp [uplink, serves]
  unfold klpReceive
  rw [if_neg (by omega), if_neg here, if_neg (by omega), if_neg (by omega), if_neg (by simp [crc])]
  extract_lets si
  rw [if_neg (by rw [tag]; decide), if_pos opens, if_pos session]

theorem hostOpen_opens (auth : klpAuth s ≠ 2 ∨ d.tagged = true) (used : d.lane = 255 ∨ (d.lane < 8 ∧ laneUsed s d.lane = true))
    (free : (tget {} s.klp.sess (sessIdx d.lane)).isOpen = false ∨
      ((tget {} s.klp.sess (sessIdx d.lane)).addr = d.addr.toNat ∧ (tget {} s.klp.sess (sessIdx d.lane)).port = d.sport.toNat ∧
        (tget {} s.klp.sess (sessIdx d.lane)).v6 = d.v6) ∨
      (tget {} s.klp.sess (sessIdx d.lane)).lastRx + idleTicks s < s.clk.tick) :
    hostOpen d s = openSess (sessIdx d.lane) d s := by
  have tagged : ¬ (klpAuth s = 2 ∧ (!d.tagged) = true) := by
    rintro ⟨needed, untagged⟩
    rcases auth with h | h
    · exact h needed
    · simp [h] at untagged
  have known : ¬ (d.lane ≠ 255 ∧ (8 ≤ d.lane ∨ (!laneUsed s d.lane) = true)) := by
    rintro ⟨lane, unused⟩
    obtain ⟨low, used⟩ := used.resolve_left lane
    rw [used] at unused
    exact unused.elim (Nat.not_le.mpr low) Bool.false_ne_true
  unfold hostOpen
  extract_lets lane i refuse x same
  rw [if_neg tagged, if_neg known]
  refine if_neg ?_
  rintro ⟨isOpen, other, recent⟩
  rcases free with closed | ⟨addr, port, v6⟩ | idle
  · rw [show x.isOpen = false from closed] at isOpen
    exact Bool.false_ne_true isOpen
  · have host : same = true := by simp [same, x, i, lane, addr, port, v6]
    rw [host] at other
    exact Bool.false_ne_true other
  · exact Nat.not_le.mpr idle recent

/-! ## WAKE (R326) -/

/-- A WAKE that R326 accepts in DORMANT is a wake. -/
theorem takeWake_accepted (header : headerCheck d = 0) (crc : d.crcOk = true) (uplink : d.uplink.val = klpPort s)
    (dst : isOwn s (klpPort s) d.v6 d.dst.toNat = true ∨ (d.v6 = false ∧ d.dst.toNat = 0xFFFFFFFF)) (session : d.session = 0)
    (lane : d.lane = 255) (length : d.length = 24)
    (store : d.payload.take 16 = s.img.storeUuid ++ List.replicate (16 - s.img.storeUuid.length) 0)
    (auth : klpAuth s = 0 ∨ (d.tagged = true ∧ klpTag s d none = true ∧ s.ret.wakeCtr < beNat ((d.payload.drop 16).take 8)))
    (dormant : s.md.mode = .dormant) : takeWake d s =
      wake 0 (if klpAuth s = 0 then s else { s with ret.wakeCtr := beNat ((d.payload.drop 16).take 8) }) := by
  unfold takeWake
  rw [if_neg (not_not.mpr dormant)]
  extract_lets ctr all ok
  have addressed : (isOwn s (klpPort s) d.v6 d.dst.toNat || all) = true := by
    rcases dst with own | ⟨v4, broadcast⟩
    · rw [own, Bool.true_or]
    · simp [all, v4, broadcast]
  have proven : (klpAuth s == 0 || (d.tagged && klpTag s d none && decide (s.ret.wakeCtr < ctr))) = true := by
    rcases auth with free | ⟨tagged, tag, newer⟩
    · simp [free]
    · simp [tagged, tag, ctr, newer]
  have accepted : ok = true := by
    simp only [ok, addressed, proven, uplink, header, crc, session, lane, length, store, BEq.rfl, Bool.and_self]
  exact if_pos accepted

theorem klpReceive_wake (wakes : d.typ = 6) : klpReceive d s = takeWake d s := if_pos wakes

/-- An accepted WAKE begins the wake sequence and keeps the counter of an authenticated one. -/
theorem wake_begins {t : State} (md : t.md = s.md) (img : t.img = s.img) (dormant : s.md.mode = .dormant)
    (idle : s.md.wakeStep = 0) (single : paired s = false) (listed : bitOf (wakeSrc s) 0 = true) :
    (settle (wake 0 t)).md.wakeStep = 1 ∧ (settle (wake 0 t)).md.mode = .dormant ∧
      bitOf (settle (wake 0 t)).md.wakeCause 0 = true ∧ (settle (wake 0 t)).ret.wakeCtr = t.ret.wakeCtr := by
  have listed' : bitOf (wakeSrc t) 0 = true := by rw [wakeSrc, cf_congr img, ← wakeSrc, listed]
  obtain ⟨woken, -⟩ := wake_dormant (.inr listed') (by rw [md, dormant]) (.inl (by rw [paired_congr img, single]))
    (by rw [md, idle])
  obtain ⟨_, _, only⟩ := wake_woken 0 t
  rw [settle_md, woken, settle_ret_wakeCtr, only, md]
  exact ⟨rfl, dormant, bitOf_setBit_same _ _, rfl⟩

end

/-! ## Time-outs (R315, R317, R318) -/

section
variable {k : Fin 9} {s : State}

theorem ackDelayExpiry_sends {t : Nat} (due : (tget {} s.klp.sess k).ackDue = some t) (now : t ≤ s.clk.tick) :
    exec (.ackDelayExpiry k) s = .next (settle (klpSend (if k.val = 8 then 255 else k.val) 0xFF 1 0 []
      (modSess k (fun x => { x with ackDue := none }) s))) := by
  change execAckDelayExpiry k s = _
  rw [execAckDelayExpiry, due]
  dsimp only
  rw [if_pos now]
  rfl

theorem sessionIdle_closes (isOpen : (tget {} s.klp.sess k).isOpen = true)
    (idle : (tget {} s.klp.sess k).lastRx + idleTicks s < s.clk.tick) :
    ∃ t, exec (.sessionIdle k) s = .next t ∧ SessionIs k {} s t := by
  refine ⟨_, congrArg ok (if_pos ⟨isOpen, idle⟩), .of_tset ?_⟩
  rw [settle_klp, closeSess_sess _ _ isOpen]

theorem sessionIdle_waits (recent : s.clk.tick ≤ (tget {} s.klp.sess k).lastRx + idleTicks s) :
    exec (.sessionIdle k) s = .next (settle s) :=
  congrArg ok (if_neg fun idle => Nat.not_lt.mpr recent idle.2)

theorem retransmit_closes (isOpen : (tget {} s.klp.sess k).isOpen = true) (late : ∃ u ∈ (tget {} s.klp.sess k).unack,
      maxRetx s ≤ u.tries ∧ u.tick + (u.tries + 1) * rtoTicks s < s.clk.tick) :
    ∃ t, exec (.retransmit k) s = .next t ∧ SessionIs k {} s t := by
  refine ⟨_, congrArg ok (if_pos ?_), .of_tset ?_⟩
  · obtain ⟨u, sent, late⟩ := late
    exact List.any_eq_true.mpr ⟨u, sent, decide_eq_true late⟩
  · rw [settle_klp, closeSess_sess _ _ (by rw [raiseL_klp]; exact isOpen), raiseL_klp]

/-- A resend of `u` is due (R318). -/
def resendsNow (s : State) (u : Unack) : Bool :=
  decide (u.tries < maxRetx s ∧ u.tick + (u.tries + 1) * rtoTicks s ≤ s.clk.tick)

/-- A datagram's own resend counted, when it is due. -/
def resent (s : State) (u : Unack) : Unack := if resendsNow s u = true then { u with tries := u.tries + 1 } else u

/-- The datagrams of one seq with a resend counted. -/
def triedAgain (seq : Nat) (us : List Unack) : List Unack :=
  us.map fun w => if w.seq = seq then { w with tries := w.tries + 1 } else w

/-- The resends of a list of datagrams counted, each by its seq. -/
def countResends (s : State) (l us : List Unack) : List Unack :=
  l.foldl (fun us u => if resendsNow s u = true then triedAgain u.seq us else us) us

theorem resent_seq (s : State) (u : Unack) : (resent s u).seq = u.seq := by
  unfold resent
  split <;> rfl

theorem triedAgain_others {seq : Nat} {us : List Unack} (others : ∀ w ∈ us, w.seq ≠ seq) : triedAgain seq us = us :=
  (List.map_congr_left fun w at' => if_neg (others w at')).trans (List.map_id' us)

/-- Where the seqs differ each datagram counts its own resend; `done` are those before the rest. -/
theorem countResends_apart (s : State) (l : List Unack) (done : List Unack) (apart : ((done ++ l).map Unack.seq).Nodup) :
    countResends s l (done ++ l) = done ++ l.map (resent s) := by
  induction l generalizing done with
  | nil => rfl
  | cons u l ih =>
    have before : ∀ w ∈ done, w.seq ≠ u.seq := fun w at' same => by
      rw [List.map_append, List.map_cons] at apart
      exact (List.disjoint_of_nodup_append apart) (List.mem_map_of_mem at') (by simp [same])
    have after : ∀ w ∈ l, w.seq ≠ u.seq := fun w at' same => by
      rw [List.map_append, List.map_cons] at apart
      exact (List.nodup_cons.mp (List.Nodup.of_append_right apart)).1 (same ▸ List.mem_map_of_mem at')
    have own : (if resendsNow s u = true then triedAgain u.seq (done ++ u :: l) else done ++ u :: l) =
        (done ++ [resent s u]) ++ l := by
      unfold resent
      split
      · have tried : triedAgain u.seq (done ++ u :: l) =
            triedAgain u.seq done ++ { u with tries := u.tries + 1 } :: triedAgain u.seq l := by simp [triedAgain]
        rw [tried, triedAgain_others before, triedAgain_others after]
        simp
      · simp
    have rest : (((done ++ [resent s u]) ++ l).map Unack.seq).Nodup := by simpa [resent_seq] using apart
    rw [countResends, List.foldl_cons, own, ← countResends, ih _ rest]
    simp

/-- One datagram of session `i` resent, when that is due. -/
def resendOne (i : Nat) (s : State) (u : Unack) : State :=
  if resendsNow s u = true then
    klpSend (if i = 8 then 255 else i) u.typ 2 u.seq u.data (modSess i (fun x =>
      { x with resends := satInc 65535 x.resends, unack := triedAgain u.seq x.unack }) s)
  else s

theorem resendDue_eq (i : Nat) (s : State) : resendDue i s = (tget {} s.klp.sess i).unack.foldl (resendOne i) s := by
  refine congrArg (fun f => List.foldl f s (tget {} s.klp.sess i).unack) (funext fun t => funext fun u => ?_)
  simp only [resendOne, resendsNow, decide_eq_true_eq]
  rfl

theorem resendOne_same (i : Nat) (s : State) (u : Unack) : (resendOne i s u).img = s.img ∧ (resendOne i s u).clk = s.clk := by
  unfold resendOne
  split
  · obtain ⟨_, _, sent, -⟩ := Frame.klpSend_sr (if i = 8 then 255 else i) u.typ 2 u.seq u.data (modSess i (fun x =>
      { x with resends := satInc 65535 x.resends, unack := triedAgain u.seq x.unack }) s)
    rw [sent]
    exact ⟨rfl, rfl⟩
  · exact ⟨rfl, rfl⟩

theorem resendOne_sess (i : Nat) (s : State) (u : Unack) :
    (tget {} (resendOne i s u).klp.sess i).isOpen = (tget {} s.klp.sess i).isOpen ∧
    (tget {} (resendOne i s u).klp.sess i).unack =
      if resendsNow s u = true then triedAgain u.seq (tget {} s.klp.sess i).unack else (tget {} s.klp.sess i).unack := by
  unfold resendOne
  split
  · rw [klpSend_klp, sess_modSess_same]
    exact ⟨rfl, rfl⟩
  · exact ⟨rfl, rfl⟩

theorem resendsNow_congr {s t : State} (img : t.img = s.img) (clk : t.clk = s.clk) (u : Unack) :
    resendsNow t u = resendsNow s u := by
  have limit : maxRetx t = maxRetx s := cf_congr img _ _ _ _ _
  have ticks : rtoTicks t = rtoTicks s := cf_congr img _ _ _ _ _
  rw [resendsNow, limit, ticks, clk, resendsNow]

/-- Resending counts the resends and keeps the session open or closed. -/
theorem foldl_resendOne (i : Nat) {s : State} (l : List Unack) (t : State) (img : t.img = s.img) (clk : t.clk = s.clk) :
    (tget {} (l.foldl (resendOne i) t).klp.sess i).isOpen = (tget {} t.klp.sess i).isOpen ∧
    (tget {} (l.foldl (resendOne i) t).klp.sess i).unack = countResends s l (tget {} t.klp.sess i).unack := by
  induction l generalizing t with
  | nil => exact ⟨rfl, rfl⟩
  | cons u l ih =>
    obtain ⟨sameImg, sameClk⟩ := resendOne_same i t u
    obtain ⟨isOpen, unack⟩ := resendOne_sess i t u
    obtain ⟨isOpen', unack'⟩ := ih (resendOne i t u) (sameImg.trans img) (sameClk.trans clk)
    rw [resendsNow_congr img clk] at unack
    rw [List.foldl_cons, isOpen', unack', isOpen, unack]
    exact ⟨rfl, rfl⟩

theorem retransmit_resends (inTime : ∀ u ∈ (tget {} s.klp.sess k).unack, maxRetx s ≤ u.tries →
      s.clk.tick ≤ u.tick + (u.tries + 1) * rtoTicks s)
    (apart : (tget {} s.klp.sess k).unack.Pairwise fun u w => u.seq ≠ w.seq) :
    ∃ t, exec (.retransmit k) s = .next t ∧ (tget {} t.klp.sess k).isOpen = (tget {} s.klp.sess k).isOpen ∧
      (tget {} t.klp.sess k).unack = (tget {} s.klp.sess k).unack.map (resent s) := by
  refine ⟨_, congrArg ok (if_neg ?_), ?_⟩
  · intro late
    obtain ⟨u, sent, late⟩ := List.any_eq_true.mp late
    obtain ⟨tried, late⟩ := of_decide_eq_true late
    exact Nat.not_lt.mpr (inTime u sent tried) late
  · obtain ⟨isOpen, unack⟩ := foldl_resendOne k (tget {} s.klp.sess k).unack s rfl rfl
    rw [settle_klp, resendDue_eq, isOpen, unack]
    exact ⟨rfl, countResends_apart s _ [] (List.pairwise_map.mpr apart)⟩

end

/-! ## Uplinks (R307) -/

section
variable {f : EthFrame} {d : KlpDgram} {s : State}

theorem ethFrame_unused (unused : uplinkUsed s f.uplink = false) : exec (.ethFrame f) s = .next (settle s) :=
  congrArg ok (if_pos (by rw [unused]; rfl))

theorem ethFrame_badFcs (used : uplinkUsed s f.uplink = true) (bad : f.fcsOk = false) :
    exec (.ethFrame f) s = .next (settle (ethErr f.uplink 24 s)) :=
  congrArg ok ((if_neg (by rw [used]; decide)).trans (if_pos (by rw [bad]; rfl)))

/-- A good frame's KLP datagram goes to the engine, once it is whole. -/
theorem ethFrame_klp (used : uplinkUsed s f.uplink = true) (fcs : f.fcsOk = true) (long : 64 ≤ f.len) (short : f.len ≤ 1522)
    (vlan : f.vid.toNat = cf s 0x1C 0 (8 + 2 * f.uplink.val) 2 0) (mac : takesMac s f.uplink f.dmac.toNat = true)
    (supported : f.supported = true) (uplink : f.uplink.val = klpPort s) (klp : f.klp = some d) :
    exec (.ethFrame f) s = .next (settle (reassemble f.frag d s)) := by
  change execEthFrame f s = _
  unfold execEthFrame
  extract_lets e
  rw [if_neg (by simp [e, used]), if_neg (by simp [fcs]), if_neg (by omega), if_neg (not_not.mpr vlan),
    if_neg (by simp [e, mac, supported]), klp]
  exact congrArg ok (if_pos uplink)

theorem reassemble_first {key : Nat} (new : ∀ g ∈ s.klp.frags, g.1 ≠ key) (room : s.klp.frags.length < 16) :
    reassemble (some key) d s = { s with klp.frags := s.klp.frags ++ [(key, s.clk.tick)] } := by
  have unknown : ¬ (s.klp.frags.any fun g => g.1 == key) = true := fun known => by
    obtain ⟨g, waits, same⟩ := List.any_eq_true.mp known
    exact new g waits (by simpa using same)
  simp only [reassemble, if_neg unknown, if_neg (Nat.not_le.mpr room)]

theorem reassemble_second {key : Nat} {g : Nat × Nat} (waits : g ∈ s.klp.frags) (same : g.1 = key) :
    reassemble (some key) d s = klpReceive d { s with klp.frags := s.klp.frags.filter fun h => h.1 != key } := by
  have known : (s.klp.frags.any fun h => h.1 == key) = true := List.any_eq_true.mpr ⟨g, waits, by simp [same]⟩
  simp only [reassemble, if_pos known]

theorem reassemblyTimeout_drops (key : Nat) (s : State) : ∃ t, exec (.reassemblyTimeout key) s = .next t ∧
    ∀ g, g ∈ t.klp.frags ↔ g ∈ s.klp.frags ∧ ¬ (g.1 = key ∧ g.2 + 4 < s.clk.tick) := by
  refine ⟨_, rfl, fun g => ?_⟩
  rw [settle_klp]
  simp [List.mem_filter, imp_iff_not_or]

end

/-- Settles O54: each command by its own lemma. -/
theorem klpSessions : Obligations.KlpSessions := by
  unfold Obligations.KlpSessions
  intro s
  refine ⟨fun d opens uplink serves header crc session tag auth used free => ?_,
    fun d i passes noOpen noWake ackOnly => ⟨?_, fun range new => ?_, fun range => ?_⟩,
    fun d wakes header crc uplink dst session lane length store auth => ⟨fun dormant idle single listed => ?_, fun awake => ?_⟩,
    fun k => ⟨fun t => ackDelayExpiry_sends, sessionIdle_closes, sessionIdle_waits, retransmit_closes, retransmit_resends⟩,
    fun f => ethFrame_unused, fun f => ethFrame_badFcs,
    fun f d used fcs long short vlan mac supported uplink klp => ?_, fun key => reassemblyTimeout_drops key s⟩
  · obtain ⟨x, opened, put⟩ := openSess_opens (sessIdx d.lane) d s
    have opens : exec (.klpOpen d) s = ok (openSess (sessIdx d.lane) d s) := by
      rw [← hostOpen_opens auth used free, ← klpReceive_open opens uplink serves header crc session tag]
      rfl
    obtain ⟨is, others⟩ := SessionIs.of_tset put
    refine ⟨_, opens, ?_⟩
    rw [settle_klp, is]
    exact ⟨opened.isOpen, opened.num.1, opened.num.2, opened.rxNext, opened.addr, opened.port, opened.own, opened.held,
      opened.unack, opened.lastRx, others⟩
  · exact congrArg ok ((klpReceive_passes passes noOpen noWake).trans (if_pos ackOnly))
  · rw [heard_acked range new, sess_modSess_same]
  · rw [heard_unacked range, sess_modSess_same]
  · refine ⟨_, congrArg ok ((klpReceive_wake wakes).trans
      (takeWake_accepted header crc uplink dst session lane length store auth dormant)), ?_⟩
    obtain ⟨step, mode, cause, ctr⟩ := wake_begins (s := s) (t := if klpAuth s = 0 then s else
      { s with ret.wakeCtr := beNat ((d.payload.drop 16).take 8) }) (by split <;> rfl) (by split <;> rfl) dormant idle single listed
    refine ⟨step, mode, cause, ctr.trans ?_⟩
    split <;> rfl
  · exact congrArg ok ((klpReceive_wake wakes).trans (if_pos awake))
  · rw [ethFrame_klp used fcs long short vlan mac supported uplink klp]
    refine ⟨fun whole => by rw [whole]; rfl, fun key part new room => ?_, fun key g part waits same => ?_⟩
    · rw [part, reassemble_first new room]
    · rw [part, reassemble_second waits same]

end Sys2Proof.Machine
end

section
/-! SUPPORT. The events of one moment and the log's ring (R414, R439, R528, R529), and the statements O6, O7. -/

namespace Sys2Proof.Machine

/-! ## The order of delivery (R529) -/

theorem sortByCode_append (l : List LogEntry) (e : LogEntry) : sortByCode (l ++ [e]) = insertByCode e (sortByCode l) := by
  simp [sortByCode]

theorem insertByCode_perm (e : LogEntry) (l : List LogEntry) : (insertByCode e l).Perm (e :: l) := by
  induction l with
  | nil => exact .refl _
  | cons f l ih =>
    rw [insertByCode]
    split
    · exact .refl _
    · exact (ih.cons f).trans (.swap e f l)

theorem insertByCode_sorted {l : List LogEntry} (e : LogEntry) (sorted : l.Pairwise fun a b => a.code ≤ b.code) :
    (insertByCode e l).Pairwise fun a b => a.code ≤ b.code := by
  induction l with
  | nil => exact List.pairwise_singleton _ _
  | cons f l ih =>
    obtain ⟨least, rest⟩ := List.pairwise_cons.mp sorted
    rw [insertByCode]
    split
    next before =>
      refine List.pairwise_cons.mpr ⟨fun g hg => ?_, sorted⟩
      rcases List.mem_cons.mp hg with rfl | hg
      · exact before.le
      · exact before.le.trans (least g hg)
    next behind =>
      refine List.pairwise_cons.mpr ⟨fun g hg => ?_, ih rest⟩
      rcases List.mem_cons.mp ((insertByCode_perm e l).mem_iff.mp hg) with rfl | hg
      · exact Nat.le_of_not_lt behind
      · exact least g hg

/-- An entry comes behind those of its own code. -/
theorem filter_insertByCode {l : List LogEntry} (e : LogEntry) (n : Nat) (sorted : l.Pairwise fun a b => a.code ≤ b.code) :
    (insertByCode e l).filter (fun f => f.code == n) = (l ++ [e]).filter fun f => f.code == n := by
  induction l with
  | nil => rfl
  | cons f l ih =>
    obtain ⟨least, rest⟩ := List.pairwise_cons.mp sorted
    rw [insertByCode]
    split
    next before =>
      have later : ∀ g ∈ f :: l, e.code < g.code := fun g hg => by
        rcases List.mem_cons.mp hg with rfl | hg
        · exact before
        · exact before.trans_le (least g hg)
      by_cases own : e.code = n
      · have none : (f :: l).filter (fun g => g.code == n) = [] := by
          refine List.filter_eq_nil_iff.mpr fun g hg => ?_
          have := later g hg
          rw [beq_iff_eq]
          omega
        rw [List.filter_append, none, List.filter_cons, none]
        simp [own]
      · rw [List.filter_cons_of_neg (by simpa using own), List.filter_append]
        simp [own]
    next => rw [List.cons_append, List.filter_cons, List.filter_cons, ih rest]

theorem sortByCode_sorted (l : List LogEntry) : (sortByCode l).Pairwise fun a b => a.code ≤ b.code := by
  induction l using List.reverseRecOn with
  | nil => exact .nil
  | append_singleton l e ih =>
    rw [sortByCode_append]
    exact insertByCode_sorted e ih

theorem sortByCode_perm (l : List LogEntry) : (sortByCode l).Perm l := by
  induction l using List.reverseRecOn with
  | nil => exact .refl _
  | append_singleton l e ih =>
    rw [sortByCode_append]
    exact (insertByCode_perm e _).trans ((ih.cons e).trans (List.perm_append_singleton e l).symm)

theorem filter_sortByCode (l : List LogEntry) (n : Nat) :
    (sortByCode l).filter (fun e => e.code == n) = l.filter fun e => e.code == n := by
  induction l using List.reverseRecOn with
  | nil => rfl
  | append_singleton l e ih =>
    rw [sortByCode_append, filter_insertByCode e n (sortByCode_sorted l), List.filter_append, List.filter_append, ih]

/-- Settles O6: `insertByCode` keeps a list sorted and puts an entry behind those of its code. -/
theorem deliveryOrder : Obligations.DeliveryOrder := fun l =>
  ⟨sortByCode_sorted l, sortByCode_perm l, filter_sortByCode l⟩

/-! ## The log's ring (R414, R439) -/

theorem appendLog_room (e : LogEntry) {s : State} (room : s.evt.secCount < 100) : appendLog e s = { s with
    ret.evtSeq := (s.ret.evtSeq + 1) % 2 ^ 32,
    ret.log := tset {} s.ret.log ((s.ret.evtSeq + 1) % 2 ^ 32 % 4096) { e with seq := (s.ret.evtSeq + 1) % 2 ^ 32 },
    evt.secCount := s.evt.secCount + 1 } := if_pos room

theorem appendLog_full (e : LogEntry) {s : State} (full : 100 ≤ s.evt.secCount) :
    appendLog e s = { s with evt.secLost := s.evt.secLost + 1 } := if_neg (Nat.not_lt.mpr full)

/-- Settles O7: the two cases of the log second. -/
theorem logAppends : Obligations.LogAppends := by
  intro e s q
  refine ⟨fun room => ?_, fun full => ?_⟩
  · rw [appendLog_room e room]
    exact ⟨rfl, tget_tset_same _ _ _ _, fun k other => tget_tset_ne _ _ _ other, rfl⟩
  · rw [appendLog_full e full]
    exact ⟨rfl, rfl⟩

end Sys2Proof.Machine
end

section
/-! SUPPORT. Every command ends by delivering its events (R528, R529): the statements O1, O3, O4, O5. -/

namespace Sys2Proof.Machine

/-- A command's answer: a next state whose events are delivered, at a tick boundary or between two. -/
def Answers (o : Out) : Prop := ∃ u, o = ok u ∨ o = okBoundary u

theorem answers_ok (s : State) : Answers (ok s) := ⟨s, .inl rfl⟩

theorem answers_atBoundary (f : State → State) (s : State) : Answers (atBoundary f s) := by
  unfold atBoundary
  split
  · exact ⟨f s, .inr rfl⟩
  · exact answers_ok s

theorem Answers.settles {o : Out} (h : Answers o) : ∃ t, o = .next t ∧ Settled t := by
  obtain ⟨u, rfl | rfl⟩ := h
  · exact ⟨_, rfl, settle_settled u⟩
  · exact ⟨_, rfl, settle_settled u⟩

/-- Every command's meaning ends in `ok`, or in `okBoundary` where it acts at a tick boundary. -/
theorem exec_answers (c : Instr) (s : State) : Answers (exec c s) := by
  cases c
  case tickBoundary raws partnerOk lpownIn =>
    show Answers (if ticking s then _ else ok s)
    split
    · exact ⟨_, .inr rfl⟩
    · exact answers_ok s
  case retainedStoreFlush => exact answers_atBoundary _ s
  case closeFlush => exact answers_atBoundary _ s
  case dormantEntry => exact answers_atBoundary _ s
  all_goals exact answers_ok _

/-- Settles O1: `step` is `exec` on the queue's front. -/
theorem stepRunsFront : Obligations.StepRunsFront := fun c rest s waits => by rw [step, waits]

/-- Settles O3: every command delivers its events as its last act. -/
theorem everyCommandSettles : Obligations.EveryCommandSettles := fun c s => (exec_answers c s).settles

/-- A step, idle or of a command, ends with its events delivered. -/
theorem step_answers (s : State) : Answers (step s) := by
  unfold step
  split
  · exact answers_ok _
  · exact exec_answers _ _

/-- Settles O4: a step delivers its events whatever was left before it. -/
theorem stepKeepsSettled : Obligations.StepKeepsSettled := by
  intro s t _ stepped
  obtain ⟨u, next, settled⟩ := (step_answers s).settles
  rw [stepped] at next
  cases next
  exact settled

/-- Settles O5: reset holds no event. -/
theorem resetSettled : Obligations.ResetSettled := ⟨rfl, rfl, Nat.zero_le _⟩

end Sys2Proof.Machine
end

section
/-! The attendant keys (R461, R462): the statement O34. -/

namespace Sys2Proof.Machine

section
variable {k : Fin 16} {s : State}

@[simp] theorem keyOf_settle (j : Nat) : keyOf (settle s) j = keyOf s j := by rw [keyOf, settle_keys, keyOf]
@[simp] theorem keyOf_raise (code arg j : Nat) : keyOf (raise code arg s) j = keyOf s j := by rw [keyOf, raise_keys, keyOf]

theorem keyOn_congr {t : State} (img : t.img = s.img) (j : Nat) : keyOn t j = keyOn s j := by
  rw [keyOn, keyOn, cf_congr img]

theorem exec_keyStuck (pressed : (keyOf s k).pressed = true) (fresh : (keyOf s k).stuck = false) (clear : s.guard = false)
    (limit : maxOnTicks s ≠ 0) (long : maxOnTicks s ≤ (keyOf s k).on) : exec (.keyStuck k) s = .next (settle
      (raise 0x2102 k.val (modKey k.val (fun x => { x with stuck := true, pressed := false, step := 0 }) s))) :=
  congrArg ok (if_pos ⟨pressed, by simp [fresh], by simp [clear], limit, long⟩)

theorem keyStuck_sticks (pressed : (keyOf s k).pressed = true) (fresh : (keyOf s k).stuck = false) (clear : s.guard = false)
    (limit : maxOnTicks s ≠ 0) (long : maxOnTicks s ≤ (keyOf s k).on) : ∃ t, exec (.keyStuck k) s = .next t ∧
      keyOf t k = { keyOf s k with stuck := true, pressed := false, step := 0 } ∧
      keyPressed t k = false ∧ (keyOn s k = true → keyStuck t k = true) ∧ ∀ j, j ≠ k.val → keyOf t j = keyOf s j := by
  refine ⟨_, exec_keyStuck pressed fresh clear limit long, ?_⟩
  generalize reached : settle _ = t
  have img : t.img = s.img := by rw [← reached, settle_img, raise_img, modKey_img]
  have key : keyOf t k = { keyOf s k with stuck := true, pressed := false, step := 0 } := by simp [← reached]
  refine ⟨key, by simp [keyPressed, key], fun on => ?_, fun j other => by simp [← reached, other]⟩
  rw [keyStuck, keyOn_congr img, on, key]
  rfl

theorem keyStuck_early (short : (keyOf s k).on < maxOnTicks s) : exec (.keyStuck k) s = .next (settle s) :=
  congrArg ok (if_neg fun ⟨_, _, _, _, long⟩ => absurd long (Nat.not_le.mpr short))

/-- A baseline one count nearer to the raw count. -/
def nearer (x : Key) : Nat :=
  if (0 : Int) < (x.raw : Int) - x.base then x.base + 1 else if (x.raw : Int) - x.base < 0 then x.base - 1 else x.base

theorem exec_baselineStep (stuck : (keyOf s k).stuck = true) (sound : (keyOf s k).fault = false) (clear : s.guard = false)
    (on : keyOn s k = true) (due : cf s 0x20 0 8 2 256 ≤ (keyOf s k).step) : ∃ f : Key → Key, f (keyOf s k) =
      { keyOf s k with step := 0, base := nearer (keyOf s k) } ∧
      exec (.baselineStep k) s = .next (settle (modKey k.val f s)) :=
  ⟨_, rfl, congrArg ok (if_pos (by simp [stuck, sound, clear, on, due]))⟩

theorem nearer_above {x : Key} (h : x.base < x.raw) : nearer x = x.base + 1 := if_pos (by omega)
theorem nearer_below {x : Key} (h : x.raw < x.base) : nearer x + 1 = x.base := by
  rw [nearer, if_neg (by omega), if_pos (by omega)]
  omega
theorem nearer_there {x : Key} (h : x.raw = x.base) : nearer x = x.base := by
  rw [nearer, if_neg (by omega), if_neg (by omega)]

theorem baselineStep_moves (stuck : (keyOf s k).stuck = true) (sound : (keyOf s k).fault = false) (clear : s.guard = false)
    (on : keyOn s k = true) (due : cf s 0x20 0 8 2 256 ≤ (keyOf s k).step) : ∃ t, exec (.baselineStep k) s = .next t ∧
      (keyOf t k).step = 0 ∧ (keyOf t k).base = nearer (keyOf s k) ∧ ∀ j, j ≠ k.val → keyOf t j = keyOf s j := by
  obtain ⟨f, moved, step⟩ := exec_baselineStep stuck sound clear on due
  refine ⟨_, step, ?_, ?_, fun j other => by rw [keyOf_settle, keyOf_modKey_ne _ _ other]⟩
  · rw [keyOf_settle, keyOf_modKey_same, moved]
  · rw [keyOf_settle, keyOf_modKey_same, moved]

theorem baselineStep_pressed (pressed : (keyOf s k).pressed = true) (fresh : (keyOf s k).stuck = false) :
    exec (.baselineStep k) s = .next (settle s) :=
  congrArg ok (if_neg (by simp [pressed, fresh]))

end

/-- Settles O34: the two commands where they act and where they do not. -/
theorem keyCommands : Obligations.KeyCommands := by
  unfold Obligations.KeyCommands
  intro k s x
  refine ⟨keyStuck_sticks, keyStuck_early, fun stuck sound clear on due => ?_, baselineStep_pressed⟩
  obtain ⟨t, moves, step, base, others⟩ := baselineStep_moves stuck sound clear on due
  refine ⟨t, moves, step, fun above => ?_, fun below => ?_, fun there => ?_, others⟩
  · rw [base, nearer_above above]
  · rw [base, nearer_below below]
  · rw [base, nearer_there there]

end Sys2Proof.Machine
end

section
/-! The watchdogs (R443 to R451): services, periods, keys, lock, enable and the wake point, and the statement O32. -/

namespace Sys2Proof.Machine

section
variable {c : Bool} {t e : Nat} {s : State}

/-! ## Services (R443, R444) -/

@[simp] theorem modWd_modWd (f g : Wd → Wd) : modWd c f (modWd c g s) = modWd c (fun w => f (g w)) s := by cases c <;> rfl

theorem modWd_eq (f : Wd → Wd) : modWd c f s = modWd c (fun _ => f (wdOf c s)) s := by cases c <;> rfl

/-- With no period write waiting a service only restarts the count. -/
theorem wdServe_none (none : (wdOf c s).held = []) :
    wdServe c t s = modWd c (fun _ => { wdOf c s with since := t }) s := by
  unfold wdServe
  rw [none]
  simp only [List.foldl_nil]
  rw [← none]
  exact modWd_eq _

theorem wdService_none (counts : wdExpired c t s = false) (none : (wdOf c s).held = []) :
    wdService c t s = modWd c (fun _ => { wdOf c s with since := t }) s := by
  rw [wdService, counts, if_neg Bool.false_ne_true, wdServe_none none]

theorem wdService_expired (due : wdExpired c t s = true) : wdService c t s = s := if_pos due

theorem wdsSvcWrite_services (runs : wdRuns false s = true) (counts : wdExpired false (s.clk.boundaryE + e) s = false)
    (none : s.wd.s.held = []) : exec (.wdsSvcWrite 0xA55A e) s =
      .next (settle { s with wd.s := { s.wd.s with since := s.clk.boundaryE + e } }) :=
  congrArg ok ((if_pos rfl).trans ((if_pos runs).trans (wdService_none counts none)))

theorem wdsSvcWrite_expired (due : wdExpired false (s.clk.boundaryE + e) s = true) :
    exec (.wdsSvcWrite 0xA55A e) s = .next (settle s) := by
  refine congrArg ok ((if_pos rfl).trans ?_)
  split
  · exact wdService_expired due
  · rfl

/-! ## Periods (R446) -/

theorem wdPeriodWrite_open {v : Word} (window : wdWindow c (s.clk.boundaryE + e) s = true)
    (counts : wdExpired c (s.clk.boundaryE + e) s = false) (none : (wdOf c s).held = []) :
    exec (.wdPeriodWrite c v false e) s = .next (settle (modWd c (fun _ =>
      { wdOf c s with per := v.toNat, since := s.clk.boundaryE + e }) s)) := by
  have opens : (wdWindow c (nowE e s) s && !wdExpired c (nowE e s) s) = true := by
    rw [nowE, window, counts]
    rfl
  refine congrArg ok ((if_pos opens).trans ?_)
  rw [wdServe_none (by rw [wdOf_modWd_same]; exact none), wdOf_modWd_same, modWd_modWd]
  rfl

theorem wdPeriodWrite_shut {v : Word} (shut : wdWindow c (s.clk.boundaryE + e) s = false) :
    exec (.wdPeriodWrite c v false e) s =
      .next (settle (raise 0x2002 (if c then 1 else 0) { s with wd.err := satField 16 8 s.wd.err })) := by
  have closed : ¬ (wdWindow c (nowE e s) s && !wdExpired c (nowE e s) s) = true := by
    rw [nowE, shut]
    exact Bool.false_ne_true
  exact congrArg ok (if_neg closed)

theorem wdPeriodWrite_outside {v : Word} : exec (.wdPeriodWrite c v true e) s = .next (settle (modWd c (fun _ =>
    { wdOf c s with held := (wdOf c s).held ++ [{ addr := 0, mask := 0xFFFFFFFF, val := v }] }) s)) :=
  congrArg ok (modWd_eq (c := c) (s := s) fun w => { w with held := w.held ++ [{ addr := 0, mask := 0xFFFFFFFF, val := v }] })

/-! ## Keys (R447, R448) -/

theorem wdKey_first : wdKey c 0x5EA1 t s = modWd c (fun _ => { wdOf c s with key := some t }) s := by
  rw [wdKey, if_pos rfl, modWd_eq]

section
variable {k : Nat} (armed : (wdOf c s).key = some k) (inTime : t ≤ k + 256)
include armed inTime

/-- The second key of a sequence in time. -/
theorem wdKey_second : wdKey c 0x0FF0 t s =
    if (wdOf c s).lock then wdRefuseKey c (modWd c (fun _ => { wdOf c s with key := none }) s)
    else if (wdOf c s).en then modWd c (fun _ =>
      { wdOf c s with key := none, en := false, since := t, cut := some (t, (wdOf c s).since) }) s
    else modWd c (fun _ => { wdOf c s with key := none }) s := by
  have late : ¬ (!decide ((0x0FF0 : Nat) = 0x0FF0 ∧ t ≤ k + 256)) = true := by simpa using inTime
  rw [wdKey, if_neg (by decide), armed, modWd_eq (f := fun w => { w with key := none })]
  refine (if_neg late).trans ?_
  rw [modWd_modWd]

theorem wdKey_locked (locked : (wdOf c s).lock = true) :
    wdKey c 0x0FF0 t s = wdRefuseKey c (modWd c (fun _ => { wdOf c s with key := none }) s) := by
  rw [wdKey_second armed inTime, if_pos locked]

theorem wdKey_disables (unlocked : (wdOf c s).lock = false) (on : (wdOf c s).en = true) : wdKey c 0x0FF0 t s =
    modWd c (fun _ => { wdOf c s with key := none, en := false, since := t, cut := some (t, (wdOf c s).since) }) s := by
  rw [wdKey_second armed inTime, if_neg (by rw [unlocked]; decide), if_pos on]

end

/-- Any other key write ends a sequence. -/
theorem wdKey_other {v : Nat} (first : v ≠ 0x5EA1) (unarmed : ∀ k, (wdOf c s).key = some k → v = 0x0FF0 → k + 256 < t) :
    wdKey c v t s = modWd c (fun _ => { wdOf c s with key := none }) s := by
  rw [wdKey, if_neg first, modWd_eq (f := fun w => { w with key := none })]
  refine if_pos ?_
  split
  next k armed =>
    have late : ¬ (v = 0x0FF0 ∧ t ≤ k + 256) := fun ⟨second, inTime⟩ => absurd inTime (Nat.not_le.mpr (unarmed k armed second))
    rw [decide_eq_false late]
    rfl
  next => rfl

/-! ## Lock and enable (R447, R448) -/

theorem wdExpired_disabled (off : (wdOf c s).en = false) : wdExpired c t s = false := by simp [wdExpired, wdRuns, off]

theorem wdEnable_counts (counts : wdExpired c t s = false) (none : (wdOf c s).held = []) :
    wdEnable c t s = modWd c (fun _ => { wdOf c s with en := true, since := t }) s := by
  rw [wdEnable, counts, if_neg Bool.false_ne_true, wdServe_none (by rw [wdOf_modWd_same]; exact none), wdOf_modWd_same,
    modWd_modWd]

theorem wdLock_enabled (on : (wdOf c s).en = true) : wdLock c t s = modWd c (fun _ => { wdOf c s with lock := true }) s := by
  rw [wdLock, if_pos on, modWd_eq]

/-- A lock enables a disabled watchdog. -/
theorem wdLock_disabled (off : (wdOf c s).en = false) (none : (wdOf c s).held = [])
    (earlier : ∀ x, (wdOf c s).cut = some x → x.1 ≠ t) :
    wdLock c t s = modWd c (fun _ => { wdOf c s with en := true, since := t, lock := true }) s := by
  have enables : wdLock c t s = modWd c (fun w => { w with lock := true }) (wdEnable c t s) := by
    rw [wdLock, if_neg (by simp [off])]
    split
    next at' since cut => rw [if_neg (earlier _ cut)]
    next => rfl
  rw [enables, wdEnable_counts (wdExpired_disabled off) none, modWd_modWd]

/-- A lock in the E-clock of the disable undoes it, and the key sequence is refused. -/
theorem wdLock_undoes {old : Nat} (off : (wdOf c s).en = false) (cut : (wdOf c s).cut = some (t, old)) :
    wdOf c (wdLock c t s) = { wdOf c s with en := true, since := old, cut := none, lock := true } := by
  rw [wdLock, if_neg (by simp [off]), cut, wdOf_modWd_same]
  dsimp only
  rw [if_pos rfl, wdRefuseKey, wdOf, raise_wd]
  cases c <;> rfl

@[simp] theorem wdOf_settle : wdOf c (settle s) = wdOf c s := by rw [wdOf, settle_wd, wdOf]

/-! ## The wake point (R451) -/

theorem exec_wakePoint {decides : Bool} (dormant : s.md.mode = .dormant) (runs : wdRuns false s = true)
    (counts : wdExpired false (s.clk.boundaryE + e) s = false) (none : s.wd.s.held = [])
    (due : s.wd.s.since + wdPeriod false s * 7 / 8 ≤ s.clk.boundaryE + e) : exec (.wakePoint decides e) s = .next (settle
      (if decides then wake 4 { s with wd.s := { s.wd.s with since := s.clk.boundaryE + e } }
       else { s with wd.s := { s.wd.s with since := s.clk.boundaryE + e } })) := by
  refine congrArg ok ((if_pos ⟨dormant, runs, due⟩).trans ?_)
  rw [show wdService false (nowE e s) s = _ from wdService_none counts none]
  rfl

end

/-- Settles O32, clause by clause. -/
theorem watchdogRegisters : Obligations.WatchdogRegisters := by
  unfold Obligations.WatchdogRegisters
  intro c v e s now w put
  have value : ∀ {x : Word}, v ≠ x → v.toNat ≠ x.toNat := fun other same => other (BitVec.eq_of_toNat_eq same)
  refine ⟨wdsSvcWrite_services, wdsSvcWrite_expired, fun bad => congrArg ok (if_neg bad), wdPeriodWrite_open, wdPeriodWrite_shut,
    wdPeriodWrite_outside, congrArg ok wdKey_first,
    fun k armed inTime unlocked on => congrArg ok (wdKey_disables armed inTime unlocked on),
    fun k armed inTime locked => congrArg ok (wdKey_locked armed inTime locked),
    fun k armed late => congrArg ok (wdKey_other (by decide) fun j named _ => ?_),
    fun first other => congrArg ok (wdKey_other (value first) fun k armed second => ?_), fun off => ?_,
    congrArg ok (if_neg Bool.false_ne_true),
    fun on => congrArg ok (wdLock_enabled on), fun off none earlier => congrArg ok (wdLock_disabled off none earlier),
    fun old off cut => ⟨_, rfl, wdOf_settle.trans (wdLock_undoes off cut)⟩, congrArg ok (if_neg Bool.false_ne_true),
    fun none counts => congrArg ok (wdEnable_counts counts none),
    fun dormant runs counts none due => ⟨exec_wakePoint dormant runs counts none due, exec_wakePoint dormant runs counts none due⟩⟩
  · rw [armed] at named
    cases named
    exact late
  · rcases other with unarmed | other
    · rw [show (wdOf c s).key = none from unarmed] at armed
      cases armed
    · exact absurd second (value other)
  · simp [wdRuns, show (wdOf c s).en = false from off]

end Sys2Proof.Machine
end

section
/-! An expiry of a watchdog (R442, R444, R449): the statement O33. -/

namespace Sys2Proof.Machine

section
variable {c : Bool} {e : Nat} {s : State}

theorem wdExpiry_early (early : s.clk.boundaryE + e < (wdOf c s).since + wdPeriod c s) : wdExpiry c e s = s := by
  refine if_neg ?_
  have counts : ¬ (wdOf c s).since + wdPeriod c s ≤ nowE e s := Nat.not_le.mpr early
  simp [counts]

theorem wdExpiry_due (normal : s.boot.recovery = false) (powered : s.md.mode ≠ .backup) (on : (wdOf c s).en = true)
    (running : (wdOf c s).run = true) (due : (wdOf c s).since + wdPeriod c s ≤ s.clk.boundaryE + e) :
    wdExpiry c e s = wdExpire c (modWd c (fun w => { w with run := false }) s) := by
  refine if_pos ?_
  have past : (wdOf c s).since + wdPeriod c s ≤ nowE e s := due
  simp [on, running, normal, past, powered]

/-- The first steps of an expiry: its cause and its count, and the core held in THREAD. -/
theorem wdExpire_holds (free : s.wd.hold = false) : ∃ trial, wdExpire c s = { s with
    trial := trial, exe := stoppedExe s.exe,
    felt := { s.felt with lpown := false },
    fl := { s.fl with sweep := none, carrier := none, urg := [], fly := [] },
    ret := { s.ret with
      wdS := if c then s.ret.wdS else satInc 65535 s.ret.wdS, wdC := if c then satInc 65535 s.ret.wdC else s.ret.wdC },
    wd := { s.wd with hold := true, pulse := true },
    md := { s.md with
      rstCause := s.md.rstCause ||| (if c then 8 else 4), stepDown := none, wakeStep := 0, prev := s.md.mode,
      mode := .thread, thStat := 1 } } := by
  obtain ⟨trial, wd, stops⟩ := coreStops_stops { s with
    md.rstCause := s.md.rstCause ||| (if c then 8 else 4),
    ret.wdS := if c then s.ret.wdS else satInc 65535 s.ret.wdS, ret.wdC := if c then satInc 65535 s.ret.wdC else s.ret.wdC }
  exact ⟨trial, by rw [wdExpire, if_neg (by simp [free]), stops]⟩

theorem wdExpiry_expires (normal : s.boot.recovery = false) (powered : s.md.mode ≠ .backup) (free : s.wd.hold = false)
    (on : (wdOf c s).en = true) (running : (wdOf c s).run = true)
    (due : (wdOf c s).since + wdPeriod c s ≤ s.clk.boundaryE + e) : ∃ t, ok (wdExpiry c e s) = .next t ∧
      t.md.rstCause = s.md.rstCause ||| (if c then 8 else 4) ∧
      t.ret.wdS = (if c then s.ret.wdS else satInc 65535 s.ret.wdS) ∧
      t.ret.wdC = (if c then satInc 65535 s.ret.wdC else s.ret.wdC) ∧ t.wd.hold = true ∧ t.wd.pulse = true ∧
      t.md.mode = .thread ∧ t.exe.inCycle = false ∧ t.felt.lpown = false ∧ t.isl = s.isl ∧ t.rtc = s.rtc ∧
      t.fl.blocks = s.fl.blocks := by
  have still : (modWd c (fun w => { w with run := false }) s).wd.hold = false := by cases c <;> exact free
  obtain ⟨trial, expired⟩ := wdExpire_holds (c := c) still
  refine ⟨_, rfl, ?_⟩
  rw [wdExpiry_due normal powered on running due, expired]
  simp
  rfl

end

/-- Settles O33: an expiry of either watchdog. -/
theorem watchdogExpiry : Obligations.WatchdogExpiry := by
  unfold Obligations.WatchdogExpiry
  intro e s normal powered free
  refine ⟨fun on running due => ?_, fun on running due => ?_, fun early => congrArg ok (wdExpiry_early (c := false) early),
    fun early => congrArg ok (wdExpiry_early (c := true) early)⟩
  · obtain ⟨t, next, cause, wdS, wdC, hold, pulse, mode, idle, lpown, isl, rtc, blocks⟩ :=
      wdExpiry_expires (c := false) normal powered free on running due
    exact ⟨t, next, cause, wdS, wdC, hold, pulse, mode, idle, lpown, isl, rtc, blocks⟩
  · obtain ⟨t, next, cause, wdS, wdC, hold, pulse, mode, -, -, isl, -, -⟩ :=
      wdExpiry_expires (c := true) normal powered free on running due
    exact ⟨t, next, cause, wdC, wdS, hold, pulse, mode, isl⟩

end Sys2Proof.Machine
end

section
/-! The retain store (R434 to R437, R449, R508): what a written row set is afterwards, and the statement O37. -/

namespace Sys2Proof.Machine

/-! ## Slots of a row set (R434, R438) -/

section
variable {s t : State} {m : Memory} {r k : Nat}

/-- Both slots of row set `r` are the same in two states. -/
def SameRow (s t : State) (r : Nat) : Prop := ∀ k, k ≤ 1 → rowSlot t r k = rowSlot s r k

theorem SameRow.trans {u : State} (h : SameRow s t r) (g : SameRow t u r) : SameRow s u r :=
  fun k slot => (g k slot).trans (h k slot)

theorem SameRow.of_rows (rows : t.ret.rows = s.ret.rows) : SameRow s t r := fun _ _ => by rw [rowSlot, rows, rowSlot]

theorem SameRow.newerSlot (h : SameRow s t r) : newerSlot t r = newerSlot s r := by
  rw [Machine.newerSlot, Machine.newerSlot, h 0 (Nat.zero_le 1), h 1 (Nat.le_refl 1)]

/-- The newer slot is the good one, or of two good ones that of the later gen. -/
theorem newerSlot_of_later (slot : k ≤ 1) (good : slotGood (rowSlot s r k) r = true)
    (later : slotGood (rowSlot s r (1 - k)) r = true → (rowSlot s r (1 - k)).gen < (rowSlot s r k).gen) :
    newerSlot s r = some k := by
  unfold newerSlot
  rcases Nat.le_one_iff_eq_zero_or_eq_one.mp slot with rfl | rfl
  · cases other : slotGood (rowSlot s r 1) r with
    | true =>
      have := later other
      simp only [good, other, if_neg (Nat.lt_asymm this)]
    | false => simp only [good, other]
  · cases other : slotGood (rowSlot s r 0) r with
    | true =>
      have := later other
      simp only [good, other, if_pos this]
    | false => simp only [good, other]

theorem newerSlot_cases (s : State) (r : Nat) :
    (newerSlot s r = none ∧ ∀ k, k ≤ 1 → slotGood (rowSlot s r k) r = false) ∨ ∃ k, k ≤ 1 ∧ newerSlot s r = some k := by
  cases first : slotGood (rowSlot s r 0) r <;> cases second : slotGood (rowSlot s r 1) r
  case false.false =>
    refine .inl ⟨by simp [newerSlot, first, second], fun k slot => ?_⟩
    rcases Nat.le_one_iff_eq_zero_or_eq_one.mp slot with rfl | rfl
    · exact first
    · exact second
  case true.true =>
    refine .inr ⟨_, ?_, by simp only [newerSlot, first, second]; rfl⟩
    split
    · exact Nat.le_refl 1
    · exact Nat.zero_le 1
  case true.false => exact .inr ⟨0, Nat.zero_le 1, by simp [newerSlot, first, second]⟩
  case false.true => exact .inr ⟨1, Nat.le_refl 1, by simp [newerSlot, first, second]⟩

theorem SameRow.rowDirty (h : SameRow s t r) : rowDirty t m r = rowDirty s m r := by
  rw [Machine.rowDirty, Machine.rowDirty, h.newerSlot]
  rcases newerSlot_cases s r with ⟨none, -⟩ | ⟨k, slot, newer⟩
  · rw [none]
  · rw [newer]
    dsimp only
    rw [h k slot]

/-! ## A row set written (R434) -/

/-- The slot that the next write of row set `r` takes, and the gen it has then. -/
def nextSlot (s : State) (r : Nat) : Nat := match newerSlot s r with | some t => 1 - t | none => 0
def nextGen (s : State) (r : Nat) : Nat := match newerSlot s r with | some t => (rowSlot s r t).gen + 1 | none => 1

theorem nextSlot_le (s : State) (r : Nat) : nextSlot s r ≤ 1 := by
  unfold nextSlot
  split
  · exact Nat.sub_le _ _
  · exact Nat.zero_le 1

theorem writeRow_eq (kind : Nat) (s : State) (r : Nat) : writeRow m kind true s r = { s with
    ret.rows := tset {} s.ret.rows (2 * r + nextSlot s r)
      { good := true, tick := s.exe.couchTick, index := r, kind := kind, gen := nextGen s r % 2 ^ 32,
        data := rowWords m r } } := rfl

theorem rowSlot_writeRow (kind j : Nat) (slot : k ≤ 1) : rowSlot (writeRow m kind true s r) j k =
    if j = r ∧ k = nextSlot s r then
      { good := true, tick := s.exe.couchTick, index := r, kind := kind, gen := nextGen s r % 2 ^ 32, data := rowWords m r }
    else rowSlot s j k := by
  have le := nextSlot_le s r
  rw [writeRow_eq, rowSlot, tget_tset, rowSlot]
  exact if_congr (by omega) rfl rfl

theorem writeRow_others (kind : Nat) {j : Nat} (other : j ≠ r) : SameRow s (writeRow m kind true s r) j := fun k slot => by
  rw [rowSlot_writeRow kind j slot, if_neg fun same => other same.1]

/-- A row set written whole is no longer dirty, its gen being the later one. -/
theorem writeRow_clean (kind : Nat) (room : ∀ k, k ≤ 1 → (rowSlot s r k).gen + 1 < 2 ^ 32) :
    rowDirty (writeRow m kind true s r) m r = false := by
  have le := nextSlot_le s r
  have written := rowSlot_writeRow (m := m) (s := s) (r := r) kind r le
  rw [if_pos ⟨rfl, rfl⟩] at written
  have kept := rowSlot_writeRow (m := m) (s := s) (r := r) kind r (Nat.sub_le 1 (nextSlot s r))
  rw [if_neg (by omega)] at kept
  have newer : newerSlot (writeRow m kind true s r) r = some (nextSlot s r) := by
    refine newerSlot_of_later le (by simp [written, slotGood]) fun good => ?_
    rw [kept] at good ⊢
    rw [written]
    rcases newerSlot_cases s r with ⟨-, bad⟩ | ⟨k, slot, old⟩
    · rw [bad _ (Nat.sub_le _ _)] at good
      cases good
    · have back : 1 - nextSlot s r = k := by
        rw [nextSlot, old]
        dsimp only
        omega
      have gen : nextGen s r = (rowSlot s r k).gen + 1 := by rw [nextGen, old]
      rw [back, gen]
      dsimp only
      rw [Nat.mod_eq_of_lt (room k slot)]
      exact Nat.lt_succ_self _
  rw [rowDirty, newer]
  dsimp only
  rw [written]
  exact bne_self_eq_false _

/-! ## Many row sets written (R436, R437) -/

/-- These row sets written, one after another. -/
def writeRows (m : Memory) (kind : Nat) (l : List Nat) (s : State) : State := l.foldl (writeRow m kind true) s

theorem writeRows_only (kind : Nat) (l : List Nat) (s : State) : ∃ rows, writeRows m kind l s = { s with ret.rows := rows } := by
  induction l generalizing s with
  | nil => exact ⟨s.ret.rows, rfl⟩
  | cons r l ih =>
    obtain ⟨rows, rest⟩ := ih (writeRow m kind true s r)
    exact ⟨rows, rest⟩

theorem writeRows_others (kind : Nat) {l : List Nat} (s : State) (other : r ∉ l) : SameRow s (writeRows m kind l s) r := by
  induction l generalizing s with
  | nil => exact fun _ _ => rfl
  | cons q l ih =>
    rw [List.mem_cons, not_or] at other
    exact (writeRow_others kind other.1).trans (ih (writeRow m kind true s q) other.2)

theorem writeRows_clean (kind : Nat) {l : List Nat} (nodup : l.Nodup) (named : r ∈ l)
    (room : ∀ k, k ≤ 1 → (rowSlot s r k).gen + 1 < 2 ^ 32) : rowDirty (writeRows m kind l s) m r = false := by
  induction l generalizing s with
  | nil => cases named
  | cons q l ih =>
    obtain ⟨fresh, nodup⟩ := List.nodup_cons.mp nodup
    rcases List.mem_cons.mp named with rfl | named
    · exact (writeRows_others kind (writeRow m kind true s r) fresh).rowDirty.trans (writeRow_clean kind room)
    · have other : r ≠ q := fun same => fresh (same ▸ named)
      refine ih (s := writeRow m kind true s q) nodup named fun k slot => ?_
      rw [writeRow_others kind other k slot]
      exact room k slot

theorem mem_dirtyRows : r ∈ dirtyRows s ↔ r < 64 ∧ rowDirty s s.exe.couched r = true := by
  rw [dirtyRows, List.mem_filter, List.mem_range]

/-- Every dirty row set written leaves none dirty. -/
theorem writeDirty_clean (kind : Nat) (room : ∀ r k, (rowSlot s r k).gen + 1 < 2 ^ 32) (h : r < 64) :
    rowDirty (writeRows s.exe.couched kind (dirtyRows s) s) s.exe.couched r = false := by
  cases dirty : rowDirty s s.exe.couched r with
  | true =>
    exact writeRows_clean (l := dirtyRows s) kind (List.nodup_range.filter _) (mem_dirtyRows.mpr ⟨h, dirty⟩) fun k _ => room r k
  | false =>
    refine (writeRows_others kind s fun named => ?_).rowDirty.trans dirty
    rw [(mem_dirtyRows.mp named).2] at dirty
    cases dirty

end

/-! ## The final save and the flush (R436, R437, R449, R508) -/

section
variable {s : State}

theorem powerfail_saves {ns : Nat} (long : 10000 ≤ ns) (powered : s.md.mode ≠ .backup) (couched : s.exe.everCouched = true)
    (free : s.wd.hold = false) : exec (.powerfailNFall ⟨ns, none⟩) s = .next (settle
      { writeRows s.exe.couched 2 (dirtyRows s) s with
        ret.pfDone := true, ret.pfCnt := satInc (2 ^ 32 - 1) (writeRows s.exe.couched 2 (dirtyRows s) s).ret.pfCnt }) := by
  refine congrArg ok ((if_neg ?_).trans (if_pos long))
  simp only [powered, couched, free, false_or, Bool.not_true, Bool.false_eq_true, Nat.not_lt]
  exact Nat.le_trans (by decide) long

theorem powerfail_idle {ns : Nat} (rows : Option Nat)
    (idle : s.md.mode = .backup ∨ s.exe.everCouched = false ∨ s.wd.hold = true ∨ ns < 5000) :
    exec (.powerfailNFall ⟨ns, rows⟩) s = .next (settle s) :=
  congrArg ok (if_pos (by simpa using idle))

theorem flushRows_flushes (s : State) : ∃ ev flushes, flushRows s = { writeRows s.exe.couched 1 (dirtyRows s) s with
    evt := ev, ret.flushes := flushes, exe.rfl := false } := by
  unfold flushRows
  dsimp only
  split
  · rw [raise_calm _ _ _ (by decide)]
    exact ⟨_, _, rfl⟩
  · exact ⟨_, _, rfl⟩

theorem exec_retainedStoreFlush (bnd : s.evt.atBnd = true) (asked : s.exe.rfl = true)
    (still : s.md.mode = .hold ∨ s.md.mode = .dormant) : exec .retainedStoreFlush s =
      .next { settle (flushRows s) with evt.atBnd := true } := by
  change atBoundary _ s = _
  rw [atBoundary, if_pos bnd, if_pos ⟨asked, still⟩]
  rfl

end

/-- Settles O37: every dirty row set is written, and one written is clean. -/
theorem retainedSaves : Obligations.RetainedSaves := by
  unfold Obligations.RetainedSaves
  intro s room
  refine ⟨fun ns long powered couched free => ?_, fun ns rows => powerfail_idle rows, fun bnd asked still => ?_,
    fun between => if_neg (by simp [between])⟩
  · obtain ⟨rows, only⟩ := writeRows_only (m := s.exe.couched) 2 (dirtyRows s) s
    refine ⟨_, powerfail_saves long powered couched free, fun r h => ?_, ?_⟩
    · refine (SameRow.of_rows (s := writeRows s.exe.couched 2 (dirtyRows s) s) (by rw [settle_ret_rows])).rowDirty.trans ?_
      rw [settle_exe, show (writeRows s.exe.couched 2 (dirtyRows s) s).exe = s.exe by rw [only]]
      exact writeDirty_clean 2 room h
    · rw [settle_ret_pfDone, settle_ret_pfCnt, settle_md, settle_exe, only]
      exact ⟨rfl, rfl, rfl, rfl⟩
  · obtain ⟨rows, only⟩ := writeRows_only (m := s.exe.couched) 1 (dirtyRows s) s
    obtain ⟨ev, flushes, flushed⟩ := flushRows_flushes s
    have couched : (writeRows s.exe.couched 1 (dirtyRows s) s).exe = s.exe := by rw [only]
    refine ⟨_, exec_retainedStoreFlush bnd asked still, fun r h => ?_, ?_⟩
    · refine (SameRow.of_rows (s := writeRows s.exe.couched 1 (dirtyRows s) s) ?_).rowDirty.trans ?_
      · dsimp only
        rw [settle_ret_rows, flushed]
      · dsimp only
        rw [settle_exe, flushed]
        dsimp only
        rw [couched]
        exact writeDirty_clean 1 room h
    · dsimp only
      rw [settle_exe, settle_md, settle_ret_p, flushed, only]
      exact ⟨rfl, rfl, rfl⟩

end Sys2Proof.Machine
end

section
/-! The clock (R419 to R426, R429 to R432): its calendar and alarms, compensation and SNTP, and the statement O31. -/

namespace Sys2Proof.Machine

/-! ## What a fired alarm changes (R424 to R426) -/

/-- `t` is `s` but for its events, for a wake, and for what the backup domain keeps of fired alarms. -/
def OnlyFired (s t : State) : Prop := ∃ ev md felt now fired pin bk first sec fw, t = { s with
  evt := ev, md := md, felt := felt,
  rtc := { s.rtc with
    now := now, fired := fired, pin := pin, almBk := bk, almFirst := first, almBkSec := sec, fwAlarms := fw } }

namespace OnlyFired

variable {s t u : State}

theorem refl (s : State) : OnlyFired s s := ⟨_, _, _, _, _, _, _, _, _, _, rfl⟩

theorem trans (h : OnlyFired s t) (g : OnlyFired t u) : OnlyFired s u := by
  obtain ⟨_, _, _, _, _, _, _, _, _, _, rfl⟩ := h
  obtain ⟨_, _, _, _, _, _, _, _, _, _, rfl⟩ := g
  exact ⟨_, _, _, _, _, _, _, _, _, _, rfl⟩

theorem foldl {β : Type} {f : State → β → State} (h : ∀ s x, OnlyFired s (f s x)) (l : List β) (s : State) :
    OnlyFired s (l.foldl f s) := by
  induction l generalizing s with
  | nil => exact refl s
  | cons x l ih => exact (h s x).trans (ih _)

theorem of_woken (h : OnlyWoken s t) : OnlyFired s t := by
  obtain ⟨md, felt, rfl⟩ := h
  exact ⟨_, md, felt, _, _, _, _, _, _, _, rfl⟩

theorem of_noted (h : OnlyNoted s t) : OnlyFired s t := by
  obtain ⟨ev, rfl⟩ := h
  exact ⟨ev, _, _, _, _, _, _, _, _, _, rfl⟩

/-- A clock loaded keeps the time, the alarms and the SNTP state while alarms fire. -/
theorem clock (h : OnlyFired s t) : t.rtc.sec = s.rtc.sec ∧ t.rtc.cal = s.rtc.cal ∧ t.rtc.sub = s.rtc.sub ∧
    t.rtc.valid = s.rtc.valid ∧ t.rtc.alm0 = s.rtc.alm0 ∧ t.rtc.alm1 = s.rtc.alm1 ∧ t.rtc.polling = s.rtc.polling ∧
    t.rtc.fails = s.rtc.fails ∧ t.exe = s.exe := by
  obtain ⟨_, _, _, _, _, _, _, _, _, _, rfl⟩ := h
  exact ⟨rfl, rfl, rfl, rfl, rfl, rfl, rfl, rfl, rfl⟩

end OnlyFired

theorem raise_alarm_noted (n : Nat) (s : State) : OnlyNoted s (raise 0x1901 n s) := raise_noted n s (by decide)

theorem alarmFires_fired (n : Nat) (s : State) : OnlyFired s (alarmFires n s) := by
  have marked : ∀ fired fw, OnlyFired s { s with rtc.fired := fired, rtc.fwAlarms := fw } :=
    fun _ _ => ⟨_, _, _, _, _, _, _, _, _, _, rfl⟩
  have told : ∀ u, OnlyFired u (wake 1 (raise 0x1901 n u)) := fun u =>
    (OnlyFired.of_noted (raise_alarm_noted n u)).trans (.of_woken (wake_woken 1 _))
  unfold alarmFires
  split
  · exact ⟨_, _, _, _, _, _, _, _, _, _, rfl⟩
  · dsimp only
    split
    · exact (marked _ s.rtc.fwAlarms).trans (.of_woken (wake_woken 1 _))
    · exact marked _ _
    · split
      · exact marked _ _
      · exact (marked _ s.rtc.fwAlarms).trans (.of_noted (raise_alarm_noted n _))
    · exact (marked _ s.rtc.fwAlarms).trans (told _)

theorem alarmFires_now_fired (n now : Nat) (s : State) : OnlyFired s (alarmFires n { s with rtc.now := now }) :=
  .trans ⟨_, _, _, _, _, _, _, _, _, _, rfl⟩ (alarmFires_fired n _)

theorem tryAlarm_fired (n : Nat) (s : State) : OnlyFired s (tryAlarm n s) := by
  unfold tryAlarm
  split
  · exact alarmFires_now_fired n _ s
  · exact .refl s

section
variable {s : State}

/-! ## Loads and the calendar (R419, R420) -/

/-- The time loaded, before the alarms that it passes. -/
def timeLoaded (sec sub : Nat) (s : State) : State := { s with
  rtc.sec := sec % 2 ^ 32, rtc.cal := sec % 2 ^ 32, rtc.sub := sub % 32768, rtc.valid := true, rtc.now := 0 }

theorem rtcLoad_fired (sec sub : Nat) (s : State) : OnlyFired (timeLoaded sec sub s) (rtcLoad sec sub s) := by
  refine OnlyFired.foldl (fun u n => ?_) _ _
  split
  · exact alarmFires_now_fired n _ u
  · exact .refl u

theorem rtcLoad_loads (s : State) : ∃ t, exec .rtcLoad s = .next t ∧ t.rtc.sec = s.rtc.setSec % 2 ^ 32 ∧
    t.rtc.cal = s.rtc.setSec % 2 ^ 32 ∧ t.rtc.sub = s.rtc.setSub % 32768 ∧ t.rtc.valid = true ∧ t.rtc.alm0 = s.rtc.alm0 ∧
    t.rtc.alm1 = s.rtc.alm1 ∧ t.exe = s.exe := by
  obtain ⟨sec, cal, sub, valid, alm0, alm1, -, -, exe⟩ := (rtcLoad_fired s.rtc.setSec s.rtc.setSub s).clock
  refine ⟨_, rfl, ?_⟩
  rw [settle_rtc, settle_exe]
  exact ⟨sec, cal, sub, valid, alm0, alm1, exe⟩

theorem exec_calendarWrap (last : s.rtc.cal + 1 = calEnd) : exec .calendarWrap s = .next (settle
    (tryAlarm 1 (tryAlarm 0 { calWrap { s with rtc.sub := 0 } with rtc.now := 0 }))) := by
  refine congrArg ok ((if_pos last).trans ?_)
  rw [rtcSecond, if_pos last]

theorem calendarWrap_starts (last : s.rtc.cal + 1 = calEnd) : ∃ t, exec .calendarWrap s = .next t ∧ t.rtc.cal = 0 ∧
    t.rtc.sec = 0 ∧ t.rtc.sub = 0 ∧ t.rtc.valid = false := by
  obtain ⟨sec, cal, sub, valid, -⟩ := ((tryAlarm_fired 0 { calWrap { s with rtc.sub := 0 } with rtc.now := 0 }).trans
    (tryAlarm_fired 1 _)).clock
  refine ⟨_, exec_calendarWrap last, ?_⟩
  rw [settle_rtc]
  exact ⟨cal, sec, sub, valid⟩

/-! ## Alarms (R424 to R426) -/

theorem tryAlarm_fires {n : Nat} (hit : almMatches (almWord s n) s.rtc.cal = true) (fresh : bitOf s.rtc.now n = false) :
    tryAlarm n s = alarmFires n { s with rtc.now := s.rtc.now + 2 ^ n } := if_pos (by simp [hit, fresh])

theorem tryAlarm_quiet {n : Nat} (quiet : almMatches (almWord s n) s.rtc.cal = false ∨ bitOf s.rtc.now n = true) :
    tryAlarm n s = s := by
  refine if_neg ?_
  rcases quiet with h | h <;> simp [h]

theorem alarmFire_vbak {n : Fin 2} (hit : almMatches (almWord s n) s.rtc.cal = true) (fresh : bitOf s.rtc.now n = false)
    (vbak : s.rtc.onVbak = true) : ∃ t, exec (.alarmFire n) s = .next t ∧ t.rtc.pin = true ∧ t.rtc.fired = s.rtc.fired ∧
      t.rtc.almBk = satInc 255 s.rtc.almBk ∧ (s.rtc.almBk = 0 → t.rtc.almFirst = n.val + 1 ∧ t.rtc.almBkSec = s.rtc.sec) := by
  refine ⟨_, rfl, ?_⟩
  rw [settle_rtc, tryAlarm_fires hit fresh, alarmFires, if_pos vbak]
  exact ⟨rfl, rfl, rfl, fun none => ⟨if_pos none, if_pos none⟩⟩

/-- In ACTIVE without a DORMANT request a wake has nothing to do. -/
theorem wake_active {k : Nat} (active : s.md.mode = .active) (unasked : s.md.dormReq = false) : wake k s = s := by
  unfold wake
  simp [active, unasked]

theorem alarmFire_active {n : Fin 2} (hit : almMatches (almWord s n) s.rtc.cal = true) (fresh : bitOf s.rtc.now n = false)
    (main : s.rtc.onVbak = false) (active : s.md.mode = .active) (unasked : s.md.dormReq = false)
    (clear : bitOf s.rtc.fired n = false) : exec (.alarmFire n) s = .next (settle (raise 0x1901 n
      { s with rtc.now := s.rtc.now + 2 ^ n.val, rtc.fired := s.rtc.fired + 2 ^ n.val })) := by
  refine congrArg ok ((tryAlarm_fires hit fresh).trans ?_)
  rw [alarmFires, if_neg (by simp [main]), clear, if_neg Bool.false_ne_true]
  dsimp only
  rw [active]
  dsimp only
  refine wake_active ?_ ?_
  · rw [raise_calm_md _ _ (by decide)]
    exact active
  · rw [raise_calm_md _ _ (by decide)]
    exact unasked

/-! ## Compensation (R422, R423, R431) -/

/-- The slew's share of a period's correction. -/
def slewShare (s : State) : Int := max (max (-2048) (-4096 - s.rtc.kTemp)) (min (min 2048 (4096 - s.rtc.kTemp)) s.rtc.slew)

theorem rtcPeriod_eq (s : State) : rtcPeriod s = { s with
    rtc.cyc := 0, rtc.slew := s.rtc.slew - slewShare s, rtc.k := max (-4096) (min 4096 (s.rtc.kTemp + slewShare s)) } := rfl

theorem compensationPeriod_begins (s : State) : ∃ t, exec .compensationPeriod s = .next t ∧ t.rtc.cyc = 0 ∧ -4096 ≤ t.rtc.k ∧
    t.rtc.k ≤ 4096 ∧ t.rtc.kTemp = s.rtc.kTemp ∧
    (-4096 ≤ s.rtc.kTemp → s.rtc.kTemp ≤ 4096 → (s.rtc.slew - t.rtc.slew).natAbs ≤ 2048) ∧
    (-2048 ≤ s.rtc.slew → s.rtc.slew ≤ 2048 → -4096 ≤ s.rtc.kTemp + s.rtc.slew → s.rtc.kTemp + s.rtc.slew ≤ 4096 →
      t.rtc.slew = 0 ∧ t.rtc.k = s.rtc.kTemp + s.rtc.slew) := by
  have share : slewShare s = max (max (-2048) (-4096 - s.rtc.kTemp)) (min (min 2048 (4096 - s.rtc.kTemp)) s.rtc.slew) := rfl
  refine ⟨_, rfl, ?_⟩
  rw [settle_rtc, rtcPeriod_eq]
  dsimp only
  exact ⟨rfl, by omega, by omega, rfl, fun low high => by omega, fun low high least most => by omega⟩

theorem roundDiv_whole (x : Int) : roundDiv (5000 * x) 5000 = x := by
  unfold roundDiv
  split <;> omega

theorem toSigned_eq (x : Nat) : toSigned 16 x = (BitVec.ofNat 16 x).toInt := by
  rw [toSigned, BitVec.toInt_eq_toNat_cond, BitVec.toNat_ofNat]
  exact if_congr (by omega) rfl rfl

/-- At a temperature of the curve's table the base correction is the table's word. -/
theorem sensorRead_atPoint {theta : BitVec 24} {i : Nat} (last : i ≤ 31) (point : theta.toInt = -40000 + 5000 * (i : Int)) :
    exec (.sensorRead theta) s = .next (settle { s with
      rtc.kTemp := curveWord s i + (BitVec.ofNat 16 (cf s 0x1F 0 2 2 0)).toInt }) := by
  have base : (if theta.toInt ≤ -40000 then 5000 * curveWord s 0
      else if 115000 ≤ theta.toInt then 5000 * curveWord s 31
      else
        let i := ((theta.toInt + 40000) / 5000).toNat
        5000 * curveWord s i + (curveWord s (i + 1) - curveWord s i) * (theta.toInt - (-40000 + 5000 * (i : Int)))) =
      5000 * curveWord s i := by
    have place : ((theta.toInt + 40000) / 5000).toNat = i := by omega
    split
    next => rw [show i = 0 by omega]
    next =>
      split
      next => rw [show i = 31 by omega]
      next =>
        rw [place]
        dsimp only
        rw [point, Int.sub_self, Int.mul_zero, Int.add_zero]
  rw [← roundDiv_whole (curveWord s i), ← base, ← toSigned_eq]
  rfl

/-! ## SNTP (R430, R431) -/

theorem sntpPoll_asks {option42 : Bool} (runs : sntpRuns s option42 = true) (idle : s.rtc.polling = false) :
    exec (.sntpPoll option42) s = .next (settle { s with rtc.polling := true }) := by
  refine congrArg ok ((if_neg (by simp [runs])).trans ?_)
  rw [idle]
  rfl

/-- A usable reply loads a clock that is not valid. -/
theorem exec_sntpReply {r : Sntp} (asked : s.rtc.polling = true) (usable : sntpUsable r = true) (stopped : s.rtc.valid = false) :
    ∃ free arg sec sub, exec (.sntpReply r) s = .next (settle (raise 0x1905 arg (rtcLoad sec sub
      { s with rtc.polling := false, rtc.fails := 0, free := free }))) := by
  have taken : ¬ (!s.rtc.polling || !sntpUsable r) = true := by simp [asked, usable]
  obtain ⟨free, measured⟩ := divFree_state (ntpDiff r.t2 r.t1 + ntpDiff r.t3 r.t4) (2 ^ 18)
    { s with rtc.polling := false, rtc.fails := 0 }
  obtain ⟨free', rounded⟩ := divFree_state ((ntpDiff r.t2 r.t1 + ntpDiff r.t3 r.t4) * 1000) (2 ^ 33)
    { s with rtc.polling := false, rtc.fails := 0, free := free }
  have answered : exec (.sntpReply r) s = ok _ := congrArg ok (if_neg taken)
  dsimp only at answered
  rw [measured] at answered
  dsimp only at answered
  rw [rounded, if_pos (by simp [stopped])] at answered
  exact ⟨free', _, _, _, answered⟩

theorem sntpReply_loads {r : Sntp} (asked : s.rtc.polling = true) (usable : sntpUsable r = true) (stopped : s.rtc.valid = false) :
    ∃ t, exec (.sntpReply r) s = .next t ∧ t.rtc.valid = true ∧ t.rtc.polling = false ∧ t.rtc.fails = 0 := by
  obtain ⟨free, arg, sec, sub, loads⟩ := exec_sntpReply asked usable stopped
  obtain ⟨-, -, -, valid, -, -, polling, fails, -⟩ :=
    (rtcLoad_fired sec sub { s with rtc.polling := false, rtc.fails := 0, free := free }).clock
  refine ⟨_, loads, ?_⟩
  rw [settle_rtc, raise_rtc]
  exact ⟨valid, polling, fails⟩

end

/-- Settles O31, clause by clause. -/
theorem clockCommands : Obligations.ClockCommands := by
  unfold Obligations.ClockCommands
  intro s
  refine ⟨rtcLoad_loads s, fun n hit fresh => ⟨alarmFire_vbak hit fresh, alarmFire_active hit fresh⟩,
    fun n quiet => congrArg ok (tryAlarm_quiet quiet), calendarWrap_starts, compensationPeriod_begins s,
    fun theta i => sensorRead_atPoint, fun option42 => sntpPoll_asks, fun r => sntpReply_loads,
    fun r asked bad => congrArg ok (if_pos (by simp [bad])),
    fun powered => ⟨congrArg ok (if_neg powered), congrArg ok (if_neg powered)⟩, fun due lost => ?_, ⟨_, rfl, ?_⟩⟩
  · refine congrArg ok ((if_pos due).trans ?_)
    rw [logSecond, if_neg lost]
  · rw [settle_rtc, settle_exe, settle_isl, settle_ret_rows]
    exact ⟨rfl, rfl, rfl, rfl, rfl, rfl, rfl, rfl, rfl, rfl⟩

end Sys2Proof.Machine
end

section
/-! SUPPORT. Threading leaves EXTEST as the reset left it (R467): the view of the debug port beside `ResetKept`. -/

namespace Sys2Proof.Machine

/-- EXTEST stands in `t` as it stood in `s`. -/
def ExtestKept (s t : State) : Prop := t.dbg.extest = s.dbg.extest

namespace ExtestKept

variable {s t u : State}

theorem refl (s : State) : ExtestKept s s := rfl

theorem trans (h : ExtestKept s t) (g : ExtestKept t u) : ExtestKept s u := Eq.trans g h

theorem of_dbg (h : t.dbg = s.dbg) : ExtestKept s t := congrArg Dbg.extest h

theorem foldl {β : Type} {f : State → β → State} (h : ∀ s x, ExtestKept s (f s x)) (l : List β) (s : State) :
    ExtestKept s (l.foldl f s) :=
  foldl_keeps (fun s => s.dbg.extest) h l s

theorem ite {c : Prop} [Decidable c] (h : ExtestKept s t) (g : ExtestKept s u) : ExtestKept s (if c then t else u) := by
  split
  · exact h
  · exact g

end ExtestKept

/-! ## Events -/

theorem raise_extest (code arg : Nat) (s : State) : ExtestKept s (raise code arg s) := .of_dbg (raise_dbg code arg s)

theorem note_extest (code cls arg lane flags utc : Nat) (s : State) :
    ExtestKept s (note code cls arg lane flags utc s) := rfl

theorem raise_foldl_extest {β : Type} (code arg : β → Nat) (l : List β) (s : State) :
    ExtestKept s (l.foldl (fun s x => raise (code x) (arg x) s) s) :=
  .foldl (fun s x => raise_extest (code x) (arg x) s) l s

theorem enterHoldF_extest (code : Nat) (s : State) : ExtestKept s (enterHoldF code s) := by
  obtain ⟨_, _, _, entered⟩ := enterHoldF_raised code s
  rw [entered]
  rfl

theorem delivered_extest {s t : State} (h : Delivered s t) : ExtestKept s t := by
  obtain ⟨_, _, _, _, _, _, _, _, delivered, _⟩ := h
  rw [delivered]
  rfl

theorem flushEarly_extest (s : State) : ExtestKept s (flushEarly s) :=
  .trans (t := { s with evt.early := [] }) rfl (.foldl (fun s e => delivered_extest (Frame.deliver_dl e s)) _ _)

/-! ## The boot ROM (R77 to R80, R95 to R105) -/

theorem fuseBoot_extest (temp : Int) (s : State) : ExtestKept s (fuseBoot temp s) := by
  unfold fuseBoot
  extract_lets _ read
  obtain ⟨_, _, _, _, reads⟩ := fuseCommon_reads 0 temp s
  have kept : ExtestKept s read := by
    rw [show read = _ from reads]
    rfl
  clear_value read
  exact kept

theorem walkEvents_extest (w : Walk) (s : State) : ExtestKept s (walkEvents w s) :=
  .trans (t := { s with boot.skipped := satAdd 65535 s.boot.skipped w.skipped }) rfl (raise_foldl_extest _ _ w.evts _)

theorem takeArea_extest (s : State) (r : Rec) : ExtestKept s (takeArea s r) := rfl

theorem takeDirectory_extest (dirOff dirLen : Nat) (w : Walk) (s : State) :
    ExtestKept s (takeDirectory dirOff dirLen w s) := by
  unfold takeDirectory
  extract_lets areas img store img2 key k good
  have stored : ExtestKept areas store := by
    simp only [store]
    split <;> rfl
  have keyed : ExtestKept store key := by
    simp only [key]
    split <;> rfl
  exact .trans (.foldl takeArea_extest _ s) (.trans stored (.trans keyed (.ite rfl rfl)))

theorem readHeader_extest (s : State) : ExtestKept s (readHeader s).2 := by
  unfold readHeader
  extract_lets boot sized boot2 reached mirror h told boot3 used off len least w walked
  have noted : ExtestKept s told := .trans (t := reached) rfl (.ite (raise_extest _ _ reached) (.refl reached))
  clear_value told
  have journal : ExtestKept s used := noted
  clear_value used
  have read : ExtestKept s walked := journal.trans (walkEvents_extest w used)
  split
  · rfl
  · split
    · rfl
    · split
      · exact journal
      · split
        · exact read
        · exact read.trans (takeDirectory_extest off len w walked)

theorem tryCopy_extest (d : Nat × Nat) (area c : Nat) (s : State) : ExtestKept s (tryCopy d area c s).2.2 := by
  unfold tryCopy
  generalize checkCopy s d.1 d.2 area c = checked
  obtain ⟨step, w⟩ := checked
  exact .trans (.trans (t := reachFlash _ s) rfl (walkEvents_extest w _))
    (.ite (.foldl (fun s _ => raise_extest _ _ s) _ _) (.refl _))

theorem copyFails_extest (area c step : Nat) (s : State) : ExtestKept s (copyFails area c step s) := raise_extest _ _ s

theorem chooseCopy_extest (d : Nat × Nat) (area : Nat) (s : State) : ExtestKept s (chooseCopy d area s).2.2 := by
  unfold chooseCopy
  extract_lets c
  have first := tryCopy_extest d area c s
  generalize tryCopy d area c s = tried at first ⊢
  obtain ⟨step, w, t⟩ := tried
  dsimp only at first ⊢
  split
  · exact first
  · exact first.trans ((copyFails_extest area c step t).trans (tryCopy_extest d area (1 - c) _))

theorem startFirmware_extest (s : State) : ExtestKept s (startFirmware s) := by
  unfold startFirmware
  extract_lets flushed alarmed
  have raised : ExtestKept s alarmed :=
    (flushEarly_extest s).trans ((delivered_extest (Frame.flushEvents_dl _)).trans
      (.foldl (fun s n => raise_extest _ n s) _ flushed))
  clear_value alarmed
  exact raised

theorem noFirmware_extest (s : State) : ExtestKept s (noFirmware s) :=
  .trans (t := { s with boot.recovery := true }) rfl (raise_extest _ _ _)

theorem noHeader_extest (s : State) : ExtestKept s (noHeader s) :=
  .trans (t := { s with boot.fwFall := true }) rfl ((copyFails_extest _ _ _ _).trans (noFirmware_extest _))

theorem bootRom_extest (temp : Int) (s : State) : ExtestKept s (bootRom temp s) := by
  unfold bootRom
  extract_lets _ fused at3
  have atFuses : ExtestKept s fused := fuseBoot_extest temp _
  clear_value fused
  have header := atFuses.trans (readHeader_extest { fused with md.thStat := 4 })
  split
  next t read =>
    rw [read] at header
    exact header.trans (noHeader_extest t)
  next d t read =>
    rw [read] at header
    dsimp only at header
    extract_lets _ t5
    have firmware : ExtestKept s (chooseCopy d 1 t5).2.2 := header.trans (chooseCopy_extest d 1 t5)
    clear_value t5
    split
    next fall u chosen =>
      rw [chosen] at firmware
      dsimp only at firmware
      exact firmware.trans (noFirmware_extest { u with boot.fwFall := fall })
    next c w fall u chosen =>
      rw [chosen] at firmware
      dsimp only at firmware
      extract_lets _ _ u2
      have config : ExtestKept s (chooseCopy d 2 u2).2.2 := firmware.trans (chooseCopy_extest d 2 u2)
      clear_value u2
      split
      next fall v chosen =>
        rw [chosen] at config
        dsimp only at config
        exact (config.trans (raise_extest 0x0404 2 { v with boot.cfgFall := fall })).trans (startFirmware_extest _)
      next c w fall v chosen =>
        rw [chosen] at config
        dsimp only at config
        extract_lets _ _ v2
        have program : ExtestKept s (chooseCopy d 3 v2).2.2 := config.trans (chooseCopy_extest d 3 v2)
        clear_value v2
        split
        next got fall x chosen =>
        rw [chosen] at program
        dsimp only at program
        extract_lets _ x2 _ x3 _
        have kept : ExtestKept s x2 := program
        clear_value x2
        have loaded : ExtestKept s x3 := by
          dsimp only [x3]
          split
          next c w => exact kept.trans (.ite (raise_extest _ _ { x2 with boot.progUnsigned := true }) (.refl x2))
          next => exact kept
        clear_value x3
        exact loaded.trans (startFirmware_extest { x3 with md.thStat := 6 })

/-! ## The firmware's steps (R81 to R85) -/

theorem answerAccess_extest (who sess req status : Nat) (words : List Nat) (s : State) :
    ExtestKept s (answerAccess who sess req status words s) :=
  .ite rfl (.ite rfl rfl)

theorem modWd_extest (c : Bool) (f : Wd → Wd) (s : State) : ExtestKept s (modWd c f s) := .of_dbg (modWd_dbg s c f)

theorem wdServe_extest (c : Bool) (t : Nat) (s : State) : ExtestKept s (wdServe c t s) :=
  (modWd_extest c _ s).trans (.foldl (fun s _ => answerAccess_extest _ _ _ 0 _ s) (wdOf c s).held _)

theorem wdEnable_extest (c : Bool) (t : Nat) (s : State) : ExtestKept s (wdEnable c t s) :=
  .ite (.refl s) ((modWd_extest c _ s).trans (wdServe_extest c t _))

theorem wdRefuseKey_extest (c : Bool) (s : State) : ExtestKept s (wdRefuseKey c s) :=
  .trans (t := wdErr 8 s) rfl (raise_extest _ _ _)

theorem wdLock_extest (c : Bool) (t : Nat) (s : State) : ExtestKept s (wdLock c t s) := by
  unfold wdLock
  extract_lets w locked
  have first : ExtestKept s locked := by
    refine .ite (.refl s) ?_
    split
    · exact .ite ((modWd_extest c _ s).trans (wdRefuseKey_extest c _)) (wdEnable_extest c t s)
    · exact wdEnable_extest c t s
  exact first.trans (modWd_extest c _ _)

theorem wdRecord_extest (t : Nat) (s : State) : ExtestKept s (wdRecord t s) := by
  unfold wdRecord
  extract_lets lock wdS wdC lockedS
  have both : ExtestKept s wdC := (modWd_extest false _ s).trans (modWd_extest true _ wdS)
  clear_value wdC
  have first : ExtestKept s lockedS := both.trans (.ite (wdLock_extest false t wdC) (.refl wdC))
  exact first.trans (.ite (wdLock_extest true t lockedS) (.refl lockedS))

theorem validate_extest (s : State) : ExtestKept s (validate s).2 := by
  unfold validate
  split
  · exact .refl s
  · have noted := ExtestKept.foldl (f := fun s f => note f.1 0x46 f.2 255 0 (utcNow s) s)
      (fun s f => note_extest f.1 0x46 f.2 255 0 (utcNow s) s) (cfgFaults s) s
    exact noted.trans (enterHoldF_extest _ _)

theorem sw_extest (w : Sw) (s : State) : ExtestKept s { s with sw := w } := rfl

theorem switchReset_extest (s : State) : ExtestKept s (switchReset s) :=
  (sw_extest {} s).trans (.foldl (fun s _ => sw_extest _ s) _ _)

theorem restoreRows_extest (s : State) : ExtestKept s (restoreRows s) := by
  refine .trans (t := { s with ret.bad := 0 }) rfl (.foldl (fun s r => ?_) _ _)
  dsimp only
  split
  · rfl
  · exact raise_extest _ _ { s with ret.bad := s.ret.bad + 1 }

theorem vbakCheck_extest (low : Bool) (s : State) : ExtestKept s (vbakCheck low s) :=
  .ite (raise_extest _ _ { s with rtc.bkLow := true }) (.refl s)

theorem baselineKeys_extest (means : List Nat) (s : State) : ExtestKept s (baselineKeys means s) := rfl

theorem setBlock_extest (fb : Nat) (b : Block) (s : State) : ExtestKept s (setBlock fb b s) := rfl

theorem probeSetup_extest (round fb : Nat) (s : State) : ExtestKept s (probeSetup round fb s) := rfl

theorem enumerateChain_extest (t : Thr) (s : State) : ExtestKept s (enumerateChain t s) := by
  unfold enumerateChain
  extract_lets l k fl found
  have first : ExtestKept s found :=
    .trans (t := { s with fl.found := k }) rfl (.foldl (fun _ _ => setBlock_extest _ _ _) _ _)
  clear_value found
  exact first.trans (.ite (raise_extest _ _ _) (.ite (raise_extest _ _ _) (.ite (raise_extest _ _ _)
    (.ite (raise_extest _ _ _) (.trans (t := { found with fl.n := k }) rfl
      (.foldl (fun _ _ => probeSetup_extest _ _ _) _ _))))))

theorem firmwareSteps_extest (t : Thr) (s : State) : ExtestKept s (firmwareSteps t s) := by
  unfold firmwareSteps
  have valid := validate_extest s
  split
  next good u checked =>
  rw [checked] at valid
  refine .ite valid ?_
  extract_lets _ _ swept _ at7 _ restored
  have first : ExtestKept s swept :=
    (valid.trans (wdRecord_extest 0 { u with
      clk.nextSel := cf u 0x12 0 0 1 1, clk.lateLimit := lateLimit u, rtc.charger := chargerMode u })).trans
      (switchReset_extest _)
  clear_value swept
  have tested : ExtestKept s at7 := first
  clear_value at7
  have rows := (tested.trans (u := holdSheet { at7 with md.thStat := 8 }) rfl).trans (restoreRows_extest _)
  have measured : ExtestKept s restored :=
    (rows.trans (baselineKeys_extest _ _)).trans (vbakCheck_extest t.vbakLow _)
  clear_value restored
  exact .ite (tested.trans (raise_extest _ _ _))
    ((measured.trans (u := { restored with md.thStat := 9 }) rfl).trans (enumerateChain_extest t _))

/-! ## A reset as a whole -/

theorem thread_extest (t : Thr) (s : State) : ExtestKept s (thread t s) := by
  unfold thread
  extract_lets rom fw
  have booted : ExtestKept s rom := bootRom_extest t.temp.toInt s
  clear_value rom
  have ran : ExtestKept s fw := booted.trans (firmwareSteps_extest t rom)
  clear_value fw
  exact .ite booted (.ite ran ran)

/-- A reset leaves EXTEST, and threading does not enter it. -/
theorem resetThread_extest {on : Bool} (cause : Nat) (t : Thr) {s : State} (runs : (s.md.testHold && !on) = false) :
    (resetThread on cause t s).dbg.extest = false := by
  unfold resetThread
  rw [runs, if_neg Bool.false_ne_true]
  exact thread_extest t (noteThread _ (resetCore on cause s))

end Sys2Proof.Machine
end

section
/-! The debug port (R466 to R482): what the island TAP's scan and a command's start leave, each DAP command, and the statement
O57. -/

namespace Sys2Proof.Machine

/-! ## The TAP's scans (R466 to R468) -/

section
variable (i : IslScan) (s : State)

/-- The island TAP holds its own instruction, answer and cells; nothing else of the unit follows its scan. -/
theorem scanIsland_only : ∃ ir tdo cells, scanIsland i s =
    { s with dbg := { s.dbg with islIr := ir, islTdo := tdo, islBoundary := cells } } := by
  unfold scanIsland
  split
  · exact ⟨s.dbg.islIr, s.dbg.islTdo, s.dbg.islBoundary, rfl⟩
  · split
    · exact ⟨_, _, _, rfl⟩
    · split <;> exact ⟨_, _, _, rfl⟩

theorem scanIsland_absent (absent : s.isl.tap = false) : scanIsland i s = s := if_pos (by rw [absent]; rfl)

variable {i s}

theorem scanIsland_present (tap : s.isl.tap = true) : scanIsland i s =
    if i.ir = 2 then { s with dbg.islIr := 2, dbg.islTdo := Config.islIdcode }
    else if i.ir.toNat ≤ 1 then { s with dbg.islIr := i.ir.toNat, dbg.islBoundary := i.cells.toNat }
    else { s with dbg.islIr := 0x1F } :=
  if_neg (by rw [tap]; decide)

theorem scanIsland_ir (tap : s.isl.tap = true) :
    (scanIsland i s).dbg.islIr = if i.ir.toNat ≤ 2 then i.ir.toNat else 0x1F := by
  rw [scanIsland_present tap]
  by_cases id : i.ir = 2
  · rw [if_pos id, id]
    rfl
  · have other : i.ir.toNat ≠ 2 := fun h => id (BitVec.eq_of_toNat_eq h)
    rw [if_neg id]
    by_cases cells : i.ir.toNat ≤ 1
    · rw [if_pos cells, if_pos (by omega)]
    · rw [if_neg cells, if_neg (by omega)]

theorem scanIsland_tdo (tap : s.isl.tap = true) (id : i.ir = 2) : (scanIsland i s).dbg.islTdo = Config.islIdcode := by
  rw [scanIsland_present tap, if_pos id]

theorem scanIsland_cells (tap : s.isl.tap = true) (low : i.ir.toNat ≤ 1) :
    (scanIsland i s).dbg.islBoundary = i.cells.toNat := by
  have other : i.ir ≠ 2 := by
    rintro id
    rw [id] at low
    exact absurd low (by decide)
  rw [scanIsland_present tap, if_neg other, if_pos low]

variable (i s)

@[simp] theorem scanIsland_md : (scanIsland i s).md = s.md := by obtain ⟨_, _, _, h⟩ := scanIsland_only i s; rw [h]
@[simp] theorem scanIsland_extest : (scanIsland i s).dbg.extest = s.dbg.extest := by
  obtain ⟨_, _, _, h⟩ := scanIsland_only i s; rw [h]
@[simp] theorem scanIsland_lockout : (scanIsland i s).dbg.lockout = s.dbg.lockout := by
  obtain ⟨_, _, _, h⟩ := scanIsland_only i s; rw [h]
@[simp] theorem scanIsland_failures : (scanIsland i s).dbg.failures = s.dbg.failures := by
  obtain ⟨_, _, _, h⟩ := scanIsland_only i s; rw [h]
@[simp] theorem scanIsland_nonce : (scanIsland i s).dbg.nonce = s.dbg.nonce := by
  obtain ⟨_, _, _, h⟩ := scanIsland_only i s; rw [h]
@[simp] theorem scanIsland_busy : (scanIsland i s).dbg.busy = s.dbg.busy := by
  obtain ⟨_, _, _, h⟩ := scanIsland_only i s; rw [h]
@[simp] theorem scanIsland_boot : (scanIsland i s).boot = s.boot := by obtain ⟨_, _, _, h⟩ := scanIsland_only i s; rw [h]
@[simp] theorem scanIsland_free : (scanIsland i s).free = s.free := by obtain ⟨_, _, _, h⟩ := scanIsland_only i s; rw [h]
theorem scanIsland_locked : dbgLocked (scanIsland i s) = dbgLocked s := by
  obtain ⟨_, _, _, h⟩ := scanIsland_only i s; rw [h]; rfl

theorem selected_locked (code : Nat) : dbgLocked (scanIsland i { s with dbg.tapIr := code }) = dbgLocked s :=
  scanIsland_locked i _

theorem scanIsland_kept : ResetKept s (scanIsland i s) := by
  obtain ⟨_, _, _, h⟩ := scanIsland_only i s
  rw [h]
  exact ⟨rfl, id⟩

end

section
variable {s : State} {i : IslScan} {code : Nat}

/-- An instruction selected outside EXTEST resets nothing. -/
theorem selectIr_plain (off : s.dbg.extest = false) : selectIr code i s = scanIsland i { s with dbg.tapIr := code } := by
  rw [selectIr, off]
  rfl

/-- The unit takes the debug reset when another instruction follows EXTEST (R467). -/
theorem selectIr_leaves (inside : s.dbg.extest = true) (other : code ≠ 0) :
    selectIr code i s = scanIsland i { resetThread false 32 (heldThread s) s with dbg.tapIr := code } := by
  have leaves : (s.dbg.extest && code != 0) = true := by simp [inside, other]
  rw [selectIr, if_pos leaves]

variable (on : tapOn s = true)
include on

theorem extest_hold (off : s.dbg.extest = false) (cells : BitVec 712) (thr : Thr) (free : dbgLocked s = false)
    (hold : s.md.mode = .hold) : exec (.extest ⟨cells, i⟩ thr) s = .next (settle { scanIsland i { s with dbg.tapIr := 0 } with
      dbg.extest := true, dbg.boundary := cells.toNat, md.heldThr := some thr }) := by
  refine congrArg ok ((if_neg (by simp [on])).trans ?_)
  rw [selectIr_plain off, if_neg (by simp [off]), if_neg (by rw [selected_locked, free]; exact Bool.false_ne_true),
    if_neg (by simp [hold])]

theorem extest_refused (off : s.dbg.extest = false) (cells : BitVec 712) (thr : Thr) (free : dbgLocked s = false)
    (other : s.md.mode ≠ .hold) : exec (.extest ⟨cells, i⟩ thr) s =
      .next (settle { scanIsland i { s with dbg.tapIr := 0 } with dbg.extestRefused := true }) := by
  refine congrArg ok ((if_neg (by simp [on])).trans ?_)
  rw [selectIr_plain off, if_neg (by simp [off]), if_neg (by rw [selected_locked, free]; exact Bool.false_ne_true),
    if_pos (by simpa using other)]

theorem samplePreload_plain (off : s.dbg.extest = false) (cells : BitVec 712) : exec (.samplePreload ⟨cells, i⟩) s =
    .next (settle { scanIsland i { s with dbg.tapIr := 1 } with dbg.boundary := cells.toNat }) := by
  refine congrArg ok ((if_pos on).trans ?_)
  rw [selectIr_plain off]

theorem samplePreload_leaves (inside : s.dbg.extest = true) (runs : s.md.testHold = false) (cells : BitVec 712) :
    ∃ t, exec (.samplePreload ⟨cells, i⟩) s = .next t ∧ t.md.rstCause = s.md.rstCause ||| 32 ∧
      t.clk.tick = 0 ∧ t.dbg.extest = false ∧ t.dbg.boundary = cells.toNat := by
  have runs' : (s.md.testHold && !false) = false := by simp [runs]
  have kept := resetThread_kept false 32 (heldThread s) s runs'
  have left := resetThread_extest (on := false) 32 (heldThread s) runs'
  refine ⟨_, congrArg ok ((if_pos on).trans (by rw [selectIr_leaves inside Nat.one_ne_zero])), ?_⟩
  generalize resetThread false 32 (heldThread s) s = r at kept left
  have scanned := (kept.trans (u := { r with dbg.tapIr := 1 }) ⟨rfl, id⟩).trans (scanIsland_kept i _)
  have extest : (scanIsland i { r with dbg.tapIr := 1 }).dbg.extest = false := (scanIsland_extest i _).trans left
  generalize scanIsland i { r with dbg.tapIr := 1 } = t at scanned extest
  obtain ⟨cause, tick, _⟩ := resetCore_keeps
    ((scanned.trans (u := { t with dbg.boundary := cells.toNat }) ⟨rfl, id⟩).trans (settle_kept _))
  exact ⟨cause, tick, by rw [settle_dbg]; exact extest, by rw [settle_dbg]⟩

theorem exec_bypass_other (off : s.dbg.extest = false) {code : BitVec 5}
    (other : [0, 1, 2, 0x10, 0x11].contains code.toNat = false) :
    exec (.bypass ⟨code, i⟩) s = .next (settle (scanIsland i { s with dbg.tapIr := code.toNat })) :=
  congrArg ok ((if_pos ⟨on, by rw [other]; rfl⟩).trans (selectIr_plain off))

omit on in
theorem unlisted_of_ne {code : BitVec 5} (h0 : code ≠ 0) (h1 : code ≠ 1) (h2 : code ≠ 2) (h16 : code ≠ 0x10)
    (h17 : code ≠ 0x11) : [0, 1, 2, 0x10, 0x11].contains code.toNat = false := by
  revert h0 h1 h2 h16 h17
  revert code
  decide

theorem bypass_scans (off : s.dbg.extest = false) (tap : s.isl.tap = true) : ∃ t, exec (.bypass ⟨0x1F, i⟩) s = .next t ∧
    t.dbg.islIr = (if i.ir.toNat ≤ 2 then i.ir.toNat else 0x1F) ∧
    (i.ir = 2 → t.dbg.islTdo = Config.islIdcode) ∧ (i.ir.toNat ≤ 1 → t.dbg.islBoundary = i.cells.toNat) := by
  refine ⟨_, exec_bypass_other on off (by decide), ?_⟩
  rw [settle_dbg]
  exact ⟨scanIsland_ir tap, scanIsland_tdo tap, scanIsland_cells tap⟩

theorem bypass_alone (off : s.dbg.extest = false) (absent : s.isl.tap = false) :
    ∃ t, exec (.bypass ⟨0x1F, i⟩) s = .next t ∧ t.dbg = { s.dbg with tapIr := 0x1F } := by
  refine ⟨_, exec_bypass_other on off (by decide), ?_⟩
  rw [settle_dbg, scanIsland_absent i _ (by exact absent)]
  rfl

theorem idcode_shows (off : s.dbg.extest = false) : exec .idcode s =
    .next (settle { scanIsland (sameScan s) { s with dbg.tapIr := 2 } with dbg.tdo := Config.idcode }) := by
  refine congrArg ok ((if_pos on).trans ?_)
  rw [selectIr_plain off]

theorem idcode_island (off : s.dbg.extest = false) (tap : s.isl.tap = true) (ir : s.dbg.islIr = 2) :
    ∃ t, exec .idcode s = .next t ∧ t.dbg.tdo = Config.idcode ∧ t.dbg.islTdo = Config.islIdcode := by
  refine ⟨_, idcode_shows on off, ?_⟩
  rw [settle_dbg]
  exact ⟨rfl, scanIsland_tdo tap (by rw [sameScan, ir]; rfl)⟩

/-- An attempt outside the lockout authenticates, or counts a failure and draws another nonce (R469). -/
theorem dbgauth_answers (off : s.dbg.extest = false) (pos : Byte) (key sig : BitVec 512) (out : s.dbg.lockout = false) :
    let shown := { scanIsland {} { s with dbg.tapIr := 0x10 } with dbg.tdo := s.dbg.nonce % 2 ^ 256 }
    let good := responseOk pos.toNat (beBytes 64 key.toNat) (beBytes 64 sig.toNat) s
    exec (.dbgauth pos key sig) s = .next (settle (if good then raise 0x2201 0 { shown with dbg.auth := true }
      else raise 0x2202 (s.dbg.failures + 1) { shown with
        dbg.failures := s.dbg.failures + 1, dbg.lockout := decide (3 ≤ s.dbg.failures + 1),
        dbg.nonce := Config.freeNat s.free, free := s.free + 1 })) := by
  refine congrArg ok ((if_neg (by simp [on])).trans ?_)
  rw [selectIr_plain off]
  obtain ⟨ir, tdo, cells, scanned⟩ := scanIsland_only {} { s with dbg.tapIr := 0x10 }
  rw [scanned]
  refine (if_neg (by simp [out])).trans ?_
  rfl

end

/-! ## A command's start (R470) -/

section
variable (a : Word) (s : State)

/-- A command that begins changes nothing but the port. -/
theorem dapBegun_only : ∃ ir tdo cells, dapBegun a s = { s with dbg := { s.dbg with
    tapIr := 0x11, islIr := ir, islTdo := tdo, islBoundary := cells,
    busy := true, status := 1, arg := a.toNat, result := 0 } } := by
  obtain ⟨ir, tdo, cells, scanned⟩ := scanIsland_only {} { s with dbg.tapIr := 0x11 }
  exact ⟨ir, tdo, cells, by rw [dapBegun, scanned]⟩

@[simp] theorem dapBegun_md : (dapBegun a s).md = s.md := by obtain ⟨_, _, _, h⟩ := dapBegun_only a s; rw [h]
@[simp] theorem dapBegun_exe : (dapBegun a s).exe = s.exe := by obtain ⟨_, _, _, h⟩ := dapBegun_only a s; rw [h]
@[simp] theorem dapBegun_clk : (dapBegun a s).clk = s.clk := by obtain ⟨_, _, _, h⟩ := dapBegun_only a s; rw [h]
@[simp] theorem dapBegun_felt : (dapBegun a s).felt = s.felt := by obtain ⟨_, _, _, h⟩ := dapBegun_only a s; rw [h]
@[simp] theorem dapBegun_img : (dapBegun a s).img = s.img := by obtain ⟨_, _, _, h⟩ := dapBegun_only a s; rw [h]
@[simp] theorem dapBegun_wdOf (c : Bool) : wdOf c (dapBegun a s) = wdOf c s := by
  obtain ⟨_, _, _, h⟩ := dapBegun_only a s; rw [h]; rfl
@[simp] theorem dapBegun_wdRuns (c : Bool) : wdRuns c (dapBegun a s) = wdRuns c s := by
  obtain ⟨_, _, _, h⟩ := dapBegun_only a s; rw [h]; rfl
@[simp] theorem dapBegun_wdExpired (c : Bool) (e : Nat) : wdExpired c e (dapBegun a s) = wdExpired c e s := by
  obtain ⟨_, _, _, h⟩ := dapBegun_only a s; rw [h]; rfl
@[simp] theorem dapBegun_halts : (dapBegun a s).dbg.halted = s.dbg.halted := by
  obtain ⟨_, _, _, h⟩ := dapBegun_only a s; rw [h]
@[simp] theorem dapBegun_halted (k : Nat) : pipeHalted (dapBegun a s) k = pipeHalted s k := by
  obtain ⟨_, _, _, h⟩ := dapBegun_only a s; rw [h]; rfl
@[simp] theorem dapBegun_pending : (dapBegun a s).dbg.pending = s.dbg.pending := by
  obtain ⟨_, _, _, h⟩ := dapBegun_only a s; rw [h]
@[simp] theorem dapBegun_s0Only : (dapBegun a s).dbg.s0Only = s.dbg.s0Only := by
  obtain ⟨_, _, _, h⟩ := dapBegun_only a s; rw [h]
@[simp] theorem dapBegun_mask : (dapBegun a s).dbg.mask = s.dbg.mask := by obtain ⟨_, _, _, h⟩ := dapBegun_only a s; rw [h]
@[simp] theorem dapBegun_bps : (dapBegun a s).dbg.bps = s.dbg.bps := by obtain ⟨_, _, _, h⟩ := dapBegun_only a s; rw [h]
@[simp] theorem dapBegun_wps : (dapBegun a s).dbg.wps = s.dbg.wps := by obtain ⟨_, _, _, h⟩ := dapBegun_only a s; rw [h]
@[simp] theorem dapBegun_running : running (dapBegun a s) = running s := by rw [running, dapBegun_exe, running]
@[simp] theorem dapBegun_paired : paired (dapBegun a s) = paired s := paired_congr (dapBegun_img a s)
@[simp] theorem dapBegun_partnerReady : partnerReady (dapBegun a s) = partnerReady s := by
  rw [partnerReady, dapBegun_paired, dapBegun_felt, partnerReady]

theorem dapBegun_kept : ResetKept s (dapBegun a s) := by
  obtain ⟨_, _, _, h⟩ := dapBegun_only a s
  rw [h]
  exact ⟨rfl, id⟩

end

section
variable {s : State} {a : Word} {op : State → State} (on : tapOn s = true) (off : s.dbg.extest = false)
include on off

theorem dapCommand_locked (locked : dbgLocked s = true) : dapCommand a op s =
    { scanIsland {} { s with dbg.tapIr := 0x11 } with dbg.status := 4, dbg.arg := a.toNat, dbg.result := 0 } := by
  refine (if_neg (by simp [on])).trans ?_
  rw [selectIr_plain off]
  exact if_pos ((selected_locked {} s 0x11).trans locked)

theorem dapCommand_busy (free : dbgLocked s = false) (busy : s.dbg.busy = true) : dapCommand a op s =
    { scanIsland {} { s with dbg.tapIr := 0x11 } with dbg.status := 1 } := by
  refine (if_neg (by simp [on])).trans ?_
  rw [selectIr_plain off, if_neg (by rw [selected_locked, free]; exact Bool.false_ne_true), if_pos (by simp [busy])]

theorem dapCommand_taken (free : dbgLocked s = false) (idle : s.dbg.busy = false) :
    dapCommand a op s = op (dapBegun a s) := by
  refine (if_neg (by simp [on])).trans ?_
  rw [selectIr_plain off, if_neg (by rw [selected_locked, free]; exact Bool.false_ne_true), if_neg (by simp [idle]), dapBegun]

end

/-! ## The accesses (R404, R471, R472) -/

section
variable {a data : Word} {e v : Nat} {u : State}

theorem dapPeek_word (view : inFbView a.toNat = false) (ream : inReam a.toNat = false) (draws : drawsFree a.toNat = false)
    (word : peekWord e a.toNat u = some v) : dapPeek a e u = { u with
      bus.status := 0, bus.ans := BitVec.ofNat 32 v, dbg.busy := false, dbg.status := 0, dbg.result := BitVec.ofNat 32 v } := by
  rw [dapPeek, readWords, if_neg (by simp [view]), if_neg (by simp [ream]), word]
  dsimp only
  rw [if_neg (by simp [draws])]
  rfl

theorem dapReadEffect_word (effect : bitOf data.toNat 0 = true) (view : inFbView a.toNat = false)
    (ream : inReam a.toNat = false) (draws : drawsFree a.toNat = false) (word : peekWord e a.toNat u = some v) :
    dapReadEffect a data e u = { readEffect a.toNat u with
      bus.status := 0, bus.ans := BitVec.ofNat 32 v, dbg.busy := false, dbg.status := 0, dbg.result := BitVec.ofNat 32 v } := by
  rw [dapReadEffect, if_neg (by simp [effect, ream]), readOnce, if_neg (by simp [view, ream]), word]
  dsimp only
  rw [if_neg (by simp [draws])]
  rfl

theorem dapPoke_shadow (aligned : a.toNat % 4 = 0) (slot : inSlot a.toNat = some (1 - u.exe.runSlot))
    (two : u.exe.runSlot ≤ 1) : dapPoke a data e u = { shadowWrite (a.toNat % 0x100000 / 4) data u.dbg.mask u with
      bus.status := 0, bus.ans := 0, dbg.busy := false, dbg.status := 0, dbg.result := 0 } := by
  rw [dapPoke, writeWord_slot slot aligned, if_neg (by omega)]
  rfl

end

/-! ## Halts (R473 to R478) -/

section
variable {a : Word} {u : State}

theorem requestHalt_pending (pipes : Nat) (s0 : Bool) {k : Nat} (pipe : k < 4) : bitOf (requestHalt pipes s0 u).dbg.pending k =
    (bitOf u.dbg.pending k || (bitOf pipes k && (!pipeHalted u k || (k == 0 && u.dbg.s0Only && !s0)))) :=
  bitOf_maskOf (fun k => bitOf u.dbg.pending k || (bitOf pipes k && (!pipeHalted u k || (k == 0 && u.dbg.s0Only && !s0)))) pipe

theorem dapHalt_requests (active : u.md.mode = .active) (stays : u.felt.rel = none) (alone : paired u = false) :
    dapHalt a u = dapDone 0 (requestHalt (a.toNat % 16) (bitOf a.toNat 4) u) := by
  have alone' : paired (dapDone 0 (requestHalt (a.toNat % 16) (bitOf a.toNat 4) u)) = false := alone
  unfold dapHalt
  extract_lets _ t
  rw [if_neg (by simp [active, stays]), if_neg (by simp [alone]), if_neg (by rw [alone']; decide)]

/-- Unforced, a halt of a paired controller with a ready partner is refused and asks for the hand-over. -/
theorem dapHalt_handsOver (active : u.md.mode = .active) (stays : u.felt.rel = none) (pair : paired u = true)
    (unforced : bitOf a.toNat 8 = false) (ready : partnerReady u = true) :
    dapHalt a u = dapDone 2 { u with md.handOver := true, dbg.arg := setBit a.toNat 9 } := by
  have held : (paired u && !bitOf a.toNat 8) = true := by rw [pair, unforced]; rfl
  exact (if_neg (by simp [active, stays])).trans ((if_pos held).trans (if_pos ready))

/-- A dispatch starts a task run at most: the pipes' halts, the clock and the next cycle are as before. -/
def OnlyDispatched (s t : State) : Prop := ∃ pend tasks trial, t =
  { s with exe.pend := pend, exe.tasks := tasks, trial := trial }

theorem OnlyDispatched.refl (s : State) : OnlyDispatched s s := ⟨s.exe.pend, s.exe.tasks, s.trial, rfl⟩

theorem startTask_only (g : Trigger) (s : State) : OnlyDispatched s (startTask g s) := by
  by_cases empty : (taskRange (running s) g.task).2 = 0
  · exact ⟨_, s.exe.tasks, s.trial, startTask_empty empty⟩
  · obtain ⟨r, trial, _, starts⟩ := startTask_starts empty
    exact ⟨_, _, trial, starts⟩

theorem dispatchTop_only (s : State) : OnlyDispatched s (dispatchTop s) := by
  unfold dispatchTop
  split
  · exact .refl s
  · split
    next g _ =>
      split
      · exact startTask_only g s
      · exact .refl s
    next => exact .refl s

/-- The pipes that a RESUME lets run again. -/
def resumed (a : Word) (s : State) : Nat := maskOf 4 fun k => bitOf a.toNat k && pipeHalted s k

/-- The port as a RESUME leaves it before the dispatch. -/
def resumedDbg (a : Word) (s : State) : Dbg :=
  { s.dbg with
    halted := maskOf 4 fun k => pipeHalted s k && !bitOf (resumed a s) k,
    s0Only := s.dbg.s0Only && !bitOf (resumed a s) 0,
    passBp := maskOf 4 fun k => bitOf s.dbg.passBp k || bitOf (resumed a s) k }

/-- The unit as a RESUME leaves it before the dispatch: the next cycle is full. -/
def resumedState (a : Word) (s : State) : State :=
  { s with dbg := resumedDbg a s, clk.lateRun := 0, exe.nextFull := if s.exe.nextFull = 0 then 3 else s.exe.nextFull }

theorem bitOf_resumed {k : Nat} (h : k < 4) : bitOf (resumed a u) k = (bitOf a.toNat k && pipeHalted u k) :=
  bitOf_maskOf (fun k => bitOf a.toNat k && pipeHalted u k) h

theorem bitOf_resumedDbg {k : Nat} (h : k < 4) :
    bitOf (resumedDbg a u).halted k = (pipeHalted u k && !bitOf a.toNat k) := by
  rw [resumedDbg, bitOf_maskOf (fun k => pipeHalted u k && !bitOf (resumed a u) k) h, bitOf_resumed h]
  cases pipeHalted u k <;> simp

/-- A RESUME of a halted pipe: the cycle that begins after it is full (R477). -/
theorem dapResume_runs (some : resumed a u ≠ 0) : ∃ ev pend tasks trial, dapResume a u = { u with
    evt := ev, trial := trial, clk.lateRun := 0,
    exe := { u.exe with nextFull := if u.exe.nextFull = 0 then 3 else u.exe.nextFull, pend := pend, tasks := tasks },
    dbg := { resumedDbg a u with busy := false, status := 0, result := 0 } } := by
  have runs : dapResume a u = dapDone 0 (dispatchTop (raise 0x2203 (256 + resumed a u) (resumedState a u))) := if_neg some
  obtain ⟨ev, raised⟩ := raise_noted (code := 0x2203) (256 + resumed a u) (resumedState a u) (by decide)
  obtain ⟨pend, tasks, trial, dispatched⟩ := dispatchTop_only (raise 0x2203 (256 + resumed a u) (resumedState a u))
  rw [runs, dispatched, raised]
  exact ⟨ev, pend, tasks, trial, rfl⟩

/-- A STEP of a halted pipe. -/
theorem dapStep_runs (halted : pipeHalted u (a.toNat % 4) = true) : dapStep a u = dapDone 0 { u with
    dbg.halted := clrBit u.dbg.halted (a.toNat % 4), dbg.passBp := setBit u.dbg.passBp (a.toNat % 4),
    dbg.stepping := tset 0 u.dbg.stepping (a.toNat % 4) (1 + standsAt (a.toNat % 4) u) } :=
  if_neg (by simp [halted])

theorem dapStep_running (going : pipeHalted u (a.toNat % 4) = false) : dapStep a u = dapDone 2 u := if_pos (by simp [going])

end

/-! ## Breakpoints, watchpoints and the watchdogs' service (R479, R480, R443) -/

section
variable {a data : Word} {e : Nat} {u : State}

/-- The breakpoint that a BP_SET sets: on the armed word, or none (R479). -/
def bpOf (a data : Word) (p : Prog) : Bp :=
  if bitOf a.toNat 8 then
    { en := true, word := armedAt p (data.toNat % 2 ^ 18), moved := armedAt p (data.toNat % 2 ^ 18) != data.toNat % 2 ^ 18 }
  else {}

theorem dapBpSet_sets : dapBpSet a data u = dapDone 0
    { u with dbg.bps := tset {} u.dbg.bps (a.toNat % 16) (bpOf a data (running u)) } := by
  unfold dapBpSet bpOf
  cases bitOf a.toNat 8 <;> rfl

theorem dapWpSet_sets (access : bitOf a.toNat 8 = false ∨ a.toNat / 512 % 4 ≠ 0) (region : data.toNat / 2 ^ 28 ≤ 3) :
    dapWpSet a data u = dapDone 0 { u with dbg.wps := tmod {} u.dbg.wps (a.toNat % 8) fun x => { x with
      en := bitOf a.toNat 8, access := a.toNat / 512 % 4, compare := bitOf a.toNat 11, region := data.toNat / 2 ^ 28,
      index := data.toNat % 65536 } } := by
  have sound : ¬ (bitOf a.toNat 8 && a.toNat / 512 % 4 == 0 || decide (3 < data.toNat / 2 ^ 28)) = true := by
    have inside : decide (3 < data.toNat / 2 ^ 28) = false := decide_eq_false (by omega)
    rw [inside]
    rcases access with off | reads
    · simp [off]
    · simp [reads]
  exact if_neg sound

theorem dapWpSet_region (beyond : 3 < data.toNat / 2 ^ 28) : dapWpSet a data u = dapDone 5 u :=
  if_pos (by rw [decide_eq_true beyond, Bool.or_true])

theorem dapWdSvc_services (known : a.toNat ≤ 1) (runs : wdRuns (a == 1) u = true)
    (counts : wdExpired (a == 1) (u.clk.boundaryE + e) u = false) (none : (wdOf (a == 1) u).held = []) :
    dapWdSvc a e u = dapDone 0 (modWd (a == 1) (fun w => { w with since := u.clk.boundaryE + e }) u) := by
  have served : wdService (a == 1) (u.clk.boundaryE + e) u =
      modWd (a == 1) (fun w => { w with since := u.clk.boundaryE + e }) u :=
    (wdService_none counts none).trans
      (modWd_eq (c := a == 1) (s := u) (fun w => { w with since := u.clk.boundaryE + e })).symm
  exact (if_neg (Nat.not_lt.mpr known)).trans (congrArg (dapDone 0) ((if_pos runs).trans served))

theorem dapWdSvc_unknown (beyond : 1 < a.toNat) : dapWdSvc a e u = dapDone 5 u := if_pos beyond

end

/-! ## DBG_RESET (R407, R482) -/

section
variable {a : Word} {u : State}

theorem abandonWrite_kept (u : State) : ResetKept u (abandonWrite u) := by
  cases ongoing : u.hmp.write with
  | none => rw [abandonWrite_none ongoing]; exact .refl u
  | some w =>
    obtain ⟨ev, ends⟩ := abandonWrite_some ongoing
    rw [ends]
    exact ⟨rfl, id⟩

theorem abandonWrite_testHold (u : State) : (abandonWrite u).md.testHold = u.md.testHold := by
  cases ongoing : u.hmp.write with
  | none => rw [abandonWrite_none ongoing]
  | some w =>
    obtain ⟨ev, ends⟩ := abandonWrite_some ongoing
    rw [ends]

theorem dapReset_threads (thr : Thr) (other : u.md.mode ≠ .active) : dapReset a thr u =
    { dapDone 0 (resetThread false 32 thr (abandonWrite u)) with dbg.arg := a.toNat } := by
  have taken : resetRequest 32 (bitOf a.toNat 8) thr u = (true, resetThread false 32 thr (abandonWrite u)) :=
    (if_neg fun h => other h.1).trans (if_neg fun h => other h.1)
  rw [dapReset, taken]
  rfl

end

/-! ## The commands as the port takes them (R470) -/

section
variable {s : State} {a data : Word} {e v : Nat} {thr : Thr}
variable (on : tapOn s = true) (off : s.dbg.extest = false) (free : dbgLocked s = false) (idle : s.dbg.busy = false)
include on off free idle

theorem dap_runs (a : Word) (op : State → State) : ok (dapCommand a op s) = .next (settle (op (dapBegun a s))) :=
  congrArg ok (dapCommand_taken on off free idle)

theorem halt_requests (active : s.md.mode = .active) (stays : s.felt.rel = none) (alone : paired s = false) :
    ∃ t, exec (.halt a) s = .next t ∧ t.dbg.status = 0 ∧ t.dbg.busy = false ∧ t.dbg.halted = s.dbg.halted ∧
      ∀ k, k < 4 → bitOf t.dbg.pending k = (bitOf s.dbg.pending k || (bitOf a.toNat k &&
        (!pipeHalted s k || (k == 0 && s.dbg.s0Only && !bitOf a.toNat 4)))) := by
  refine ⟨_, (dap_runs on off free idle a (dapHalt a)).trans (by
    rw [dapHalt_requests (by simpa using active) (by simpa using stays) (by simpa using alone)]), ?_⟩
  rw [settle_dbg]
  refine ⟨rfl, rfl, dapBegun_halts a s, fun k pipe => (requestHalt_pending _ _ pipe).trans ?_⟩
  have low : bitOf (a.toNat % 16) k = bitOf a.toNat k := by
    rw [bitOf_eq_testBit, bitOf_eq_testBit, Nat.testBit_mod_two_pow a.toNat 4 k, decide_eq_true pipe, Bool.true_and]
  rw [low, dapBegun_pending, dapBegun_halted, dapBegun_s0Only]

theorem halt_handsOver (active : s.md.mode = .active) (stays : s.felt.rel = none) (pair : paired s = true)
    (unforced : bitOf a.toNat 8 = false) (ready : partnerReady s = true) : ∃ t, exec (.halt a) s = .next t ∧
      t.dbg.status = 2 ∧ t.md.handOver = true ∧ bitOf t.dbg.arg 9 = true ∧ t.dbg.pending = s.dbg.pending := by
  refine ⟨_, (dap_runs on off free idle a (dapHalt a)).trans (by
    rw [dapHalt_handsOver (by simpa using active) (by simpa using stays) (by simpa using pair) unforced
      (by simpa using ready)]), ?_⟩
  rw [settle_dbg, settle_md]
  obtain ⟨_, _, _, begun⟩ := dapBegun_only a s
  rw [begun]
  exact ⟨rfl, rfl, bitOf_setBit_same _ _, rfl⟩

theorem resume_runs (some : ∃ k, k < 4 ∧ bitOf a.toNat k = true ∧ pipeHalted s k = true) :
    ∃ t, exec (.resume a) s = .next t ∧ t.dbg.status = 0 ∧ (s.exe.nextFull = 0 → t.exe.nextFull = 3) ∧
      t.clk.lateRun = 0 ∧ ∀ k, k < 4 → bitOf t.dbg.halted k = (pipeHalted s k && !bitOf a.toNat k) := by
  obtain ⟨k, pipe, asked, halted⟩ := some
  have runs : resumed a (dapBegun a s) ≠ 0 := by
    intro none
    have bit := bitOf_resumed (a := a) (u := dapBegun a s) pipe
    rw [none, asked, dapBegun_halted, halted, bitOf_zero] at bit
    exact absurd bit (by decide)
  obtain ⟨ev, pend, tasks, trial, resumes⟩ := dapResume_runs runs
  refine ⟨_, (dap_runs on off free idle a (dapResume a)).trans (by rw [resumes]), ?_⟩
  rw [settle_dbg, settle_exe, settle_clk]
  refine ⟨rfl, fun none => if_pos (by rw [dapBegun_exe]; exact none), rfl, fun j jth => ?_⟩
  exact (bitOf_resumedDbg jth).trans (by rw [dapBegun_halted])

theorem step_runs (halted : pipeHalted s (a.toNat % 4) = true) : ∃ t, exec (.step a) s = .next t ∧ t.dbg.status = 0 ∧
    (∀ k, bitOf t.dbg.halted k = (bitOf s.dbg.halted k && k != a.toNat % 4)) ∧
    tget 0 t.dbg.stepping (a.toNat % 4) = 1 + standsAt (a.toNat % 4) s ∧ t.exe = s.exe := by
  refine ⟨_, (dap_runs on off free idle a (dapStep a)).trans (by
    rw [dapStep_runs (by simpa using halted)]), ?_⟩
  rw [settle_dbg, settle_exe]
  obtain ⟨_, _, _, begun⟩ := dapBegun_only a s
  rw [begun]
  refine ⟨rfl, fun k => (bitOf_clrBit _ _ _).trans ?_, tget_tset_same _ _ _ _, rfl⟩
  rw [bne, beq_eq_decide]

theorem dbgReset_threads (other : s.md.mode ≠ .active) (runs : s.md.testHold = false) :
    ∃ t, exec (.dbgReset a thr) s = .next t ∧
    t.md.rstCause = s.md.rstCause ||| 32 ∧ t.clk.tick = 0 ∧ t.ret.bootCnt = s.ret.bootCnt + 1 ∧ t.isl = s.isl ∧
    t.dbg.status = 0 := by
  refine ⟨_, (dap_runs on off free idle a (dapReset a thr)).trans (by
    rw [dapReset_threads thr (by simpa using other)]), ?_⟩
  have held : (abandonWrite (dapBegun a s)).md.testHold = false := by
    rw [abandonWrite_testHold, dapBegun_md, runs]
  have before := (dapBegun_kept a s).trans (abandonWrite_kept _)
  generalize abandonWrite (dapBegun a s) = u at held before
  have kept := resetThread_kept false 32 thr u (by rw [held]; rfl)
  generalize resetThread false 32 thr u = r at kept
  obtain ⟨cause, tick, _, _, _, _, boots, island, _⟩ := resetCore_keeps
    ((kept.trans (u := { dapDone 0 r with dbg.arg := a.toNat }) ⟨rfl, id⟩).trans (settle_kept _))
  have view := before.view
  refine ⟨cause.trans ?_, tick, boots.trans ?_, island.trans (congrArg ResetView.isl view), by rw [settle_dbg]; rfl⟩
  · rw [show u.md.rstCause = s.md.rstCause from congrArg ResetView.rstCause view]
  · rw [show u.ret.bootCnt = s.ret.bootCnt from congrArg ResetView.bootCnt view]

end

/-! ## A halt's effect (R473) -/

section
variable {k : Fin 4} {s : State}

theorem haltPipe_pending (k cause i : Nat) (s : State) : bitOf (haltPipe k cause i s).dbg.pending k = false := by
  rw [haltPipe, raise_dbg]
  simp

theorem effectCx (first : k.val ≠ 0 ∨ s.exe.tasks = []) :
    (if k.val = 0 ∧ s.exe.tasks ≠ [] then Cx.task else .strand k.val) = .strand k.val :=
  if_neg fun ⟨zero, tasks⟩ => first.elim (fun h => h zero) fun h => tasks h

theorem effectHeld (first : k.val ≠ 0 ∨ s.exe.tasks = []) : (k.val == 0 && s.dbg.pendS0 && s.exe.tasks != []) = false := by
  rcases first with other | idle
  · simp [other]
  · simp [idle]

theorem exec_haltEffect (runs : engineRuns s = true) (pending : bitOf s.dbg.pending k = true) (sampled : s.exe.sampled = true)
    (first : k.val ≠ 0 ∨ s.exe.tasks = []) : exec (.haltEffect k) s =
      .next (settle (if (strand k s).run.regs.lock = true then s else haltPipe k.val 0 0 s)) := by
  refine (show exec (.haltEffect k) s = ok (if (engineRuns s && bitOf s.dbg.pending k && s.exe.sampled
    && !(runOf (if k.val = 0 ∧ s.exe.tasks ≠ [] then Cx.task else .strand k.val) s).regs.lock
    && !(k.val == 0 && s.dbg.pendS0 && s.exe.tasks != [])) = true then haltPipe k.val 0 0 s else s) from rfl).trans ?_
  rw [effectCx first, effectHeld first, runs, pending, sampled]
  change ok (if (true && !(strand k s).run.regs.lock && true) = true then _ else _) = _
  cases (strand k s).run.regs.lock <;> rfl

theorem haltEffect_halts (runs : engineRuns s = true) (pending : bitOf s.dbg.pending k = true) (sampled : s.exe.sampled = true)
    (first : k.val ≠ 0 ∨ s.exe.tasks = []) (unlocked : (strand k s).run.regs.lock = false) :
    ∃ t, exec (.haltEffect k) s = .next t ∧ bitOf t.dbg.halted k = true ∧
      bitOf t.dbg.pending k = false ∧ t.dbg.lastPipe = k.val ∧ t.dbg.lastCause = 0 ∧ t.exe = s.exe := by
  refine ⟨_, (exec_haltEffect runs pending sampled first).trans (by rw [unlocked, if_neg Bool.false_ne_true]), ?_⟩
  obtain ⟨halted, pipe, cause, _⟩ := haltPipe_dbg k.val 0 0 s
  rw [settle_dbg, settle_exe, haltPipe_exe]
  exact ⟨halted, haltPipe_pending _ _ _ s, pipe, cause, rfl⟩

theorem haltEffect_waits (runs : engineRuns s = true) (pending : bitOf s.dbg.pending k = true) (sampled : s.exe.sampled = true)
    (first : k.val ≠ 0 ∨ s.exe.tasks = []) (locked : (strand k s).run.regs.lock = true) :
    exec (.haltEffect k) s = .next (settle s) := by
  rw [exec_haltEffect runs pending sampled first, if_pos locked]

end

/-- DBGACC issues the command that its code names. -/
theorem dbgacc_issues {a data : Word} {e : Nat} {thr : Thr} {s : State} (cmd : Byte) (c : Instr)
    (named : (cmd, c) ∈ [((1 : Byte), Instr.dapPeek a e), (2, .dapReadEffect a data e), (4, .dapPoke a data e), (0x10, .halt a),
      (0x11, .resume a), (0x12, .step a), (0x20, .bpSet a data), (0x21, .wpSet a data), (0x22, .wpValue a data),
      (0x30, .wdSvc a e), (0x31, .dbgReset a thr)]) :
    ∃ t, exec (.dbgacc cmd a data e thr) s = .next t ∧ exec c s = .next t := by
  simp only [List.mem_cons, Prod.mk.injEq, List.not_mem_nil, or_false] at named
  rcases named with ⟨rfl, rfl⟩ | ⟨rfl, rfl⟩ | ⟨rfl, rfl⟩ | ⟨rfl, rfl⟩ | ⟨rfl, rfl⟩ | ⟨rfl, rfl⟩ | ⟨rfl, rfl⟩ | ⟨rfl, rfl⟩ |
    ⟨rfl, rfl⟩ | ⟨rfl, rfl⟩ | ⟨rfl, rfl⟩ <;> exact ⟨_, rfl, rfl⟩

/-- Settles O57: the TAP's instructions, authentication, a port that takes no command, each command where it takes one, and
the halt's effect. -/
theorem debugPort : Obligations.DebugPort := by
  unfold Obligations.DebugPort
  intro s on off
  refine ⟨fun isl => ?_, idcode_shows on off, idcode_island on off, dbgauth_answers on off, fun cmd arg data e thr => ?_,
    fun free idle a data e thr => ?_,
    fun k runs pending sampled first => ⟨haltEffect_halts runs pending sampled first, haltEffect_waits runs pending sampled first⟩⟩
  · intro at'
    refine ⟨fun cells thr free => ⟨extest_hold on off cells thr free, extest_refused on off cells thr free⟩,
      samplePreload_plain on off, fun cells runs => ?_,
      fun code h0 h1 h2 h16 h17 => exec_bypass_other on off (unlisted_of_ne h0 h1 h2 h16 h17),
      bypass_scans on off, bypass_alone on off⟩
    exact samplePreload_leaves (s := { s with dbg.extest := true }) on rfl runs cells
  · exact ⟨fun locked => congrArg ok (dapCommand_locked on off locked),
      fun free busy => congrArg ok (dapCommand_busy on off free busy)⟩
  intro u word armed bp ends
  have begins (arg : Word) (op : State → State) {t : State} (h : op (dapBegun arg s) = t) :
      ok (dapCommand arg op s) = .next (settle t) := by rw [dap_runs on off free idle, h]
  refine ⟨dbgacc_issues, begins a _ rfl, fun v view ream draws read => ⟨begins a _ (dapPeek_word view ream draws read),
      fun effect => begins a _ (dapReadEffect_word effect view ream draws read)⟩, begins 0 (dapSetMask data) rfl,
    fun aligned slot two => ?_, halt_requests on off free idle, halt_handsOver on off free idle, resume_runs on off free idle,
    step_runs on off free idle, fun going => begins a _ (dapStep_running ((dapBegun_halted a s _).trans going)), ?_,
    fun access region => ?_, fun beyond => begins a _ (dapWpSet_region beyond), ?_, fun known runs counts none => ?_,
    fun beyond => begins a _ (dapWdSvc_unknown beyond), dbgReset_threads on off free idle⟩
  · have pokes := dapPoke_shadow (a := a) (data := data) (e := e) (u := dapBegun a s) aligned (by simpa using slot)
      (by simpa using two)
    exact begins a _ (by rw [pokes, dapBegun_mask])
  · have sets := dapBpSet_sets (a := a) (data := data) (u := dapBegun a s)
    exact begins a _ (by rw [sets, dapBegun_running, dapBegun_bps]; rfl)
  · have sets := dapWpSet_sets (a := a) (data := data) (u := dapBegun a s) access region
    exact begins a _ (by rw [sets, dapBegun_wps]; rfl)
  · exact begins a (dapWpValue a data) (by rw [dapWpValue, dapBegun_wps]; rfl)
  · have serves := dapWdSvc_services (a := a) (e := e) (u := dapBegun a s) known (by simpa using runs) (by simpa using counts)
      (by simpa using none)
    exact begins a _ (by rw [serves, dapBegun_clk]; rfl)

end Sys2Proof.Machine
end

section
/-! HMP sessions and the ops that read and write (R396 to R405, R414, R418): how a datagram is judged, what a session's opening
and its end leave, each op's answer, and the statement O55. -/

namespace Sys2Proof.Machine

/-! ## A session opened or closed (R399, R401) -/

section
variable {s : State}

/-- Bytes drawn free leave nothing but the draw's count. -/
theorem freeBytes_only (n : Nat) (s : State) : ∃ f, (freeBytes n s).2 = { s with free := f } := by
  induction n generalizing s with
  | zero => exact ⟨s.free, rfl⟩
  | succ n ih =>
    obtain ⟨f, drawn⟩ := ih { s with free := s.free + 1 }
    exact ⟨f, drawn⟩

/-- The session that a HELLO opens is the last, new, and under the key that the HELLO names. -/
theorem openHSess_appends (client : List Byte) (k : KeyRec) (s : State) :
    ∃ x, (openHSess client k s).hmp.sess = s.hmp.sess ++ [x] ∧
    x.keyId = k.id ∧ x.inst = k.inst ∧ x.top = 0 ∧ x.kept = [] ∧ x.idle = s.clk.tick ∧
    (openHSess client k s).hmp.helloSec = s.hmp.helloSec := by
  have noted (code arg : Nat) (t : State) : (raise code arg t).hmp = t.hmp := raise_hmp code arg t
  obtain ⟨f, drawn⟩ := freeBytes_only 16 { s with free := s.free + 1 }
  unfold openHSess
  simp only [drawNat, drawBytes]
  rw [noted]
  generalize freeBytes 16 { s with free := s.free + 1 } = bytes at drawn ⊢
  obtain ⟨nonce, t⟩ := bytes
  dsimp only at drawn ⊢
  subst drawn
  exact ⟨_, rfl, rfl, rfl, rfl, rfl, rfl, rfl⟩

/-- A session that owns no write closes alone: the server's last answer stands (R401). -/
theorem closeHSess_idle {num : Nat} (foreign : ∀ w, s.hmp.write = some w → w.owner ≠ num) :
    (closeHSess num s).hmp.answer = s.hmp.answer ∧
      ∀ x, hSess s num = some x → (closeHSess num s).hmp.sess = s.hmp.sess.filter fun y => y.num != num := by
  unfold closeHSess
  split
  next gone => exact ⟨rfl, fun x opens => by simp [opens] at gone⟩
  next =>
    extract_lets owns mine hmp closed ended
    have none : owns = false := by
      simp only [owns]
      cases ongoing : s.hmp.write with
      | none => rfl
      | some w => simpa using foreign w ongoing
    have alone : ended = closed := if_neg (by rw [none]; exact Bool.false_ne_true)
    rw [alone, raise_hmp]
    exact ⟨rfl, fun _ _ => rfl⟩

theorem closeHSess_gone (num : Nat) (s : State) : hSess (closeHSess num s) num = none := by
  rw [← Option.isNone_iff_eq_none, hSess_isNone]
  intro y left
  obtain ⟨z, _, same, _, other⟩ := closeHSess_sess num s y left
  exact same ▸ other

theorem hSess_settle (num : Nat) (s : State) : hSess (settle s) num = hSess s num := by
  rw [hSess, settle_hmp_sess, hSess]

end

/-! ## HELLO (R398, R399) -/

section
variable {h : HHead} {b : HelloBody} {tail : List Byte} {s : State}

theorem hello_bad (serves : servesHmp h false s = true) (kind : h.kind = 1)
    (bad : hdrGood h false true (beBytes 16 b.client.toNat ++ beBytes 4 b.keyId.toNat) tail = false) :
    exec (.hello h b tail) s = .next (settle (badHeader s)) :=
  congrArg ok ((if_neg (by simp [serves, kind])).trans (if_pos (by simp [bad])))

theorem hello_unserved (none : servesHmp h false s = false) : exec (.hello h b tail) s = .next (settle s) :=
  congrArg ok (if_pos (.inl (by simp [none])))

/-- What a good HELLO within the limit does, by the key it names. -/
def helloOf (b : HelloBody) (s : State) : State :=
  match s.img.keys.find? fun k => k.id == b.keyId.toNat with
  | none => plainError 9 s
  | some k =>
    if s.hmp.sess.length < cf s 0x1D 0 1 1 4 then openHSess (beBytes 16 b.client.toNat) k s
    else match idlest s with
      | some x =>
        if x.idle + hmpIdle s < s.clk.tick then openHSess (beBytes 16 b.client.toNat) k (closeHSess x.num s) else plainError 3 s
      | none => plainError 3 s

theorem exec_hello (serves : servesHmp h false s = true) (kind : h.kind = 1)
    (good : hdrGood h false true (beBytes 16 b.client.toNat ++ beBytes 4 b.keyId.toNat) tail = true)
    (within : s.hmp.helloSec < cf s 0x1D 0 7 1 8) :
    exec (.hello h b tail) s = .next (settle (helloOf b { s with hmp.helloSec := s.hmp.helloSec + 1 })) :=
  congrArg ok ((if_neg (by simp [serves, kind])).trans ((if_neg (by simp [good])).trans (if_neg (Nat.not_le.mpr within))))

theorem hello_opens {k : KeyRec} (serves : servesHmp h false s = true) (kind : h.kind = 1)
    (good : hdrGood h false true (beBytes 16 b.client.toNat ++ beBytes 4 b.keyId.toNat) tail = true)
    (within : s.hmp.helloSec < cf s 0x1D 0 7 1 8) (named : (s.img.keys.find? fun k => k.id == b.keyId.toNat) = some k)
    (room : s.hmp.sess.length < cf s 0x1D 0 1 1 4) :
    ∃ t x, exec (.hello h b tail) s = .next t ∧ t.hmp.sess = s.hmp.sess ++ [x] ∧ x.keyId = k.id ∧
      x.inst = k.inst ∧ x.top = 0 ∧ x.kept = [] ∧ x.idle = s.clk.tick ∧ t.hmp.helloSec = s.hmp.helloSec + 1 := by
  have opens : helloOf b { s with hmp.helloSec := s.hmp.helloSec + 1 } =
      openHSess (beBytes 16 b.client.toNat) k { s with hmp.helloSec := s.hmp.helloSec + 1 } := by
    unfold helloOf
    dsimp only
    rw [named]
    exact if_pos room
  obtain ⟨x, sess, key, inst, top, kept, idle, count⟩ :=
    openHSess_appends (beBytes 16 b.client.toNat) k { s with hmp.helloSec := s.hmp.helloSec + 1 }
  refine ⟨_, x, (exec_hello serves kind good within).trans (by rw [opens]), ?_⟩
  rw [settle_hmp_sess, settle_hmp_helloSec]
  exact ⟨sess, key, inst, top, kept, idle, count⟩

theorem hello_unknown (serves : servesHmp h false s = true) (kind : h.kind = 1)
    (good : hdrGood h false true (beBytes 16 b.client.toNat ++ beBytes 4 b.keyId.toNat) tail = true)
    (within : s.hmp.helloSec < cf s 0x1D 0 7 1 8) (unknown : ∀ k ∈ s.img.keys, k.id ≠ b.keyId.toNat) :
    ∃ t, exec (.hello h b tail) s = .next t ∧ t.hmp.sess = s.hmp.sess ∧ t.hmp.plain = 9 := by
  have none : (s.img.keys.find? fun k => k.id == b.keyId.toNat) = none := by
    simpa [List.find?_eq_none] using unknown
  have refused : helloOf b { s with hmp.helloSec := s.hmp.helloSec + 1 } =
      plainError 9 { s with hmp.helloSec := s.hmp.helloSec + 1 } := by
    unfold helloOf
    dsimp only
    rw [none]
  refine ⟨_, (exec_hello serves kind good within).trans (by rw [refused]), ?_⟩
  rw [settle_hmp_sess, settle_hmp_plain]
  exact ⟨rfl, rfl⟩

end

/-! ## A session that idles (R401) -/

section
variable {num : Word} {x : HSess} {s : State}

theorem exec_hmpSessionIdle (opens : hSess s num.toNat = some x) : exec (.hmpSessionIdle num) s =
    .next (settle (if x.idle + hmpIdle s < s.clk.tick then closeHSess x.num s else s)) := by
  change ok (match hSess s num.toNat with
    | some x => if x.idle + hmpIdle s < s.clk.tick then closeHSess x.num s else s
    | none => s) = _
  rw [opens]
  rfl

theorem hSess_num {n : Nat} (opens : hSess s n = some x) : x.num = n := by
  simpa using List.find?_some opens

theorem hmpSessionIdle_closes (opens : hSess s num.toNat = some x) (foreign : ∀ w, s.hmp.write = some w → w.owner ≠ x.num)
    (long : x.idle + hmpIdle s < s.clk.tick) : ∃ t, exec (.hmpSessionIdle num) s = .next t ∧
      t.hmp.sess = s.hmp.sess.filter fun y => y.num != x.num := by
  have opens' : hSess s x.num = some x := by rw [hSess_num opens]; exact opens
  refine ⟨_, (exec_hmpSessionIdle opens).trans (by rw [if_pos long]), ?_⟩
  rw [settle_hmp_sess]
  exact (closeHSess_idle foreign).2 x opens'

theorem hmpSessionIdle_waits (opens : hSess s num.toNat = some x) (short : s.clk.tick ≤ x.idle + hmpIdle s) :
    exec (.hmpSessionIdle num) s = .next (settle s) := by
  rw [exec_hmpSessionIdle opens, if_neg (Nat.not_lt.mpr short)]

end

/-! ## How a datagram is judged (R398, R400, R402, R403) -/

section
variable {r : HReq} {opn : Nat} {args : List Byte} {plainOp inRecovery : Bool} {op : Nat → Nat → State → State}
variable {x : HSess} {s : State}

theorem hmpRequest_unserved (none : servesHmp r.hd r.bulk s = false) : hmpRequest r opn args plainOp inRecovery op s = s :=
  if_pos (by simp [none])

theorem hmpRequest_bad (serves : servesHmp r.hd r.bulk s = true) (kind : r.kindOk = true)
    (bad : hdrGood r.hd r.bulk r.plain (r.body opn args) r.tail = false) :
    hmpRequest r opn args plainOp inRecovery op s = badHeader s :=
  (if_neg (by simp [serves, kind])).trans (if_pos (by simp [bad]))

/-- A plain request of an op that is not served plainly is answered by the plain error 8. -/
theorem hmpRequest_plain (serves : servesHmp r.hd r.bulk s = true) (kind : r.kindOk = true)
    (good : hdrGood r.hd r.bulk r.plain (r.body opn args) r.tail = true) (plain : r.plain = true) :
    hmpRequest r opn args false inRecovery op s = plainError 8 s :=
  (if_neg (by simp [serves, kind])).trans ((if_neg (by simp [good])).trans ((if_pos plain).trans (if_pos rfl)))

/-- A sealed request of a session, once its counter has been taken. -/
def takenRequest (r : HReq) (opn : Nat) (inRecovery : Bool) (op : Nat → Nat → State → State) (x : HSess) (s : State) :
    Option HSess → State
  | none => { s with hmp.err := satField 16 8 s.hmp.err }
  | some y =>
    match x.kept.find? fun k => k.req == r.reqId.toNat with
    | some k => sendResp x.num k (modHSess x.num (fun _ => y) s)
    | none =>
      if !r.formed then hmpAnswer x.num (opn * 2 ^ 32 + r.reqId.toNat) 1 [] (modHSess x.num (fun _ => y) s)
      else if s.boot.recovery ∧ !inRecovery then
        hmpAnswer x.num (opn * 2 ^ 32 + r.reqId.toNat) 7 [] (modHSess x.num (fun _ => y) s)
      else op x.num (opn * 2 ^ 32 + r.reqId.toNat) (modHSess x.num (fun _ => y) s)

variable (serves : servesHmp r.hd r.bulk s = true) (kind : r.kindOk = true)
  (good : hdrGood r.hd r.bulk r.plain (r.body opn args) r.tail = true) (sealed' : r.plain = false) (udp : r.bulk = false)
  (opens : hSess s r.hd.session.toNat = some x)
include serves kind good sealed' udp opens

/-- A sealed request of a session that stands, on the datagram channel: its tag and then its counter are looked at. -/
theorem hmpRequest_session : hmpRequest r opn args plainOp inRecovery op s =
    if r.sealed x (r.body opn args) = true then
      takenRequest r opn inRecovery op x s (takeSeq false r.hd.counter.toNat s.clk.tick x)
    else tagFails s := by
  have first : ¬ (!servesHmp r.hd r.bulk s || !r.kindOk) = true := by simp [serves, kind]
  unfold hmpRequest
  dsimp only
  rw [if_neg first, if_neg (by simp [good]), if_neg (by simp [sealed']), opens]
  dsimp only
  rw [if_neg (by simp [udp]), udp]
  cases r.sealed x (r.body opn args) with
  | false => rfl
  | true =>
    cases takeSeq false r.hd.counter.toNat s.clk.tick x with
    | none => rfl
    | some y =>
      unfold takenRequest
      rfl

end

section
variable {r : HReq} {opn : Nat} {inRecovery : Bool} {op : Nat → Nat → State → State} {x : HSess} {s : State}

/-- A tag that fails after the first of its second is only counted. -/
theorem tagFails_again (told : s.hmp.authSec = true) : tagFails s = { s with hmp.err := satField 24 8 s.hmp.err } := if_pos told

/-- A counter not above the highest, and the highest itself, out of the window or seen, is a replay (R400). -/
theorem takeSeq_replay {c tick : Nat} (low : c ≤ x.top) (replay : c = x.top ∨ c + 64 < x.top ∨ c ∈ x.seen) :
    takeSeq false c tick x = none := by
  have window : ¬ (c < x.top ∧ x.top ≤ c + 64 ∧ (!x.seen.contains c) = true) := by
    rintro ⟨below, near, fresh⟩
    rcases replay with same | far | seen
    · omega
    · omega
    · simp [seen] at fresh
  have none : takeCounter c x.top x.seen = none := (if_neg (Nat.not_lt.mpr low)).trans (if_neg window)
  simp [takeSeq, none]

theorem takeSeq_above {c tick : Nat} (above : x.top < c) : ∃ y, takeSeq false c tick x = some y :=
  ⟨_, congrArg (Option.map _) (if_pos above)⟩

theorem takenRequest_replay : takenRequest r opn inRecovery op x s none = { s with hmp.err := satField 16 8 s.hmp.err } := rfl

/-- A request identifier seen before is answered as before, and its op does not run again (R402). -/
theorem takenRequest_kept {k : HResp} {y : HSess} (kept : (x.kept.find? fun k => k.req == r.reqId.toNat) = some k) :
    takenRequest r opn inRecovery op x s (some y) = sendResp x.num k (modHSess x.num (fun _ => y) s) := by
  rw [takenRequest, kept]

theorem sendResp_answer (who : Nat) (k : HResp) (s : State) : (sendResp who k s).hmp.answer = some k := rfl

end

/-! ## HMP_POKE, and what it meets before it is taken (R398, R400, R402, R403) -/

section
variable {r : HReq} {a mask v : Word} {e : Nat} {x : HSess} {s : State}

/-- The body of a poke. -/
def pokeBody (r : HReq) (a mask v : Word) : List Byte :=
  r.body 0x0012 (beBytes 4 a.toNat ++ beBytes 4 mask.toNat ++ beBytes 4 v.toNat)

/-- What a poke does once it is taken. -/
def pokeOp (a mask v : Word) (e who req : Nat) (s : State) : State :=
  writeWord { addr := a.toNat, mask := mask, val := v, who := 2, sess := who, req := req } e s

theorem exec_hmpPoke (r : HReq) (a mask v : Word) (e : Nat) (s : State) : exec (.hmpPoke r a mask v e) s =
    .next (settle (hmpRequest r 0x0012 (beBytes 4 a.toNat ++ beBytes 4 mask.toNat ++ beBytes 4 v.toNat) false false
      (pokeOp a mask v e) s)) := rfl

theorem hmpPoke_unserved (none : servesHmp r.hd r.bulk s = false) : exec (.hmpPoke r a mask v e) s = .next (settle s) := by
  rw [exec_hmpPoke, hmpRequest_unserved none]

variable (serves : servesHmp r.hd r.bulk s = true) (kind : r.kindOk = true)
include serves kind

theorem hmpPoke_bad (bad : hdrGood r.hd r.bulk r.plain (pokeBody r a mask v) r.tail = false) :
    exec (.hmpPoke r a mask v e) s = .next (settle (badHeader s)) := by
  rw [exec_hmpPoke, hmpRequest_bad serves kind bad]

variable (good : hdrGood r.hd r.bulk r.plain (pokeBody r a mask v) r.tail = true)
include good

theorem hmpPoke_plain (plain : r.plain = true) : exec (.hmpPoke r a mask v e) s = .next (settle (plainError 8 s)) := by
  rw [exec_hmpPoke, hmpRequest_plain serves kind good plain]

variable (secure : r.plain = false) (udp : r.bulk = false) (opens : hSess s r.hd.session.toNat = some x)
include secure udp opens

theorem hmpPoke_unsealed (tag : r.sealed x (pokeBody r a mask v) = false) (told : s.hmp.authSec = true) :
    exec (.hmpPoke r a mask v e) s = .next (settle { s with hmp.err := satField 24 8 s.hmp.err }) := by
  have judged := hmpRequest_session (plainOp := false) (inRecovery := false) (op := pokeOp a mask v e) serves kind good secure
    udp opens
  rw [exec_hmpPoke, judged, if_neg (by rw [show r.sealed x (r.body _ _) = false from tag]; exact Bool.false_ne_true),
    tagFails_again told]

/-- A poke whose tag holds is taken by its counter. -/
theorem hmpPoke_sealed (tag : r.sealed x (pokeBody r a mask v) = true) : exec (.hmpPoke r a mask v e) s =
    .next (settle (takenRequest r 0x0012 false (pokeOp a mask v e) x s
      (takeSeq false r.hd.counter.toNat s.clk.tick x))) := by
  have judged := hmpRequest_session (plainOp := false) (inRecovery := false) (op := pokeOp a mask v e) serves kind good secure
    udp opens
  exact congrArg (fun t => Host.Outcome.next (settle t)) (judged.trans (if_pos tag))

theorem hmpPoke_replay (tag : r.sealed x (pokeBody r a mask v) = true) (low : r.hd.counter.toNat ≤ x.top)
    (replay : r.hd.counter.toNat = x.top ∨ r.hd.counter.toNat + 64 < x.top ∨ r.hd.counter.toNat ∈ x.seen) :
    exec (.hmpPoke r a mask v e) s = .next (settle { s with hmp.err := satField 16 8 s.hmp.err }) := by
  rw [hmpPoke_sealed serves kind good secure udp opens tag, takeSeq_replay low replay, takenRequest_replay]

theorem hmpPoke_kept {k : HResp} (tag : r.sealed x (pokeBody r a mask v) = true) (above : x.top < r.hd.counter.toNat)
    (kept : (x.kept.find? fun k => k.req == r.reqId.toNat) = some k) :
    ∃ t, exec (.hmpPoke r a mask v e) s = .next t ∧ t.hmp.answer = some k ∧ t.bus = s.bus ∧ t.exe = s.exe ∧ t.md = s.md := by
  obtain ⟨y, taken⟩ := takeSeq_above (tick := s.clk.tick) above
  refine ⟨_, (hmpPoke_sealed serves kind good secure udp opens tag).trans (by rw [taken, takenRequest_kept kept]), ?_⟩
  rw [settle_hmp_answer, settle_bus, settle_exe, settle_md]
  exact ⟨rfl, rfl, rfl, rfl⟩

end

/-! ## Words read for a session (R404) -/

section
variable {sess req e : Nat} {s : State}

/-- The address is read at once, with no frame, ream window or draw, and its word is `v`. -/
def ReadsPlain (e a v : Nat) (s : State) : Prop :=
  inFbView a = false ∧ inReam a = false ∧ drawsFree a = false ∧ peekWord e a s = some v

theorem readWords_plain (f : Nat → Nat) (n a : Nat) (acc : List Nat)
    (plain : ∀ i, i < n → ReadsPlain e (a + 4 * i) (f i) s) :
    readWords 2 sess req e n a acc s = answerAccess 2 sess req 0 (acc ++ (List.range n).map f) s := by
  induction n generalizing a acc f with
  | zero => rw [readWords, List.range_zero, List.map_nil, List.append_nil]
  | succ n ih =>
    obtain ⟨view, ream, draws, word⟩ := plain 0 (Nat.succ_pos n)
    rw [Nat.mul_zero, Nat.add_zero] at view ream draws word
    have rest (i : Nat) (inside : i < n) : ReadsPlain e (a + 4 + 4 * i) (f (i + 1)) s := by
      rw [show a + 4 + 4 * i = a + 4 * (i + 1) by omega]
      exact plain (i + 1) (Nat.succ_lt_succ inside)
    rw [readWords, if_neg (by simp [view]), if_neg (by simp [ream]), word]
    dsimp only
    rw [if_neg (by simp [draws]), ih (fun i => f (i + 1)) (a + 4) (acc ++ [f 0]) rest, List.range_succ_eq_map, List.map_cons,
      List.map_map, List.append_assoc, List.singleton_append]
    rfl

/-- An access answered to a session with the words read. -/
theorem answerAccess_words (words : List Nat) (s : State) : answerAccess 2 sess req 0 words s =
    hmpAnswer sess req 0 (words32 words)
      { s with bus.status := 0, bus.ans := BitVec.ofNat 32 (nth 0 words 0) } := rfl

theorem nth_range_map (f : Nat → Nat) {n : Nat} (some : 1 ≤ n) : nth 0 ((List.range n).map f) 0 = f 0 := by
  obtain ⟨m, rfl⟩ : ∃ m, n = m + 1 := ⟨n - 1, by omega⟩
  rw [List.range_succ_eq_map, List.map_cons]
  rfl

theorem readOnce_plain {a v : Nat} (plain : ReadsPlain e a v s) : readOnce 2 sess req e a s =
    answerAccess 2 sess req 0 [v] (readEffect a s) := by
  obtain ⟨view, ream, draws, word⟩ := plain
  rw [readOnce, if_neg (by simp [view, ream]), word]
  dsimp only
  rw [if_neg (by simp [draws])]

theorem raiseOnce_noted {code : Nat} (arg : Nat) (s : State) (calm : classOf code ≠ 0x46) :
    OnlyNoted s (raiseOnce code arg s) := by
  unfold raiseOnce
  split
  · exact .refl s
  · exact .trans ⟨_, rfl⟩ (raise_noted arg { s with evt.once := code :: s.evt.once } calm)

/-- The bus as a refused access of a session leaves it. -/
def refusedBus (a : Nat) (b : Bus) : Bus :=
  { b with errCount := satInc 65535 b.errCount, errReq := 2, errStatus := 4, errLast := a, status := 4, ans := 0 }

/-- An access refused to a session: counted, answered by status 4 (R405). -/
theorem accessError_session (a : Nat) : ∃ ev, accessError 2 sess req a s =
    hmpAnswer sess req 4 [] { s with evt := ev, bus := refusedBus a s.bus } := by
  obtain ⟨ev, raised⟩ := raiseOnce_noted (code := 0x2303) a { s with
    bus := { s.bus with errCount := satInc 65535 s.bus.errCount, errReq := 2, errStatus := 4, errLast := a } } (by decide)
  refine ⟨ev, ?_⟩
  have refused : accessError 2 sess req a s = answerAccess 2 sess req 4 [] (raiseOnce 0x2303 a { s with
    bus := { s.bus with errCount := satInc 65535 s.bus.errCount, errReq := 2, errStatus := 4, errLast := a } }) := rfl
  rw [refused, raised]
  rfl

end

/-! ## The ops (R401 to R405, R414, R418) -/

section
variable {r : HReq} {x : HSess} {s : State}

theorem hmpIdent_answers (asks : Asks r 0x0001 [] x s) : exec (.hmpIdent r) s =
    .next (settle (hmpAnswer x.num (0x0001 * 2 ^ 32 + r.reqId.toNat) 0 (words32 [Config.idcode,
      Config.serial / 2 ^ 32 % 2 ^ 32, Config.serial % 2 ^ 32, modeStat (asked r x s), bootStat (asked r x s),
      fuseStat (asked r x s), cf (asked r x s) 0x10 0 0 4 0, (asked r x s).img.fwBuild, (asked r x s).img.progBuild] ++
        cfBytes (asked r x s) 0x10 0 8 16) (asked r x s))) := by
  rw [exec_asks (i := .hmpIdent r) asks rfl]

theorem bootReport_answers (asks : Asks r 0x0002 [] x s) : exec (.bootReport r) s =
    .next (settle (hmpAnswer x.num (0x0002 * 2 ^ 32 + r.reqId.toNat) 0 ((s.ret.reports.take 16).flatMap reportBytes)
      (asked r x s))) := by
  rw [exec_asks (i := .bootReport r) asks rfl]
  rfl

theorem hmpAuditRead_answers {seq : Word} (asks : Asks r 0x0041 (beBytes 4 seq.toNat) x s) : exec (.hmpAuditRead r seq) s =
    .next (settle (hmpAnswer x.num (0x0041 * 2 ^ 32 + r.reqId.toNat) 0
      ((s.islView.audits.filter fun a => decide (seq.toNat ≤ fld a 0 4)).take 2).flatten (asked r x s))) := by
  rw [exec_asks (i := .hmpAuditRead r seq) asks rfl]
  rfl

theorem bulkOpen_grants (asks : Asks r 0x0060 [] x s) (none : s.hmp.bulk = none) : exec (.bulkOpen r) s =
    .next (settle (hmpAnswer x.num (0x0060 * 2 ^ 32 + r.reqId.toNat) 0 (beBytes 2 (cf (asked r x s) 0x1D 0 4 2 47642))
      { asked r x s with hmp.bulkOk := some x.num })) := by
  have free : ¬ ((asked r x s).hmp.bulk.isSome = true ∧ (asked r x s).hmp.bulk ≠ some (x.num % 2 ^ 32)) := by
    rintro ⟨taken, -⟩
    rw [show (asked r x s).hmp.bulk = Option.none from none] at taken
    exact absurd taken (by decide)
  rw [exec_asks (i := .bulkOpen r) asks rfl, if_neg free, Nat.mod_eq_of_lt (asks_num asks)]

/-- One bulk connection at a time (R418). -/
theorem bulkOpen_refused {n : Nat} (asks : Asks r 0x0060 [] x s) (taken : s.hmp.bulk = some n) (other : n ≠ x.num) :
    exec (.bulkOpen r) s = .next (settle (hmpAnswer x.num (0x0060 * 2 ^ 32 + r.reqId.toNat) 3 [] (asked r x s))) := by
  have foreign : (asked r x s).hmp.bulk.isSome = true ∧ (asked r x s).hmp.bulk ≠ some (x.num % 2 ^ 32) := by
    rw [show (asked r x s).hmp.bulk = some n from taken, Nat.mod_eq_of_lt (asks_num asks)]
    exact ⟨rfl, fun same => other (Option.some.inj same)⟩
  rw [exec_asks (i := .bulkOpen r) asks rfl, if_pos foreign]

theorem hmpClose_closes (asks : Asks r 0x0003 [] x s) (foreign : ∀ w, s.hmp.write = some w → w.owner ≠ x.num) :
    ∃ t, exec (.hmpClose r) s = .next t ∧ hSess t x.num = none ∧
      t.hmp.answer = some { op := 0x0003, req := r.reqId.toNat, status := 0, result := [] } := by
  have step := exec_asks (i := .hmpClose r) asks rfl
  rw [Nat.mod_eq_of_lt (asks_num asks)] at step
  refine ⟨_, step, ?_, ?_⟩
  · rw [hSess_settle, closeHSess_gone]
  · rw [settle_hmp_answer, (closeHSess_idle (by simpa using foreign)).1, hmpAnswer_answer]

theorem evlogRead_answers {seq : Word} {n : BitVec 16} (asks : Asks r 0x0040 (beBytes 4 seq.toNat ++ beBytes 2 n.toNat) x s)
    (some : 1 ≤ n.toNat) (few : n.toNat ≤ 40) : exec (.evlogRead r seq n) s =
      .next (settle (hmpAnswer x.num (0x0040 * 2 ^ 32 + r.reqId.toNat) 0
        ((logFrom (asked r x s) seq.toNat n.toNat).flatMap entryBytes) (asked r x s))) := by
  have within : ¬ (n = 0 ∨ (if r.bulk then 512 else 40) < n.toNat) := by
    rw [asks_udp asks]
    rintro (rfl | many)
    · exact absurd some (by decide)
    · simp at many
      omega
  rw [exec_asks (i := .evlogRead r seq n) asks rfl, if_neg within]

section
variable {a : Word} {n : BitVec 16} {e : Nat}

theorem hmpPeek_words (asks : Asks r 0x0010 (beBytes 4 a.toNat ++ beBytes 2 n.toNat) x s) (f : Nat → Nat) (some : 1 ≤ n.toNat)
    (few : n.toNat ≤ 256) (plain : ∀ i, i < n.toNat → ReadsPlain e (a.toNat + 4 * i) (f i) (asked r x s)) :
    exec (.hmpPeek r a n e) s = .next (settle (hmpAnswer x.num (0x0010 * 2 ^ 32 + r.reqId.toNat) 0
      (words32 ((List.range n.toNat).map f)) { asked r x s with bus.status := 0, bus.ans := BitVec.ofNat 32 (f 0) })) := by
  have within : ¬ (n = 0 ∨ 256 < n.toNat) := by
    rintro (rfl | many)
    · exact absurd some (by decide)
    · omega
  rw [exec_asks (i := .hmpPeek r a n e) asks rfl, if_neg within, readWords_plain f _ _ _ plain, List.nil_append,
    answerAccess_words, nth_range_map f some]

theorem hmpPeek_refused (asks : Asks r 0x0010 (beBytes 4 a.toNat ++ beBytes 2 n.toNat) x s)
    (count : n.toNat = 0 ∨ 256 < n.toNat) : exec (.hmpPeek r a n e) s =
      .next (settle (hmpAnswer x.num (0x0010 * 2 ^ 32 + r.reqId.toNat) 1 [] (asked r x s))) := by
  have outside : n = 0 ∨ 256 < n.toNat := count.imp (fun zero => BitVec.eq_of_toNat_eq zero) id
  rw [exec_asks (i := .hmpPeek r a n e) asks rfl, if_pos outside]

theorem hmpReadEffect_reads {v : Nat} (asks : Asks r 0x0011 (beBytes 4 a.toNat) x s) (effect : r.effect = true)
    (plain : ReadsPlain e a.toNat v (asked r x s)) : exec (.hmpReadEffect r a e) s =
      .next (settle (hmpAnswer x.num (0x0011 * 2 ^ 32 + r.reqId.toNat) 0 (words32 [v])
        { readEffect a.toNat (asked r x s) with bus.status := 0, bus.ans := BitVec.ofNat 32 v })) := by
  obtain ⟨_, ream, _⟩ := id plain
  rw [exec_asks (i := .hmpReadEffect r a e) asks rfl, if_neg (by simp [effect, ream]), readOnce_plain plain,
    answerAccess_words]
  rfl

theorem hmpReadEffect_refused (asks : Asks r 0x0011 (beBytes 4 a.toNat) x s) (none : r.effect = false) :
    exec (.hmpReadEffect r a e) s =
      .next (settle (hmpAnswer x.num (0x0011 * 2 ^ 32 + r.reqId.toNat) 1 [] (asked r x s))) := by
  rw [exec_asks (i := .hmpReadEffect r a e) asks rfl, if_pos (by simp [none])]

end

section
variable {a mask v : Word} {e : Nat}
variable (asks : Asks r 0x0012 (beBytes 4 a.toNat ++ beBytes 4 mask.toNat ++ beBytes 4 v.toNat) x s)
include asks

theorem exec_hmpPoke_asks : exec (.hmpPoke r a mask v e) s =
    .next (settle (pokeOp a mask v e x.num (0x0012 * 2 ^ 32 + r.reqId.toNat) (asked r x s))) :=
  exec_asks (i := .hmpPoke r a mask v e) asks rfl

theorem hmpPoke_shadow (aligned : a.toNat % 4 = 0) (slot : inSlot a.toNat = some (1 - s.exe.runSlot)) (two : s.exe.runSlot ≤ 1) :
    exec (.hmpPoke r a mask v e) s = .next (settle (hmpAnswer x.num (0x0012 * 2 ^ 32 + r.reqId.toNat) 0 []
      { shadowWrite (a.toNat % 0x100000 / 4) v mask (asked r x s) with bus.status := 0, bus.ans := 0 })) := by
  rw [exec_hmpPoke_asks asks, pokeOp, writeWord_slot slot aligned,
    if_neg (show 1 - s.exe.runSlot ≠ (asked r x s).exe.runSlot by change _ ≠ s.exe.runSlot; omega)]
  rfl

omit asks in
/-- A word of the running slot takes no write. -/
theorem hmpPoke_runningOp (slot : inSlot a.toNat = some s.exe.runSlot) (who req : Nat) :
    pokeOp a mask v e who req (asked r x s) = accessError 2 who req a.toNat (asked r x s) := by
  by_cases aligned : a.toNat % 4 = 0
  · rw [pokeOp, writeWord_slot slot aligned]
    exact if_pos rfl
  · rw [pokeOp, writeWord]
    exact if_pos aligned

theorem hmpPoke_running (slot : inSlot a.toNat = some s.exe.runSlot) : ∃ t, exec (.hmpPoke r a mask v e) s = .next t ∧
    t.exe = s.exe ∧ t.bus.errCount = satInc 65535 s.bus.errCount ∧
    t.hmp.answer = some { op := 0x0012, req := r.reqId.toNat, status := 4, result := [] } := by
  obtain ⟨ev, refused⟩ := accessError_session (sess := x.num) (req := 0x0012 * 2 ^ 32 + r.reqId.toNat) (s := asked r x s) a.toNat
  refine ⟨_, (exec_hmpPoke_asks asks).trans (by rw [hmpPoke_runningOp slot, refused]), ?_⟩
  rw [settle_exe, settle_bus, settle_hmp_answer, hmpAnswer_answer]
  exact ⟨rfl, rfl, rfl⟩

end

end

/-- What a poke meets before it is taken: no service, a bad header, a plain request, a tag that fails, a replay, and an
identifier answered before. -/
theorem hmpPoke_judged (r : HReq) (a mask v : Word) (e : Nat) (x : HSess) (s : State) :
    (servesHmp r.hd r.bulk s = false → exec (.hmpPoke r a mask v e) s = .next (settle s)) ∧
    (servesHmp r.hd r.bulk s = true → r.kindOk = true →
      (hdrGood r.hd r.bulk r.plain (pokeBody r a mask v) r.tail = false →
        exec (.hmpPoke r a mask v e) s = .next (settle (badHeader s))) ∧
      (hdrGood r.hd r.bulk r.plain (pokeBody r a mask v) r.tail = true → r.plain = true →
        exec (.hmpPoke r a mask v e) s = .next (settle (plainError 8 s))) ∧
      (hdrGood r.hd r.bulk r.plain (pokeBody r a mask v) r.tail = true → r.plain = false → r.bulk = false →
        hSess s r.hd.session.toNat = some x →
        (r.sealed x (pokeBody r a mask v) = false → s.hmp.authSec = true →
          exec (.hmpPoke r a mask v e) s = .next (settle { s with hmp.err := satField 24 8 s.hmp.err })) ∧
        (r.sealed x (pokeBody r a mask v) = true → r.hd.counter.toNat ≤ x.top →
          r.hd.counter.toNat = x.top ∨ r.hd.counter.toNat + 64 < x.top ∨ r.hd.counter.toNat ∈ x.seen →
          exec (.hmpPoke r a mask v e) s = .next (settle { s with hmp.err := satField 16 8 s.hmp.err })) ∧
        (∀ k, r.sealed x (pokeBody r a mask v) = true → x.top < r.hd.counter.toNat →
          (x.kept.find? fun k => k.req == r.reqId.toNat) = some k →
          ∃ t, exec (.hmpPoke r a mask v e) s = .next t ∧ t.hmp.answer = some k ∧ t.bus = s.bus ∧ t.exe = s.exe ∧
            t.md = s.md))) :=
  ⟨hmpPoke_unserved, fun serves kind => ⟨hmpPoke_bad serves kind, hmpPoke_plain serves kind, fun good secure udp opens =>
    ⟨hmpPoke_unsealed serves kind good secure udp opens, hmpPoke_replay serves kind good secure udp opens,
      fun _ => hmpPoke_kept serves kind good secure udp opens⟩⟩⟩

/-- Settles O55: HELLO, a session that idles, what a poke meets before it is taken, and each op's answer where it is taken. -/
theorem hmpRequests : Obligations.HmpRequests := by
  unfold Obligations.HmpRequests
  refine ⟨fun h client id tail s => ?_, fun num x s opens foreign => ?_, fun r a mask v e x s => ?_, fun r x s => ?_⟩
  · intro good
    exact ⟨hello_bad (b := ⟨client, id⟩), fun serves kind isGood within =>
      ⟨fun k named room => hello_opens (b := ⟨client, id⟩) serves kind isGood within named room,
        fun unknown => hello_unknown (b := ⟨client, id⟩) serves kind isGood within unknown⟩,
      hello_unserved⟩
  · exact ⟨fun long => hmpSessionIdle_closes (num := num) (x := x) (s := s) opens foreign long,
      fun short => hmpSessionIdle_waits (num := num) (x := x) (s := s) opens short⟩
  · exact hmpPoke_judged r a mask v e x s
  · intro u say
    exact ⟨hmpIdent_answers, bootReport_answers,
      fun asks => ⟨bulkOpen_grants asks, fun n => bulkOpen_refused asks⟩, hmpClose_closes,
      fun seq n => evlogRead_answers, fun seq => hmpAuditRead_answers,
      fun a n e asks => ⟨hmpPeek_words asks, hmpPeek_refused asks⟩,
      fun a e asks => ⟨fun v effect view ream draws word => hmpReadEffect_reads asks effect ⟨view, ream, draws, word⟩,
        hmpReadEffect_refused asks⟩,
      fun a mask v e asks => ⟨hmpPoke_shadow asks, hmpPoke_running asks⟩⟩

end Sys2Proof.Machine
end

section
/-! Weighing (R359, R363 to R374): what a record instant leaves of the island beside its weighing, and what a lane shows. -/

namespace Sys2Proof.Machine

/-! ## What a record instant leaves (R359, R374) -/

/-- The clock, the sensors, the state and the counter of the island, and the unit's mode. -/
structure InstantView where
  ms : Nat
  faults : Nat
  temp : Int
  oper : Bool
  raw : Tbl Int
  st : IslSt
  count : Nat
  md : Md

def instantView (s : State) : InstantView where
  ms := s.isl.ms
  faults := s.isl.chanFault
  temp := s.isl.temp
  oper := s.isl.oper
  raw := s.isl.raw
  st := s.isl.st
  count := s.isl.count
  md := s.md

/-- `t` has them as `s` does. -/
def InstantKept (s t : State) : Prop := instantView t = instantView s

namespace InstantKept

variable {s t u : State}

theorem refl (s : State) : InstantKept s s := rfl

theorem trans (h : InstantKept s t) (g : InstantKept t u) : InstantKept s u := Eq.trans g h

theorem ite {c : Prop} [Decidable c] (h : InstantKept s t) (g : InstantKept s u) : InstantKept s (if c then t else u) := by
  split
  · exact h
  · exact g

theorem foldl {β : Type} {f : State → β → State} (h : ∀ s x, InstantKept s (f s x)) (l : List β) (s : State) :
    InstantKept s (l.foldl f s) :=
  foldl_keeps instantView h l s

theorem of_displayed (h : Displayed s t) : InstantKept s t := by
  obtain ⟨_, _, rfl⟩ := h
  rfl

theorem of_sent (h : IslSent s t) : InstantKept s t := by
  obtain ⟨_, _, _, _, _, _, _, _, rfl⟩ := h
  rfl

end InstantKept

theorem modIslLane_kept (n : Nat) (f : IslLane → IslLane) (s : State) : InstantKept s (modIslLane n f s) := rfl

/-! ## The display of a lane (R377, R378) -/

/-- What is drawn only when it is sent. -/
theorem Displayed.sent {α : Type} {s : State} (c : Prop) [Decidable c] {p : α × State} (a : α) (h : Displayed s p.2) :
    Displayed s (if c then p else (a, s)).2 := by
  split
  · exact h
  · exact .refl s

theorem driveDisplay_displayed (n : Nat) (w : Option Weight) (s : State) : Displayed s (driveDisplay n w s) := by
  unfold driveDisplay
  split
  · exact .refl s
  · split
    · exact .refl s
    · dsimp only
      refine Displayed.trans ?_ (modLd_displayed ..)
      refine Displayed.trans ?_ (Displayed.sent _ _ (ldFrame_displayed ..))
      refine Displayed.trans ?_ (Displayed.sent _ _ (ldFrame_displayed ..))
      exact Displayed.sent _ _ (freeBytes_displayed 40 s)

theorem driveDisplay_kept (n : Nat) (w : Option Weight) (s : State) : InstantKept s (driveDisplay n w s) :=
  .of_displayed (driveDisplay_displayed n w s)

/-! ## Readings and requests (R363 to R371) -/

theorem ratio_kept (num den : Int) (s : State) : InstantKept s (ratio num den s).2 := by
  unfold ratio
  split <;> rfl

theorem sourceValue_kept (n : Nat) (s : State) : InstantKept s (sourceValue n s).2 := by
  unfold sourceValue
  split
  · rfl
  · exact ratio_kept _ _ s

/-- A result of a request leaves what the instant's sensors gave. -/
def ResultKept (s : State) (o : Option (Nat × State)) : Prop := ∀ res t, o = some (res, t) → InstantKept s t

theorem ResultKept.none (s : State) : ResultKept s none :=
  fun _ _ given => absurd given.symm (Option.some_ne_none _)

theorem ResultKept.some {s t : State} (res : Nat) (h : InstantKept s t) : ResultKept s (some (res, t)) := by
  intro _ _ given
  obtain ⟨-, rfl⟩ := Prod.mk.inj (Option.some.inj given)
  exact h

theorem ResultKept.ite {s : State} {c : Prop} [Decidable c] {o p : Option (Nat × State)} (h : ResultKept s o)
    (g : ResultKept s p) : ResultKept s (if c then o else p) := by
  split
  · exact h
  · exact g

theorem requestResult_kept (s : State) (n : Nat) (x : Rat) (r : LegalReq) : ResultKept s (requestResult s n x r) := by
  have waits : ResultKept s (if s.isl.ms ≤ r.arrival + 2000 then Option.none else Option.some (2, s)) :=
    .ite (.none s) (.some 2 (.refl s))
  have refused (res : Nat) : ResultKept s (Option.some (res, s)) := .some res (.refl s)
  unfold requestResult
  dsimp only
  split
  · exact .ite (.some 1 (modIslLane_kept ..)) (refused 5)
  · exact .ite (refused 5) (.ite (.some 1 (modIslLane_kept ..)) (.ite (refused 4) (.ite (refused 3)
      (.ite waits (.some 1 (modIslLane_kept ..))))))
  · exact .ite (refused 5) (.ite (refused 4) (.ite (refused 3) (.ite waits (.some 1 (modIslLane_kept ..)))))
  · refine .ite (refused 5) (.some 1 ?_)
    split
    · rfl
    · split
      · exact .of_displayed (((modLd_displayed ..).trans (ldFrame_displayed ..)).trans (modLd_displayed ..))
      · exact .of_displayed ((modLd_displayed ..).trans (ldFrame_displayed ..))

theorem serveRequests_kept (n : Nat) (x : Rat) (k : Nat) (s : State) : InstantKept s (serveRequests n x k s) := by
  induction k generalizing s with
  | zero => rfl
  | succ k ih =>
    rw [serveRequests]
    split
    · rfl
    next r rest _ =>
      split
      · rfl
      · have kept := requestResult_kept s n x r
        split
        · rfl
        next res t served => exact (kept res t served).trans ((modIslLane_kept ..).trans (ih _))

theorem trackZero_kept (n : Nat) (x : Rat) (s : State) : InstantKept s (trackZero n x s) :=
  .ite (modIslLane_kept ..) (.refl s)

/-! ## Records (R373 to R376, R380) -/

theorem recordTag_displayed (bs : List Byte) (s : State) : Displayed s (recordTag bs s).2 := by
  unfold recordTag
  split
  · exact .refl s
  · exact freeBytes_displayed 8 s

theorem issueRecord_kept (hdrLane laneByte unit range req flags u : Nat) (gross net tare : Int) (price unitPrice item : Nat)
    (s : State) : InstantKept s
      (issueRecord hdrLane laneByte unit range req flags u gross net tare price unitPrice item s) := by
  unfold issueRecord
  dsimp only
  refine .trans ?_ (InstantKept.of_sent (holdMsg_posted _ _).sent)
  exact .trans (.of_displayed (recordTag_displayed _ s)) rfl

theorem laneRecord_kept (n : Nat) (w : Weight) (s : State) : InstantKept s (laneRecord n w s) :=
  .ite (.refl s) ((issueRecord_kept ..).trans (modIslLane_kept ..))

theorem chanRecord_kept (c : Nat) (s : State) : InstantKept s (chanRecord c s) := by
  unfold chanRecord
  split
  · rfl
  · dsimp only
    exact (ratio_kept _ _ s).trans (issueRecord_kept ..)

/-! ## The instant -/

theorem laneInstant_kept (s : State) (n : Nat) : InstantKept s (laneInstant s n) := by
  unfold laneInstant
  split
  · exact .ite (driveDisplay_kept ..) (.refl s)
  · split
    · exact (modIslLane_kept ..).trans (driveDisplay_kept ..)
    · dsimp only
      refine .trans ?_ (driveDisplay_kept ..)
      refine .trans ?_ (laneRecord_kept ..)
      refine .trans ?_ (modIslLane_kept ..)
      refine .trans ?_ (trackZero_kept ..)
      refine .trans ?_ (.ite (serveRequests_kept ..) (modIslLane_kept ..))
      exact (sourceValue_kept n s).trans (modIslLane_kept ..)

/-- On a rise of oper prices are cleared; the island then shows the role it has read (R351, R372). -/
theorem readOper_view (s : State) : instantView (readOper s) = { instantView s with oper := s.slu.oper } := by
  have read (u : State) (h : (instantView u, u.slu) = (instantView s, s.slu)) :
      instantView (modIsl (fun i => { i with oper := u.slu.oper }) u) = { instantView s with oper := s.slu.oper } := by
    obtain ⟨view, slu⟩ := Prod.mk.inj h
    rw [← view, ← slu]
    rfl
  unfold readOper
  refine read _ ?_
  split
  · exact foldl_keeps (fun s => (instantView s, s.slu)) (f := fun s n => modIslLane n _ s) (fun _ _ => rfl) _ _
  · rfl

/-- The island's clock and sensors at an instant, before its channels are read. -/
def timed (x : Instant) (s : State) : State :=
  modIsl (fun i => { i with ms := i.ms + 20, chanFault := x.faults.toNat, temp := x.temp.toInt }) s

/-- The channels read. -/
def sensed (x : Instant) (s : State) : State :=
  [x.raw0.toInt, x.raw1.toInt, x.raw2.toInt, x.raw3.toInt].zipIdx.foldl (fun s r => modIsl (fun i =>
    { i with raw := tset 0 i.raw r.2 r.1, raws := tmod [] i.raws r.2 fun l => (r.1 :: l).take 100 }) s) (timed x s)

/-- The lanes and channels at an instant, once the role has been read. -/
def weighed (s : State) : State :=
  (List.range 4).foldl (fun s c => chanRecord c s) ((List.range 8).foldl laneInstant s)

theorem weighed_kept (s : State) : InstantKept s (weighed s) :=
  (InstantKept.foldl laneInstant_kept _ s).trans (InstantKept.foldl (fun s c => chanRecord_kept c s) _ _)

section
variable {s : State} {x : Instant}

theorem exec_recordInstant (on : s.isl.st ≠ .off) (young : s.isl.ms + 20 < s.isl.fuseMs + 3600000)
    (near : (x.temp.toInt - s.isl.fuseTemp).natAbs ≤ 30) :
    exec (.recordInstant x) s = .next (settle (islSettle (weighed (readOper (sensed x s))))) := by
  have unread : islReread (timed x s) = timed x s := if_pos ⟨young, near⟩
  refine congrArg ok ((if_neg on).trans ?_)
  change islSettle (weighed (readOper ([x.raw0.toInt, x.raw1.toInt, x.raw2.toInt, x.raw3.toInt].zipIdx.foldl (fun s r =>
    modIsl (fun i => { i with raw := tset 0 i.raw r.2 r.1, raws := tmod [] i.raws r.2 fun l => (r.1 :: l).take 100 }) s)
    (islReread (timed x s))))) = _
  rw [unread]
  rfl

/-- The raw readings of the four channels. -/
def rawsOf (x : Instant) (m : Tbl Int) : Tbl Int :=
  tset 0 (tset 0 (tset 0 (tset 0 m 0 x.raw0.toInt) 1 x.raw1.toInt) 2 x.raw2.toInt) 3 x.raw3.toInt

theorem sensed_view : instantView (sensed x s) =
    { instantView s with ms := s.isl.ms + 20, faults := x.faults.toNat, temp := x.temp.toInt, raw := rawsOf x s.isl.raw } := rfl

theorem recordInstant_takes (on : s.isl.st ≠ .off) (young : s.isl.ms + 20 < s.isl.fuseMs + 3600000)
    (near : (x.temp.toInt - s.isl.fuseTemp).natAbs ≤ 30) : ∃ t, exec (.recordInstant x) s = .next t ∧
      t.isl.ms = s.isl.ms + 20 ∧ t.isl.chanFault = x.faults.toNat ∧ t.isl.temp = x.temp.toInt ∧ t.isl.oper = s.slu.oper ∧
      tget 0 t.isl.raw 0 = x.raw0.toInt ∧ tget 0 t.isl.raw 3 = x.raw3.toInt ∧ t.isl.st = s.isl.st ∧
      t.isl.count = s.isl.count ∧ t.md = s.md := by
  refine ⟨_, exec_recordInstant on young near, ?_⟩
  rw [settle_isl, settle_md]
  have view := (weighed_kept (readOper (sensed x s))).trans (InstantKept.of_sent (islSettle_sent _))
  generalize islSettle (weighed (readOper (sensed x s))) = t at view
  rw [InstantKept, readOper_view, sensed_view] at view
  have raw : t.isl.raw = rawsOf x s.isl.raw := congrArg InstantView.raw view
  refine ⟨congrArg InstantView.ms view, congrArg InstantView.faults view, congrArg InstantView.temp view,
    congrArg InstantView.oper view, ?_, ?_, congrArg InstantView.st view, congrArg InstantView.count view,
    congrArg InstantView.md view⟩
  · rw [raw, rawsOf]
    simp
  · rw [raw, rawsOf, tget_tset_same]

end

/-! ## What a lane shows (R363, R373, R376) -/

section
variable {s : State} {n : Nat} {x : Rat}

/-- The reading after zero adjustment. -/
def grossOf (s : State) (n : Nat) (x : Rat) : Rat := x - (islLane s n).z

/-- The lane shows no value. -/
def hiddenAt (s : State) (n : Nat) (x : Rat) : Bool :=
  isOver s n (grossOf s n x) || isUnder s n (grossOf s n x) || laneInvalid s n

/-- The net value before it is hidden. -/
def netAt (s : State) (n : Nat) (x : Rat) : Int :=
  roundTo (kOf s n (weigh s n x).range) (grossOf s n x - (islLane s n).t)

/-- The price before it is limited. -/
def priceAt (s : State) (n : Nat) (x : Rat) : Int :=
  roundTo (param s 2) ((netAt s n x * (lp s n 3) * ((islLane s n).price : Int) : Int) / (1000000 : Rat))

/-- The lane has a price to show. -/
def pricedAt (s : State) (n : Nat) (x : Rat) : Bool :=
  stable s n && decide (0 < netAt s n x) && !hiddenAt s n x && (islLane s n).price != 0 && decide (priceAt s n x ≤ param s 3)

theorem weigh_net : (weigh s n x).net = if hiddenAt s n x then 0 else netAt s n x := rfl
theorem weigh_price : (weigh s n x).price = if pricedAt s n x then (priceAt s n x).toNat else 0 := rfl
theorem weigh_tare : (weigh s n x).tare = (islLane s n).t := rfl

theorem weigh_bad (bad : isOver s n (grossOf s n x) = true ∨ isUnder s n (grossOf s n x) = true ∨ laneInvalid s n = true) :
    (weigh s n x).net = 0 ∧ (weigh s n x).price = 0 := by
  have isBad : hiddenAt s n x = true := by
    rcases bad with h | h | h <;> simp [hiddenAt, h]
  rw [weigh_net, weigh_price, pricedAt, isBad]
  simp

theorem weigh_multiple : ∃ m : Int, (weigh s n x).net = m * kOf s n (weigh s n x).range := by
  rw [weigh_net]
  split
  · exact ⟨0, (zero_mul _).symm⟩
  · exact ⟨_, rfl⟩

theorem weigh_priced (priced : (weigh s n x).price ≠ 0) :
    0 < (weigh s n x).net ∧ stable s n = true ∧ ((weigh s n x).price : Int) ≤ param s 3 := by
  rw [weigh_price] at priced ⊢
  rw [weigh_net]
  cases shown : pricedAt s n x with
  | false => rw [shown] at priced; exact absurd rfl priced
  | true =>
    rw [shown, if_pos rfl] at priced
    simp only [pricedAt, Bool.and_eq_true, decide_eq_true_eq, Bool.not_eq_true'] at shown
    obtain ⟨⟨⟨⟨still, positive⟩, good⟩, -⟩, limit⟩ := shown
    rw [good, if_neg Bool.false_ne_true, if_pos rfl]
    exact ⟨positive, still, by omega⟩

end

end Sys2Proof.Machine
end

section
/-! Telegrams and requests (R365 to R371), the core's side of the island (R355, R373, R384) and bag-checks (R383), and the
statement O60. -/

namespace Sys2Proof.Machine

/-! ## Telegrams (R367 to R369) -/

section
variable {s : State} {p : Fin 8} {raw fr : List Byte} {off : Fin 21} {n : Nat}

/-- The check-value unit of LSp. -/
def unitOf (s : State) (p : Fin 8) : List Byte := tget [] (legalCfg s).ics p.val

/-- A frame that passes its checks: its value is taken, or it is rejected. -/
def telTaken (s : State) (p : Fin 8) (off n : Nat) (fr : List Byte) (alive : Option Nat) : State :=
  let d := scaleDialect s n
  let cp := fr.length - fld d 22 1 - ceilDiv (fld (unitOf s p) 0 1) 8
  let s := modIslLane n (fun l => { l with alive := alive }) s
  if !telMatch d fr then lsReply n d false (telReject n s) else
  match (telField d 0 cp fr).bind (telValue d), telField d 1 cp fr with
  | some v, some (b :: _) =>
    if -maxTop s n ≤ v ∧ v ≤ 2 * maxTop s n then
      lsReply n d true (modIslLane n (fun l =>
        { l with
          lsPoll := none, lsMiss := 0, lsFault := false, tel := some v, telAt := s.isl.ms + off, acc := (l.acc + 1) % 2 ^ 32,
          telStable := (b.toNat &&& fld d (72 + 6) 1) == fld d (72 + 7) 1 }) s)
    else lsReply n d false (telReject n s)
  | _, _ => lsReply n d false (telReject n s)

/-- What a telegram of the lane's scale does. -/
def telegramOf (s : State) (p : Fin 8) (off n : Nat) (raw : List Byte) : State :=
  match telPlain (scaleDialect s n) raw with
  | none => telReject n s
  | some fr =>
    match telChecks (unitOf s p) (scaleDialect s n) (islLane s n).alive fr with
    | none => lsReply n (scaleDialect s n) false (telReject n s)
    | some alive => telTaken s p off n fr alive

theorem exec_telegram (on : s.isl.st ≠ .off)
    (found : ((List.range 8).find? fun n => lp s n 0 == 0x11 + (p.val : Int)) = some n) :
    exec (.telegram p raw off) s = .next (settle (telegramOf s p off.val n raw)) := by
  change execTelegram p raw off s = _
  unfold execTelegram
  rw [found]
  dsimp only
  rw [if_neg on]
  unfold telegramOf telTaken unitOf
  rfl

theorem telegramOf_broken (broken : telPlain (scaleDialect s n) raw = none) : telegramOf s p off.val n raw = telReject n s := by
  rw [telegramOf, broken]

theorem telegramOf_unchecked (plain : telPlain (scaleDialect s n) raw = some fr)
    (fails : telChecks (unitOf s p) (scaleDialect s n) (islLane s n).alive fr = none) :
    telegramOf s p off.val n raw = lsReply n (scaleDialect s n) false (telReject n s) := by
  rw [telegramOf, plain]
  dsimp only
  rw [fails]

theorem telegramOf_checked {alive : Option Nat} (plain : telPlain (scaleDialect s n) raw = some fr)
    (passes : telChecks (unitOf s p) (scaleDialect s n) (islLane s n).alive fr = some alive) :
    telegramOf s p off.val n raw = telTaken s p off.val n fr alive := by
  rw [telegramOf, plain]
  dsimp only
  rw [passes]

theorem telTaken_unmatched {alive : Option Nat} (other : telMatch (scaleDialect s n) fr = false) :
    telTaken s p off.val n fr alive = lsReply n (scaleDialect s n) false
      (telReject n (modIslLane n (fun l => { l with alive := alive }) s)) := by
  unfold telTaken
  exact if_pos (by rw [other]; rfl)

/-- The lane as an accepted telegram leaves it, but for what its scale is answered (R368). -/
def acceptedLane (l : IslLane) (alive : Option Nat) (v : Int) (at' : Nat) (still : Bool) (sent : List Byte) : IslLane :=
  { l with alive := alive, tel := some v, telAt := at', acc := (l.acc + 1) % 2 ^ 32, telStable := still, lsPoll := none,
           lsMiss := 0, lsFault := false, lsSent := sent }

theorem lsReply_lane (n : Nat) (d : List Byte) (good : Bool) (s : State) :
    ∃ sent, islLane (lsReply n d good s) n = { islLane s n with lsSent := sent } := by
  unfold lsReply
  extract_lets bs
  split
  · exact ⟨_, islLane_modIslLane_same s n _⟩
  · exact ⟨_, rfl⟩

theorem telTaken_accepts {alive : Option Nat} {v : Int} {b : Byte} {bs : List Byte} (found : telMatch (scaleDialect s n) fr = true)
    (value : (telField (scaleDialect s n) 0 (fr.length - fld (scaleDialect s n) 22 1 - ceilDiv (fld (unitOf s p) 0 1) 8) fr).bind
      (telValue (scaleDialect s n)) = some v)
    (status : telField (scaleDialect s n) 1 (fr.length - fld (scaleDialect s n) 22 1 - ceilDiv (fld (unitOf s p) 0 1) 8) fr =
      some (b :: bs)) (low : -maxTop s n ≤ v) (high : v ≤ 2 * maxTop s n) :
    ∃ sent, islLane (telTaken s p off.val n fr alive) n = acceptedLane (islLane s n) alive v (s.isl.ms + off.val)
      ((b.toNat &&& fld (scaleDialect s n) 78 1) == fld (scaleDialect s n) 79 1) sent := by
  unfold telTaken
  dsimp only
  rw [if_neg (by rw [found]; exact Bool.false_ne_true), value, status]
  dsimp only
  rw [if_pos ⟨low, high⟩]
  obtain ⟨sent, replied⟩ := lsReply_lane n (scaleDialect s n) true (modIslLane n (fun l =>
    { l with
      lsPoll := none, lsMiss := 0, lsFault := false, tel := some v, telAt := s.isl.ms + off.val, acc := (l.acc + 1) % 2 ^ 32,
      telStable := (b.toNat &&& fld (scaleDialect s n) (72 + 6) 1) == fld (scaleDialect s n) (72 + 7) 1 })
    (modIslLane n (fun l => { l with alive := alive }) s))
  refine ⟨sent, replied.trans ?_⟩
  rw [islLane_modIslLane_same, islLane_modIslLane_same]
  rfl

end

/-! ## Requests over the sluice (R370) -/

section
variable {s : State} {m : SluMsg} {rest : List SluMsg} {off : Fin 21} {code : Nat}

theorem popDown_pops (head : s.slu.down = m :: rest) : popDown s = { s with slu.down := rest } := by
  rw [popDown, head, List.drop_succ_cons, List.drop_zero]

/-- The request joins its lane's queue with its arrival. -/
def queued (m : SluMsg) (arrival : Nat) (s : State) : State :=
  modIslLane m.lane (fun l => { l with reqs := l.reqs ++ [{ code := m.code, data := m.data, arrival := arrival }] }) s

variable (head : s.slu.down = m :: rest) (st : s.isl.st = .sealed) (good : sluBadForm 1 6 m = false)
include head st good

theorem takeCode_other (other : m.code ≠ code) (off : Nat) : takeCode code off s = s := by
  have notIs : headIs s code = none := by rw [headIs, head]; exact if_neg other
  rw [takeCode, if_neg (by simp [st]), cleanDown_good head good]
  dsimp only
  rw [notIs, if_neg (by simp)]

theorem takeCode_takes (is : m.code = code) (off : Nat) : takeCode code off s = takeHead off s := by
  rw [takeCode, if_neg (by simp [st]), cleanDown_good head good]
  dsimp only
  rw [headIs_head head is]
  rfl

omit good in
/-- A request in SEALED: the lane's queue takes it while the role is operating. -/
theorem takeHead_request (request : m.code < 5) (off : Nat) : takeHead off s =
    if s.slu.oper = true ∧ m.lane < 8 then queued m (s.isl.ms + off) { s with slu.down := rest }
    else { s with slu.down := rest } := by
  have isSealed : ({ s with slu.down := rest } : State).isl.st = .sealed := st
  unfold takeHead
  rw [head]
  dsimp only
  rw [popDown_pops head, if_neg (by omega), if_neg (by omega), isSealed]
  rfl

theorem takeCode_queues (is : m.code = code) (request : code < 5) (oper : s.slu.oper = true) (lane : m.lane < 8) (off : Nat) :
    takeCode code off s = queued m (s.isl.ms + off) { s with slu.down := rest } := by
  rw [takeCode_takes head st good is, takeHead_request head st (is ▸ request), if_pos ⟨oper, lane⟩]

theorem takeCode_drops (is : m.code = code) (request : code < 5) (idle : s.slu.oper = false) (off : Nat) :
    takeCode code off s = { s with slu.down := rest } := by
  rw [takeCode_takes head st good is, takeHead_request head st (is ▸ request), if_neg (by simp [idle])]

end

/-- The four request commands, each with its code. -/
theorem exec_request {off : Fin 21} {code : Nat} {c : Instr} (s : State) (named : (code, c) ∈ [(1, Instr.unitPrice off),
    (2, .tareRequest off), (3, .zeroRequest off), (4, .displayContentRequest off)]) :
    exec c s = .next (settle (takeCode code off.val s)) ∧ code < 5 := by
  simp only [List.mem_cons, Prod.mk.injEq, List.not_mem_nil, or_false] at named
  rcases named with ⟨rfl, rfl⟩ | ⟨rfl, rfl⟩ | ⟨rfl, rfl⟩ | ⟨rfl, rfl⟩ <;> exact ⟨rfl, by decide⟩

/-! ## What a request comes to (R365, R366, R370, R371) -/

section
variable {s : State} {n : Nat} {x : Rat} {r : LegalReq}

theorem requestResult_price (code : r.code = 1) (length : r.data.length = 8) : requestResult s n x r =
    some (1, modIslLane n (fun l => { l with item := fld r.data 0 4, price := fld r.data 4 4 }) s) := by
  unfold requestResult
  rw [code]
  exact if_pos length

theorem requestResult_clears (code : r.code = 2) (data : r.data = [0, 0, 0, 0]) : requestResult s n x r =
    some (1, modIslLane n (fun l => { l with t := 0 }) s) := by
  unfold requestResult
  rw [code, data]
  rfl

/-- A request that waits for stability, and no longer than 2 s. -/
def waits (s : State) (r : LegalReq) : Option (Nat × State) := if s.isl.ms ≤ r.arrival + 2000 then none else some (2, s)

theorem waits_early (early : s.isl.ms ≤ r.arrival + 2000) : waits s r = none := if_pos early
theorem waits_late (late : r.arrival + 2000 < s.isl.ms) : waits s r = some (2, s) := if_neg (Nat.not_le.mpr late)

/-- A tare of a positive reading within Max_1 (R366). -/
theorem requestResult_tare (code : r.code = 2) (data : r.data = [1, 0, 0, 0]) (valid : laneInvalid s n = false)
    (positive : 0 < grossOf s n x) (within : isOver s n (grossOf s n x) = false) (above : isUnder s n (grossOf s n x) = false)
    (most : grossOf s n x ≤ (maxOf s n 1 : Rat)) : requestResult s n x r =
      if stable s n = true then some (1, modIslLane n (fun l => { l with t := roundTo (kOf s n 1) (grossOf s n x) }) s)
      else waits s r := by
  have reads : fld [(1 : Byte), 0, 0, 0] 0 1 = 1 := by decide
  have shown : ¬ (grossOf s n x ≤ 0 || isOver s n (grossOf s n x) || isUnder s n (grossOf s n x)
      || decide ((maxOf s n 1 : Rat) < grossOf s n x)) = true := by
    simp [within, above, positive, most]
  unfold requestResult
  rw [code, data]
  refine (if_neg (by decide)).trans ((if_neg (by decide)).trans ((if_neg (by simp [valid])).trans ((if_neg shown).trans ?_)))
  cases stable s n <;> rfl

/-- A zero request on a lane without a tare, within the zero range (R365). -/
theorem requestResult_zero (code : r.code = 3) (data : r.data = []) (tareless : (islLane s n).t = 0)
    (within : isOver s n (grossOf s n x) = false) (above : isUnder s n (grossOf s n x) = false) (zone : inZeroRange s n x = true)
    (still : stable s n = true) : requestResult s n x r =
      some (1, modIslLane n (fun l => { l with z := x, zeroReq := false }) s) := by
  have inside : ¬ (isOver s n (grossOf s n x) || isUnder s n (grossOf s n x) || !inZeroRange s n x) = true := by
    simp [within, above, zone]
  unfold requestResult
  rw [code, data]
  exact (if_neg (by decide)).trans ((if_neg (not_not_intro tareless)).trans ((if_neg inside).trans (if_neg (by simp [still]))))

theorem requestResult_tared (code : r.code = 3) (data : r.data = []) (tared : (islLane s n).t ≠ 0) :
    requestResult s n x r = some (4, s) := by
  unfold requestResult
  rw [code, data]
  exact (if_neg (by decide)).trans (if_pos tared)

end

/-! ## The end of the wait (R371) -/

section
variable {s : State} {n : Fin 8} {r : LegalReq} {rest : List LegalReq}

theorem exec_stabilityWaitEnd (first : (islLane s n).reqs = r :: rest) (st : s.isl.st = .sealed) (oper : s.slu.oper = true)
    (kind : r.code = 2 ∨ r.code = 3) (come : r.arrival ≤ s.isl.ms) : exec (.stabilityWaitEnd n) s = .next (settle
      (if r.arrival + 2000 < s.isl.ms + 20 then modIslLane n (fun l => { l with reqs := rest, res := r.code * 16 + 2 }) s
      else s)) := by
  change execStabilityWaitEnd n s = _
  unfold execStabilityWaitEnd
  rw [first]
  dsimp only
  by_cases due : r.arrival + 2000 < s.isl.ms + 20
  · rw [if_pos ⟨st, oper, kind, come, due⟩, if_pos due]
    rfl
  · rw [if_neg (fun ⟨_, _, _, _, isDue⟩ => due isDue), if_neg due]
    rfl

end

/-! ## The core's side (R355, R373, R384) -/

section
variable {s : State} {m : SluMsg} {rest : List SluMsg}

theorem cleanUp_good (head : s.slu.up = m :: rest) (good : sluBadForm 0x81 0x83 m = false) (n : Nat) : cleanUp n s = s := by
  cases n with
  | zero => rfl
  | succ n => simp only [cleanUp, head, good, Bool.false_eq_true, if_false]

theorem popUp_pops (head : s.slu.up = m :: rest) : popUp s = { s with slu.up := rest } := by
  rw [popUp, head, List.drop_succ_cons, List.drop_zero]

theorem upIs_head {code : Nat} (head : s.slu.up = m :: rest) (is : m.code = code) : upIs s code = some m := by
  simp only [upIs, head, is, if_true]

/-- An offer to the switch leaves all but its queues and a lane's count of refusals. -/
theorem offerIsland_only (q lane typ : Nat) (data : List Byte) (s : State) :
    ∃ w l, offerIsland q lane typ data s = { s with sw := w, lanes := l } := by
  obtain ⟨w, l, offered, -⟩ := Frame.offerPkt_sr q 56 false { bytes := data.length, lane := lane, typ := typ, data := data } s
  exact ⟨w, l, offered⟩

variable (head : s.slu.up = m :: rest) (good : sluBadForm 0x81 0x83 m = false)
include head good

theorem exec_weightRecord (is : m.code = 0x81) : exec .weightRecord s = .next (settle
    (if m.lane < 8 then offerIsland (cf s 0x1C 0 (64 + 2 * m.lane) 2 0) m.lane 0x12 m.data { s with slu.up := rest }
    else offerIsland (cf s 0x21 0 0 2 0) 255 0 m.data { s with slu.up := rest })) := by
  change execWeightRecord s = _
  unfold execWeightRecord
  rw [cleanUp_good head good]
  dsimp only
  rw [upIs_head head is, popUp_pops head]
  rfl

/-- The core's events for what a status changes (R384). -/
def statusTold (old new : List Byte) (s : State) : State :=
  let s := if fld old 0 1 ≠ fld new 0 1 then raise 0x1501 (fld new 0 1 * 256 + fld new 1 1) s else s
  let s := if bitOf (fld new 2 2) 0 then raise 0x1502 0 s else s
  let s := if bitOf (fld new 2 2) 3 && !bitOf (fld old 2 2) 3 then raise 0x1504 0 s else s
  let s := if fld old 19 1 ≠ fld new 19 1 then raise 0x1505 (fld new 19 1) s else s
  let s := if bitOf (fld new 2 2) 2 && !bitOf (fld old 2 2) 2 then raise 0x1506 0 s else s
  let s := raiseLanes 0x1601 (fld old 18 1 ^^^ fld new 18 1) s
  raiseLanes 0x1602 (fld new 17 1 &&& (255 - fld old 17 1)) s

/-- A pair record kept for the couch, and the status sent to the store. -/
def statusStored (data : List Byte) (s : State) : State :=
  let pair := data.drop 24
  let s := if pair ≠ [] ∧ pair ≠ s.felt.pairRec then
      { s with felt.pairRec := pair, felt.pairStamp := 2 + s.exe.couchTick }
    else s
  offerIsland (cf s 0x1C 0 64 2 0) 255 0x13 data s

theorem exec_legalStatus (is : m.code = 0x82) : exec .legalStatus s = .next (settle (statusStored m.data
    { statusTold s.islView.status (m.data.take 24) { s with slu.up := rest } with islView.status := m.data.take 24 })) := by
  change execLegalStatus s = _
  unfold execLegalStatus
  rw [cleanUp_good head good]
  dsimp only
  rw [upIs_head head is, popUp_pops head]
  rfl

/-- The core keeps a record of an extract, with the events for one that is new. -/
def auditTaken (s : State) (r : List Byte) : State :=
  let known := s.islView.audits.any fun a => a == r
  let s := if known then s else { s with islView.audits := (s.islView.audits ++ [r]).drop (s.islView.audits.length - 1023) }
  let s := if fld r 5 1 = 1 ∧ !known then raise 0x1503 (fld r 0 4) s else s
  if fld r 4 1 = 0x13 ∧ fld r 28 4 = 2 ∧ !known then raise 0x2003 0 s else s

/-- The records of an extract. -/
def extracted (data : List Byte) : List (List Byte) :=
  (List.range (min 2 (fld data 0 1))).map fun i => (data.drop (8 + 48 * i)).take 48

theorem exec_auditExtract (is : m.code = 0x83) :
    exec .auditExtract s = .next (settle ((extracted m.data).foldl auditTaken { s with slu.up := rest })) := by
  change execAuditExtract s = _
  unfold execAuditExtract
  rw [cleanUp_good head good]
  dsimp only
  rw [upIs_head head is, popUp_pops head]
  rfl

end

theorem OnlyNoted.ite {s t : State} {c : Prop} [Decidable c] (h : OnlyNoted s t) : OnlyNoted s (if c then t else s) := by
  split
  · exact h
  · exact .refl s

theorem raiseLanes_noted {code : Nat} (mask : Nat) (s : State) (calm : classOf code ≠ 0x46) :
    OnlyNoted s (raiseLanes code mask s) :=
  .foldl (fun s n => .ite ⟨_, raiseL_calm n n s calm⟩) _ s

theorem statusTold_noted (old new : List Byte) (s : State) : OnlyNoted s (statusTold old new s) := by
  unfold statusTold
  dsimp only
  refine .trans ?_ (raiseLanes_noted _ _ (by decide))
  refine .trans ?_ (raiseLanes_noted _ _ (by decide))
  refine .trans ?_ (.ite (raise_noted _ _ (by decide)))
  refine .trans ?_ (.ite (raise_noted _ _ (by decide)))
  refine .trans ?_ (.ite (raise_noted _ _ (by decide)))
  refine .trans ?_ (.ite (raise_noted _ _ (by decide)))
  exact .ite (raise_noted _ _ (by decide))

/-- A status without a pair record leaves the pair alone. -/
theorem statusStored_only (data : List Byte) (s : State) : ∃ w l felt, statusStored data s =
    { s with sw := w, lanes := l, felt := felt } ∧ (data.length ≤ 24 → felt = s.felt) := by
  unfold statusStored
  dsimp only
  by_cases pair : data.drop 24 ≠ [] ∧ data.drop 24 ≠ s.felt.pairRec
  · rw [if_pos pair]
    obtain ⟨w, l, offered⟩ := offerIsland_only (cf { s with
      felt.pairRec := data.drop 24, felt.pairStamp := 2 + s.exe.couchTick } 0x1C 0 64 2 0) 255 0x13 data
      { s with felt.pairRec := data.drop 24, felt.pairStamp := 2 + s.exe.couchTick }
    exact ⟨w, l, _, offered, fun short => absurd (List.drop_eq_nil_iff.mpr short) pair.1⟩
  · rw [if_neg pair]
    obtain ⟨w, l, offered⟩ := offerIsland_only (cf s 0x1C 0 64 2 0) 255 0x13 data s
    exact ⟨w, l, s.felt, offered, fun _ => rfl⟩

/-- A record taken is held, with those before it, while there is room for it. -/
theorem auditTaken_holds (r : List Byte) {s : State} (room : s.islView.audits.length ≤ 1023) : ∃ ev l, auditTaken s r =
    { s with evt := ev, islView.audits := l } ∧ r ∈ l ∧ (∀ a ∈ s.islView.audits, a ∈ l) ∧
      l.length ≤ s.islView.audits.length + 1 := by
  unfold auditTaken
  dsimp only
  have noted (c d : Prop) [Decidable c] [Decidable d] (a b : Nat) (u : State) : OnlyNoted u
      (if d then raise 0x2003 b (if c then raise 0x1503 a u else u) else if c then raise 0x1503 a u else u) :=
    (OnlyNoted.ite (raise_noted a u (by decide))).trans (.ite (raise_noted b _ (by decide)))
  cases known : s.islView.audits.any fun a => a == r with
  | true =>
    obtain ⟨a, held, same⟩ := List.any_eq_true.mp known
    obtain ⟨ev, told⟩ := noted (fld r 5 1 = 1 ∧ (!true) = true) (fld r 4 1 = 0x13 ∧ fld r 28 4 = 2 ∧ (!true) = true)
      (fld r 0 4) 0 s
    rw [beq_iff_eq] at same
    exact ⟨ev, s.islView.audits, told, same ▸ held, fun _ h => h, Nat.le_succ _⟩
  | false =>
    have whole : (s.islView.audits ++ [r]).drop (s.islView.audits.length - 1023) = s.islView.audits ++ [r] := by
      rw [Nat.sub_eq_zero_of_le room, List.drop_zero]
    obtain ⟨ev, told⟩ := noted (fld r 5 1 = 1 ∧ (!false) = true) (fld r 4 1 = 0x13 ∧ fld r 28 4 = 2 ∧ (!false) = true)
      (fld r 0 4) 0 { s with islView.audits := s.islView.audits ++ [r] }
    refine ⟨ev, s.islView.audits ++ [r], ?_, by simp, fun a held => List.mem_append_left _ held, by simp⟩
    rw [whole]
    exact told

theorem auditTaken_all (l : List (List Byte)) {s : State} (room : s.islView.audits.length + l.length ≤ 1024) : ∃ ev audits,
    l.foldl auditTaken s = { s with evt := ev, islView.audits := audits } ∧ (∀ r ∈ l, r ∈ audits) ∧
      ∀ a ∈ s.islView.audits, a ∈ audits := by
  induction l generalizing s with
  | nil => exact ⟨s.evt, s.islView.audits, rfl, fun _ h => absurd h List.not_mem_nil, fun _ h => h⟩
  | cons r l ih =>
    rw [List.length_cons] at room
    obtain ⟨ev, held, step, isHeld, before, length⟩ := auditTaken_holds r (s := s) (by omega)
    obtain ⟨ev', audits, rest, all, kept⟩ := ih (s := auditTaken s r) (by rw [step]; dsimp only; omega)
    rw [step] at rest kept
    refine ⟨ev', audits, by rw [List.foldl_cons, step, rest], fun q mem => ?_, fun a mem => kept a (before a mem)⟩
    rcases List.mem_cons.mp mem with rfl | later
    · exact kept q isHeld
    · exact all q later

section
variable {s : State} {m : SluMsg} {rest : List SluMsg} (head : s.slu.up = m :: rest) (good : sluBadForm 0x81 0x83 m = false)
include head good

theorem legalStatus_keeps (is : m.code = 0x82) : ∃ t, exec .legalStatus s = .next t ∧ t.islView.status = m.data.take 24 ∧
    t.slu.up = rest ∧ t.isl = s.isl ∧ t.md = s.md ∧ (m.data.length ≤ 24 → t.felt = s.felt) := by
  refine ⟨_, exec_legalStatus head good is, ?_⟩
  obtain ⟨ev, told⟩ := statusTold_noted s.islView.status (m.data.take 24) { s with slu.up := rest }
  rw [told]
  obtain ⟨w, l, felt, stored, pairless⟩ := statusStored_only m.data { s with
    slu.up := rest, evt := ev, islView.status := m.data.take 24 }
  rw [settle_islView, settle_slu, settle_isl, settle_md, settle_felt, stored]
  exact ⟨rfl, rfl, rfl, rfl, pairless⟩

theorem auditExtract_keeps (is : m.code = 0x83) (room : s.islView.audits.length ≤ 1022) :
    ∃ t, exec .auditExtract s = .next t ∧
    t.slu.up = rest ∧ t.isl = s.isl ∧
    ∀ i, i < min 2 (fld m.data 0 1) → (m.data.drop (8 + 48 * i)).take 48 ∈ t.islView.audits := by
  refine ⟨_, exec_auditExtract head good is, ?_⟩
  have few : (extracted m.data).length ≤ 2 := by
    rw [extracted, List.length_map, List.length_range]
    exact Nat.min_le_left _ _
  obtain ⟨ev, audits, taken, all, -⟩ := auditTaken_all (extracted m.data) (s := { s with slu.up := rest })
    (by dsimp only; omega)
  rw [settle_slu, settle_isl, settle_islView, taken]
  exact ⟨rfl, rfl, fun i inside => all _ (List.mem_map.mpr ⟨i, List.mem_range.mpr inside, rfl⟩)⟩

end

/-! ## The end of a bag-check (R383) -/

section
variable {s : State} {n : Fin 8} {r : BagReq}

/-- The bag-check of lane `n` has run for longer than its timeout. -/
def BagLate (s : State) (n : Nat) (r : BagReq) : Prop := 1000 * bagF s n 4 2 3000 < (s.clk.tick - r.start) * tickUs s.clk.tickSel

theorem bagTimeout_idle (none : (bagOf s n).req = none) : exec (.bagTimeout n) s = .next (settle s) := by
  change execBagTimeout n s = _
  unfold execBagTimeout
  dsimp only
  rw [none]
  rfl

theorem bagTimeout_early (pending : (bagOf s n).req = some r) (early : ¬ BagLate s n r) :
    exec (.bagTimeout n) s = .next (settle s) := by
  change execBagTimeout n s = _
  unfold execBagTimeout
  dsimp only
  rw [pending]
  exact congrArg ok (if_pos (Nat.not_lt.mp early))

theorem bagTimeout_unsettled (pending : (bagOf s n).req = some r) (late : BagLate s n r) (moving : bagSettled (bagOf s n) = none) :
    exec (.bagTimeout n) s = .next (settle (bagAnswer n r 2 (Config.freeInt s.free)
      (modBag n (fun b => { b with req := none }) { s with free := s.free + 1 }))) := by
  change execBagTimeout n s = _
  unfold execBagTimeout
  dsimp only
  rw [pending]
  dsimp only
  rw [if_neg (Nat.not_le.mpr late), moving]
  dsimp only
  rw [bagGiveUp, drawInt]
  dsimp only
  rw [bagEnd, show (bagOf { s with free := s.free + 1 } n).req = some r from pending]
  rfl

theorem bagTimeout_settled {v : Rat} (pending : (bagOf s n).req = some r) (late : BagLate s n r)
    (still : bagSettled (bagOf s n) = some v) : exec (.bagTimeout n) s = .next (settle (bagAnswer n r
      (bagCompare s n r (v - r.base)) (roundAway (v - r.base)) (modBag n (fun b => { b with req := none }) s))) := by
  change execBagTimeout n s = _
  unfold execBagTimeout
  dsimp only
  rw [pending]
  dsimp only
  rw [if_neg (Nat.not_le.mpr late), still]
  dsimp only
  rw [bagEnd, pending]
  rfl

end

/-! ## The statement -/

theorem telegram_accepts {s : State} {p : Fin 8} {raw fr : List Byte} {off : Fin 21} {n : Nat} {alive : Option Nat} {v : Int}
    {b : Byte} {bs : List Byte} (on : s.isl.st ≠ .off)
    (found : ((List.range 8).find? fun n => lp s n 0 == 0x11 + (p.val : Int)) = some n)
    (plain : telPlain (scaleDialect s n) raw = some fr)
    (passes : telChecks (unitOf s p) (scaleDialect s n) (islLane s n).alive fr = some alive)
    (mapped : telMatch (scaleDialect s n) fr = true)
    (value : (telField (scaleDialect s n) 0 (fr.length - fld (scaleDialect s n) 22 1 - ceilDiv (fld (unitOf s p) 0 1) 8) fr).bind
      (telValue (scaleDialect s n)) = some v)
    (status : telField (scaleDialect s n) 1 (fr.length - fld (scaleDialect s n) 22 1 - ceilDiv (fld (unitOf s p) 0 1) 8) fr =
      some (b :: bs)) (low : -maxTop s n ≤ v) (high : v ≤ 2 * maxTop s n) :
    ∃ t, exec (.telegram p raw off) s = .next t ∧ islLane t n = acceptedLane (islLane s n) alive v (s.isl.ms + off.val)
      ((b.toNat &&& fld (scaleDialect s n) 78 1) == fld (scaleDialect s n) 79 1) (islLane t n).lsSent := by
  refine ⟨_, exec_telegram on found, ?_⟩
  obtain ⟨sent, lane⟩ := telTaken_accepts (off := off) mapped value status low high
  rw [telegramOf_checked plain passes, islLane, settle_isl, ← islLane, lane]
  rfl

/-- Settles O60: the record instant, what a lane shows, telegrams, requests and their results, the end of a wait, the core's
side, and the end of a bag-check. -/
theorem islandWeighing : Obligations.IslandWeighing := by
  unfold Obligations.IslandWeighing
  intro s
  refine ⟨fun x on young near => recordInstant_takes on young near, fun n x => ?_, fun p raw off n on found => ?_,
    fun m rest off code c named head st good => ?_, fun n x r => ?_, fun n r rest first st oper kind come => ?_,
    fun m rest head good => ?_, fun n => ?_⟩
  · exact ⟨weigh_bad, weigh_multiple, weigh_tare, weigh_priced⟩
  · intro d ic l
    refine ⟨fun broken => ?_, fun fr plain fails => ?_, fun fr alive plain passes other => ?_,
      fun fr alive v b bs plain passes mapped => ?_⟩
    · rw [exec_telegram on found, telegramOf_broken broken]
    · rw [exec_telegram on found, telegramOf_unchecked plain fails]
    · rw [exec_telegram on found, telegramOf_checked plain passes, telTaken_unmatched other]
    · exact telegram_accepts on found plain passes mapped
  · obtain ⟨runs, request⟩ := exec_request s named
    refine ⟨fun is oper lane => ?_, fun is idle => ?_, fun other => ?_⟩
    · rw [runs, takeCode_queues head st good is request oper lane]
      rfl
    · rw [runs, takeCode_drops head st good is request idle]
    · rw [runs, takeCode_other head st good other]
  · refine ⟨requestResult_price, fun code data valid positive within above most => ?_, requestResult_clears,
      fun code data tareless within above zone still => requestResult_zero code data tareless within above zone still,
      requestResult_tared⟩
    have result := requestResult_tare code data valid positive within above most
    refine ⟨fun still => ?_, fun moving early => ?_, fun moving late => ?_⟩
    · rw [result, if_pos still]
      rfl
    · rw [result, if_neg (by simp [moving]), waits_early early]
    · rw [result, if_neg (by simp [moving]), waits_late late]
  · have runs := exec_stabilityWaitEnd first st oper kind come
    exact ⟨fun due => by rw [runs, if_pos due], fun early => by rw [runs, if_neg (Nat.not_lt.mpr early)]⟩
  · exact ⟨fun is lane => by rw [exec_weightRecord head good is, if_pos lane],
      fun is lane => by rw [exec_weightRecord head good is, if_neg (Nat.not_lt.mpr lane)],
      legalStatus_keeps head good, auditExtract_keeps head good⟩
  · exact ⟨bagTimeout_idle, fun r pending => ⟨bagTimeout_early pending, bagTimeout_unsettled pending,
      fun v => bagTimeout_settled pending⟩⟩

end Sys2Proof.Machine
end
